-- ==== Sys2Proof/Word.lean ====
section
/-! DEFINITION. The words of the KW-1 (R2, spec/00; R11, spec/01). -/

namespace Sys2Proof

/-- A 32-bit slot of a bundle (R7). -/
abbrev Slot := BitVec 32
/-- A byte. -/
abbrev Byte := BitVec 8
/-- A 32-bit word: a lane of the 128-lane view, a cell of a transposer tile. -/
abbrev Word := BitVec 32
/-- A scalar register (R11). -/
abbrev SReg := BitVec 64
/-- A mask register (R11). -/
abbrev Mask := BitVec 256
/-- A row: a vector register of 512 bytes (R12). -/
abbrev Row := BitVec 4096

/-- A finite table by key, keys strictly rising. -/
abbrev Table (α : Type) := List (Nat × α)

end Sys2Proof
end

