-- ==== Sys2Proof/Syntax.lean ====
section
/-! DEFINITION. The instructions and steps of the KW-1, one constructor for every row of the opcode table.
A slot constructor carries the fields of its encoding (R36 to R59, spec/02); the STOP bit belongs to the bundle and is
not a field here. A step without an encoding (spec/95) carries what its agent or the outside world brings to it. -/

namespace Sys2Proof

/-- The state of a tensor channel that a fill brings (R317, R457). -/
structure FillChannel where
  chan : Nat
  w : Nat
  sent : Nat
  consumed : Nat
  deposited : Nat
  seq : Nat
  rbase : Nat
deriving DecidableEq, Repr

/-- What a chunk of a spare's fill holds (R454, R457): the device it comes from, the class of its job, the source's PHASE; bytes by physical
base; model slots as slot, partition, base of the data section and image; weights as slot, version index and bytes, the last of a slot's
being CUR; channels. -/
structure FillPart where
  source : Nat := 0
  elastic : Bool := false
  phase : Nat := 0
  bytes : List (Nat × List (BitVec 8)) := []
  slots : List (Nat × Nat × Nat × List (BitVec 8)) := []
  weights : List (Nat × Nat × List (BitVec 8)) := []
  channels : List FillChannel := []
deriving DecidableEq, Repr

/-- An address in a BAR of the device, by the number of the BAR (R399, R462). -/
structure BarAddress where
  bar : Nat
  offset : Nat
deriving DecidableEq, Repr

/-- What shows that a device has failed: the port towards it, and whether the device has reported a fatal fault (R440, R456). -/
structure FailureSign where
  port : Nat
  fatal : Bool
deriving DecidableEq, Repr

/-- The rows of spec/opcode_table.json. -/
inductive Instr where
  /-- `PFX` (R24). Prefix slot sets the rounding mode, saturation, mask register and strict sources for its own bundle only. -/
  | pfx (rm : BitVec 3) (sat : BitVec 1) (mask : BitVec 4) (strict : BitVec 16)
  /-- `EXT` (R43). Immediate extension slot supplies 25 payload bits above the extendable field of the slot that follows it. -/
  | ext (pay : BitVec 25)
  /-- `ADD` (R106). Writes a + b, or the 32-bit sum sign-extended when MOD is set. -/
  | add (rd ra rb : BitVec 6) (mod : BitVec 1)
  /-- `SUB` (R106). Writes a - b, wrapping, with an optional 32-bit form. -/
  | sub (rd ra rb : BitVec 6) (mod : BitVec 1)
  /-- `ADDI` (R106). Writes a plus the sign-extended immediate. -/
  | addi (rd ra : BitVec 6) (imm : BitVec 8)
  /-- `ADDSH` (R106). Writes a + (b << 3), or a + (b << 9) when MOD is set. -/
  | addsh (rd ra rb : BitVec 6) (mod : BitVec 1)
  /-- `MUL` (R106). Writes the low half of a × b. -/
  | mul (rd ra rb : BitVec 6) (mod : BitVec 1)
  /-- `MULH` (R106). Writes bits 127:64 of the signed, or unsigned, product. -/
  | mulh (rd ra rb : BitVec 6) (mod : BitVec 1)
  /-- `DIV` (R107). Signed division truncating toward zero; never traps. -/
  | div (rd ra rb : BitVec 6) (mod : BitVec 1)
  /-- `DIVU` (R107). Unsigned division; division by zero gives all ones. -/
  | divu (rd ra rb : BitVec 6) (mod : BitVec 1)
  /-- `REM` (R107). Signed remainder with the sign of the dividend; never traps. -/
  | rem (rd ra rb : BitVec 6) (mod : BitVec 1)
  /-- `AND` (R106). Bitwise and of a and b. -/
  | and (rd ra rb : BitVec 6)
  /-- `OR` (R106). Bitwise or of a and b. -/
  | or (rd ra rb : BitVec 6)
  /-- `XOR` (R106). Bitwise exclusive or of a and b. -/
  | xor (rd ra rb : BitVec 6)
  /-- `ANDN` (R106). Writes a and not b. -/
  | andn (rd ra rb : BitVec 6)
  /-- `SHL` (R106). Shifts a left by b[5:0], or b[4:0] in the 32-bit form. -/
  | shl (rd ra rb : BitVec 6) (mod : BitVec 1)
  /-- `SHR` (R106). Logical right shift of a by b. -/
  | shr (rd ra rb : BitVec 6) (mod : BitVec 1)
  /-- `SAR` (R106). Arithmetic right shift of a by b. -/
  | sar (rd ra rb : BitVec 6) (mod : BitVec 1)
  /-- `SHLI` (R106). Shifts a left by an immediate amount. -/
  | shli (rd ra imm : BitVec 6)
  /-- `SHRI` (R106). Logical right shift of a by an immediate amount. -/
  | shri (rd ra imm : BitVec 6)
  /-- `SARI` (R106). Arithmetic right shift of a by an immediate amount. -/
  | sari (rd ra imm : BitVec 6)
  /-- `CLZ` (R106). Counts leading zero bits of a. -/
  | clz (rd ra : BitVec 6) (mod : BitVec 1)
  /-- `POPC` (R106). Counts one bits of a. -/
  | popc (rd ra : BitVec 6) (mod : BitVec 1)
  /-- `BEXT` (R108). Extracts the bit field of a described by b, zero-extended. -/
  | bext (rd ra rb : BitVec 6)
  /-- `BINS` (R108). Inserts a into the bit field of d described by b. -/
  | bins (rd ra rb : BitVec 6)
  /-- `MIN` (R106). Signed minimum of a and b. -/
  | min (rd ra rb : BitVec 6) (mod : BitVec 1)
  /-- `MAX` (R106). Signed maximum of a and b. -/
  | max (rd ra rb : BitVec 6) (mod : BitVec 1)
  /-- `MINU` (R106). Unsigned minimum of a and b. -/
  | minu (rd ra rb : BitVec 6) (mod : BitVec 1)
  /-- `MAXU` (R106). Unsigned maximum of a and b. -/
  | maxu (rd ra rb : BitVec 6) (mod : BitVec 1)
  /-- `SEQ` (R110). Writes 1 when a equals b, else 0. -/
  | seq (rd ra rb : BitVec 6) (mod : BitVec 1)
  /-- `SNE` (R110). Writes 1 when a differs from b, else 0. -/
  | sne (rd ra rb : BitVec 6) (mod : BitVec 1)
  /-- `SLT` (R110). Writes 1 when a < b signed. -/
  | slt (rd ra rb : BitVec 6) (mod : BitVec 1)
  /-- `SLTU` (R110). Writes 1 when a < b unsigned. -/
  | sltu (rd ra rb : BitVec 6) (mod : BitVec 1)
  /-- `SLE` (R110). Writes 1 when a <= b signed. -/
  | sle (rd ra rb : BitVec 6) (mod : BitVec 1)
  /-- `SLEU` (R110). Writes 1 when a <= b unsigned. -/
  | sleu (rd ra rb : BitVec 6) (mod : BitVec 1)
  /-- `SEL` (R110). Writes a if the old destination is non-zero, else b. -/
  | sel (rd ra rb : BitVec 6)
  /-- `MOVI` (R109). Writes the sign-extended combined immediate. -/
  | movi (rd : BitVec 6) (imm : BitVec 14)
  /-- `MOVHI` (R109). Writes IMM14 into bits 63:50 of the destination, keeping bits 49:0. -/
  | movhi (rd : BitVec 6) (imm : BitVec 14)
  /-- `FADD` (R111). FP32 addition rounded RNE. -/
  | fadd (rd ra rb : BitVec 6)
  /-- `FSUB` (R111). FP32 subtraction rounded RNE. -/
  | fsub (rd ra rb : BitVec 6)
  /-- `FMUL` (R111). FP32 multiplication rounded RNE. -/
  | fmul (rd ra rb : BitVec 6)
  /-- `FFMA` (R111). FP32 fused multiply-add a × b + d with one rounding. -/
  | ffma (rd ra rb : BitVec 6)
  /-- `FDIV` (R111). FP32 division rounded RNE. -/
  | fdiv (rd ra rb : BitVec 6)
  /-- `FSQRT` (R111). FP32 square root rounded RNE. -/
  | fsqrt (rd ra : BitVec 6)
  /-- `FMIN` (R111). FP32 minimum, -0 below +0, NaN canonical. -/
  | fmin (rd ra rb : BitVec 6)
  /-- `FMAX` (R111). FP32 maximum, NaN canonical. -/
  | fmax (rd ra rb : BitVec 6)
  /-- `FEQ` (R111). Writes 1 when the FP32 values are equal. -/
  | feq (rd ra rb : BitVec 6)
  /-- `FLT` (R111). Writes 1 when a < b as FP32. -/
  | flt (rd ra rb : BitVec 6)
  /-- `FLE` (R111). Writes 1 when a <= b as FP32. -/
  | fle (rd ra rb : BitVec 6)
  /-- `FCVTI` (R112). Converts FP32 to a 64-bit integer under the bundle's RM and SAT. -/
  | fcvti (rd ra : BitVec 6) (mod : BitVec 1)
  /-- `FCVTF` (R112). Converts a 64-bit integer to FP32 under RM. -/
  | fcvtf (rd ra : BitVec 6) (mod : BitVec 1)
  /-- `BRZ` (R114). Branches when all bits of a are zero. -/
  | brz (hint : BitVec 1) (ra : BitVec 6) (off : BitVec 15)
  /-- `BRNZ` (R114). Branches when a is not zero. -/
  | brnz (hint : BitVec 1) (ra : BitVec 6) (off : BitVec 15)
  /-- `BRKT` (R115). Branches when a mask is all set over the active lanes; traps if mixed. -/
  | brkt (hint : BitVec 1) (rk : BitVec 4) (off : BitVec 15)
  /-- `BRKF` (R115). Branches when a mask is all clear over the active lanes; traps if mixed. -/
  | brkf (hint : BitVec 1) (rk : BitVec 4) (off : BitVec 15)
  /-- `JMP` (R116). Jumps to the bundle at a fixed word offset. -/
  | jmp (off : BitVec 21)
  /-- `JMPI` (R116). Jumps to the code address in a register. -/
  | jmpi (ra : BitVec 6)
  /-- `CALL` (R116). Writes the return address into D and jumps to the offset. -/
  | call (rd : BitVec 6) (off : BitVec 15)
  /-- `RET` (R116). Returns to the code address in a register. -/
  | ret (ra : BitVec 6)
  /-- `LOOP` (R117). Pushes a hardware loop entry with a count from a register. -/
  | loop (ra : BitVec 6) (endw : BitVec 13)
  /-- `LOOPI` (R117). Pushes a hardware loop entry with an immediate count. -/
  | loopi (cnt : BitVec 9) (endw : BitVec 13)
  /-- `LSET` (R120). Writes the count, index, start or end of a loop-stack entry. -/
  | lset (lvl : BitVec 3) (fld : BitVec 2) (ra : BitVec 6)
  /-- `LIDX` (R121). Reads the index of a loop-stack entry. -/
  | lidx (rd : BitVec 6) (lvl : BitVec 3)
  /-- `LBRK` (R122). Pops loop entries up to a level and leaves past its end bundle. -/
  | lbrk (lvl : BitVec 3)
  /-- `WAITC` (R124). Holds issue for a count of clk. -/
  | waitc (cnt : BitVec 21)
  /-- `TRAP` (R125). Raises the issue trap TRAP with a 16-bit code. -/
  | trap (code : BitVec 16)
  /-- `HALT` (R126). Stops the sequencer; the core then waits for its queues before reporting. -/
  | halt
  /-- `VADD` (R137). Lane-wise floating addition. -/
  | vadd (rd ra rb : BitVec 7)
  /-- `VSUB` (R137). Lane-wise floating subtraction. -/
  | vsub (rd ra rb : BitVec 7)
  /-- `VMUL` (R137). Lane-wise floating multiplication. -/
  | vmul (rd ra rb : BitVec 7)
  /-- `VFMA` (R137). Lane-wise a × b + d with one rounding. -/
  | vfma (rd ra rb : BitVec 7)
  /-- `VFMS` (R137). Lane-wise d - a × b with one rounding. -/
  | vfms (rd ra rb : BitVec 7)
  /-- `VMIN` (R137). Lane-wise floating minimum. -/
  | vmin (rd ra rb : BitVec 7)
  /-- `VMAX` (R137). Lane-wise floating maximum. -/
  | vmax (rd ra rb : BitVec 7)
  /-- `VABS` (R137). Clears the sign of each lane. -/
  | vabs (rd ra : BitVec 7)
  /-- `VNEG` (R137). Inverts the sign of each lane. -/
  | vneg (rd ra : BitVec 7)
  /-- `VEQ` (R138). Lane-wise floating equality into a mask. -/
  | veq (rd : BitVec 4) (ra rb : BitVec 7)
  /-- `VNE` (R138). Lane-wise floating inequality into a mask. -/
  | vne (rd : BitVec 4) (ra rb : BitVec 7)
  /-- `VLT` (R138). Lane-wise floating less-than into a mask. -/
  | vlt (rd : BitVec 4) (ra rb : BitVec 7)
  /-- `VLE` (R138). Lane-wise floating less-or-equal into a mask. -/
  | vle (rd : BitVec 4) (ra rb : BitVec 7)
  /-- `VSEL` (R141). Selects a or b per lane by the bundle mask. -/
  | vsel (rd ra rb : BitVec 7)
  /-- `VAND` (R140). Lane-wise bitwise and. -/
  | vand (rd ra rb : BitVec 7)
  /-- `VOR` (R140). Lane-wise bitwise or. -/
  | vor (rd ra rb : BitVec 7)
  /-- `VXOR` (R140). Lane-wise bitwise exclusive or. -/
  | vxor (rd ra rb : BitVec 7)
  /-- `VIADD` (R140). Lane-wise wrapping integer addition. -/
  | viadd (rd ra rb : BitVec 7)
  /-- `VISUB` (R140). Lane-wise wrapping integer subtraction. -/
  | visub (rd ra rb : BitVec 7)
  /-- `VIMUL` (R140). Lane-wise low half of the integer product. -/
  | vimul (rd ra rb : BitVec 7)
  /-- `VIMIN` (R140). Lane-wise signed integer minimum. -/
  | vimin (rd ra rb : BitVec 7)
  /-- `VIMAX` (R140). Lane-wise signed integer maximum. -/
  | vimax (rd ra rb : BitVec 7)
  /-- `VSHL` (R140). Lane-wise left shift. -/
  | vshl (rd ra rb : BitVec 7)
  /-- `VSHR` (R140). Lane-wise logical right shift. -/
  | vshr (rd ra rb : BitVec 7)
  /-- `VSAR` (R140). Lane-wise arithmetic right shift. -/
  | vsar (rd ra rb : BitVec 7)
  /-- `VRCP` (R139). Correctly rounded reciprocal of each lane. -/
  | vrcp (rd ra : BitVec 7)
  /-- `VRSQ` (R139). Correctly rounded reciprocal square root of each lane. -/
  | vrsq (rd ra : BitVec 7)
  /-- `VSQRT` (R139). Correctly rounded square root of each lane. -/
  | vsqrt (rd ra : BitVec 7)
  /-- `VEXP2` (R139). Correctly rounded 2 to the power of each lane. -/
  | vexp2 (rd ra : BitVec 7)
  /-- `VLOG2` (R139). Correctly rounded base-2 logarithm of each lane. -/
  | vlog2 (rd ra : BitVec 7)
  /-- `VTANH` (R139). Correctly rounded tanh of each lane. -/
  | vtanh (rd ra : BitVec 7)
  /-- `VSIGM` (R139). Correctly rounded logistic sigmoid of each lane. -/
  | vsigm (rd ra : BitVec 7)
  /-- `VRSUM` (R143). Sums the lanes over the fixed tree into a scalar. -/
  | vrsum (rd : BitVec 6) (ra : BitVec 7)
  /-- `VRMAX` (R143). Maximum of the lanes over the fixed tree. -/
  | vrmax (rd : BitVec 6) (ra : BitVec 7)
  /-- `VRAMAX` (R143). Largest magnitude of the lanes over the fixed tree. -/
  | vramax (rd : BitVec 6) (ra : BitVec 7)
  /-- `VBCAST` (R142). Broadcasts a scalar into every lane. -/
  | vbcast (rd : BitVec 7) (ra : BitVec 6)
  /-- `VEXTR` (R142). Extracts one lane into a scalar register. -/
  | vextr (rd : BitVec 6) (ra : BitVec 7) (rb : BitVec 6)
  /-- `VINS` (R142). Inserts a scalar into one lane. -/
  | vins (rd : BitVec 7) (ra rb : BitVec 6)
  /-- `VPERM` (R142). Permutes lanes by an index vector. -/
  | vperm (rd ra rb : BitVec 7)
  /-- `VSLIDE` (R142). Slides lanes by a signed amount, filling with zero. -/
  | vslide (rd ra : BitVec 7) (rb : BitVec 6)
  /-- `VMOV` (R142). Copies the lanes of a vector register. -/
  | vmov (rd ra : BitVec 7)
  /-- `VIOTA` (R140). Writes each lane's index. -/
  | viota (rd : BitVec 7)
  /-- `VRAND` (R144). Draws random lanes from a generator and advances its counter. -/
  | vrand (rd : BitVec 7) (ra : BitVec 2)
  /-- `KAND` (R145). Mask and under the bundle mask. -/
  | kand (rd ra rb : BitVec 4)
  /-- `KOR` (R145). Mask or under the bundle mask. -/
  | kor (rd ra rb : BitVec 4)
  /-- `KXOR` (R145). Mask exclusive or under the bundle mask. -/
  | kxor (rd ra rb : BitVec 4)
  /-- `KNOT` (R145). Mask inversion under the bundle mask. -/
  | knot (rd ra : BitVec 4)
  /-- `KPOP` (R145). Counts set mask bits within the bundle mask. -/
  | kpop (rd : BitVec 6) (ra : BitVec 4)
  /-- `VCVTN` (R147). Cards and narrows a 128-element block to the format in the opcode, writing a valid side word. -/
  | vcvtn (fmt : BitVec 2) (rd ra : BitVec 7) (noRot : BitVec 1) (seed : BitVec 4)
  /-- `VCVTNS` (R148). Narrows a block with seed, NOROT and scale from a control word. -/
  | vcvtns (fmt : BitVec 2) (rd ra : BitVec 7) (rb : BitVec 6)
  /-- `VCVTW` (R150). Widens a narrow block to FP32 with the inverse rotation. -/
  | vcvtw (rd ra : BitVec 7)
  /-- `VCVTI` (R151). Converts float lanes to integer lanes under RM and SAT. -/
  | vcvti (rd ra : BitVec 7) (uns : BitVec 1)
  /-- `VCVTF` (R151). Converts integer lanes to float lanes under RM. -/
  | vcvtf (rd ra : BitVec 7) (uns : BitVec 1)
  /-- `VQSCALE_E4M3` (R149). Computes the E4M3 block scale as a VCVTNS control word. -/
  | vqscaleE4m3 (rd : BitVec 6) (ra : BitVec 7) (noRot : BitVec 1) (seed : BitVec 4)
  /-- `VQSCALE_E5M2` (R149). Computes the E5M2 block scale as a control word. -/
  | vqscaleE5m2 (rd : BitVec 6) (ra : BitVec 7) (noRot : BitVec 1) (seed : BitVec 4)
  /-- `VQSCALE_BF16` (R149). Computes the BF16 block scale as a control word. -/
  | vqscaleBf16 (rd : BitVec 6) (ra : BitVec 7) (noRot : BitVec 1) (seed : BitVec 4)
  /-- `VQSCALE_INT8` (R149). Computes the INT8 block scale as a control word. -/
  | vqscaleInt8 (rd : BitVec 6) (ra : BitVec 7) (noRot : BitVec 1) (seed : BitVec 4)
  /-- `VSIDE` (R152). Reads a vector register's side word into a scalar. -/
  | vside (rd : BitVec 6) (ra : BitVec 7)
  /-- `VSIDEW` (R153). Writes a vector register's side word from a scalar. -/
  | vsidew (rd : BitVec 7) (rb : BitVec 6)
  /-- `TTWR` (R155). Writes one row of a transposer tile from a vector register. -/
  | ttwr (tile : BitVec 1) (ra : BitVec 7) (rb : BitVec 6)
  /-- `TTRDC` (R156). Reads one raw 32-bit column of a transposer tile. -/
  | ttrdc (rd : BitVec 7) (tile : BitVec 1) (ra : BitVec 6)
  /-- `TTRDC_E4M3` (R157). Reads a tile column and cards it to E4M3 with AXIS 0. -/
  | ttrdcE4m3 (rd : BitVec 7) (tile : BitVec 1) (ra : BitVec 6) (noRot : BitVec 1) (seed : BitVec 4)
  /-- `TTRDC_E5M2` (R157). Reads a tile column and cards it to E5M2. -/
  | ttrdcE5m2 (rd : BitVec 7) (tile : BitVec 1) (ra : BitVec 6) (noRot : BitVec 1) (seed : BitVec 4)
  /-- `TTRDC_BF16` (R157). Reads a tile column and cards it to BF16. -/
  | ttrdcBf16 (rd : BitVec 7) (tile : BitVec 1) (ra : BitVec 6) (noRot : BitVec 1) (seed : BitVec 4)
  /-- `TTRDC_INT8` (R157). Reads a tile column and cards it to INT8. -/
  | ttrdcInt8 (rd : BitVec 7) (tile : BitVec 1) (ra : BitVec 6) (noRot : BitVec 1) (seed : BitVec 4)
  /-- `TTCLR` (R155). Sets every cell of a transposer tile to zero. -/
  | ttclr (tile : BitVec 1)
  /-- `FPUSHA` (R158). Pushes one entry into an engine's A FIFO, narrowing wide lanes under MCFG. -/
  | fpusha (fifo : BitVec 1) (ra : BitVec 7)
  /-- `FPUSHB` (R158). Pushes one B-column entry into an engine's B FIFO. -/
  | fpushb (fifo : BitVec 1) (ra : BitVec 7)
  /-- `MCFG_0` (R166). Configures matrix engine 0, checking reserved bits, legal pairs and quiescence. -/
  | mcfg0 (ra : BitVec 6)
  /-- `MCFG_1` (R166). Configures matrix engine 1. -/
  | mcfg1 (ra : BitVec 6)
  /-- `MDRAIN_0` (R167). Empties engine 0's FIFOs, weight buffers, load and skip count. -/
  | mdrain0
  /-- `MDRAIN_1` (R167). Empties engine 1's FIFOs, weight buffers, load and skip count. -/
  | mdrain1
  /-- `MLDB_0` (R168). Pops 128 B entries of engine 0 into a weight buffer. -/
  | mldb0 (wb : BitVec 1)
  /-- `MLDB_1` (R168). Pops 128 B entries of engine 1 into a weight buffer. -/
  | mldb1 (wb : BitVec 1)
  /-- `MMA_0` (R170). Multiplies n A rows by engine 0's weight tile into accumulator rows. -/
  | mma0 (nm1 row0 : BitVec 6) (ovw scl wb : BitVec 1)
  /-- `MMA_1` (R170). Multiplies n A rows by engine 1's weight tile. -/
  | mma1 (nm1 row0 : BitVec 6) (ovw scl wb : BitVec 1)
  /-- `MZERO_0` (R175). Zeroes accumulator rows of engine 0. -/
  | mzero0 (nm1 row0 : BitVec 6)
  /-- `MZERO_1` (R175). Zeroes accumulator rows of engine 1. -/
  | mzero1 (nm1 row0 : BitVec 6)
  /-- `MSKIPA_0` (R176). Adds n to engine 0's skip count, discarding A entries. -/
  | mskipa0 (nm1 : BitVec 6)
  /-- `MSKIPA_1` (R176). Adds n to engine 1's skip count. -/
  | mskipa1 (nm1 : BitVec 6)
  /-- `MSTAT_0` (R177). Reads engine 0's status word. -/
  | mstat0 (rd : BitVec 6)
  /-- `MSTAT_1` (R177). Reads engine 1's status word. -/
  | mstat1 (rd : BitVec 6)
  /-- `LDS` (R128). Scalar scratchpad load of 1 to 16 bytes, fixed latency 6. -/
  | lds (size : BitVec 3) (rd base : BitVec 6) (off : BitVec 8)
  /-- `LDSV` (R129). Loads a 512-byte row from the scratchpad into a vector register. -/
  | ldsv (rd : BitVec 7) (base : BitVec 6) (off : BitVec 8)
  /-- `LDSK` (R130). Loads 16 bytes into one half of a mask register. -/
  | ldsk (hi : BitVec 1) (rk : BitVec 4) (base : BitVec 6) (off : BitVec 8)
  /-- `LDSX` (R291). Loads and expands one sparse block from the scratchpad. -/
  | ldsx (rd : BitVec 7) (base : BitVec 6) (off : BitVec 8)
  /-- `LDC` (R287). Scalar cluster-memory load; destination marked empty until performed. -/
  | ldc (size : BitVec 3) (rd base : BitVec 6) (off : BitVec 8)
  /-- `LDCV` (R289). Loads a 512-byte row from cluster memory. -/
  | ldcv (rd : BitVec 7) (base : BitVec 6) (off : BitVec 8)
  /-- `LDG` (R287). Scalar global load; destination marked empty until performed. -/
  | ldg (size : BitVec 3) (rd base : BitVec 6) (off : BitVec 8)
  /-- `LDGV` (R289). Loads a 512-byte row from global memory. -/
  | ldgv (rd : BitVec 7) (base : BitVec 6) (off : BitVec 8)
  /-- `LDGX` (R291). Loads and expands one sparse block from global memory. -/
  | ldgx (rd : BitVec 7) (base : BitVec 6) (off : BitVec 8)
  /-- `PREF` (R290). Hint that may fetch a line into the slice or remote-data cache. -/
  | pref (base : BitVec 6) (off : BitVec 8)
  /-- `STS` (R128). Scalar scratchpad store written in its issue clk. -/
  | sts (size : BitVec 3) (rd base : BitVec 6) (off : BitVec 8)
  /-- `STSV` (R129). Stores a vector register's 512 bytes to the scratchpad. -/
  | stsv (rd : BitVec 7) (base : BitVec 6) (off : BitVec 8)
  /-- `STSK` (R130). Stores one half of a mask register as 16 bytes. -/
  | stsk (hi : BitVec 1) (rk : BitVec 4) (base : BitVec 6) (off : BitVec 8)
  /-- `STSX` (R292). Appends one sparse block to a scratchpad tensor described by a header. -/
  | stsx (rd : BitVec 7) (base : BitVec 6) (off : BitVec 8)
  /-- `STC` (R288). Scalar cluster-memory store entering the store queue. -/
  | stc (size : BitVec 3) (rd base : BitVec 6) (off : BitVec 8)
  /-- `STCV` (R289). Stores a 512-byte row to cluster memory. -/
  | stcv (rd : BitVec 7) (base : BitVec 6) (off : BitVec 8)
  /-- `STG` (R288). Scalar global store entering the store queue. -/
  | stg (size : BitVec 3) (rd base : BitVec 6) (off : BitVec 8)
  /-- `STGV` (R289). Stores a 512-byte row to global memory. -/
  | stgv (rd : BitVec 7) (base : BitVec 6) (off : BitVec 8)
  /-- `STGN` (R294). Stores a row to global memory and adds its squares to a norm register. -/
  | stgn (rd : BitVec 7) (base : BitVec 6) (norm : BitVec 8)
  /-- `STGX` (R293). Reserves space under a header and appends one sparse block to global memory. -/
  | stgx (rd : BitVec 7) (base : BitVec 6) (off : BitVec 8)
  /-- `CPY` (R355). Hands a command chain to a copy channel. -/
  | cpy (opa : BitVec 6) (inCluster : BitVec 1) (chan : BitVec 2)
  /-- `GATH` (R355). Hands a GATHER2D or PATTERN chain to a copy channel. -/
  | gath (opa : BitVec 6) (inCluster : BitVec 1) (chan : BitVec 2)
  /-- `STASH` (R356). Offers a home tensor to the stash engine under a key and mode. -/
  | stash (opa opb bar : BitVec 6) (mode : BitVec 3)
  /-- `SFETCH` (R357). Brings a stash entry into a destination header's payload. -/
  | sfetch (opa opb bar : BitVec 6)
  /-- `SPROBE` (R358). Reads a stash entry's status word into a register. -/
  | sprobe (opa opb : BitVec 6)
  /-- `SFREE` (R359). Frees a stash entry after earlier commands on its key end. -/
  | sfree (opb : BitVec 6)
  /-- `CHSEND` (R360). Queues a packet from a header and descriptor on a tensor channel. -/
  | chsend (opa opb chan : BitVec 6)
  /-- `CHPOST` (R361). Opens a receiver's window with a buffer header. -/
  | chpost (opa chan : BitVec 6)
  /-- `CHACK` (R362). Advances the receiver's CONSUMED count. -/
  | chack (opb chan : BitVec 6)
  /-- `COLL` (R363). Hands a bucket descriptor to the collective engine. -/
  | coll (opa bar : BitVec 6)
  /-- `SHOPEN` (R364). Opens a shadow on an extent. -/
  | shopen (opa opb : BitVec 6)
  /-- `PUBLISH` (R365). Publishes an open shadow at a scope. -/
  | publish (opa : BitVec 6) (scope : BitVec 3)
  /-- `CKPT` (R366). Takes a generator and seed snapshot for a tag over a scope. -/
  | ckpt (opb : BitVec 6) (scope : BitVec 3)
  /-- `REPLAY` (R346). Restores a tag's snapshot into the covered sequencers. -/
  | replay (opb : BitVec 6)
  /-- `SPLIT` (R367). Sets the number of L2 banks of the cluster. -/
  | split (opa : BitVec 6)
  /-- `WPWAIT` (R368). Holds issue until a channel's write pointer reaches a value. -/
  | wpwait (opa : BitVec 6) (chan : BitVec 2)
  /-- `NRMRD` (R369). Reads a norm register's accumulator or exponent into a register pair. -/
  | nrmrd (opa : BitVec 6) (wantE : BitVec 1) (norm : BitVec 8)
  /-- `NRMCLR` (R370). Clears a norm register's accumulator in store order. -/
  | nrmclr (norm : BitVec 8)
  /-- `NRMSET` (R370). Sets a norm register's exponent base and clears its accumulator. -/
  | nrmset (opa : BitVec 6) (norm : BitVec 8)
  /-- `DEQ` (R215). Waits for and receives a work-item record from a work queue. -/
  | deq (grp : BitVec 4) (wq : BitVec 6)
  /-- `DEQT` (R216). Takes a record from a work queue without waiting. -/
  | deqt (grp : BitVec 4) (wq : BitVec 6)
  /-- `ENQ` (R218). Pushes a record into a work queue or an arrival queue. -/
  | enq (grp : BitVec 4) (wq : BitVec 6)
  /-- `QCLOSE` (R220). Closes a work queue. -/
  | qclose (wq : BitVec 6)
  /-- `BINIT` (R224). Initialises a barrier's expected arrivals. -/
  | binit (opa bar : BitVec 6)
  /-- `BARR` (R224). Arrives at a barrier as a release at cluster scope. -/
  | barr (bar : BitVec 6)
  /-- `BEXP` (R224). Adds expected bytes to a barrier's PENDING. -/
  | bexp (opa bar : BitVec 6)
  /-- `BWAIT` (R225). Waits for a barrier phase to complete and returns its error code. -/
  | bwait (opa : BitVec 6) (te : BitVec 1) (bar : BitVec 6)
  /-- `BPOLL` (R226). Reads a barrier's state without waiting. -/
  | bpoll (opa bar : BitVec 6)
  /-- `FENCE` (R298). Marker that releases or acquires at a scope. -/
  | fence (order : BitVec 2) (scope : BitVec 3)
  /-- `QALIGN` (R298). Marker ordering all loads and stores without scope. -/
  | qalign
  /-- `AMO` (R295). Atomic read-modify-write of 4 or 8 bytes of global memory with an ordering. -/
  | amo (order : BitVec 2) (opa opb : BitVec 6) (nr : BitVec 1) (scope : BitVec 3) (size : BitVec 1) (fn : BitVec 4)
  /-- `PHADV` (R227). Advances the device phase counter within the lead allowance. -/
  | phadv
  /-- `CSRR` (R417). Reads a control and status register. -/
  | csrr (opa : BitVec 6) (csr : BitVec 12)
  /-- `CSRW` (R417). Writes a control and status register. -/
  | csrw (opa : BitVec 6) (csr : BitVec 12)
  /-- `CSRS` (R417). Sets bits of the RW fields of a register. -/
  | csrs (opa : BitVec 6) (csr : BitVec 12)
  /-- `CSRC` (R417). Clears bits of the RW fields of a register. -/
  | csrc (opa : BitVec 6) (csr : BitVec 12)
  /-- `TRET` (R421). Returns from a trap handler to the record's PC. -/
  | tret
  /-- `CTXSW` (R422). Hands the core to the other bank when it is runnable. -/
  | ctxsw
  /-- `SWPOUT` (R424). Pre-empts a partition's bank into shadow storage. -/
  | swpout (opa : BitVec 6)
  /-- `SWPIN` (R425). Brings a partition's bank images back from shadow storage. -/
  | swpin (opa : BitVec 6)
  /-- `SEEDLD` (R426). Loads a sign-seed register's value and identity. -/
  | seedld (opa opb : BitVec 6) (seed : BitVec 4)
  /-- `GENLD` (R426). Loads a generator's key and counter. -/
  | genld (opa opb : BitVec 6) (gen : BitVec 2)
  /-- `SVC` (R427). Raises the issue trap SVC with a service code. -/
  | svc (code : BitVec 15)
  /-- `EXTINV` (R428). Revokes extents over a virtual range after a release. -/
  | extinv (opa opb : BitVec 6)
  /-- `MIGR` (R429). Starts a page migration described by a command. -/
  | migr (opa : BitVec 6)
  /-- `BALLOON_ADDB` (R430). Adds a page to the balloon list. -/
  | balloonAddb (opa : BitVec 6)
  /-- `BALLOON_ADDT` (R430). Adds a target frame to the target list. -/
  | balloonAddt (opa : BitVec 6)
  /-- `BALLOON_DEFLATE` (R430). Returns a CLAIMED page to RESIDENT with all blocks zero. -/
  | balloonDeflate (opa : BitVec 6)
  /-- `BALLOON_CLRB` (R430). Empties the balloon list. -/
  | balloonClrb (opa : BitVec 6)
  /-- `BALLOON_CLRT` (R430). Empties the target list. -/
  | balloonClrt (opa : BitVec 6)
  /-- `IDLE` (R423). Holds issue until a wake event reaches the core. -/
  | idle
  /-- `RUN_AHEAD_PREISSUE` (R28). The run-ahead unit pre-issues a global load into its buffer along the hinted path. -/
  | runAheadPreissue (core addr size : Nat)
  /-- `SEGMENT_EXPAND` (R30). The prefetch engine finishes expanding a compressed segment into a loop-buffer half. -/
  | segmentExpand (core segment : Nat)
  /-- `POSTED_TRAP_TAKE` (R401). A posted trap detected by an engine is taken at the next bundle boundary. -/
  | postedTrapTake (core bank : Nat)
  /-- `LOAD_PERFORM` (R268). A queued load is performed at its point and its value bound. What the host (true) or another device has stored before in its own memory comes as `outside`. -/
  | loadPerform (core bank index piece : Nat) (outside : List (Bool × Nat × BitVec 8))
  /-- `STORE_PERFORM` (R268). A queued store is checked and performed at its point. -/
  | storePerform (core bank index piece : Nat)
  /-- `AMO_PERFORM` (R274). An AMO writes back and invalidates its line and is performed at home memory. What the host (true) or another device has stored before in its own memory comes as `outside`. -/
  | amoPerform (core bank index : Nat) (outside : List (Bool × Nat × BitVec 8))
  /-- `MARKER_EFFECT` (R267). A marker takes effect once the older accesses it names are performed. -/
  | markerEffect (core bank index : Nat)
  /-- `L2_LINE_EVICT` (R270). The slice evicts a line, writing back its dirty bytes. -/
  | l2LineEvict (cluster line : Nat)
  /-- `DRAIN_COMPLETE` (R403). The drain reaches step 6 and the full/empty bits are captured. -/
  | drainComplete (core : Nat)
  /-- `HALT_REPORT` (R126). A halted core's results and queues have drained and the halt is reported. -/
  | haltReport (core bank : Nat)
  /-- `PREEMPT_ARRIVE` (R407). A pre-emption request reaches a core and stops the named bank. -/
  | preemptArrive (core bank : Nat)
  /-- `SWAP_OUT_COMPLETE` (R408). Bank images are in shadow storage and the freed bank enters the pre-emption vector. -/
  | swapOutComplete (partition bank : Nat)
  /-- `SWAP_IN_COMPLETE` (R425). Bank images are restored and each bank resumes in its recorded state. -/
  | swapInComplete (partition bank : Nat)
  /-- `SCHEDULER_ROUND` (R204). A round of a stage with demand dispatches at most one ready item. -/
  | schedulerRound (stage : Nat)
  /-- `ENQ_RECORD_ENTER` (R219). An ENQ record enters its queue after older accesses are performed. -/
  | enqRecordEnter (core bank index : Nat)
  /-- `BARR_ARRIVE` (R224). A barrier request reaches the barrier and is applied. -/
  | barrArrive (core bank index : Nat)
  /-- `COPY_BLOCK_PROGRESS` (R312). An engine block writes output and subtracts bytes from its barrier. What the host (true) or another device has stored before in its own memory comes as `outside`. The running block delivers `units` more units. -/
  | copyBlockProgress (core chan units : Nat) (outside : List (Bool × Nat × BitVec 8))
  /-- `CHAIN_BLOCK_END` (R311). A chain block ends and the next block of the chain starts. -/
  | chainBlockEnd (core chan : Nat)
  /-- `FIFO_DELIVERY` (R308). A channel delivery waiting for FIFO room enters the FIFO. -/
  | fifoDelivery (core chan : Nat)
  /-- `ENGINE_COUNT_FIX` (R352). An engine reads headers, adds counted bytes and removes the provisional byte. Engine 0 is a copy channel (core, channel), 1 the head of a core's running stash commands (die, key), 2 a tensor channel (channel), 3 the collective engine (bucket position). -/
  | engineCountFix (engine a b : Nat)
  /-- `CCCTL_ABORT` (R314). Writing ABORT stops a copy channel's running and queued commands. -/
  | ccctlAbort (core chan : Nat)
  /-- `STASH_CMD_TAKE` (R336). The stash engine takes a command once earlier commands on its key have ended. -/
  | stashCmdTake (core : Nat)
  /-- `STASH_OFFLOAD_COMPLETE` (R336). A pack, narrow or spill copy is written and the home payload zeroed. -/
  | stashOffloadComplete (die key : Nat)
  /-- `STASH_DROP_COMPLETE` (R335). A DROP has computed its checksum and zeroed the payload. -/
  | stashDropComplete (die key : Nat)
  /-- `STASH_KEEP_COMPLETE` (R335). A KEEP's checksum is computed and written to the header. -/
  | stashKeepComplete (die key : Nat)
  /-- `STASH_FETCH_COMPLETE` (R337). A fetch has written every destination byte and the entry is READY. -/
  | stashFetchComplete (die key : Nat)
  /-- `SPILL_LINK_ABORT` (R340). A host link failure aborts a spill or fetch transfer. -/
  | spillLinkAbort (die key : Nat)
  /-- `SFREE_COMPLETE` (R359). An SFREE empties the entry and returns its storage. -/
  | sfreeComplete (die key : Nat)
  /-- `CKPT_RECORD_COMPLETE` (R366). A snapshot record's last byte is written and the port frees. -/
  | ckptRecordComplete (core bank : Nat)
  /-- `REPLAY_REMOTE_RESTORE` (R346). A covered sequencer's registers are restored at one of its bundle boundaries. -/
  | replayRemoteRestore (core bank : Nat)
  /-- `PACKET_DEPART` (R319). The head packet leaves SQ when the window has room. -/
  | packetDepart (chan : Nat)
  /-- `PACKET_DEPOSIT` (R320). A received packet is deposited and its arrival record pushed. The packet as the link brings it. -/
  | packetDeposit (chan seq step tag kind offset pad : Nat) (data : List (BitVec 8))
  /-- `WINDOW_FLIT_RECEIVE` (R318). The sender takes a new window or CONSUMED value from a control flit. -/
  | windowFlitReceive (chan : Nat) (isWindow : Bool) (value : Nat)
  /-- `PACKET_ACK_RECEIVE` (R320). An acknowledgement releases a packet from the replay buffer. -/
  | packetAckReceive (chan seq : Nat)
  /-- `CHACK_EFFECT` (R362). A CHACK takes effect after older loads are performed. -/
  | chackEffect (core bank index : Nat)
  /-- `BUCKET_START` (R324). The collective engine observes a non-zero signal word and starts a bucket. -/
  | bucketStart (position : Nat)
  /-- `CHUNK_RECEIVE` (R325). A partial sum arrives from a ring peer and is added or written. Partial sums, or final results, of one chunk of a half, with the count of ranks so far. -/
  | chunkReceive (step bucket half chunk count : Nat) (final : Bool) (values : List Nat)
  /-- `COMPLETION_MARK_RECEIVE` (R327). A member's completion mark arrives and is relayed. -/
  | completionMarkReceive (step bucket rank port : Nat)
  /-- `FAILURE_MARK_RECEIVE` (R485). A failure mark stops the bucket and withdraws norm additions. -/
  | failureMarkReceive (step bucket cause rank port : Nat)
  /-- `RING_SETTLE` (R328). After reconfiguration the survivors' exchange completes or restarts held buckets. The other survivors' reports on whether they have written all results. -/
  | ringSettle (position : Nat) (reports : List Bool)
  /-- `SHOPEN_EFFECT` (R364). A shadow open takes effect or is refused. -/
  | shopenEffect (core bank index : Nat)
  /-- `PUBLISH_EFFECT` (R280). A publish takes effect once prior shadow writes and stores are performed. -/
  | publishEffect (core bank index : Nat)
  /-- `SPLIT_ARRIVE` (R237). A SPLIT reaches the cluster and starts the drain of converting banks. -/
  | splitArrive (core bank index : Nat)
  /-- `SPLIT_DRAIN_END` (R237). The split drain ends and new cluster-memory banks read zero. -/
  | splitDrainEnd (cluster : Nat)
  /-- `BALLOON_CLAIM` (R250). The balloon engine claims the next balloon-list page. -/
  | balloonClaim (die : Nat)
  /-- `EVICTION_START` (R253). The balloon engine starts evicting the coldest eligible page. -/
  | evictionStart (die : Nat)
  /-- `EVICTION_COMPLETE` (R256). An evicted page is written to its target and its batts freed. -/
  | evictionComplete (die page : Nat)
  /-- `PAGE_RECALL` (R251). The balloon engine recalls an evicted page to home memory. -/
  | pageRecall (die : Nat)
  /-- `SPACE_ANSWER` (R252). In EXHAUSTED the oldest waiter is answered with SPACE. -/
  | spaceAnswer (die : Nat)
  /-- `ACCESS_COUNT_HALVE` (R256). Every page ACCESS count is halved each 2^20 clk. -/
  | accessCountHalve (die : Nat)
  /-- `MIGRATION_PASS` (R397). A migration pass copies dirty blocks, or the final pass switches. `noSpace` is the answer of a peer device's balloon engine. -/
  | migrationPass (index : Nat) (noSpace : Bool)
  /-- `EXECUTIVE_FRAME` (R471). A control core frame runs its scheduled queue polls. -/
  | executiveFrame (die : Nat)
  /-- `QUEUE_NOTIFY` (R464). A host write to a notify register sets TAIL or PNOTIFY. The offset in BAR0 (R462), what the host has stored in its memory before the write, the pages it has mapped for PASIDs as PASID, page number and page number in its memory, and the completion entries it has taken. -/
  | queueNotify (offset width value : Nat) (stored : List (Nat × BitVec 8)) (maps : List (Nat × Nat × Nat)) (taken : Nat)
  /-- `PRG_RESPONSE` (R390). A page-request group response arrives from the host. -/
  | prgResponse (group code : Nat)
  /-- `ATS_TRANSLATION_RETURN` (R390). ATS translations arrive, extents form and faults are answered. Virtual page, translated host page and write permission of each translation. -/
  | atsTranslationReturn (group : Nat) (pages : List (Nat × Nat × Bool))
  /-- `ATS_INVALIDATION` (R391). A host ATS invalidation revokes extents and is completed after in-flight use. -/
  | atsInvalidation (pasid base len tag : Nat)
  /-- `HOST_WINDOW_WRITE` (R396). A host write through BAR2 is performed at home memory. A device physical address and the bytes. -/
  | hostWindowWrite (addr : Nat) (data : List (BitVec 8))
  /-- `HOST_WINDOW_READ` (R399). A host read through BAR2 returns expanded bytes; one of BAR0 what stands there (R462). -/
  | hostWindowRead (addr : BarAddress) (len : Nat)
  /-- `INVOKE` (R468). Host command invoking a resident model slot. -/
  | invoke (queue seq : Nat)
  /-- `LOAD` (R70). Host command loading and translating an image into a slot. -/
  | load (queue seq : Nat)
  /-- `UNLOAD` (R467). Host command emptying a resident model slot. -/
  | unload (queue seq : Nat)
  /-- `VERSION` (R210). Host command installing weights into a version index. -/
  | version (queue seq : Nat)
  /-- `STAGECFG` (R189). Host command configuring a stage and its firmware descriptor. -/
  | stagecfg (queue seq : Nat)
  /-- `DEVCFG` (R467). Host command writing device registers in order. -/
  | devcfg (queue seq : Nat)
  /-- `TAGSET` (R257). Host command setting memory tags of a home range. -/
  | tagset (queue seq : Nat)
  /-- `SNAPSHOT` (R454). Host command requesting a job snapshot. -/
  | snapshot (queue seq : Nat)
  /-- `SNAPSHOT_SEND` (R454). Once quiescent, the device sends its snapshot set to two holders. -/
  | snapshotSend (job : Nat)
  /-- `HOLDER_DIGEST_RECEIVE` (R454). A holder's digest arrives and may complete the snapshot. -/
  | holderDigestReceive (job holder : Nat) (digest : BitVec 256)
  /-- `PAGEANS` (R388). Driver command answering a device-memory page fault. -/
  | pageans (queue seq : Nat)
  /-- `PASIDDOWN` (R393). Driver command starting the teardown of a PASID. -/
  | pasiddown (queue seq : Nat)
  /-- `TEARDOWN_CANCEL` (R393). After outstanding requests end, the PASID's work is cancelled and its extents cleared. -/
  | teardownCancel (pasid : Nat)
  /-- `TEARDOWN_TIMEOUT` (R393). The teardown time-out expires and outstanding requests are dropped. -/
  | teardownTimeout (pasid : Nat)
  /-- `PREEMPT` (R407). Host command pre-empting a partition's bank. -/
  | preempt (queue seq : Nat)
  /-- `RESTORE` (R408). Host command restoring a pre-empted partition. -/
  | restore (queue seq : Nat)
  /-- `QCREATE` (R463). Host command creating a user queue descriptor. -/
  | qcreate (queue seq : Nat)
  /-- `QDELETE` (R467). Host command deleting a user queue. -/
  | qdelete (queue seq : Nat)
  /-- `RESET` (R11). Device reset initialises both banks and all state. -/
  | reset
  /-- `RECOVERY_MAILBOX_WRITE` (R474). A recovery image length written to the mailbox is verified and run. The image the host has placed behind the first word of the mailbox, and the length it writes to that word. -/
  | recoveryMailboxWrite (image : List (BitVec 8)) (len : Nat)
  /-- `SINGLE_PART_RESET` (R460). A single-part reset rebuilds the journal and walks it. Entries, as queue and sequence number, whose CRC fails in the main and in the mirrored copy. -/
  | singlePartReset (part : Nat) (lostA lostB : List (Nat × Nat))
  /-- `DIE_FATAL_FAULT` (R440). A fatal die fault fails the whole device. -/
  | dieFatalFault (die : Nat)
  /-- `PORT_RETRAIN` (R446). Loss of signal or 16 retries puts a port into RETRAIN. -/
  | portRetrain (port : Nat)
  /-- `PORT_UP` (R446). Retraining succeeds and senders replay unacknowledged packets. -/
  | portUp (port : Nat)
  /-- `PORT_DOWN` (R446). Retraining time expires and the port goes DOWN, setting FAILED. -/
  | portDown (port : Nat) (pattern : Bool)
  /-- `LINK_FLIT_RETRY` (R446). A flit that FEC cannot correct is retransmitted by link-level retry. -/
  | linkFlitRetry (port : Nat)
  /-- `DEVICE_FAILURE_DECLARE` (R456). TFAIL expires with all ports DOWN and the failure is reported; or the device at the port has reported a fatal fault. -/
  | deviceFailureDeclare (sign : FailureSign)
  /-- `DOMAIN_ACCESS_TIMEOUT` (R445). A domain access unacknowledged within TLINK fails with CHANNEL. Banks 0 and 1 name a queue entry, bank 2 + n the running block of copy channel n. -/
  | domainAccessTimeout (core bank index : Nat)
  /-- `ROLLBACK` (R455). A class-S job rolls back to its last complete snapshot, that of the step; `done`: every device of the job has finished. For a class-E job the step may be the one whose microbatches the replica drops (R453). -/
  | rollback (job step : Nat) (done : Bool)
  /-- `FILL_CHUNK_ACK` (R457). A spare writes and acknowledges a fill chunk, checking the digest at the end. A chunk of the fill, what it holds, at the end the digest of the whole, and whether no source is left instead. After the last chunk and the write of PHASECNT, that the neighbours have replayed (R456). -/
  | fillChunkAck (chunk : Nat) (part : FillPart) (last : Bool) (digest : BitVec 256) (lost : Bool)
  /-- `PHASE_FLIT_SEND` (R451). The device sends its PHASE on every UP port after a change or each 10 µs. -/
  | phaseFlitSend
  /-- `PHASE_FLIT_RECEIVE` (R451). A received phase value updates LAST of matching neighbour entries. -/
  | phaseFlitReceive (port value : Nat)
  /-- `POWER_ARBITRATION` (R477). Every 10 µs the arbiter grants island shares of the budget. Draw and demand of each island, and the clk up to which cores over their grant hold issue. -/
  | powerArbitration (draw : List Nat) (demand : List Nat) (hold : List (Nat × Nat))
  /-- `SPDM_GET_VERSION` (R475). SPDM GET_VERSION request over DOE. -/
  | spdmGetVersion (request : List (BitVec 8))
  /-- `SPDM_GET_CAPABILITIES` (R475). SPDM GET_CAPABILITIES request. -/
  | spdmGetCapabilities (request : List (BitVec 8))
  /-- `SPDM_NEGOTIATE_ALGORITHMS` (R475). SPDM NEGOTIATE_ALGORITHMS request. -/
  | spdmNegotiateAlgorithms (request : List (BitVec 8))
  /-- `SPDM_GET_DIGESTS` (R475). SPDM GET_DIGESTS request. -/
  | spdmGetDigests (request : List (BitVec 8))
  /-- `SPDM_GET_CERTIFICATE` (R475). SPDM GET_CERTIFICATE request. -/
  | spdmGetCertificate (request : List (BitVec 8))
  /-- `SPDM_CHALLENGE` (R475). SPDM CHALLENGE request signed with the identity key. -/
  | spdmChallenge (request : List (BitVec 8))
  /-- `SPDM_GET_MEASUREMENTS` (R475). SPDM GET_MEASUREMENTS request returning the measurement indices. -/
  | spdmGetMeasurements (request : List (BitVec 8))
  /-- `CMPCTL_WRITE` (R247). A write to the compression control register, refused whole on a conflict. -/
  | cmpctlWrite (die : Nat) (value : BitVec 64)
  /-- `CMPWM_WRITE` (R248). A write to the free-pool watermarks, refused when inconsistent. -/
  | cmpwmWrite (die : Nat) (value : BitVec 64)
  /-- `CMPSTAT_REFUSED_CLEAR` (R249). Writing 1 clears the REFUSED bit. -/
  | cmpstatRefusedClear (die : Nat)
  /-- `STASH_REGION_WRITE` (R332). A write to a stash region or policy register, refused on conflict. -/
  | stashRegionWrite (die reg : Nat) (value : BitVec 64)
  /-- `WAKE_WRITE` (R423). A WAKE write ends a held IDLE or sets the wake-pending flag. -/
  | wakeWrite (core : Nat)
  /-- `BARW_WRITE` (R420). A privileged barrier write, refused while PENDING is not zero. -/
  | barwWrite (cluster reg : Nat) (value : BitVec 64)
  /-- `RINGCFG_WRITE` (R449). Changing N or RANK reconfigures the ring and settles held buckets. -/
  | ringcfgWrite (value : BitVec 64)
  /-- `RPORT_WRITE` (R451). Setting BYPASS reroutes a ring port and its phase flits over the torus. -/
  | rportWrite (port : Nat) (value : BitVec 64)
  /-- `ARBCTL_WRITE` (R330). A write to the bandwidth arbitration register, refused when invalid. -/
  | arbctlWrite (value : BitVec 64)
  /-- `PWRCTL_WRITE` (R478). A write to power budget or island registers, refused when invalid. -/
  | pwrctlWrite (reg : Nat) (value : BitVec 64)
  /-- `TCOORD_WRITE` (R441). A write to the torus coordinates, refused when out of range. -/
  | tcoordWrite (value : BitVec 64)
  /-- `REGISTER_WRITE` (R417). A write to a register with no behaviour of its own. -/
  | registerWrite (die reg : Nat) (value : BitVec 64)
  /-- `NON_INSTRUCTION_ENCODING` (R40). A bundle that breaks the composition rules, or holds a slot of an unassigned class or an opcode with no map entry, reaches issue and raises BUNDLE_RULE, ILLEGAL_CLASS or ILLEGAL_OP. The cause, BUNDLE_RULE, ILLEGAL_CLASS or ILLEGAL_OP, and the slot position. -/
  | nonInstructionEncoding (cause pos : Nat)
  /-- `TRANSLATION_WALK_COMPLETE` (R382). The hardware task scheduler finishes walking the page tables and forms the extents, after which workers start or the waiting faults are answered. ATS translations of host pages of the set. -/
  | translationWalkComplete (invocation : Nat) (ats : List (Nat × Nat × Bool))
  /-- `PRI_REENABLE` (R390). The driver re-enables PRI after a Response Failure, and the device may send page requests again. -/
  | priReenable (allocation : Nat)
deriving DecidableEq, Repr

end Sys2Proof
end

