-- ==== Sys2Proof/Config.lean ====
section
/-! DEFINITION. What is fixed for every KW-1 (R6, spec/00; R184, spec/09; R236, R239, spec/12), and the values the spec
leaves open: constants with no body, of which no value can be proved. -/

namespace Sys2Proof.Config

/-- Dies of a package (R6). -/
def dies : Nat := 4
/-- Clusters of a die (R6). -/
def clustersPerDie : Nat := 12
/-- Cores of a cluster (R6). -/
def coresPerCluster : Nat := 8
/-- Clusters of the device (R6). -/
def clusters : Nat := 48
/-- Cores of the device (R6). -/
def cores : Nat := 384
/-- Bytes of a core's scratchpad (R31). -/
def scratchpadBytes : Nat := 2 ^ 23

/-- The 64-bit CRC of the command journal: its polynomial is not given (R459; log 12). -/
opaque crc64 : List Byte → BitVec 64

/-- What the boot ROM finds in a firmware image, whose layout is not given: the bytes that are signed, the vendor key and the security
version (R473; log 12). -/
opaque imageSigned : List Byte → List Byte
opaque imageKey : List Byte → List Byte
opaque imageVersion : List Byte → Nat

/-- The image's ECDSA P-256 signature is that of a digest under a key (R473; log 12). -/
opaque signatureValid : List Byte → List Byte → List Byte → Bool

/-- The fuses of the device: the digest of the vendor key and the lowest security version (R473; log 12). -/
opaque fusedKeyDigest : List Byte
opaque fusedVersion : Nat

/-- The identity key's signature over a transcript (R475; log 12). -/
opaque signature : List Byte → List Byte

/-- The certificate chain of the identity key (R475; log 12). -/
opaque certificateChain : List Byte

/-- The base of an invocation's extent table, and the word by which XTBASE gives its header: PASID, entry count and base (R384, R418;
log 12). -/
opaque extentTable : Nat → BitVec 64
opaque headerWord : Nat → Nat → BitVec 64 → BitVec 64

/-- Whether an engine's block whose page request is refused fails with `NOT_PRESENT` or `REVOKED`, as R313 has it, or with `PROTECTION`, as
R387 has it (log 19). -/
opaque engineNamesPage : Bool

/-- SEQ, kind and INFO of an admin event: the spec gives what it reports, not their values. The event is named by the rule that
has the device send it (R469; log 22). -/
opaque adminEvent : Nat → List Nat → BitVec 64 × BitVec 32 × BitVec 32

/-- Whether a command of this opcode sets a reserved byte of its arguments, where the spec gives no layout (R467; log 22). -/
opaque reservedArgs : Nat → Nat → Bool

/-- The L2 bank, counted from the lowest of `n`, in which a slice holds a line: the mapping is not given (R236, R237; log 23). -/
opaque lineBank : Nat → Nat → Nat

/-- Which of `n` other lines leaves a full slice or remote-data cache for a line: the choice is not given (R6, R270; log 36). -/
opaque victimLine : Nat → Nat → Nat

/-- Whether a die's directory with `n` records has room for one more: its size is not given (R438; log 36). -/
opaque directoryRoom : Nat → Nat → Bool

/-- A byte of a device register that no chapter places in the register space of R235: die, offset and clk (log 36). -/
opaque registerByte : Nat → Nat → Nat → BitVec 8

/-- The presented offset of a page on a peer die that a migrated page moves to, by member, die, source die and source page
(R397, R429; log 23). -/
opaque migrationFrame : Nat → Nat → Nat → Nat → Nat

/-- The values of a field of a command whose layout the spec does not give: opcode, 64 bytes, extended body, and the number of the
field (R467; log 22). -/
opaque commandField : Nat → Nat → List Byte → Nat → List Nat

/-- The die and the register a `DEVCFG` register number names (R467; log 22). -/
opaque devcfgRegister : Nat → Nat × Nat

/-- One more than the highest index the relocation templates of an image name; no section of R68 holds them (R66; log 22). -/
opaque relocTemplates : List Byte → Nat

/-- The bytes of a snapshot set after its header, from its parts; their order is not given (R454; log 24). -/
opaque snapshotBytes : List (List (Nat × Byte)) → List Byte

/-- The bytes that the digest of a fill covers, from its chunks in order (R457; log 24). -/
opaque fillBytes : List FillPart → List Byte

/-- A byte of BAR0 that no rule places, by offset and clk (R462; log 24). -/
opaque barByte : Nat → Nat → BitVec 8

/-- Draw and demand of an island at a clk, in W, and the clk for which a core of an island over its grant holds issue (R477; log 24). -/
opaque islandDraw : Nat → Nat → Nat
opaque islandDemand : Nat → Nat → Nat
opaque powerHold : Nat → Nat → Nat

/-- An SPDM message of a kind from its contents, in the encoding of DMTF SPDM 1.3 (R475; log 24). -/
opaque spdmMessage : Nat → List (List Byte) → List Byte

/-- The boot ROM version, and the device configuration as measured (R475; log 24). -/
opaque bootRomVersion : List Byte
opaque configurationBytes : List (BitVec 64) → List Byte

/-- A free value: the `n`-th open value the machine draws (log 12). -/
opaque freeValue : Nat → BitVec 64

end Sys2Proof.Config
end

