-- ==== Sys2Proof/Machine/Num.lean ====
section
/-! DEFINITION. Number formats, rounding and exact arithmetic (R72 to R81, R95 to R101, spec/04; R111, spec/05; R139,
spec/06). A finite value is a sign, a natural significand and an exponent; every operation is exact until its one
rounding. -/

namespace Sys2Proof.Machine

/-- The formats of R72. -/
inductive Fmt where
  | e4m3 | e5m2 | bf16 | fp32 | int8 | int32
deriving DecidableEq, Repr

/-- The rounding modes of R78. -/
inductive RoundMode where
  | rne | rtz | rup | rdn | rna
deriving DecidableEq, Repr

/-- A datum read from a floating-point encoding: `fin neg n q` is ±n × 2^q. -/
inductive FVal where
  | nan
  | inf (neg : Bool)
  | fin (neg : Bool) (n : Nat) (q : Int)
deriving DecidableEq, Repr

/-- The mode of an RM code; codes 5 to 7 are reserved and never reach here (R24). -/
def RoundMode.ofCode : Nat → RoundMode
  | 1 => .rtz
  | 2 => .rup
  | 3 => .rdn
  | 4 => .rna
  | _ => .rne

/-- The format of a code of R75; raw and reserved codes have none. -/
def Fmt.ofCode : Nat → Option Fmt
  | 1 => some .int8
  | 2 => some .e4m3
  | 3 => some .e5m2
  | 4 => some .bf16
  | 6 => some .fp32
  | 7 => some .int32
  | _ => none

/-- The code of a format (R75). -/
def Fmt.code : Fmt → Nat
  | .int8 => 1
  | .e4m3 => 2
  | .e5m2 => 3
  | .bf16 => 4
  | .fp32 => 6
  | .int32 => 7

/-- The target formats of the conversion slots, in the order of R51. -/
def Fmt.ofTarget : Nat → Fmt
  | 0 => .e4m3
  | 1 => .e5m2
  | 2 => .bf16
  | _ => .int8

/-- Bytes of one element (R72). -/
def Fmt.bytes : Fmt → Nat
  | .e4m3 | .e5m2 | .int8 => 1
  | .bf16 => 2
  | .fp32 | .int32 => 4

/-- Significand bits, the hidden one included (R72). -/
def Fmt.prec : Fmt → Nat
  | .e4m3 => 4
  | .e5m2 => 3
  | .bf16 => 8
  | _ => 24

/-- Exponent of the subnormal grid (R72). -/
def Fmt.qmin : Fmt → Int
  | .e4m3 => -9
  | .e5m2 => -16
  | .bf16 => -133
  | _ => -149

/-- Width of an encoding. -/
def Fmt.width (f : Fmt) : Nat := 8 * f.bytes

/-- Encoding of the largest finite magnitude (R73). -/
def Fmt.maxMag : Fmt → Nat
  | .e4m3 => 0x7E
  | .e5m2 => 0x7B
  | .bf16 => 0x7F7F
  | _ => 0x7F7FFFFF

/-- Encoding of the canonical NaN (R73); of an invalid INT8 element 0x80 (R74, R90). -/
def Fmt.canonNan : Fmt → Nat
  | .e4m3 => 0x7F
  | .e5m2 => 0x7E
  | .bf16 => 0x7FC0
  | .int8 => 0x80
  | _ => 0x7FC00000

/-- Encoding of +∞, for the formats that have one (R73). -/
def Fmt.infMag : Fmt → Nat
  | .e5m2 => 0x7C
  | .bf16 => 0x7F80
  | _ => 0x7F800000

/-- Sign bit and magnitude as an encoding. -/
def Fmt.pack (f : Fmt) (neg : Bool) (mag : Nat) : Nat := mag + if neg then 2 ^ (f.width - 1) else 0

/-- The datum an encoding stands for (R72, R73); INT8 and INT32 in two's complement. -/
def Fmt.decode (f : Fmt) (w : Nat) : FVal :=
  let half := 2 ^ (f.width - 1)
  match f with
  | .int8 | .int32 => if w < half then .fin false w 0 else .fin true (2 * half - w) 0
  | _ =>
    let neg := decide (half ≤ w)
    let mag := w % half
    let unit := 2 ^ (f.prec - 1)
    let e := mag / unit
    let m := mag % unit
    if f = .e4m3 ∧ mag = 0x7F then .nan
    else if f ≠ .e4m3 ∧ f.infMag ≤ mag then (if mag = f.infMag then .inf neg else .nan)
    else if e = 0 then .fin neg m f.qmin
    else .fin neg (unit + m) (f.qmin + (e : Int) - 1)

/-- ⌊log₂ (num / den)⌋ for positive num and den. -/
def floorLog2 (num den : Nat) : Int :=
  let k : Int := (Nat.log2 num : Int) - (Nat.log2 den : Int)
  if num * 2 ^ (-k).toNat < den * 2 ^ k.toNat then k - 1 else k

/-- num / den rounded to a natural number under a mode, for a value of the given sign (R78). -/
def roundNat (mode : RoundMode) (neg : Bool) (num den : Nat) : Nat :=
  let n := num / den
  let r := num % den
  let up : Bool :=
    match mode with
    | .rne => decide (2 * r > den) || (decide (2 * r = den) && decide (n % 2 = 1))
    | .rtz => false
    | .rup => !neg && decide (r ≠ 0)
    | .rdn => neg && decide (r ≠ 0)
    | .rna => decide (2 * r ≥ den)
  if up then n + 1 else n

/-- The result of an overflow (R79). -/
def Fmt.overflow (f : Fmt) (mode : RoundMode) (sat neg : Bool) : Nat :=
  if sat then f.pack neg f.maxMag
  else
    match f with
    | .e4m3 => f.canonNan
    | _ =>
      let toInf : Bool :=
        match mode with
        | .rne | .rna => true
        | .rtz => false
        | .rup => !neg
        | .rdn => neg
      f.pack neg (if toInf then f.infMag else f.maxMag)

/-- RoundTo for a floating-point format: the encoding of ±(num / den) × 2^e (R78, R79). -/
def Fmt.roundFloat (f : Fmt) (mode : RoundMode) (sat neg : Bool) (num den : Nat) (e : Int) : Nat :=
  if num = 0 then f.pack neg 0
  else
    let l := floorLog2 num den + e
    let q := max (l - ((f.prec : Int) - 1)) f.qmin
    let s := e - q
    let n := roundNat mode neg (num * 2 ^ s.toNat) (den * 2 ^ (-s).toNat)
    let mag := (q - f.qmin).toNat * 2 ^ (f.prec - 1) + n
    if f.maxMag < mag then f.overflow mode sat neg else f.pack neg mag

/-- RoundTo for INT8 narrowing: clamped to −127 to 127 (R74, R79). -/
def roundInt8 (mode : RoundMode) (neg : Bool) (num den : Nat) (e : Int) : Nat :=
  let n := min (roundNat mode neg (num * 2 ^ e.toNat) (den * 2 ^ (-e).toNat)) 127
  if neg ∧ n ≠ 0 then 256 - n else n

/-- RoundTo of R78 and R79 for the exact value ±(num / den) × 2^e. -/
def Fmt.roundTo (f : Fmt) (mode : RoundMode) (sat neg : Bool) (num den : Nat) (e : Int) : Nat :=
  match f with
  | .int8 => roundInt8 mode neg num den e
  | _ => f.roundFloat mode sat neg num den e

/-- Rounding of any datum, NaN and ±∞ included (R79). -/
def Fmt.ofVal (f : Fmt) (mode : RoundMode) (sat : Bool) : FVal → Nat
  | .nan => f.canonNan
  | .inf neg => if f = .e4m3 then (if sat then f.pack neg f.maxMag else f.canonNan) else f.pack neg f.infMag
  | .fin neg n q => f.roundTo mode sat neg n 1 q

/-- Arithmetic rounds RNE without saturation, whatever the prefix says (R77). -/
abbrev Fmt.rne (f : Fmt) (v : FVal) : Nat := f.ofVal .rne false v

/-! ## Exact arithmetic -/

/-- The value as an integer multiple of 2^q, for an exponent q not above the value's own. -/
def atQuantum (neg : Bool) (n : Nat) (e q : Int) : Int :=
  let m : Int := (n * 2 ^ (e - q).toNat : Nat)
  if neg then -m else m

/-- m × 2^q as a datum; an exact zero takes the given sign. -/
def ofInt (zeroNeg : Bool) (m q : Int) : FVal :=
  if m = 0 then .fin zeroNeg 0 q else .fin (decide (m < 0)) m.natAbs q

/-- The value with its sign inverted. -/
def FVal.negate : FVal → FVal
  | .nan => .nan
  | .inf s => .inf (!s)
  | .fin s n q => .fin (!s) n q

/-- Exact sum under IEEE 754 (R111): ∞ − ∞ is NaN; an exact zero is −0 only when both operands are negative. -/
def FVal.add : FVal → FVal → FVal
  | .nan, _ => .nan
  | _, .nan => .nan
  | .inf s, .inf t => if s = t then .inf s else .nan
  | .inf s, .fin .. => .inf s
  | .fin .., .inf t => .inf t
  | .fin s n e, .fin t m d =>
    let q := min e d
    ofInt (s && t) (atQuantum s n e q + atQuantum t m d q) q

/-- Exact product under IEEE 754 (R111): ∞ × 0 is NaN. -/
def FVal.mul : FVal → FVal → FVal
  | .nan, _ => .nan
  | _, .nan => .nan
  | .inf s, .inf t => .inf (s != t)
  | .inf s, .fin t n _ => if n = 0 then .nan else .inf (s != t)
  | .fin s n _, .inf t => if n = 0 then .nan else .inf (s != t)
  | .fin s n e, .fin t m d => .fin (s != t) (n * m) (e + d)

/-- The quotient rounded RNE to a format (R111): x / 0 is ∞, 0 / 0 and ∞ / ∞ are NaN. -/
def Fmt.div (f : Fmt) : FVal → FVal → Nat
  | .nan, _ => f.canonNan
  | _, .nan => f.canonNan
  | .inf _, .inf _ => f.canonNan
  | .inf s, .fin t _ _ => f.pack (s != t) f.infMag
  | .fin s _ _, .inf t => f.pack (s != t) 0
  | .fin s n e, .fin t m d =>
    if m = 0 then (if n = 0 then f.canonNan else f.pack (s != t) f.infMag)
    else f.roundFloat .rne false (s != t) n m (e - d)

/-- The integer square root, by bits from 2^k downwards. -/
def isqrtFrom (n : Nat) : Nat → Nat → Nat
  | 0, r => r
  | k + 1, r => isqrtFrom n k (if (r + 2 ^ k) * (r + 2 ^ k) ≤ n then r + 2 ^ k else r)

/-- ⌊√n⌋. -/
def isqrt (n : Nat) : Nat := isqrtFrom n (Nat.log2 n / 2 + 1) 0

/-- Extra bits kept under a square root, far below every rounding position. -/
def guardBits : Nat := 80

/-- √(n × 2^e) rounded RNE; a root that is not exact is marked below its last kept bit (R111, R139). -/
def Fmt.sqrtPos (f : Fmt) (n : Nat) (e : Int) : Nat :=
  let odd := e % 2 = 1
  let n' := if odd then 2 * n else n
  let e' := if odd then e - 1 else e
  let big := n' * 2 ^ (2 * guardBits)
  let r := isqrt big
  f.roundFloat .rne false false (2 * r + if r * r = big then 0 else 1) 1 (e' / 2 - guardBits - 1)

/-- √a rounded RNE: −0 gives −0, a negative operand NaN (R111, R139). -/
def Fmt.sqrt (f : Fmt) : FVal → Nat
  | .nan => f.canonNan
  | .inf s => if s then f.canonNan else f.infMag
  | .fin s n e => if n = 0 then f.pack s 0 else if s then f.canonNan else f.sqrtPos n e

/-- 1/√a rounded RNE (R139). -/
def Fmt.rsqrt (f : Fmt) : FVal → Nat
  | .nan => f.canonNan
  | .inf s => if s then f.canonNan else f.pack false 0
  | .fin s n e =>
    if n = 0 then f.pack s f.infMag
    else if s then f.canonNan
    else
      let odd := e % 2 = 1
      let n' := if odd then 2 * n else n
      let e' := if odd then e - 1 else e
      let k := Nat.log2 n' / 2 + 1 + guardBits
      let r := isqrt (2 ^ (2 * k) / n')
      f.roundFloat .rne false false (2 * r + if r * r * n' = 2 ^ (2 * k) then 0 else 1) 1 (-(e' / 2) - k - 1)

/-! ## Comparisons -/

/-- a < b over finite and infinite values; false with a NaN (R111, R138). -/
def FVal.lt : FVal → FVal → Bool
  | .nan, _ => false
  | _, .nan => false
  | .inf s, .inf t => s && !t
  | .inf s, .fin .. => s
  | .fin .., .inf t => !t
  | .fin s n e, .fin t m d =>
    let q := min e d
    decide (atQuantum s n e q < atQuantum t m d q)

/-- a = b, −0 equal to +0; false with a NaN. -/
def FVal.eq : FVal → FVal → Bool
  | .nan, _ => false
  | _, .nan => false
  | .inf s, .inf t => s == t
  | .inf _, .fin .. => false
  | .fin .., .inf _ => false
  | .fin s n e, .fin t m d =>
    let q := min e d
    decide (atQuantum s n e q = atQuantum t m d q)

/-- a ≤ b; false with a NaN. -/
def FVal.le (a b : FVal) : Bool := a.lt b || a.eq b

/-- The sign bit, false for a NaN. -/
def FVal.sign : FVal → Bool
  | .nan => false
  | .inf s => s
  | .fin s _ _ => s

/-- The smaller value; −0 is smaller than +0; a NaN gives NaN (R111). -/
def FVal.min (a b : FVal) : FVal :=
  match a, b with
  | .nan, _ => .nan
  | _, .nan => .nan
  | a, b => if a.lt b then a else if b.lt a then b else if a.sign then a else b

/-- The larger value; +0 is larger than −0; a NaN gives NaN (R111). -/
def FVal.max (a b : FVal) : FVal :=
  match a, b with
  | .nan, _ => .nan
  | _, .nan => .nan
  | a, b => if a.lt b then b else if b.lt a then a else if a.sign then b else a

/-- The magnitude. -/
def FVal.abs : FVal → FVal
  | .nan => .nan
  | .inf _ => .inf false
  | .fin _ n q => .fin false n q

/-! ## Integer conversion (R80) -/

/-- The result of a float-to-integer conversion that leaves the range, without saturation. -/
def intIndefinite (n : Nat) (uns : Bool) : Int := if uns then 2 ^ n - 1 else -(2 ^ (n - 1))

/-- The smallest and the largest integer of n bits. -/
def intRange (n : Nat) (uns : Bool) : Int × Int :=
  if uns then (0, 2 ^ n - 1) else (-(2 ^ (n - 1)), 2 ^ (n - 1) - 1)

/-- Floating-point to an n-bit integer (R80). -/
def FVal.toInt (v : FVal) (mode : RoundMode) (sat : Bool) (n : Nat) (uns : Bool) : Int :=
  let (lo, hi) := intRange n uns
  match v with
  | .nan => if sat then 0 else intIndefinite n uns
  | .inf s => if sat then (if s then lo else hi) else intIndefinite n uns
  | .fin s m q =>
    let r : Int := (roundNat mode s (m * 2 ^ q.toNat) (2 ^ (-q).toNat) : Nat)
    let v := if s then -r else r
    if v < lo then (if sat then lo else intIndefinite n uns)
    else if hi < v then (if sat then hi else intIndefinite n uns)
    else v

/-- An integer as a datum. -/
def FVal.ofInteger (i : Int) : FVal := .fin (decide (i < 0)) i.natAbs 0

/-! ## Special functions (R139)

Exact cases are returned exactly. Every other value of 2^a, log₂ a, tanh a and the sigmoid of a dyadic operand is
irrational; it is computed in fixed point with `fixBits` fractional bits before its one rounding (log 11). -/

/-- Fractional bits of the fixed-point computation. -/
def fixBits : Nat := 640

/-- ln 2 in fixed point: the sum of 1 / (k 2^k). -/
def ln2Sum : Nat → Nat → Nat
  | 0, acc => acc
  | k + 1, acc => ln2Sum k (acc + 2 ^ fixBits / ((k + 1) * 2 ^ (k + 1)))

/-- ln 2 × 2^fixBits. -/
def ln2Fix : Nat := ln2Sum 660 0

/-- The exponential series of a fixed-point r in [0, ln 2): the remaining terms, the next index, the last term. -/
def expSum (r : Nat) : Nat → Nat → Nat → Nat → Nat
  | 0, _, _, acc => acc
  | k + 1, i, term, acc =>
    let t := term * r / 2 ^ fixBits / i
    expSum r k (i + 1) t (acc + t)

/-- e^r × 2^fixBits for a fixed-point r in [0, ln 2). -/
def expFix (r : Nat) : Nat := expSum r 140 1 (2 ^ fixBits) (2 ^ fixBits)

/-- The atanh series of z = num / den in fixed point: z^(2i+1) / (2i+1). -/
def atanhSum (z2 : Nat) : Nat → Nat → Nat → Nat → Nat
  | 0, _, _, acc => acc
  | k + 1, i, pow, acc =>
    let p := pow * z2 / 2 ^ fixBits
    atanhSum z2 k (i + 2) p (acc + p / i)

/-- ln (num / den) × 2^fixBits for 1 ≤ num / den < 2. -/
def lnFix (num den : Nat) : Nat :=
  let z := (num - den) * 2 ^ fixBits / (num + den)
  2 * atanhSum (z * z / 2 ^ fixBits) 220 3 z z

/-- e^x for a fixed-point x, as (m, k): m × 2^(k − fixBits). -/
def expParts (x : Int) : Nat × Int :=
  let k := x / (ln2Fix : Int)
  (expFix (x - k * (ln2Fix : Int)).toNat, k)

/-- ±n × 2^q in fixed point, truncated. -/
def toFix (neg : Bool) (n : Nat) (q : Int) : Int :=
  let s := q + fixBits
  let m : Int := (n * 2 ^ s.toNat / 2 ^ (-s).toNat : Nat)
  if neg then -m else m

/-- Whether |n × 2^q| is at least 2^k. -/
def magAtLeast (n : Nat) (q : Int) (k : Int) : Bool := n != 0 && decide (k ≤ (Nat.log2 n : Int) + q)

/-- 2^a (R139). -/
def Fmt.exp2 (f : Fmt) : FVal → Nat
  | .nan => f.canonNan
  | .inf s => if s then f.pack false 0 else f.infMag
  | .fin s n q =>
    if magAtLeast n q 9 then (if s then f.pack false 0 else f.infMag)
    else
      let x := toFix s n q
      let i := x / (2 ^ fixBits : Nat)
      let r := (x - i * (2 ^ fixBits : Nat)).toNat
      if n = 0 then f.roundFloat .rne false false 1 1 0
      else if r = 0 then f.roundFloat .rne false false 1 1 i
      else f.roundFloat .rne false false (expFix (r * ln2Fix / 2 ^ fixBits)) 1 (i - fixBits)

/-- log₂ a (R139). -/
def Fmt.log2 (f : Fmt) : FVal → Nat
  | .nan => f.canonNan
  | .inf s => if s then f.canonNan else f.infMag
  | .fin s n q =>
    if n = 0 then f.pack true f.infMag
    else if s then f.canonNan
    else
      let l := Nat.log2 n
      let e : Int := q + l
      if n = 2 ^ l then f.rne (FVal.ofInteger e)
      else
        let v : Int := e * (ln2Fix : Int) + (lnFix n (2 ^ l) : Int)
        f.roundFloat .rne false (decide (v < 0)) v.natAbs ln2Fix 0

/-- tanh a (R139): (e^2a − 1) / (e^2a + 1) of the magnitude. -/
def Fmt.tanh (f : Fmt) : FVal → Nat
  | .nan => f.canonNan
  | .inf s => f.roundFloat .rne false s 1 1 0
  | .fin s n q =>
    if n = 0 then f.pack s 0
    else if magAtLeast n q 5 then f.roundFloat .rne false s 1 1 0
    else
      let (m, k) := expParts (2 * toFix false n q)
      let big := m * 2 ^ k.toNat
      f.roundFloat .rne false s (big - 2 ^ fixBits) (big + 2 ^ fixBits) 0

/-- 1 / (1 + e^(−a)) (R139). -/
def Fmt.sigmoid (f : Fmt) : FVal → Nat
  | .nan => f.canonNan
  | .inf s => if s then f.pack false 0 else f.roundFloat .rne false false 1 1 0
  | .fin s n q =>
    if n = 0 then f.roundFloat .rne false false 1 1 (-1)
    else if magAtLeast n q 8 then (if s then f.pack false 0 else f.roundFloat .rne false false 1 1 0)
    else
      let (m, k) := expParts (toFix s n q)
      let num := m * 2 ^ k.toNat
      f.roundFloat .rne false false num (num + 2 ^ (fixBits + (-k).toNat)) 0

/-! ## The sign mixer (R84) -/

/-- Mix64 of R84. -/
def mix64 (x : BitVec 64) : BitVec 64 :=
  let z := (x ^^^ (x >>> 30)) * 0xBF58476D1CE4E5B9#64
  let z := (z ^^^ (z >>> 27)) * 0x94D049BB133111EB#64
  z ^^^ (z >>> 31)

/-- γ of R84. -/
def mixGamma : BitVec 64 := 0x9E3779B97F4A7C15#64

/-- Mix(seed, n) of R84. -/
def mix (seed n : BitVec 64) : BitVec 64 := mix64 (seed + (n + 1) * mixGamma)

/-- Signs(seed, k)[i] of R84; true negates. -/
def signBit (seed : BitVec 64) (k i : Nat) : Bool :=
  (mix seed (BitVec.ofNat 64 (2 * k + i / 64))).getLsbD (i % 64)

end Sys2Proof.Machine
end

