-- ==== Sys2Proof/Machine/Carding.lean ====
section
/-! DEFINITION. Lanes of a row, the carding unit, widening and the group dot product (R76, R82 to R99, spec/04). -/

namespace Sys2Proof.Machine

/-! ## Lanes -/

/-- Field `i` of width `w` in a packed word. -/
def lane (w i x : Nat) : Nat := x / 2 ^ (w * i) % 2 ^ w

/-- The first `n` fields of width `w`, field 0 in the lowest bits (R3, R13). -/
def unpack (w n x : Nat) : List Nat := (List.range n).map fun i => lane w i x

/-- Fields of width `w` packed from the lowest bits upwards. -/
def packFields (w : Nat) : List Nat → Nat
  | [] => 0
  | x :: xs => x % 2 ^ w + 2 ^ w * packFields w xs

/-- A row from its lanes. -/
def rowOf (w : Nat) (l : List Nat) : Row := BitVec.ofNat 4096 (packFields w l)

/-- The bits of a row that belong to lanes whose mask bit is 1. -/
def rowSelect (w n : Nat) (m : Mask) : Row :=
  rowOf w ((List.range n).map fun i => if m.getLsbD i then 2 ^ w - 1 else 0)

/-- Every bit of a row. -/
def rowAll : Row := BitVec.allOnes 4096

/-! ## A narrow block -/

/-- What carding gives: 128 encodings with their format, scale and rotation tag (R91). -/
structure NarrowBlock where
  fmt : Fmt
  elems : List Nat
  scale : BitVec 32
  tag : BitVec 16
deriving DecidableEq, Repr

/-- The block's bytes as it stands in a register, every higher byte zero (R76). -/
def NarrowBlock.row (b : NarrowBlock) : Row := rowOf b.fmt.width b.elems

/-- A side word with VALID set (R15). -/
def sideWord (fmt : Nat) (tag : BitVec 16) (scale : BitVec 32) : SReg :=
  (1 : BitVec 1) ++ (0 : BitVec 7) ++ (0 : BitVec 4) ++ BitVec.ofNat 4 fmt ++ tag ++ scale

/-- The side word that describes a narrow block (R91). -/
def NarrowBlock.side (b : NarrowBlock) : SReg := sideWord b.fmt.code b.tag b.scale

/-- VALID of a side word. -/
def sideValid (s : SReg) : Bool := s.getLsbD 63
/-- FMT of a side word. -/
def sideFmt (s : SReg) : Nat := (s.extractLsb' 48 8).toNat
/-- ROT of a side word. -/
def sideTag (s : SReg) : BitVec 16 := s.extractLsb' 32 16
/-- SCALE of a side word. -/
def sideScale (s : SReg) : BitVec 32 := s.extractLsb' 0 32

/-- A malformed rotation tag (R92). -/
def tagMalformed (t : BitVec 16) : Bool :=
  t.extractLsb' 12 2 != 0 || (!t.getLsbD 15 && t != 0)

/-- The tag of a block carded under an identity, AXIS 0 (R82, R92). -/
def rotatedTag (ident : BitVec 12) : BitVec 16 := (8 : BitVec 4) ++ ident

/-! ## Carding -/

/-- The Sylvester Hadamard transform of 2^n integers (R87): its stages commute, so halves first. -/
def butterflies : Nat → List Int → List Int
  | 0, l => l
  | n + 1, l =>
    let u := butterflies n (l.take (2 ^ n))
    let w := butterflies n (l.drop (2 ^ n))
    List.zipWith (· + ·) u w ++ List.zipWith (· - ·) u w

/-- Negates element i where Signs(seed, k)[i] is 1 (R84). -/
def applySigns (seed : BitVec 64) (k : Nat) (l : List Int) : List Int :=
  l.mapIdx fun i x => if signBit seed k i then -x else x

/-- The largest magnitude of finite values. -/
def maxAbs (l : List FVal) : FVal := l.foldl (fun m x => m.max x.abs) (.fin false 0 0)

/-- Whether a value is NaN or infinite. -/
def FVal.special : FVal → Bool
  | .fin .. => false
  | _ => true

/-- ⌊log₂⌋ of a finite magnitude that is not zero. -/
def FVal.floorLog : FVal → Int
  | .fin _ n q => (Nat.log2 n : Int) + q
  | _ => 0

/-- Whether a value is a zero of either sign. -/
def FVal.isZero : FVal → Bool
  | .fin _ n _ => n == 0
  | _ => false

/-- TruncToZero(x × 2^s) of a finite value. -/
def FVal.truncScaled (v : FVal) (s : Int) : Int :=
  match v with
  | .fin neg n q =>
    let e := q + s
    let m : Int := (n * 2 ^ e.toNat / 2 ^ (-e).toNat : Nat)
    if neg then -m else m
  | _ => 0

/-- The largest finite value of a narrow format, for BlockScale (R88). -/
def Fmt.blockMax : Fmt → Nat
  | .e4m3 => 448
  | .e5m2 => 57344
  | _ => 127

/-- BlockScale of R88, as FP32. -/
def blockScale (amax : FVal) (fmt : Fmt) : BitVec 32 :=
  match fmt, amax with
  | .bf16, _ => 0x3F800000
  | _, .fin _ n q =>
    let r := Fmt.fp32.roundFloat .rne false false n fmt.blockMax q
    if r < 0x00800000 then 0x00800000 else if 0x7F7FFFFF < r then 0x7F7FFFFF else BitVec.ofNat 32 r
  | _, _ => 0x7F7FFFFF

/-- InvalidBlock of R90, with the tag the block would have carried. -/
def invalidBlock (fmt : Fmt) (tag : BitVec 16) : NarrowBlock :=
  { fmt, elems := List.replicate 128 fmt.canonNan, scale := 0x7FC00000, tag }

/-- RoundTo(fmt, mode, sat)(y / scale) for a positive finite scale (R82). -/
def roundQuotient (fmt : Fmt) (mode : RoundMode) (sat : Bool) (scale : FVal) (y : FVal) : Nat :=
  match y, scale with
  | .fin s n e, .fin _ m d => fmt.roundTo mode sat s n m (e - d)
  | _, _ => fmt.canonNan

/-- A positive finite FP32 value (R89). -/
def scalePositive (s : BitVec 32) : Bool :=
  match Fmt.fp32.decode s.toNat with
  | .fin neg n _ => !neg && n != 0
  | _ => false

/-- A sign seed: its identity and its value (R11). -/
structure Seed where
  ident : BitVec 12
  value : BitVec 64
deriving DecidableEq, Repr

/-- The elements after alignment, signs and butterflies, or unchanged without rotation (R82, R83). -/
def rotateBlock (x : List FVal) (seed : Seed) (k : Nat) (noRot : Bool) : List FVal :=
  let m := maxAbs x
  if noRot || m.isZero then x
  else
    let e := m.floorLog
    let c := butterflies 7 (applySigns seed.value k (x.map fun v => v.truncScaled (30 - e)))
    c.map fun i => ofInt false i (e - 30)

/-- CardBlock of R82; a given scale stands for a block of zeros too, as the pseudocode and R89 have it (log 31). -/
def cardBlock (x : List FVal) (fmt : Fmt) (mode : RoundMode) (sat : Bool) (seed : Seed) (k : Nat) (noRot : Bool)
    (given : Option (BitVec 32)) : NarrowBlock :=
  let tag := if noRot then 0 else rotatedTag seed.ident
  let badScale := match given with
    | some s => !scalePositive s
    | none => false
  if x.any FVal.special || badScale then invalidBlock fmt tag
  else
    let y := rotateBlock x seed k noRot
    let scale := given.getD (blockScale (maxAbs y) fmt)
    let elems :=
      if x.all FVal.isZero then List.replicate 128 0
      else y.map (roundQuotient fmt mode sat (Fmt.fp32.decode scale.toNat))
    { fmt, elems, scale, tag }

/-- The scale `VQSCALE` keeps (R149). -/
def cardScale (x : List FVal) (fmt : Fmt) (seed : Seed) (noRot : Bool) : BitVec 32 :=
  if x.any FVal.special then 0x7FC00000 else blockScale (maxAbs (rotateBlock x seed 0 noRot)) fmt

/-! ## Widening (R94) -/

/-- Whether an encoding reads as invalid in a narrow block: NaN, or INT8 0x80 (R74, R94). -/
def elemInvalid (fmt : Fmt) (w : Nat) : Bool :=
  match fmt with
  | .int8 => w == 0x80
  | _ => fmt.decode w == .nan

/-- WidenBlock of R94 for a well-formed tag of AXIS 0; `seed` is the value of seedreg(T). -/
def widenBlock (fmt : Fmt) (elems : List Nat) (scale : BitVec 32) (rotated : Bool) (seed : BitVec 64) (k : Nat) :
    List Nat :=
  let v := elems.map fmt.decode
  let isInf : FVal → Bool := fun
    | .inf _ => true
    | _ => false
  if elems.any (elemInvalid fmt) || !scalePositive scale || (rotated && v.any isInf) then
    List.replicate 128 Fmt.fp32.canonNan
  else
    let sc := Fmt.fp32.decode scale.toNat
    if rotated then
      let q := if fmt = .int8 then 0 else fmt.qmin
      let c := applySigns seed k (butterflies 7 (v.map fun x => x.truncScaled (-q)))
      c.map fun i => Fmt.fp32.rne ((ofInt false i (q - 7)).mul sc)
    else v.map fun x => Fmt.fp32.rne (x.mul sc)

/-- Whether widening a block with this tag raises `ROT_TAG` before any seed is looked for (R94). -/
def tagUnwidenable (t : BitVec 16) : Bool := tagMalformed t || (t.getLsbD 15 && t.getLsbD 14)

/-! ## The group dot product (R95 to R99) -/

/-- The special cases of R96, in order; none where every product is finite. -/
def groupSpecial (ps : List FVal) : Option FVal :=
  if ps.any (· == .nan) then some .nan
  else
    match ps.any (· == .inf false), ps.any (· == .inf true) with
    | true, true => some .nan
    | true, false => some (.inf false)
    | false, true => some (.inf true)
    | false, false => none

/-- The exact sum of the products truncated to 72 bits (R95). -/
def groupExact (ps : List FVal) : FVal :=
  let m := maxAbs ps
  if m.isZero then .fin (ps.all FVal.sign) 0 0
  else
    let q := m.floorLog - 71
    ofInt false ((ps.map fun p => p.truncScaled (-q)).foldl (· + ·) 0) q

/-- GroupSum of R95 for floating pairs: one rounding to FP32. -/
def groupSum (p q : List FVal) : FVal :=
  let ps := List.zipWith FVal.mul p q
  match groupSpecial ps with
  | some v => v
  | none => Fmt.fp32.decode (Fmt.fp32.rne (groupExact ps))

/-- The exact integer sum of an INT8 pair (R99). -/
def groupInt (p q : List FVal) : Int :=
  (List.zipWith (fun a b => a.truncScaled 0 * b.truncScaled 0) p q).foldl (· + ·) 0

/-- The exponent adjustment of R97; none is `ROT_TAG` for the row. -/
def tagAdjust (a b : BitVec 16) : Option Int :=
  if a ≠ b ∨ tagMalformed a then none
  else if a = 0 then some 0
  else if a.getLsbD 14 then none
  else some (-7)

/-- t of R98: RNE_fp32(g × 2^adj × s). -/
def promote (g : FVal) (adj : Int) (s : FVal) : FVal :=
  Fmt.fp32.decode (Fmt.fp32.rne ((g.mul s).mul (.fin false 1 adj)))

end Sys2Proof.Machine
end

