-- ==== Sys2Proof/Machine/State.lean ====
section
/-! DEFINITION. The state of the KW-1 as plain data. A default value of a field is its value at reset, from the rule its
docstring cites; where the spec states none, the log entry named there. -/

namespace Sys2Proof.Machine

/-! ## Reasons to stop -/

/-- Why the machine stops with a fault. -/
inductive Fault where
  /-- Raised by `step` and `exec` once a fatal fault of a die has failed the device (R440): nothing runs any more. Safe. -/
  | deviceFailed
deriving DecidableEq, Repr

/-- Why an instruction has no meaning. -/
inductive Refusal where
  /-- Raised by an arm of `exec` that has no meaning yet. Safe. -/
  | notModelled (mnemonic : String)
deriving DecidableEq, Repr

/-! ## Registers and their writes -/

/-- What a fixed-latency result writes when it lands (R21). -/
inductive RegWrite where
  /-- A scalar register. -/
  | sreg (r : Nat) (v : SReg)
  /-- The bits of a mask register selected by `sel`. -/
  | kmask (r : Nat) (sel v : Mask)
  /-- The bits of a vector register selected by `sel`, and its side word (R15). -/
  | vrow (r : Nat) (sel v : Row) (side : SReg)
  /-- The side word alone (`VSIDEW`, R153). -/
  | side (r : Nat) (v : SReg)
  /-- The selected bits of row `r` of a transposer tile (R155). -/
  | tileRow (t r : Nat) (sel v : Row)
  /-- A whole transposer tile set to zero (R155). -/
  | tileClear (t : Nat)
  /-- Key and counter of a generator (R426). -/
  | gen (g : Nat) (key ctr : SReg)
  /-- A sign-seed register (R426). -/
  | seed (n : Nat) (v : Seed)
  /-- The configuration register of an engine (R166). -/
  | mcfg (e : Nat) (v : SReg)
  /-- An entry that enters a FIFO of an engine (R158, R159). -/
  | push (e : Nat) (isB : Bool) (fmt : Nat) (elems : BitVec 2048) (scale : BitVec 32) (tag : BitVec 16)
      (mask : BitVec 128)
  /-- A bank or core control register (R417). -/
  | csr (n : Nat) (v : SReg)
deriving DecidableEq, Repr

/-- A result that has issued and has not landed (R21 to R23). -/
structure InFlight where
  due : Nat
  issued : Nat
  pos : Nat
  bundle : Nat
  write : RegWrite
deriving DecidableEq, Repr

/-- The key and the counter of a generator (R102). -/
structure Gen where
  key : SReg := 0
  ctr : SReg := 0
deriving DecidableEq, Repr

/-! ## Matrix engines (R162) -/

/-- An entry of an A or B FIFO, and a column of a weight buffer. -/
structure FifoEntry where
  fmt : Nat
  elems : BitVec 2048
  scale : BitVec 32
  tag : BitVec 16
  mask : BitVec 128
deriving DecidableEq, Repr

/-- An `MLDB` in progress: its buffer, the clk it becomes available, the tile or none after a format failure (R168). -/
structure TileLoad where
  buf : Nat
  avail : Nat
  tile : Option (List FifoEntry)
deriving DecidableEq, Repr

/-- An issued `MMA` with rows not yet landed (R172). -/
structure MmaOp where
  issued : Nat
  bundle : Nat
  pos : Nat
  row0 : Nat
  rate : Nat
  ovw : Bool
  scl : Bool
  mcfg : SReg
  tile : List FifoEntry
  rows : List FifoEntry
  /-- A row of it has failed and been posted (R174). -/
  failed : Bool := false
  /-- Rows whose check has been made (R174). -/
  checked : Nat := 0
deriving DecidableEq, Repr

/-- One matrix engine of a bank. -/
structure MatEngine where
  /-- A FIFO, front first; empty after reset (R162). -/
  aFifo : List FifoEntry := []
  /-- B FIFO; empty after reset (R162). -/
  bFifo : List FifoEntry := []
  /-- Weight buffers; none is invalid (R162). -/
  wb0 : Option (List FifoEntry) := none
  wb1 : Option (List FifoEntry) := none
  load : Option TileLoad := none
  /-- Arriving A entries still to be discarded; 0 (R162). -/
  skip : Nat := 0
  /-- MCFG; 0 (R164). -/
  mcfg : SReg := 0
  ops : List MmaOp := []
  /-- The engine is occupied up to, not including, this clk (R172). -/
  busyUntil : Nat := 0
  /-- Clk and channel of the latest copy-channel delivery into each FIFO, for the order of one clk (R308). -/
  aLast : Nat × Nat := (0, 0)
  bLast : Nat × Nat := (0, 0)
deriving DecidableEq, Repr

/-! ## Sequencer -/

/-- An entry of the loop stack (R10). -/
structure LoopEntry where
  start : Nat
  stop : Nat
  remaining : BitVec 32
  index : BitVec 32
deriving DecidableEq, Repr

/-- A posted trap that has been detected and not yet taken (R33, R34). -/
structure PostedTrap where
  clk : Nat
  cause : Nat
  bundle : Nat
  pos : Nat
  /-- The clk in which the faulting bundle issued, for its age (R34). -/
  issued : Nat := 0
  /-- Detected during a drain: the record marks MORE (R403). -/
  more : Bool := false
  row : Option Nat := none
  addr : Option Nat := none
deriving DecidableEq, Repr

/-- The state of a bank (R400). -/
inductive BankState where
  | empty | runnable | waiting | halted | swapped
deriving DecidableEq, Repr

/-- An entry of a sequencer's load and store queues, or a marker among them, in age order (R265 to R267). The instruction
says what it does; the operands are those captured at issue. -/
structure QEntry where
  ins : Instr
  bundle : Nat
  pos : Nat
  clk : Nat
  addr : Nat := 0
  ops : List SReg := []
  row : Row := 0
  side : SReg := 0
  priv : Bool := false
  /-- Pieces already performed (R275) and the bytes they gave. -/
  done : List Nat := []
  got : BitVec 4608 := 0
  /-- How far a marker or an access of several steps has come. -/
  phase : Nat := 0
  /-- Data of the run-ahead entry that the load claimed at issue (R29). -/
  claimed : Option Nat := none
  /-- A load performed at issue would have returned the claimed data (R29; log 9). -/
  sure : Bool := false
  /-- It met a restartable fault and is kept with every younger entry (R281). -/
  kept : Bool := false
  /-- Number in the order in which the device's entries and commands were accepted. -/
  id : Nat := 0
deriving DecidableEq, Repr

/-- A restartable fault of a bank (R404, R410). -/
structure RestartFault where
  cause : Nat
  addr : Nat
  /-- Bytes of the access from its address on, for the page at fault (R387). -/
  bytes : Nat := 1
  bundle : Nat
  pos : Nat
  write : Bool
  answered : Bool := false
deriving DecidableEq, Repr

/-- A pre-issued load of the run-ahead buffer with its data (R28, R29). -/
structure RunAheadEntry where
  addr : Nat
  size : Nat
  gen : BitVec 4
  data : Nat
deriving DecidableEq, Repr

/-- What a sequencer waits for in a held `DEQ` or `BWAIT` (R215, R225). -/
structure Waiting where
  bundle : Nat
  since : Nat
  /-- Awaited phase of a `BWAIT`. -/
  phase : Option (BitVec 8) := none
deriving DecidableEq, Repr

/-- A dispatched item of the sequencer that has not completed (R195). -/
structure HeldItem where
  stage : Nat
  kind : Nat
  tag : Nat
  step : SReg
deriving DecidableEq, Repr

/-- The task a bank runs (R190, R384): its resident slot and version, stage, worker index, PASID, partition and
invocation. -/
structure Task where
  slot : Nat
  version : Nat
  stage : Nat
  worker : Nat
  pasid : Nat
  partition : Nat
  invocation : Nat
deriving DecidableEq, Repr

/-- One context bank (R11). -/
structure Bank where
  /-- EMPTY after reset (R400). -/
  state : BankState := .empty
  /-- Halted by a double trap or a trap with no vector (R401). -/
  haltFault : Bool := false
  /-- The halt has been reported to the control core (R126, R406). -/
  haltReported : Bool := false
  /-- S registers that are not zero by omission: every register reads zero after reset (R11). -/
  sregs : Table SReg := []
  kregs : Table Mask := []
  vregs : Table Row := []
  sides : Table SReg := []
  /-- Row r of tile t at key 128 t + r (R16). -/
  tiles : Table Row := []
  eng0 : MatEngine := {}
  eng1 : MatEngine := {}
  /-- Program counter, 0 (R10, R11). -/
  pc : Nat := 0
  /-- Loop stack, innermost entry first; empty (R10, R11). -/
  loops : List LoopEntry := []
  /-- Empty registers, one bit each; a register is full where the bit is 0 (R11, R17). -/
  sEmpty : BitVec 64 := 0
  kEmpty : BitVec 16 := 0
  vEmpty : BitVec 128 := 0
  gens : Table Gen := []
  seeds : Table Seed := []
  /-- Trap vector register, 0 (R401, R11). -/
  tvec : SReg := 0
  priv : Bool := false
  inTrap : Bool := false
  /-- Trap record words TREC0 to TREC15, 0 (R402, R418). -/
  trec : Table SReg := []
  inFlight : List InFlight := []
  posted : List PostedTrap := []
  /-- Load and store queues with their markers, oldest first (R266). -/
  queue : List QEntry := []
  fault : Option RestartFault := none
  /-- Arrival phases of b0 to b63; unlisted is invalid (R225; log 3). -/
  arrival : Table (BitVec 8) := []
  /-- The clk in which a `BARR` to each barrier was last applied or refused (R225). -/
  barrClk : Table Nat := []
  runAhead : List RunAheadEntry := []
  /-- Generation of the run-ahead unit (R29; log 3). -/
  raGen : BitVec 4 := 0
  waiting : Option Waiting := none
  /-- The `DEQ` bundle that stood at issue last and when it first did, until a bundle of the bank issues (R215). -/
  reached : Option (Nat × Nat) := none
  /-- The results that landed last, all in one clk, for data that arrive in that clk (R22). -/
  landedNow : List InFlight := []
  /-- An `IDLE` of the bank is held, and a wake has reached it (R423). -/
  idle : Bool := false
  woken : Bool := false
  item : Option HeldItem := none
  /-- STEP of the item most recently delivered (R345). -/
  lastStep : SReg := 0
  /-- The clk in which each scalar register last changed, for the timing of R116. -/
  sChanged : Table Nat := []
  /-- The sequencer replays a restored segment of a stage and tag (R347). -/
  replaying : Option (Nat × Nat) := none
  /-- A pre-emption has stopped the bank and its swap has not ended (R407). -/
  stopped : Bool := false
  /-- The clk of its halt, for the first worker to halt with a record (R468). -/
  haltClk : Nat := 0
  task : Option Task := none
deriving DecidableEq, Repr

/-! ## Issue -/

/-- How the bundle at issue has fared: still open, trapped, or held (R8). -/
inductive IssueStatus where
  | open | trapped | held
deriving DecidableEq, Repr

/-- The issue context: the bundle at issue, the modes its prefix sets (R24) and how far it has come. A field of the
model's own; empty at reset (log 7). -/
structure Ctx where
  core : Nat := 0
  bank : Nat := 0
  /-- Bundle address and bytes (R38). -/
  addr : Nat := 0
  len : Nat := 4
  /-- Position of the slot now executed (R7). -/
  pos : Nat := 0
  rm : Nat := 0
  sat : Bool := false
  maskReg : Nat := 0
  strict : BitVec 16 := 0
  /-- The STRICT bits that name a source some slot of the bundle has (R25). -/
  named : BitVec 16 := 0
  /-- Payloads of the E slots before the slot now executed (R43). -/
  ext : List (BitVec 25) := []
  /-- Every slot of the bundle has been examined for issue traps and holds. -/
  checked : Bool := false
  /-- Target of a transfer made by the bundle. -/
  next : Option Nat := none
  /-- Clk from this bundle to the next. -/
  gap : Nat := 1
  status : IssueStatus := .open
deriving DecidableEq, Repr

/-- Why a core drains (R403). -/
inductive DrainReason where
  | fault | preempt | ctxsw | answered
deriving DecidableEq, Repr

/-- A drain in progress: its bank, reason and the clk in which it began (R403). -/
structure Drain where
  bank : Nat
  reason : DrainReason
  since : Nat
deriving DecidableEq, Repr

/-! ## Engine commands -/

/-- The issuing bank's state captured when a command is accepted (R303). -/
structure Captured where
  core : Nat
  bank : Nat
  bundle : Nat
  pos : Nat
  issued : Nat
  priv : Bool
  invocation : Nat
  stage : Nat
  partition : Nat
  seeds : Table Seed
  /-- Open shadows that the command's writes land in, as die and number of the opening (R315, R364). -/
  shadows : List (Nat × Nat)
  /-- The releases of the issuing sequencer that had still to take effect, by number (R354). -/
  after : List Nat
deriving DecidableEq, Repr

/-- An accepted `SHOPEN`, `PUBLISH`, `SPLIT`, `CKPT`, `CHPOST` or `CHACK` that has not had its effect; it runs to its end whatever its
bank does (R351, R354). -/
structure Command where
  who : Captured
  ins : Instr
  addr : Nat := 0
  ops : List SReg := []
  /-- Its number among entries and commands, and the queue entries that are performed before its effect. -/
  id : Nat
  waits : List Nat := []
  /-- The sequencers a `CKPT` covers, as worker, core and bank, with their registers once captured (R344). -/
  covers : List (Nat × Nat × Nat × Option Nat) := []
deriving DecidableEq, Repr

/-- A command block (R306). -/
structure CopyBlock where
  kind : Nat
  flags : Nat
  dspace : Nat
  sspace : Nat
  bar : Nat
  param : Nat
  src : Nat
  dst : Nat
  len : Nat
  rows : Nat
  spitch : Nat
  dpitch : Nat
  aux : Nat
  link : Nat
  /-- A reserved field or value is set (R306). -/
  bad : Bool
  /-- Its bytes are counted when it starts: a gather whose pattern an earlier accepted `PATTERN` has still to write, or a block whose
  header did not give them (R312, R353, R355). -/
  deferred : Bool := false
deriving DecidableEq, Repr

/-- An accepted copy command: its blocks still to run, first the running one (R311). -/
structure CopyCmd where
  who : Captured
  blocks : List CopyBlock
  /-- It runs on the transform engine (R311). -/
  onEngine : Bool
  /-- MCFG of the two engines of the bank at acceptance (R303, R354; log 18). -/
  mcfg0 : SReg := 0
  mcfg1 : SReg := 0
  /-- Barriers that hold a provisional byte (R352). -/
  provisional : List Nat := []
  /-- Counted bytes of each block, once fixed (R312, R352). -/
  counted : List Nat := []
  fixed : Bool := false
  started : Bool := false
  /-- Units of the running block already delivered. -/
  progress : Nat := 0
  /-- Counted bytes of the running block still to subtract. -/
  left : Nat := 0
  /-- The chain's intermediate (R311). -/
  inter : List Host.Cell := []
  /-- Blocks that a request has returned, or FIFO entries that wait for room (R259, R308). -/
  waiting : List FifoEntry := []
  /-- Source and destination header of the running block, as read at its start. -/
  heads : List Nat := []
  /-- Bytes of a sparse source already read. -/
  srcOff : Nat := 0
  /-- The end of what it has written in the scratchpad (R305). -/
  top : Nat := 0
  /-- Element bytes of the running gather, as its request found them (R307). -/
  esize : Nat := 1
  /-- A sparse block whose place is reserved and that is still to be written: its address, bytes and data (R307). -/
  held : Option (Nat × Nat × Nat) := none
deriving DecidableEq, Repr

/-- One copy channel (R303, R305). -/
structure Channel where
  /-- Accepted commands, oldest first; at most the first runs. -/
  queue : List CopyCmd := []
  /-- WPn.OFFSET, 0 (R305). -/
  offset : Nat := 0
  /-- Scratchpad bytes written in the clk named, for the rate of R303. -/
  rateClk : Nat := 0
  rateBytes : Nat := 0
deriving DecidableEq, Repr

/-- An entry of the stash table (R331, R336). -/
structure StashEntry where
  state : Nat := 0
  stage : Nat := 0
  mode : Nat := 0
  header : Nat := 0
  len : Nat := 0
  /-- Region granules of the held copy. -/
  granules : List Nat := []
  /-- 0 none, 1 home payload, 2 pool, 3 LPDDR-6, 4 host. -/
  loc : Nat := 0
  checksum : Option SReg := none
  err : Nat := 0
  seed : Seed := ⟨0, 0⟩
  fmt : Nat := 0
  rows : Nat := 0
  rowLen : Nat := 0
  /-- Bytes of the held copy, and the scales of a narrowed one by block (log 20). -/
  copyBytes : Nat := 0
  scales : List (BitVec 32) := []
  /-- Address of the home payload. -/
  payload : Nat := 0
  /-- The clk from which the engine takes a fetch of the scheduler after one has failed (R199; log 20). -/
  retryAt : Nat := 0
deriving DecidableEq, Repr

/-- A command of the stash engine (R356, R357, R359). -/
structure StashCmd where
  /-- 0 STASH, 1 SFETCH, 2 SFREE, 3 a fetch the scheduler started (R199). -/
  op : Nat
  mode : Nat := 0
  header : Nat := 0
  key : Nat
  resv : Nat := 0
  bar : Option Nat := none
  who : Captured
  /-- What the acceptance captures: the stage's occupancy, whether the tag is recompute-eligible, the seed of a narrowed copy
  (R334, R339, R341). -/
  occupied : Nat := 0
  eligible : Bool := false
  seed : Seed := ⟨0, 0⟩
  /-- Its number in the order of acceptance. -/
  id : Nat := 0
  /-- Its turn on the key has come, since which clk, with the entry as it was before (R336). -/
  begun : Bool := false
  since : Nat := 0
  old : Option StashEntry := none
  /-- Its bytes are counted. -/
  running : Bool := false
  left : Nat := 0
  /-- The mode being tried is not the one requested (R339, R341). -/
  chained : Bool := false
  /-- Its spill has been aborted and may not go on (R340). -/
  aborted : Bool := false
  /-- The copy and the header are written, and the payload is being zeroed (R335). -/
  copied : Option StashEntry := none
deriving DecidableEq, Repr

/-! ## Core -/

/-- One core: two banks and what they share (R11, R31). -/
structure Core where
  /-- Bank 0 is active after reset (R11). -/
  active : Nat := 0
  /-- BANKCTL.RETURN, 1 (R405). -/
  returnBit : Bool := true
  /-- Wake-pending flag, clear (R423). -/
  wakePending : Bool := false
  /-- The clk from which the next bundle may issue. -/
  nextIssue : Nat := 0
  /-- The clk after the one in which an answered bank last became active (R405). -/
  regained : Nat := 0
  /-- The clk after the one in which a bundle of the core last stood at issue. -/
  examined : Nat := 0
  /-- The power arbiter holds issue before this clk (R8, R477). -/
  powerUntil : Nat := 0
  /-- The clk of the latest sparse scratchpad access, and its port bytes beyond 512 (R31). -/
  sparseClk : Nat := 0
  sparseBytes : Nat := 0
  bank0 : Bank := {}
  bank1 : Bank := {}
  /-- Scratchpad (R31); unlisted bytes read zero (log 1). -/
  pad : List Host.Cell := []
  drain : Option Drain := none
  /-- Segments expanded in the two halves of the loop buffer, slot and start, the latest expanded first (R30; log 3). -/
  segments : List Nat := []
  /-- Copy channels cc0 to cc3 (R303). -/
  channels : Table Channel := []
  /-- Stash queue of the core: the numbers of its accepted commands that the engine has not taken (R350). -/
  stashQueue : List Nat := []
  /-- First-level TLB, most recent first: the task that loaded an entry, the VBASE of its extent, and its G (R385; log 3). -/
  tlb : List (Nat × Nat × Bool) := []
deriving DecidableEq, Repr

/-! ## Cluster -/

/-- A barrier (R222); all fields 0 after reset. -/
structure Barrier where
  phase : BitVec 8 := 0
  expect : Nat := 0
  remain : Nat := 0
  early : Nat := 0
  pending : Nat := 0
  err : Bool := false
  errCode : Nat := 0
  lastErr : Nat := 0
  /-- The clk of the latest completion, for the clk after it in which a `BWAIT` issues (R225). -/
  doneClk : Nat := 0
deriving DecidableEq, Repr

/-- A line of the L2 slice: 128 bytes, valid and dirty per byte, and which of the 16 sequencers wrote it (R238). -/
structure Line where
  bytes : BitVec 1024 := 0
  valid : BitVec 128 := 0
  dirty : BitVec 128 := 0
  writers : BitVec 16 := 0
  /-- CZ of the mapping of the latest store to it (R244; log 10). -/
  cz : Bool := false
deriving DecidableEq, Repr

/-- A drain of the cluster SRAM: the new n and the clk it ends (R237). -/
structure SplitDrain where
  banks : Nat
  ends : Nat
deriving DecidableEq, Repr

/-- One cluster (R236 to R238, R222). -/
structure Cluster where
  /-- L2 banks n, 4 after reset (R236). -/
  banks : Nat := 4
  split : Option SplitDrain := none
  /-- Slice lines by physical address / 128; none after reset (R238). -/
  lines : Table Line := []
  /-- Cluster memory; unlisted bytes read zero (log 1). -/
  cmem : List Host.Cell := []
  barriers : Table Barrier := []
  /-- Shadow storage: the bank held for each core, with its bank number (R408). -/
  shadow : Table (Nat × Bank) := []
  /-- What of those images has been written to a save area: address, bytes and data, by the same keys (R408). -/
  saved : Table (Nat × Nat × Nat) := []
deriving DecidableEq, Repr

/-! ## Device -/

/-- A policy entry (R201). -/
structure PolicyEntry where
  act : Nat := 0
  valid : Bool := false
  kinds : Nat := 0
  lo : Nat := 0
  hi : Nat := 0
  below : Bool := false
  stash : Nat := 0
  slmax : Nat := 0
  slmin : Nat := 0
  age : Nat := 0
deriving DecidableEq, Repr

/-- A stage descriptor of an image with its policy table (R188, R200). -/
structure StageImage where
  stage : Nat := 0
  nq : Nat := 1
  bank : Nat := 0
  entry : Nat := 0
  qkinds : List Nat := []
  slotBase : Nat := 0
  ageLim : Nat := 4096
  sbudget : Nat := 0
  warmup : Nat := 1
  flags : Nat := 0
  entries : List PolicyEntry := []
deriving DecidableEq, Repr

/-- A resident model slot (R187): its native code (R68, log 13), segments, stage descriptors and seed list are those of the
image loaded. -/
structure ModelSlot where
  loaded : Bool := false
  code : List Slot := []
  /-- Start offset and bytes of each segment (R68). -/
  segments : List (Nat × Nat) := []
  seeds : Table Seed := []
  /-- Highest index a `.reloc` names + 1 (R66). -/
  relocs : Nat := 0
  /-- Version indices present, and CUR (R187). -/
  present : BitVec 4 := 0
  current : Nat := 0
  /-- Weights installed by `VERSION`, by index (R210). -/
  weights : Table (List Byte) := []
  stages : List StageImage := []
  /-- Placed data and header-image sections: virtual base and length (R382). -/
  placed : List (Nat × Nat) := []
  /-- SHA-256 of the image, the measurement of the slot (R475). -/
  measure : Nat := 0
deriving DecidableEq, Repr

/-! ## Main memory (R239 to R254) -/

/-- A page record (R242, R243); unlisted is as reset: zero blocks, no batt, RESIDENT. -/
structure Page where
  /-- ALG and SIZE of blocks 0 to 15; empty stands for sixteen zero blocks. -/
  blocks : List (Nat × Nat) := []
  /-- Numbers of the batts held, in BATTS order. -/
  batts : List Nat := []
  /-- Memory tags, 4 bits for each 32-byte granule (R257). -/
  tags : BitVec 512 := 0
  /-- 0 RESIDENT, 1 EVICTED-LP, 2 EVICTED-HOST, 3 CLAIMED. -/
  state : Nat := 0
  algm : BitVec 3 := 7
  shadow : Bool := false
  migrating : Bool := false
  access : Nat := 0
  fwd : Nat := 0
deriving DecidableEq, Repr

/-- A page of an open shadow (R315). -/
structure ShadowPage where
  record : Page
  /-- Bytes by offset within the page. -/
  bytes : List Host.Cell
  /-- It still shares the batts of the current copy. -/
  shares : Bool := true
deriving DecidableEq, Repr

/-- An open shadow (R315). -/
structure Shadow where
  /-- The number of the command that opened it, which no other shadow has. -/
  id : Nat := 0
  base : Nat
  bytes : Nat
  invocation : Nat
  /-- The page at its base. -/
  first : Nat
  pages : Table ShadowPage
deriving DecidableEq, Repr

/-- Where bytes lie. -/
inductive Loc where
  | home (die off : Nat)
  | lp (die off : Nat)
  | host (addr : Nat)
  | other (addr : Nat)
  | signal (off : Nat)
  /-- The register space of a die, where no chapter places a register (log 36). -/
  | register (die off : Nat)
  | nothing
deriving DecidableEq, Repr

/-- Who writes a page (R244): a bank, a copy channel, a stash command, a deposit, the host, a slice that writes back, which never waits
(log 10), or the walker that sets A and D (R381). -/
inductive Writer where
  | bank (core bank : Nat)
  | copy (core chan : Nat)
  | stash (die key : Nat)
  | ckpt (core bank : Nat)
  | channel (chan : Nat)
  | deposit (chan : Nat)
  | host
  | collective (step bucket : Nat)
  | migration (core bank : Nat)
  | slice (cluster : Nat)
  | walker
  /-- A `LOAD` by its queue and sequence number (R244, R486; log 67). -/
  | load (queue seq : Nat)
  /-- The control core that writes back a snapshot set, or a spare's fill (R455, R457). -/
  | fill
deriving DecidableEq, Repr

/-- An engine that waits for the answer to a page's fault (R313, R387); a verdict is the cause it must fail with. -/
structure EngineWait where
  who : Writer
  invocation : Nat
  page : Nat
  cause : Nat
  write : Bool
  verdict : Option Nat := none
deriving DecidableEq, Repr

/-- A waiter of the balloon engine (R252). -/
structure Waiter where
  who : Writer
  need : Nat
  since : Nat
deriving DecidableEq, Repr

/-- A snapshot record of `CKPT` (R345). -/
structure SnapRecord where
  stage : Nat
  tag : Nat
  scope : Nat
  step : SReg
  /-- Region granules of the record, which hold its bytes. -/
  granules : List Nat := []
  /-- Worker indices of the covered sequencers. -/
  covered : List Nat
deriving DecidableEq, Repr

/-- One die. -/
structure Die where
  /-- CMPCTL: ALGS 7, RECALL 1, the rest 0 (R247). -/
  cmpctl : SReg := 0x3C00
  /-- CMPWM (R248). -/
  cmpwm : SReg := 0x0008000000020000
  refused : Bool := false
  /-- CMPCNT, 0 (R249). -/
  cmpcnt : SReg := 0
  /-- Free batts as ranges of first number and count; the whole batt store (R239, R249). -/
  free : List (Nat × Nat) := [(0, 287834112)]
  pages : Table Page := []
  /-- Home memory by presented offset; never-written bytes read zero (R240). -/
  home : List Host.Cell := []
  /-- LPDDR-6 tier by offset from its start; unlisted bytes read zero (log 1). -/
  lp : List Host.Cell := []
  /-- Balloon engine state, IDLE (R251). -/
  balloon : Nat := 0
  balloonList : List Nat := []
  targetList : List SReg := []
  waiters : List Waiter := []
  /-- Batts set aside for an answered waiter (R252). -/
  aside : List (Writer × List Nat) := []
  /-- Evictions in progress: page, target, clk (R253). -/
  evictions : List (Nat × SReg × Nat) := []
  lastClaim : Nat := 0
  /-- Stride patterns; invalid (R258; log 3). -/
  patterns : Table (BitVec 256) := []
  /-- Stride status: COUNT and CODE; 0 (R260). -/
  patStatus : Table SReg := []
  shadows : Table Shadow := []
  /-- Stash table by key (R331). -/
  stash : Table StashEntry := []
  /-- Accepted commands of the stash engine that have not ended, in the order of acceptance (R336). -/
  stashRunning : List StashCmd := []
  /-- STPOOL, STLP, STHOST, SNPPOOL at 0 to 3; 0 (R332). -/
  regions : Table SReg := []
  /-- STPOL0 to STPOL15; unlisted has its reset value (R332). -/
  stpol : Table SReg := []
  snaps : List SnapRecord := []
  /-- The 2^20-clk epoch in which ACCESS was last halved (R256). -/
  halved : Nat := 0
  /-- Remote-data cache lines by physical address / 128; none (R437; log 3). -/
  rdc : Table (BitVec 1024) := []
  /-- The directory: for each line of the die that a remote-data cache holds, its sharers, a bit for each other die in rising order
  (R438). -/
  directory : Table (BitVec 3) := []
deriving DecidableEq, Repr

/-! ## Translation (R383, R384) -/

/-- An extent entry. -/
structure Extent where
  vbase : Nat
  units : Nat
  p : Bool := true
  w : Bool := false
  u : Bool := false
  g : Bool := false
  tg : Bool := false
  cz : Bool := false
  sh : Bool := false
  hm : Bool := false
  fine : Bool := false
  rvk : Bool := false
  shsel : Option Nat := none
  pbase : Nat := 0
deriving DecidableEq, Repr

/-- A record of a page fault that waits for its answer: of a task's device page (R388), or of a PASID's host page (R389), whose
`invocation` is that of the access that raised it first. -/
structure FaultRecord where
  invocation : Nat
  pasid : Nat
  page : Nat
  write : Bool
  host : Bool
  /-- The group of its request, once it has been sent. -/
  group : Option Nat := none
  /-- The host has granted the page, or none need ask; its translation has been asked for (R387, R390). -/
  granted : Bool := false
deriving DecidableEq, Repr

/-! ## Scheduler (R186 to R211) -/

/-- An arrival record (R196): tag, step, header address, producing core or none for a channel. -/
structure Arrival where
  tag : Nat
  step : SReg
  addr : SReg
  producer : Option Nat
  entered : Nat
deriving DecidableEq, Repr

/-- A bound tag (R197): its version and how far its items have come. Progress of an item: 0 not there, 1 created,
2 dispatched, 3 completed. -/
structure BoundTag where
  version : Nat
  f : Arrival
  fState : Nat := 2
  rState : Nat := 0
  bState : Nat := 0
  wState : Nat := 0
  b : Option Arrival := none
  /-- Cores that ran the F, R and B. -/
  ran : List Nat := []
  abandoned : Bool := false
deriving DecidableEq, Repr

/-- A ready item: kind, tag, the number of the arrival record that orders it, and the clk it last became ready (R198, R204). -/
structure ReadyItem where
  kind : Nat
  tag : Nat
  entered : Nat
  since : Nat
deriving DecidableEq, Repr

/-- A stage (R186 to R189, R200). -/
structure Stage where
  configured : Bool := false
  partition : Nat := 0
  cores : List Nat := []
  bank : Nat := 0
  slot : Nat := 0
  nq : Nat := 1
  qkinds : List Nat := []
  slotBase : Nat := 0
  entry : Nat := 0
  ageLim : Nat := 4096
  sbudget : Nat := 0
  warmup : Nat := 1
  flags : Nat := 0
  entries : List PolicyEntry := []
  /-- Firmware descriptor, 0 (R189). -/
  tvec : SReg := 0
  fwPriv : Bool := false
  /-- Workers of the stage have been started since its slot was loaded (R188). -/
  invoked : Bool := false
  fArr : List Arrival := []
  bArr : List Arrival := []
  fReserved : Nat := 0
  bReserved : Nat := 0
  tags : Table BoundTag := []
  ready : List ReadyItem := []
  /-- The clk of the next round while the stage has demand, and the clk after the latest round (R203). -/
  round : Option Nat := none
  rounded : Nat := 0
  arrivals : Nat := 0
deriving DecidableEq, Repr

/-- A record in a work queue with its token: four words, the producing cores, and the least acquire (R193, R211). -/
structure QRecord where
  words : List SReg
  producers : List Nat
  fromItem : Bool := false
  /-- The acquire is at `.die` or wider whatever the producers are (R211, R337). -/
  wide : Bool := false
  /-- Cores whose completion of an earlier item of the tag the delivery follows (R211). -/
  after : List Nat := []
deriving DecidableEq, Repr

/-- A work queue (R194, R218, R220). -/
structure WorkQueue where
  records : List QRecord := []
  reserved : Nat := 0
  closed : Bool := false
  closer : Option Nat := none
  /-- Waiting sequencers as core and bank, first the one that has waited longest (R215). -/
  waiters : List (Nat × Nat) := []
  /-- A record or item bound to a waiting worker: the worker, the record and the landing clk, 0 for issue + 4 (R204, R215, R219). -/
  bound : List (Nat × Nat × QRecord × Nat) := []
  /-- A `DEQT` found it empty: demand for one round (R216). -/
  once : Bool := false
  /-- Items a round has placed, each with the clk in which it enters (R216, R218; log 33). -/
  placed : List (Nat × QRecord) := []
deriving DecidableEq, Repr

/-! ## Tensor channels and collectives -/

/-- A packet queued at a sender (R319). -/
structure Packet where
  who : Captured
  descriptor : SReg
  headerAddr : Nat
  /-- The header captured once read (R360). -/
  header : Option Nat := none
  counted : Nat := 0
  provisional : Bool := false
  seq : Nat := 0
  offset : Nat := 0
  pad : Nat := 0
  payload : List Byte := []
deriving DecidableEq, Repr

/-- One end of a tensor channel (R317). -/
structure TensorChannel where
  bound : Bool := false
  sender : Bool := false
  stage : Nat := 0
  peer : Nat := 0
  /-- Peer coordinate, laid out as TCOORD bits 20:0. -/
  peerPos : Nat := 0
  w : Nat := 0
  sent : Nat := 0
  consumed : Nat := 0
  deposited : Nat := 0
  seq : Nat := 0
  rbase : Nat := 0
  sq : List Packet := []
  replay : List Packet := []
  /-- Regions the channel itself consumes: pads and failed deposits, as start and length (R321, R484). -/
  selfConsumed : List (Nat × Nat) := []
  /-- Invocation whose extents the receiver's buffer is translated with. -/
  who : Option Captured := none
deriving DecidableEq, Repr

/-- A chunk that waits in the collective engine (R324): its half and number, the count of ranks so far, whether it is final, and
its values. -/
structure Chunk where
  half : Nat
  chunk : Nat
  count : Nat
  final : Bool
  values : List Nat
deriving DecidableEq, Repr

/-- A bucket held by the collective engine (R323 to R327). -/
structure Bucket where
  who : Captured
  bar : Nat
  descAddr : Nat
  fixed : Bool := false
  inAddr : Nat := 0
  outAddr : Nat := 0
  count : Nat := 0
  bucket : Nat := 0
  step : Nat := 0
  sig : Nat := 0
  norm : Nat := 0
  normEn : Bool := false
  avg : Bool := false
  started : Bool := false
  /-- Elements of OUT written, as first element and number, and the values added to the norm register. -/
  written : List (Nat × Nat) := []
  added : List Nat := []
  /-- Ranks whose completion mark has come. -/
  marks : List Nat := []
  marked : Bool := false
  left : Nat := 0
  /-- Chunks that wait in the engine. -/
  early : List Chunk := []
  /-- The ring has been reconfigured and the bucket is still to be settled (R328). -/
  unsettled : Bool := false
  /-- The contributions in each chunk whose results are written: its half, its number and the count (R325). -/
  counts : List (Nat × Nat × Nat) := []
deriving DecidableEq, Repr

/-- A norm register (R101); 0 at reset, where the spec gives no value (log 2). -/
structure Norm where
  a : BitVec 128 := 0
  e : BitVec 8 := 0
deriving DecidableEq, Repr

/-! ## Host interface -/

/-- A completion that is held: CID, SEQ, STATUS, INFO, and the queue of the command it answers; none for an admin event. -/
structure HeldCompletion where
  cid : Nat
  seq : Nat
  status : Nat
  info : Nat
  source : Option Nat
deriving DecidableEq, Repr

/-- A host queue descriptor (R463). -/
structure HostQueue where
  ring : Nat := 0
  cpl : Nat := 0
  rlog : Nat := 6
  clog : Nat := 6
  g : Nat := 1
  pasid : Nat := 0
  head : Nat := 0
  tail : Nat := 0
  ctail : Nat := 0
  cphase : Bool := true
  valid : Bool := false
  pnotify : Bool := false
  mapped : Bool := false
  /-- A notify has reached the queue's slot since its last poll (R413). -/
  notified : Bool := false
  /-- The ring was empty at the queue's last poll (R465). -/
  emptied : Bool := false
  stopped : Bool := false
  vec : Nat := 0
  save : Nat := 0
  part : Nat := 0
  /-- Completions held because the ring is full (R469). -/
  heldCpl : List HeldCompletion := []
  /-- Next journal sequence number. -/
  seq : Nat := 0
  /-- Entries written to the completion ring, and entries the host has taken from it (R469). -/
  written : Nat := 0
  taken : Nat := 0
deriving DecidableEq, Repr

/-- A journal entry in one of its copies (R459). -/
structure JournalEntry where
  /-- The die whose control core keeps it. -/
  die : Nat := 0
  seq : Nat
  queue : Nat
  /-- 1 ACCEPTED, 2 DISPATCHED, 3 COMPLETED. -/
  state : Nat
  status : Nat := 0
  ring : Nat
  /-- The 64 bytes of the command, as fetched. -/
  body : Nat
  /-- The CRC that stands in this copy is that of its bytes (R460). -/
  intact : Bool := true
deriving DecidableEq, Repr

/-- An invocation (R190, R192, R468). -/
structure Invocation where
  slot : Nat
  version : Nat
  queue : Nat
  seq : Nat
  cid : Nat
  stages : List Nat
  recAddr : Nat
  addrs : List SReg
  ranges : List (Nat × Nat × Bool)
  pasid : Nat
  partition : Nat
  /-- The walk has completed and the workers have started. -/
  running : Bool := false
  /-- Workers not yet halted, as core and bank. -/
  workers : List (Nat × Nat) := []
  /-- Clk, core and record of the first worker to halt with a record (R468). -/
  faulted : Option (Nat × Nat × Table SReg) := none
  /-- The walk has not completed. -/
  walking : Bool := true
  /-- The clk of the dispatch (R382). -/
  since : Nat := 0
  /-- Host pages of the set whose translation was asked for at dispatch, and those the latest walks found (R379, R387). -/
  asked : List Nat := []
  hostPages : List Nat := []
deriving DecidableEq, Repr

/-- A pre-emption or restore of a bank of a partition in progress (R407, R408). -/
structure Swap where
  partition : Nat
  bank : Nat
  /-- True while swapping in. -/
  inward : Bool
  /-- The save area of the partition's queue (R408). -/
  save : Nat
  /-- Host command to complete, as queue and sequence number. -/
  command : Option (Nat × Nat) := none
deriving DecidableEq, Repr

/-- A PASID teardown (R393). -/
structure Teardown where
  pasid : Nat
  since : Nat
  queue : Nat
  seq : Nat
  cid : Nat
deriving DecidableEq, Repr

/-- A migration (R397, R398). -/
structure Migration where
  who : Captured
  /-- Address of the command, which has been read once `known` is set, and its lists once `taken` is (R429). -/
  addr : Nat
  known : Bool := false
  npages : Nat := 0
  list : Nat := 0
  taken : Bool := false
  kind : Nat := 0
  trailer : Bool := false
  /-- Virtual pages, and the frames they move to. -/
  pages : List Nat := []
  frames : List Nat := []
  dest : Nat := 0
  trl : Nat := 0
  stat : Nat := 0
  pass : Nat := 0
  /-- The final pass holds writes to the pages (R397). -/
  final : Bool := false
  /-- It has ended with this status, which is still to be written (R429). -/
  ended : Option Nat := none
deriving DecidableEq, Repr

/-- A page that a migration has moved: a table of this root that still maps it to the former frame is read as mapping it to the new one
(R397; log 23). -/
structure MovedPage where
  root : Nat
  va : Nat
  source : Nat
  /-- The new frame is a host frame (R398). -/
  hm : Bool
  frame : Nat
deriving DecidableEq, Repr

/-- A snapshot set of the device: step, journal mark, digest, and what it holds (R454). -/
structure SnapshotSet where
  step : Nat
  queue : Nat
  mark : Nat
  digest : Nat
  /-- Bytes of the extents and of the stash and snapshot regions, as location, count and value. -/
  memory : List (Loc × Nat × Nat) := []
  slots : Table ModelSlot
  /-- Stash tables and snapshot records of the dies. -/
  stash : Table (Table StashEntry × List SnapRecord) := []
  tensors : Table TensorChannel
  phase : BitVec 32
deriving DecidableEq, Repr

/-- A job the host has registered (R453, R454). -/
structure Job where
  elastic : Bool := false
  holders : List Nat := []
  stages : List Nat := []
  /-- Extents named at registration, physical base and bytes. -/
  extents : List (Nat × Nat) := []
  /-- The `SNAPSHOT` commands that wait, in order: queue, sequence number, step. -/
  wanted : List (Nat × Nat × Nat) := []
  /-- The set that has been sent, and the holders whose digest has come. -/
  sent : Option SnapshotSet := none
  answered : List Nat := []
  /-- The device's complete snapshots, newest first; which of them is the job's last complete one, the whole job decides (R454). -/
  kept : List SnapshotSet := []
  /-- A rollback is under way on some device of the job: no bank of the job issues (R455). -/
  rolling : Bool := false
deriving DecidableEq, Repr

/-- The fill of a spare (R456 to R458). -/
structure Fill where
  /-- The next chunk, the device that the latest one came from, and the chunks written, newest first. -/
  next : Nat := 0
  source : Nat := 0
  parts : List FillPart := []
  /-- 0 chunks come; 1 the digest has matched; 2 PHASECNT has been written; 3 no source is left. -/
  stage : Nat := 0
deriving DecidableEq, Repr

/-- What the device has sent outside, or from one of its channel ends to another, and nothing has received yet. -/
inductive Flit where
  | phase (port value : Nat)
  | window (chan w : Nat)
  | consumed (chan value : Nat)
  | packet (chan seq : Nat)
  | ack (chan seq : Nat)
  | chunk (port step bucket : Nat) (chunk : Chunk)
  | mark (port step bucket rank : Nat)
  | failure (port step bucket cause rank : Nat)
  | settled (port step bucket : Nat) (complete : Bool)
  | pageRequest (group page : Nat) (write last : Bool)
  | atsRequest (pasid page : Nat)
  | stopMarker (pasid : Nat)
  | invalidationDone (tag : Nat)
  | msix (vec : Nat)
  | snapshotSet (holder : Nat) (header : List Byte)
  | fillAck (chunk : Nat)
  | windowRead (data : List Byte)
  | spdm (answer : List Byte)
  | portDown (port : Nat)
  | failureReport (port : Nat)
  | ready
  /-- A flit for another device, by the port through which it has left (R442, R446). -/
  | via (port : Nat) (f : Flit)
deriving DecidableEq, Repr

/-- A device, host or engine register file by name. -/
structure Regs where
  /-- ARBCTL (R330). -/
  arbctl : SReg := 0x04040404
  /-- PHASECNT.PHASE (R450), and its value at the start of the clk, which the scheduler sees (R227). -/
  phase : BitVec 32 := 0
  seen : BitVec 32 := 0
  /-- LEADCFG.L (R450). -/
  lead : Nat := 0
  /-- NBR0 to NBR7 (R450). -/
  nbr : Table SReg := []
  tcoord : SReg := 0
  domcfg : SReg := 0
  ringcfg : SReg := 0
  rport : Table SReg := []
  /-- PWRCTL: BUDGET 3,000 (R478). -/
  pwrctl : SReg := 3000
  /-- PISL0 to PISL23; unlisted has its reset value (R478). -/
  pisl : Table SReg := []
  pgrant : Table SReg := []
  ptroot : Table SReg := []
  pvec : Table SReg := []
  /-- TLINK in clk, 100 us (R445). -/
  tlink : Nat := 125000
  /-- TFAIL in clk, 50 us (R456). -/
  tfail : Nat := 62500
  /-- Teardown time-out in clk, 1 ms (R393). -/
  teardown : Nat := 1250000
  /-- Frame length in clk, 4 us (R471). -/
  frame : Nat := 5000
deriving DecidableEq, Repr

/-- A step whose clk the spec fixes. -/
inductive Due where
  /-- A covered sequencer takes the registers of a snapshot (R346). -/
  | replayRestore (core bank stage tag : Nat) (gens : Table Gen) (seeds : Table Seed)
  /-- The sequencers that a `CKPT` covers, but for its issuer, are captured (R344). -/
  | snapCapture (id : Nat)
  /-- The device sends its phase (R451). -/
  | phaseFlit
deriving DecidableEq, Repr

/-- The state of the machine. -/
structure State where
  /-- The device clock counter, 0 (R256, R402). -/
  clk : Nat := 0
  /-- The device has failed as a whole (R440). -/
  failed : Bool := false
  ctx : Ctx := {}
  /-- Steps of engines, memory and the outside, each with a stamp: twice the clk in which it happens, one more for
after the bundles of that clk (log 5). -/
  script : List (Nat × Instr) := []
  /-- The steps whose time the spec leaves open happen only where the script has them (log 5). -/
  paced : Bool := false
  /-- Steps whose clk the spec fixes, waiting for it (log 5). -/
  calendar : List (Nat × Due) := []
  /-- How many open values have been drawn (log 12). -/
  draws : Nat := 0
  cores : Table Core := []
  clusters : Table Cluster := []
  slots : Table ModelSlot := []
  dies : Table Die := []
  norms : Table Norm := []
  /-- Signal page of 512 words at die-0 offset 0xF00_0001_0000 (R324); 0 (log 1). -/
  signal : List Host.Cell := []
  stages : Table Stage := []
  queues : Table WorkQueue := []
  tensors : Table TensorChannel := []
  buckets : List Bucket := []
  /-- Identities (STEP, BUCKET) remembered, newest first, at most 4,096 (R326). -/
  remembered : List (Nat × Nat) := []
  /-- The contribution counts of the remembered identities, by chunk (R325, R326). -/
  contributions : List ((Nat × Nat) × List (Nat × Nat × Nat)) := []
  /-- Failure marks that came before their bucket: step, bucket, cause (R485). -/
  earlyFailures : List (Nat × Nat × Nat) := []
  /-- Failure marks of which the copy sent on the other port is still to come: step, bucket, rank, port (R485; log 42). -/
  markCopies : List (Nat × Nat × Nat × Nat) := []
  /-- Identities of buckets that have failed here and not been accepted again (R485). -/
  failedBuckets : List (Nat × Nat) := []
  regs : Regs := {}
  /-- Ports 0 to 7: 0 UP, 1 RETRAIN, 2 DOWN, with the clk of the last change (R446; log 3). -/
  ports : Table (Nat × Nat) := []
  /-- Consecutive link-level retries of each port (R446; log 69). -/
  retries : Table Nat := []
  /-- Flits that wait at their sender for a port that is not UP, in the order of sending (R446). -/
  held : List (Nat × Flit) := []
  /-- Accepted commands that wait for their effect, in order (R351). -/
  commands : List Command := []
  /-- The number of the next queue entry or command. -/
  nextEntry : Nat := 1
  /-- Divergences reported to the control core: stage, tag and step of the snapshot record (R343, R347). -/
  reports : List (Nat × Nat × SReg) := []
  /-- Extent tables by invocation (R383). -/
  extents : Table (List Extent) := []
  invocations : Table Invocation := []
  nextInvocation : Nat := 0
  faults : List FaultRecord := []
  /-- Bits that the walker has still to set in table entries, in order (R381). -/
  owedMarks : List (Nat × Nat) := []
  /-- ATS invalidations whose completion waits for accesses under way: the tag and the numbers of their entries (R391). -/
  invalidations : List (Nat × List Nat) := []
  engineWaits : List EngineWait := []
  nextGroup : Nat := 0
  /-- PRI enabled, and the host's allocation O (R390; log 3). -/
  priEnabled : Bool := true
  priAllocation : Nat := 512
  teardowns : List Teardown := []
  /-- PASIDs torn down: late responses are discarded (R393). -/
  downPasids : List Nat := []
  migrations : List Migration := []
  swaps : List Swap := []
  jobs : Table Job := []
  /-- Device ranges the driver registers, by partition: virtual base and length (R382). -/
  deviceRanges : Table (List (Nat × Nat)) := []
  /-- The fill that makes this device take a failed one's place (R456, R457). -/
  fill : Option Fill := none
  hostMem : List Host.Cell := []
  /-- Memory of other devices of the domain, by physical address (R268; log 1). -/
  otherMem : List Host.Cell := []
  /-- Memory tags of their home memory by granule, an address / 32 (R257; log 37). -/
  otherTags : List Host.Cell := []
  /-- Block maps of pages moved there, by frame: algorithm and size of each block (R397). -/
  otherMaps : Table (List (Nat × Nat)) := []
  /-- Pages that migrations have moved (R397; log 23). -/
  moved : List MovedPage := []
  /-- Host writes that wait in the controller, oldest first: presented address and bytes (R396). -/
  hostWrites : List (Nat × List Byte) := []
  /-- Queue 0 is the driver's admin queue and always mapped (R463, R465; log 21). -/
  hostQueues : Table HostQueue := [(0, { valid := true, mapped := true })]
  /-- Hardware queue slots: the queue mapped; queue 0 in slot 0 (R465). -/
  hostSlots : Table Nat := [(0, 0)]
  lastMapped : Nat := 0
  /-- The command journal: the copy in home memory and the mirror in the LPDDR-6 tier (R459; log 24). -/
  journal : List JournalEntry := []
  mirror : List JournalEntry := []
  /-- Pages of PASIDs' address spaces that stand elsewhere in host memory, by PASID and page number (R466; log 71). -/
  hostMaps : List ((Nat × Nat) × Nat) := []
  /-- BAR0 device status (R462, R473); 0 (log 3). -/
  devStatus : BitVec 32 := 0
  /-- On-module flash: the firmware image as bytes (R473; log 3). -/
  flash : List Byte := []
  /-- The recovery mailbox from its first word on (R462, R474; log 3). -/
  mailbox : List Byte := []
  /-- The firmware image that runs (R473, R474). -/
  firmware : List Byte := []
  withies : Bool := false
  /-- Frames each die's control core has run, and the clk of the latest (R471). -/
  frames : Table (Nat × Nat) := []
  lastArbitration : Nat := 0
  /-- The clk of the latest phase flits (R451). -/
  lastPhase : Nat := 0
  sent : List Flit := []
  /-- The SPDM messages of the version, capabilities and algorithms exchange so far (R475). -/
  spdm : List Byte := []
deriving DecidableEq, Repr

/-- The machine right after reset (R11, R222, R236 and the rules the fields cite). -/
def State.reset : State := {}

end Sys2Proof.Machine
end

