-- ==== Sys2Proof/Machine/Ops.lean ====
section
/-! DEFINITION. The named operations over tables, memory, registers and banks; results in flight and their landing
(R21 to R23, spec/01); taking an exception and returning from one (R401, R402, spec/21; R421, spec/22). -/

namespace Sys2Proof.Machine

abbrev Result := Host.Outcome State Fault Refusal

/-! ## Tables -/

/-- The entry of a key, or the value an unlisted key stands for. -/
def tget {α : Type} (d : α) (k : Nat) : Table α → α
  | [] => d
  | (j, v) :: r => if j = k then v else tget d k r

/-- The entry of a key, if it is listed. -/
def tfind {α : Type} (k : Nat) : Table α → Option α
  | [] => none
  | (j, v) :: r => if j = k then some v else tfind k r

/-- The table with the entry of a key replaced or inserted in its place. -/
def tset {α : Type} (k : Nat) (v : α) : Table α → Table α
  | [] => [(k, v)]
  | (j, w) :: r => if k < j then (k, v) :: (j, w) :: r else if k = j then (k, v) :: r else (j, w) :: tset k v r

/-- The table without a key. -/
def tdel {α : Type} (k : Nat) : Table α → Table α
  | [] => []
  | (j, w) :: r => if k = j then r else (j, w) :: tdel k r

/-- Keys strictly rising, none below `lo`. -/
def tableFrom {α : Type} (lo : Nat) : Table α → Bool
  | [] => true
  | (j, _) :: r => decide (lo ≤ j) && tableFrom (j + 1) r

/-- The canonical form of a table. -/
def tableWf {α : Type} (t : Table α) : Bool := tableFrom 0 t

/-! ## Memory: one byte, then wider accesses, least significant byte first (R3) -/

/-- The byte at an address; an unlisted byte reads zero (log 1). -/
def mget (a : Nat) : List Host.Cell → Byte
  | [] => 0
  | (j, v) :: r => if j = a then v else mget a r

/-- The memory without a byte listed at an address, which then reads zero. -/
def mdel (a : Nat) : List Host.Cell → List Host.Cell
  | [] => []
  | (j, w) :: r => if j = a then mdel a r else (j, w) :: mdel a r

/-- The memory with a byte listed at an address. -/
def minsert (a : Nat) (v : Byte) : List Host.Cell → List Host.Cell
  | [] => [(a, v)]
  | (j, w) :: r => if a < j then (a, v) :: (j, w) :: r else if a = j then (a, v) :: r else (j, w) :: minsert a v r

/-- The memory with one byte written; a zero byte is not listed. -/
def mset (a : Nat) (v : Byte) (m : List Host.Cell) : List Host.Cell := if v = 0 then mdel a m else minsert a v m

/-- The canonical form: addresses strictly rising from `lo`, and no byte listed that an unlisted address reads as. -/
def memoryFrom (lo : Nat) : List Host.Cell → Bool
  | [] => true
  | (j, v) :: r => decide (lo ≤ j) && v != 0 && memoryFrom (j + 1) r

/-- The canonical form of a memory. -/
def Memory.wf (m : List Host.Cell) : Bool := memoryFrom 0 m

/-- The bytes of `n` addresses from `a` upwards. -/
def mbytes (m : List Host.Cell) (a : Nat) : Nat → List Byte
  | 0 => []
  | n + 1 => mget a m :: mbytes m (a + 1) n

/-- Bytes as a number, the first the least significant. -/
def bytesNat : List Byte → Nat
  | [] => 0
  | b :: r => b.toNat + 256 * bytesNat r

/-- The `n` low bytes of a number, least significant first. -/
def natBytes (n : Nat) (x : Nat) : List Byte :=
  match n with
  | 0 => []
  | k + 1 => BitVec.ofNat 8 x :: natBytes k (x / 256)

/-- `n` bytes read as one number. -/
def mread (m : List Host.Cell) (a n : Nat) : Nat := bytesNat (mbytes m a n)

/-- Bytes written from an address upwards. -/
def mput (m : List Host.Cell) (a : Nat) : List Byte → List Host.Cell
  | [] => m
  | b :: r => mput (mset a b m) (a + 1) r

/-- A number written as `n` bytes. -/
def mwrite (m : List Host.Cell) (a n x : Nat) : List Host.Cell := mput m a (natBytes n x)

/-! ## Cores, banks and clusters -/

/-- Core `c`; an unlisted core is as reset leaves it. -/
def State.core (s : State) (c : Nat) : Core := tget {} c s.cores
/-- The state with core `c` replaced. -/
def State.setCore (s : State) (c : Nat) (x : Core) : State := { s with cores := tset c x s.cores }
/-- Bank `b` of a core. -/
def Core.bank (x : Core) (b : Nat) : Bank := if b = 0 then x.bank0 else x.bank1
/-- The core with bank `b` replaced. -/
def Core.setBank (x : Core) (b : Nat) (k : Bank) : Core := if b = 0 then { x with bank0 := k } else { x with bank1 := k }
/-- Bank `b` of core `c`. -/
def State.bank (s : State) (c b : Nat) : Bank := (s.core c).bank b
/-- The state with bank `b` of core `c` replaced. -/
def State.setBank (s : State) (c b : Nat) (k : Bank) : State := s.setCore c ((s.core c).setBank b k)
/-- The cluster of a core (R184). -/
def clusterOf (c : Nat) : Nat := c / Config.coresPerCluster
/-- The die of a cluster (R184). -/
def dieOfCluster (k : Nat) : Nat := k / Config.clustersPerDie
/-- The die of a core (R184). -/
def dieOf (c : Nat) : Nat := dieOfCluster (clusterOf c)
/-- Cluster `k`. -/
def State.cluster (s : State) (k : Nat) : Cluster := tget {} k s.clusters
/-- The state with cluster `k` replaced. -/
def State.setCluster (s : State) (k : Nat) (x : Cluster) : State := { s with clusters := tset k x s.clusters }

/-- The core at issue. -/
def State.curCore (s : State) : Core := s.core s.ctx.core
/-- The bank at issue. -/
def State.cur (s : State) : Bank := s.bank s.ctx.core s.ctx.bank
/-- The state with the bank at issue replaced. -/
def State.setCur (s : State) (k : Bank) : State := s.setBank s.ctx.core s.ctx.bank k
/-- The state with the core at issue replaced. -/
def State.setCurCore (s : State) (x : Core) : State := s.setCore s.ctx.core x

/-- Engine 0 or 1 of a bank. -/
def Bank.eng (k : Bank) (e : Nat) : MatEngine := if e = 0 then k.eng0 else k.eng1
/-- The bank with an engine replaced. -/
def Bank.setEng (k : Bank) (e : Nat) (m : MatEngine) : Bank := if e = 0 then { k with eng0 := m } else { k with eng1 := m }

/-! ## Registers (R11, R12) -/

/-- A scalar register; S0 reads zero. -/
def Bank.s (k : Bank) (r : Nat) : SReg := if r = 0 then 0 else tget 0 r k.sregs
/-- A mask register; K0 reads all ones. -/
def Bank.k (k : Bank) (r : Nat) : Mask := if r = 0 then BitVec.allOnes 256 else tget 0 r k.kregs
/-- A vector register. -/
def Bank.v (k : Bank) (r : Nat) : Row := tget 0 r k.vregs
/-- The side word of a vector register (R15). -/
def Bank.side (k : Bank) (r : Nat) : SReg := tget 0 r k.sides
/-- A generator. -/
def Bank.gen (k : Bank) (g : Nat) : Gen := tget {} g k.gens
/-- A sign-seed register. -/
def Bank.seed (k : Bank) (n : Nat) : Seed := tget ⟨0, 0⟩ n k.seeds

/-- Writes a scalar register in clk `now`; a write to S0 is discarded. -/
def Bank.setS (k : Bank) (now r : Nat) (v : SReg) : Bank :=
  if r = 0 then k else { k with sregs := tset r v k.sregs, sChanged := tset r now k.sChanged }
/-- Writes the selected bits of a mask register; a write to K0 is discarded. -/
def Bank.setK (k : Bank) (r : Nat) (sel v : Mask) : Bank :=
  if r = 0 then k else { k with kregs := tset r ((k.k r &&& ~~~sel) ||| (v &&& sel)) k.kregs }
/-- Writes the side word of a vector register. -/
def Bank.setSide (k : Bank) (r : Nat) (v : SReg) : Bank := { k with sides := tset r v k.sides }
/-- Writes the selected bits of a vector register and its side word (R15). -/
def Bank.setV (k : Bank) (r : Nat) (sel v : Row) (side : SReg) : Bank :=
  { k with vregs := tset r ((k.v r &&& ~~~sel) ||| (v &&& sel)) k.vregs, sides := tset r side k.sides }
/-- Writes the selected bits of a row of a transposer tile. -/
def Bank.setTile (k : Bank) (t r : Nat) (sel v : Row) : Bank :=
  let i := 128 * t + r
  { k with tiles := tset i ((tget 0 i k.tiles &&& ~~~sel) ||| (v &&& sel)) k.tiles }

/-- Registers by their kind, for the full/empty checks (R17, R18). -/
inductive Reg where
  | s (n : Nat)
  | k (n : Nat)
  | v (n : Nat)
deriving DecidableEq, Repr

/-- Whether a register is empty; S0 and K0 are always full (R17). -/
def Bank.isEmpty (k : Bank) : Reg → Bool
  | .s n => n != 0 && k.sEmpty.getLsbD n
  | .k n => n != 0 && k.kEmpty.getLsbD n
  | .v n => k.vEmpty.getLsbD n

/-- Marks a register empty (R17). -/
def Bank.markEmpty (k : Bank) : Reg → Bank
  | .s n => if n = 0 then k else { k with sEmpty := k.sEmpty ||| (1#64 <<< n) }
  | .k n => if n = 0 then k else { k with kEmpty := k.kEmpty ||| (1#16 <<< n) }
  | .v n => { k with vEmpty := k.vEmpty ||| (1#128 <<< n) }

/-- Marks a register full (R17). -/
def Bank.markFull (k : Bank) : Reg → Bank
  | .s n => { k with sEmpty := k.sEmpty &&& ~~~(1#64 <<< n) }
  | .k n => { k with kEmpty := k.kEmpty &&& ~~~(1#16 <<< n) }
  | .v n => { k with vEmpty := k.vEmpty &&& ~~~(1#128 <<< n) }

/-- Variable-latency data arrive: a scalar register is written and full in the same clk (R17). -/
def Bank.fillS (k : Bank) (now r : Nat) (v : SReg) : Bank := (k.setS now r v).markFull (.s r)
/-- Variable-latency data arrive in a vector register; its side word becomes zero (R15, R17). -/
def Bank.fillV (k : Bank) (r : Nat) (v : Row) : Bank := (k.setV r rowAll v 0).markFull (.v r)

/-! ## Results in flight (R21 to R23) -/

/-- Adds a result of the slot at issue that lands `lat` clk after issue. -/
def State.land (s : State) (lat : Nat) (w : RegWrite) : State :=
  let k := s.cur
  s.setCur { k with inFlight :=
    k.inFlight ++ [{ due := s.clk + lat, issued := s.clk, pos := s.ctx.pos, bundle := s.ctx.addr, write := w }] }

/-- A posted trap detected for a bank (R33). -/
def Bank.post (k : Bank) (t : PostedTrap) : Bank := { k with posted := k.posted ++ [t] }

/-- A posted trap of the slot at issue. -/
def State.postHere (s : State) (cause : Nat) : State :=
  s.setCur (s.cur.post { clk := s.clk, cause, bundle := s.ctx.addr, pos := s.ctx.pos, issued := s.clk })

/-- Discards front entries of the A FIFO while the skip count is not zero (R176). -/
def MatEngine.discardSkipped (m : MatEngine) : MatEngine :=
  let n := min m.skip m.aFifo.length
  { m with aFifo := m.aFifo.drop n, skip := m.skip - n }

/-- An entry arrives at a FIFO of an engine; none where the FIFO is full (R159, R176). -/
def MatEngine.accept (m : MatEngine) (isB : Bool) (x : FifoEntry) : Option MatEngine :=
  if isB then if m.bFifo.length < 128 then some { m with bFifo := m.bFifo ++ [x] } else none
  else if m.skip > 0 then some { m with aFifo := m.aFifo ++ [x] }.discardSkipped
  else if m.aFifo.length < 256 then some { m with aFifo := m.aFifo ++ [x] }
  else none

/-- A core push arrives; at a full FIFO it stays in flight until the pops of its clk have been made (R159). -/
def Bank.pushFifo (k : Bank) (f : InFlight) (e : Nat) (isB : Bool) (x : FifoEntry) : Bank :=
  match (k.eng e).accept isB x with
  | some m => k.setEng e m
  | none => { k with inFlight := k.inFlight ++ [f] }

/-- Write of a bank control register, its reserved bits zero (R401, R418). -/
def Bank.writeCsr (k : Bank) (n : Nat) (v : SReg) : Bank :=
  if n = 0 then { k with tvec := v }
  else if 8 ≤ n ∧ n < 24 then { k with trec := tset (n - 8) v k.trec }
  else k

/-- A result lands in its bank in clk `now`. -/
def Bank.apply (k : Bank) (now : Nat) (f : InFlight) : Bank :=
  match f.write with
  | .sreg r v => k.setS now r v
  | .kmask r sel v => k.setK r sel v
  | .vrow r sel v side => k.setV r sel v side
  | .side r v => k.setSide r v
  | .tileRow t r sel v => k.setTile t r sel v
  | .tileClear t => { k with tiles := k.tiles.filter fun p => p.1 / 128 ≠ t }
  | .gen g key ctr => { k with gens := tset g ⟨key, ctr⟩ k.gens }
  | .seed n v => { k with seeds := tset n v k.seeds }
  | .mcfg e v => k.setEng e { k.eng e with mcfg := v }
  | .push e isB fmt elems scale tag mask => k.pushFifo f e isB ⟨fmt, elems, scale, tag, mask⟩
  | .csr n v => k.writeCsr n v

/-- A push of clk `now` that still finds its FIFO full after the pops of that clk is discarded and raises `ENGINE` (R159). -/
def Bank.settlePush (k : Bank) (now : Nat) (f : InFlight) : Bank :=
  match f.write with
  | .push e isB fmt elems scale tag mask =>
    match (k.eng e).accept isB ⟨fmt, elems, scale, tag, mask⟩ with
    | some m => k.setEng e m
    | none => k.post { clk := now, cause := 0x1D, bundle := f.bundle, pos := f.pos, issued := f.issued }
  | _ => k

/-- The pushes of clk `now` that waited for its pops (R159). -/
def Bank.settlePushes (k : Bank) (now : Nat) : Bank :=
  let due := k.inFlight.filter fun f => f.due ≤ now
  if due.isEmpty then k
  else due.foldl (fun k f => k.settlePush now f) { k with inFlight := k.inFlight.filter fun f => ¬ f.due ≤ now }

/-- The register or tile row a result writes. -/
def RegWrite.target : RegWrite → Option (Nat × Nat)
  | .sreg r _ => some (0, r)
  | .kmask r _ _ => some (1, r)
  | .vrow r _ _ _ => some (2, r)
  | .tileRow t r _ _ => some (3, 128 * t + r)
  | _ => none

/-- Order in which results of one clk are applied: the later bundle, then the higher position, last (R22). -/
def landsBefore (a b : InFlight) : Bool :=
  decide (a.issued < b.issued) || (a.issued == b.issued && decide (a.pos ≤ b.pos))

/-- Inserts a result in landing order. -/
def insertLanding (f : InFlight) : List InFlight → List InFlight
  | [] => [f]
  | g :: r => if landsBefore g f then g :: insertLanding f r else f :: g :: r

/-- Results of one clk land in order; one that a later one to the same register follows is lost (R22, R172; log 8). -/
def Bank.landAll (now : Nat) : List InFlight → Bank → Bank
  | [], k => k
  | f :: r, k =>
    let lost := f.write.target.isSome && r.any fun g => g.write.target == f.write.target
    Bank.landAll now r (if lost then k else k.apply now f)

/-- Every result due at or before `now` lands, in the order of R22. -/
def Bank.landDue (k : Bank) (now : Nat) : Bank :=
  let due := k.inFlight.filter fun f => f.due ≤ now
  if due.isEmpty then k
  else
    let order := due.foldl (fun l f => insertLanding f l) []
    Bank.landAll now order { k with inFlight := k.inFlight.filter fun f => ¬ f.due ≤ now, landedNow := order }

/-- A result of a later bundle, or of a higher slot of the same one, has landed in clk `now` in the register that the data of an entry
reach in that clk, so that the data are lost (R22, R172). -/
def Bank.overtaken (k : Bank) (now : Nat) (e : QEntry) (r : Reg) : Bool :=
  let target : Nat × Nat := match r with
    | .s n => (0, n)
    | .k n => (1, n)
    | .v n => (2, n)
  k.landedNow.any fun f => f.due == now && f.write.target == some target
    && (decide (e.clk < f.issued) || (e.clk == f.issued && decide (e.pos < f.pos)))

/-- The data of an entry reach a scalar register (R17, R22). -/
def Bank.arriveS (k : Bank) (now : Nat) (e : QEntry) (r : Nat) (v : SReg) : Bank :=
  if k.overtaken now e (.s r) then k.markFull (.s r) else k.fillS now r v
/-- The data of an entry reach a vector register (R15, R17, R22, R172). -/
def Bank.arriveV (k : Bank) (now : Nat) (e : QEntry) (r : Nat) (v : Row) : Bank :=
  if k.overtaken now e (.v r) then k.markFull (.v r) else k.fillV r v

/-- Whether a fixed-latency write to a scalar register is in flight, that of a `BPOLL` included (R226), and one to S0 too, though it will
be discarded (log 63). -/
def Bank.pendingS (k : Bank) (r : Nat) : Bool :=
  (k.inFlight.any fun f => match f.write with
    | .sreg n _ => n == r
    | _ => false)
  || k.queue.any fun e => match e.ins with
    | .bpoll opa _ => opa.toNat == r
    | _ => false

/-- The run-ahead entries whose 32-byte sectors `n` bytes at `a` touch are discarded (R29). -/
def Bank.discardAhead (k : Bank) (a n : Nat) : Bank :=
  { k with runAhead := k.runAhead.filter fun e => ¬(e.addr / 32 * 32 < a + n ∧ a < (e.addr + e.size + 31) / 32 * 32) }

/-! ## Scheduling of steps -/

/-- Adds a step whose clk the spec fixes. -/
def State.schedule (s : State) (clk : Nat) (d : Due) : State := { s with calendar := s.calendar ++ [(clk, d)] }

/-- Draws one open value (log 12). -/
def State.draw (s : State) : BitVec 64 × State := (Config.freeValue s.draws, { s with draws := s.draws + 1 })

/-! ## Taking an exception (R401, R402) -/

/-- FLAGS of a trap record (R402). -/
def trapFlags (posted restart more priv addrV rowV : Bool) : Nat :=
  posted.toNat + 2 * restart.toNat + 4 * more.toNat + 8 * priv.toNat + 16 * addrV.toNat + 32 * rowV.toNat

/-- The sixteen words of a trap record (R402). -/
def trapRecord (cause flags slot row code : Nat) (bundle pc addr clk : Nat) : Table SReg :=
  [(0, BitVec.ofNat 64 (cause + 2 ^ 8 * flags + 2 ^ 16 * slot + 2 ^ 24 * row + 2 ^ 32 * code)),
   (1, BitVec.ofNat 64 bundle), (2, BitVec.ofNat 64 pc), (3, BitVec.ofNat 64 addr), (4, BitVec.ofNat 64 clk)]

/-- A word of the trap record. -/
def Bank.trecWord (k : Bank) (i : Nat) : SReg := tget 0 i k.trec

/-- Enters a handler of a bank whose record has been written: PRIV and INTRAP set, the run-ahead buffer discarded, the
next bundle at TVEC plus `offset`; a double trap or an invalid vector halts the bank instead of the last three (R401;
log 14). -/
def Bank.enterTrap (k : Bank) (offset : Nat) : Bank :=
  let k' := { k with runAhead := [], waiting := none, idle := false, woken := false }
  if k.inTrap || !k.tvec.getLsbD 0 then { k' with state := .halted, haltFault := true, haltReported := false }
  else { k' with priv := true, inTrap := true, pc := (k.tvec.toNat % 2 ^ 32) / 64 * 64 + offset }

/-- A sequencer no longer waits in a held `DEQ`; what is bound to it stays so (R195, R215). -/
def State.leaveWaits (s : State) (c b : Nat) : State :=
  { s with queues := s.queues.map fun (q : Nat × WorkQueue) => (q.1, { q.2 with waiters := q.2.waiters.filter fun w => w ≠ (c, b) }) }

/-- Takes a trap of bank `b` of core `c`: the record with PRIV saved in it, then the handler 4 clk after the boundary
(R401, R402). -/
def State.takeTrap (s : State) (c b : Nat) (posted more : Bool) (cause slot code bundle pc : Nat)
    (row addr : Option Nat) : State :=
  let k := s.bank c b
  let flags := trapFlags posted false more k.priv addr.isSome row.isSome
  let record := trapRecord cause flags slot (row.getD 0) code bundle pc (addr.getD 0) s.clk
  let k' := Bank.enterTrap { k with trec := record, haltClk := s.clk } (if posted then 0x40 else 0)
  let s := (s.leaveWaits c b).setBank c b k'
  s.setCore c { s.core c with nextIssue := s.clk + 4 }

/-- An issue trap of the bundle at issue, named at slot `slot`: no slot takes effect (R33, R34). -/
def State.takeIssueTrap (s : State) (cause slot code : Nat) : State :=
  let s := s.takeTrap s.ctx.core s.ctx.bank false false cause slot code s.ctx.addr s.ctx.addr none none
  { s with ctx := { s.ctx with status := .trapped } }

/-- The posted trap to report: of those detected first, the one of the oldest faulting bundle (R34), and of one bundle the one posted
first (log 30). -/
def oldestPosted (l : List PostedTrap) : Option PostedTrap :=
  match l with
  | [] => none
  | t :: r =>
    some (r.foldl (fun m x => if x.clk < m.clk ∨ (x.clk = m.clk ∧ x.issued < m.issued) then x else m) t)

/-- Takes the posted traps of a bank at its next bundle boundary: one is reported, and MORE says that others occurred (R33, R34, R401).
Entries still kept are then issued again (R403). -/
def State.takePosted (s : State) (c b : Nat) : State :=
  let k := s.bank c b
  match oldestPosted k.posted with
  | none => s
  | some t =>
    let s := s.setBank c b { k with posted := [], queue := if k.fault.isNone then k.queue.map fun e => { e with kept := false } else k.queue }
    s.takeTrap c b true (decide (k.posted.length > 1) || k.posted.any (·.more)) t.cause t.pos 0 t.bundle k.pc t.row t.addr

/-- Return from an exception: the next bundle at the record's PC 4 clk later, PRIV from FLAGS bit 3, INTRAP clear, the
run-ahead buffer discarded (R421). -/
def Bank.returnTrap (k : Bank) : Bank :=
  { k with pc := (k.trecWord 2).toNat, priv := (k.trecWord 0).getLsbD 11, inTrap := false, runAhead := [] }

end Sys2Proof.Machine
end

