-- ==== Sys2Proof/Machine/Sparse.lean ====
section
/-! DEFINITION. Buffer headers and the sparse form (R261 to R264, spec/12; R291 to R293, spec/14). -/

namespace Sys2Proof.Machine

/-! ## Buffer headers (R261) -/

/-- The fields of a buffer header. -/
structure Header where
  addr : Nat
  cap : Nat
  len : Nat
  fmt : Nat
  point : Nat
  form : Nat
  rot : BitVec 16
  rows : Nat
  rowLen : Nat
  pitch : Nat
  scales : Nat
  cksum : Nat
  tag : Nat
  kind : Nat
  norm : Nat
  normEn : Bool
  ckValid : Bool
  /-- A reserved bit of the 64 bytes is set. -/
  reserved : Bool
deriving DecidableEq, Repr

/-- The bytes `lo` to `lo + n - 1` of a structure read as one number. -/
def fieldAt (x lo n : Nat) : Nat := x / 256 ^ lo % 256 ^ n

/-- The header of 64 bytes (R261). -/
def Header.ofNat (x : Nat) : Header :=
  { addr := fieldAt x 0 8, cap := fieldAt x 8 4, len := fieldAt x 12 4, fmt := fieldAt x 16 1,
    point := fieldAt x 17 1 % 4, form := fieldAt x 17 1 / 4 % 4, rot := BitVec.ofNat 16 (fieldAt x 18 2),
    rows := fieldAt x 20 4, rowLen := fieldAt x 24 4, pitch := fieldAt x 28 4, scales := fieldAt x 32 8,
    cksum := fieldAt x 40 8, tag := fieldAt x 48 2, kind := fieldAt x 50 1, norm := fieldAt x 51 1,
    normEn := fieldAt x 52 4 % 2 = 1, ckValid := fieldAt x 52 4 / 2 % 2 = 1,
    reserved := fieldAt x 56 8 ≠ 0 || fieldAt x 17 1 / 16 ≠ 0 || fieldAt x 52 4 / 4 ≠ 0 }

/-- A format code of R75 that is not reserved. -/
def fmtCodeOk (c : Nat) : Bool := c ≤ 4 || c = 6 || c = 7

/-- Bytes of one element of a format code; raw counts bytes (R75). -/
def codeBytes (c : Nat) : Nat :=
  match Fmt.ofCode c with
  | some f => f.bytes
  | none => 1

/-- HeaderFault of R261, alignment and the rotation tag apart. -/
def Header.badShape (h : Header) : Bool :=
  h.reserved || !fmtCodeOk h.fmt || 2 ≤ h.form || 4 < h.kind || h.cap < h.len
    || (h.form = 0 && 0 < h.rows && h.cap < (h.rows - 1) * h.pitch + h.rowLen * codeBytes h.fmt)
    || (h.form = 0 && (h.fmt = 1 || h.fmt = 2 || h.fmt = 3) && h.rowLen % 128 ≠ 0)
    || (h.form = 1 && h.pitch ≠ 0)

/-- HeaderFault of R261, alignment apart. -/
def Header.fault (h : Header) : Bool := h.badShape || tagMalformed h.rot

/-! ## Sparse blocks (R262, R264, R291) -/

/-- A checked sparse block: its format, mask and bytes. -/
structure SparseBlock where
  fmt : Nat
  point : Nat
  count : Nat
  mask : BitVec 128
  bytes : Nat
deriving DecidableEq, Repr

/-- Set bits of a 128-bit mask. -/
def popCount128 (m : BitVec 128) : Nat := (List.range 128).countP fun i => m.getLsbD i

/-- Bytes of a block with `n` non-zero elements (R262). -/
def sparseBytes (fmt n : Nat) : Nat := 32 * ((24 + n * codeBytes fmt + 31) / 32)

/-- The block whose first 32 bytes are given, if no expander refuses it: of any format and any expansion point (R262, R264). -/
def anyBlock (x : Nat) : Option SparseBlock :=
  let h := x % 2 ^ 64
  let mask := BitVec.ofNat 128 (x / 2 ^ 64)
  let count := h % 2 ^ 16
  let fmt := h / 2 ^ 16 % 16
  let point := h / 2 ^ 20 % 4
  if h / 2 ^ 24 ≠ 0 ∨ h / 2 ^ 22 % 4 ≠ 1 ∨ fmtCodeOk fmt = false ∨ count ≠ popCount128 mask then none
  else some { fmt, point, count, mask, bytes := sparseBytes fmt count }

/-- The block whose first 32 bytes are given, if it passes the check of R291: no raw block, and none for the matrix engine's input alone. -/
def sparseBlock (x : Nat) : Option SparseBlock := (anyBlock x).filter fun b => (Fmt.ofCode b.fmt).isSome && b.point ≠ 3

/-- The dense elements of a block: the next value where MASK is 1, zero elsewhere (R264). -/
def expandSparse (w : Nat) (mask : BitVec 128) (values : Nat) : Nat → Nat → List Nat
  | 0, _ => []
  | n + 1, taken =>
    let i := 128 - (n + 1)
    if mask.getLsbD i then lane w taken values :: expandSparse w mask values n (taken + 1)
    else 0 :: expandSparse w mask values n taken

/-- The row a sparse load writes: the dense block, every higher byte zero (R291). -/
def SparseBlock.row (b : SparseBlock) (all : Nat) : Row :=
  let w := 8 * codeBytes b.fmt
  rowOf w (expandSparse w b.mask (all / 2 ^ 192) 128 0)

/-- Source of a sparse store: format code, tag and 128 element encodings (R292). -/
structure SparseSource where
  fmt : Nat
  tag : BitVec 16
  elems : List Nat
deriving DecidableEq, Repr

/-- The mask of the non-zero elements (R262). -/
def elemMask (l : List Nat) : Nat := packFields 1 (l.map fun x => if x = 0 then 0 else 1)

/-- The bytes a sparse store writes: BLKHDR, MASK, the non-zero elements, zero padding (R293). -/
def sparseStored (src : SparseSource) (point : Nat) : List Byte :=
  let nz := src.elems.filter (· ≠ 0)
  let n := nz.length
  let w := 8 * codeBytes src.fmt
  natBytes (sparseBytes src.fmt n)
    (n + 2 ^ 16 * src.fmt + 2 ^ 20 * point + 2 ^ 22 + 2 ^ 64 * elemMask src.elems + 2 ^ 192 * packFields w nz)

/-- The header checks of a sparse store (R293). -/
def sparseHeaderBad (h : Header) (src : SparseSource) (inPad : Bool) : Bool :=
  h.fault || h.form ≠ 1 || h.fmt ≠ src.fmt || h.rot ≠ src.tag || h.addr % 32 ≠ 0 || h.len % 32 ≠ 0
    || (h.normEn && ((h.fmt ≠ 6 && h.fmt ≠ 4) || inPad))

end Sys2Proof.Machine
end

