-- ==== Sys2Proof/Machine/Flags.lean ====
section
/-! DEFINITION. Views, configuration and status words: what an instruction reads as a condition or reports as a flag word
(R13, R14, spec/01; R146, spec/06; R164 to R166, R177, spec/07; R193, R218, R226, spec/10; R319, spec/16). -/

namespace Sys2Proof.Machine

/-! ## Engine configuration (R164, R165) -/

/-- AFMT. -/
def mcfgA (v : SReg) : Nat := (v.extractLsb' 4 4).toNat
/-- BFMT. -/
def mcfgB (v : SReg) : Nat := (v.extractLsb' 8 4).toNat
/-- ACC. -/
def mcfgAcc (v : SReg) : Nat := (v.extractLsb' 12 4).toNat

/-- Reserved bits or a seed that must be zero (R166). -/
def mcfgReserved (v : SReg) : Bool :=
  v.extractLsb' 28 36 != 0 || v.extractLsb' 16 2 != 0 || v.extractLsb' 0 4 != 0
    || (v.getLsbD 18 && v.extractLsb' 20 4 != 0) || (v.getLsbD 19 && v.extractLsb' 24 4 != 0)

/-- A configuration of R165. -/
def mcfgLegal (v : SReg) : Bool :=
  let a := mcfgA v
  let b := mcfgB v
  let c := mcfgAcc v
  ((a = 2 || a = 3) && (b = 2 || b = 3) && (c = 6 || c = 4)) || (a = 1 && b = 1 && (c = 7 || c = 6))
    || (a = 4 && b = 4 && (c = 6 || c = 4))

/-- Lanes of the view an accumulator type gives: 256 for BF16, 128 otherwise (R13, R164). -/
def viewLanes (mcfg : SReg) : Nat := if mcfgAcc mcfg = 4 then 256 else 128

/-- MCFG of the half that holds a vector register (R13). -/
def Bank.mcfgOf (k : Bank) (r : Nat) : SReg := (k.eng (r / 64)).mcfg

/-- Lanes of a vector register (R13). -/
def Bank.viewOf (k : Bank) (r : Nat) : Nat := viewLanes (k.mcfgOf r)

/-- The low `n` bits of a mask register set. -/
def lowMask (n : Nat) : Mask := if n = 256 then BitVec.allOnes 256 else (BitVec.allOnes 128).setWidth 256

/-- Element type of the source block of a narrowing (R146). -/
def sourceType (mcfg : SReg) : Fmt :=
  if mcfgAcc mcfg = 7 then .int32 else if mcfgAcc mcfg = 4 then .bf16 else .fp32

/-- A narrow format code that widening takes (R150). -/
def narrowFormat (c : Nat) : Option Fmt :=
  match Fmt.ofCode c with
  | some .fp32 | some .int32 => none
  | f => f

/-- The format a narrowing push takes from MCFG (R158). -/
def pushFormat (mcfg : SReg) (isB : Bool) : Option Fmt := narrowFormat (if isB then mcfgB mcfg else mcfgA mcfg)

/-- The lowest-numbered seed register with an identity (R94). -/
def Bank.seedFor (k : Bank) (ident : BitVec 12) : Option Seed :=
  ((List.range 16).map k.seed).find? fun d => d.ident = ident

/-- A weight buffer of an engine. -/
def MatEngine.buffer (m : MatEngine) (wb : Nat) : Option (List FifoEntry) := if wb = 0 then m.wb0 else m.wb1

/-- The engine is quiescent (R166). -/
def engineQuiescent (m : MatEngine) : Bool :=
  m.ops.isEmpty && m.load.isNone && m.aFifo.isEmpty && m.bFifo.isEmpty && m.wb0.isNone && m.wb1.isNone && m.skip = 0

/-- The clk in which row `i` of an `MMA` lands (R172). -/
def MmaOp.lands (o : MmaOp) (i : Nat) : Nat := o.issued + 12 + o.rate * i

/-- Rows of issued `MMA`s not yet landed at clk `now` (R166, R177); a row that has failed its check counts until the clk in which it would
have landed (log 64). -/
def MatEngine.rowsInFlight (m : MatEngine) (now : Nat) : Nat :=
  (m.ops.map fun o => (List.range o.rows.length).countP fun i => now < o.lands i).sum

/-- The status word of `MSTAT` (R177); LOADWB reads 0 while no load is in progress (log 64). -/
def mstatWord (m : MatEngine) (now : Nat) : SReg :=
  BitVec.ofNat 64 (m.aFifo.length + 2 ^ 9 * m.bFifo.length + 2 ^ 17 * m.skip + 2 ^ 26 * m.wb0.isSome.toNat
    + 2 ^ 27 * m.wb1.isSome.toNat + 2 ^ 28 * m.load.isSome.toNat
    + 2 ^ 29 * (match m.load with
      | some l => l.buf
      | none => 0)
    + 2 ^ 30 * (decide (now < m.busyUntil)).toNat + 2 ^ 31 * (decide (m.mcfg ≠ 0)).toNat
    + 2 ^ 32 * m.rowsInFlight now)

/-- The source of a sparse store (R292). -/
def sparseSource (k : Bank) (r : Nat) : SparseSource :=
  let row := (k.v r).toNat
  let side := k.side r
  if sideValid side then
    { fmt := sideFmt side, tag := sideTag side, elems := unpack (8 * codeBytes (sideFmt side)) 128 row }
  else
    let f := sourceType (k.mcfgOf r)
    { fmt := f.code, tag := 0, elems := unpack f.width 128 row }

/-! ## Records, barriers, descriptors -/

/-- A record `ENQ` refuses (R218): reserved bits, KIND 4 to 6, an arrival of another kind than F or B. -/
def badRecord (w0 w3 : SReg) : Bool :=
  let kind := (w0.extractLsb' 0 3).toNat
  w0.extractLsb' 34 30 != 0 || w0.extractLsb' 3 4 != 0 || (4 ≤ kind && kind ≤ 6)
    || (w0.getLsbD 7 && kind ≠ 0 && kind ≠ 2) || w3.extractLsb' 32 32 != 0

/-- A packet descriptor `CHSEND` refuses (R349): bits 15:10 set, or KIND neither 0 nor 2. -/
def badDescriptor (d : SReg) : Bool :=
  d.extractLsb' 10 6 != 0 || ((d.extractLsb' 0 3).toNat ≠ 0 && (d.extractLsb' 0 3).toNat ≠ 2)

/-- The word of `BPOLL` (R226). -/
def bpollWord (b : Barrier) : SReg :=
  BitVec.ofNat 64 (b.phase.toNat + 2 ^ 8 * b.remain + 2 ^ 24 * b.pending + 2 ^ 52 * b.err.toNat
    + 2 ^ 53 * (b.errCode % 256))

/-- BSTAT (R419). -/
def bstatWord (k : Bank) : SReg := BitVec.ofNat 64 (k.priv.toNat + 2 * k.inTrap.toNat)

end Sys2Proof.Machine
end

