-- ==== Sys2Proof/WellFormed.lean ====
section
/-! DEFINITION. Which instructions are well formed: no field holds a value the spec lists as reserved (R40), and no
operand of an event row is outside the range of what it names. -/

namespace Sys2Proof

/-- A carding field: a seed number must be zero when NOROT is 1 (R51, R147). -/
def cardingOk (noRot : BitVec 1) (seed : BitVec 4) : Bool := noRot == 0 || seed == 0

/-- A row range of an accumulator: row0 + n ≤ 64 with n = nm1 + 1 (R170, R175). -/
def rowsOk (nm1 row0 : BitVec 6) : Bool := row0.toNat + nm1.toNat < 64

/-- A load size code with its data register: a pair is even (R53). -/
def loadPairOk (size : BitVec 3) (rd : BitVec 6) : Bool := size != 7 || rd.getLsbD 0 == false

/-- A store size code, 0 to 4, with its data register: a pair is even (R53, R55). -/
def storePairOk (size : BitVec 3) (rd : BitVec 6) : Bool := size.toNat ≤ 4 && (size != 4 || rd.getLsbD 0 == false)

/-- Operation, size and operand register of an `AMO` (R58, R297). -/
def amoOk (fn : BitVec 4) (size : BitVec 1) (opa : BitVec 6) (scope : BitVec 3) : Bool :=
  fn.toNat ≤ 10 && !(fn == 10 && size == 1) && (fn != 9 || opa.getLsbD 0 == false) && scope.toNat ≤ 5

/-- The instruction holds no reserved value. A field of a fixed width takes every value its rule does not reserve. -/
def Instr.wf : Instr → Bool
  | .pfx rm _ _ _ => rm.toNat ≤ 4
  | .lset lvl _ _ | .lidx _ lvl | .lbrk lvl => lvl.toNat ≤ 5
  | .vcvtn _ _ _ noRot seed => cardingOk noRot seed
  | .vqscaleE4m3 _ _ noRot seed | .vqscaleE5m2 _ _ noRot seed | .vqscaleBf16 _ _ noRot seed
  | .vqscaleInt8 _ _ noRot seed => cardingOk noRot seed
  | .ttrdcE4m3 _ _ _ noRot seed | .ttrdcE5m2 _ _ _ noRot seed | .ttrdcBf16 _ _ _ noRot seed
  | .ttrdcInt8 _ _ _ noRot seed => cardingOk noRot seed
  | .mma0 nm1 row0 _ _ _ | .mma1 nm1 row0 _ _ _ | .mzero0 nm1 row0 | .mzero1 nm1 row0 => rowsOk nm1 row0
  | .lds size rd _ _ | .ldc size rd _ _ | .ldg size rd _ _ => loadPairOk size rd
  | .sts size rd _ _ | .stc size rd _ _ | .stg size rd _ _ => storePairOk size rd
  | .stash _ _ _ mode => mode.toNat ≤ 6
  | .publish _ scope => scope.toNat ≤ 5
  | .ckpt _ scope => scope.toNat ≤ 3
  | .nrmrd opa _ _ => opa.getLsbD 0 == false
  | .deq grp _ | .deqt grp _ | .enq grp _ => grp != 0
  | .fence order scope => order != 0 && scope.toNat ≤ 5
  | .amo _ opa _ _ scope size fn => amoOk fn size opa scope
  | _ => true

end Sys2Proof
end

