-- ==== Sys2Proof/Decode.lean ====
section
/-! DEFINITION. The decoder of one slot (R36 to R59, spec/02): total on every 32-bit word, it answers the instruction or
the name of the cause R40 gives. After it the encoder, written from the same tables, and the host's view of a table word. -/

namespace Sys2Proof

/-- Why a word is no instruction, in the order of the cause codes (R40). -/
inductive DecodeError where
  /-- CLASS 13, 14 or 15. -/
  | illegalClass
  /-- An operation with no entry in its class map. -/
  | illegalOp
  /-- A reserved bit that is set, or a field that holds a reserved value. -/
  | reservedField
deriving DecidableEq, Repr

/-- The field of `n` bits whose lowest bit is `lo`. -/
abbrev bits (lo n : Nat) {w : Nat} (b : BitVec w) : BitVec n := b.extractLsb' lo n

/-- The low bits of an operation code that are a field of their own (the sizes of R54, the formats of R51). -/
abbrev opLow (n op : Nat) : BitVec n := BitVec.ofNat n op

/-- Bits outside the fields must be zero (R40); then the instruction must hold no reserved value. -/
def fixed {w : Nat} (b : BitVec w) (reserved : BitVec w) (i : Instr) : Except DecodeError Instr :=
  if b &&& reserved = 0 ∧ i.wf = true then .ok i else .error .reservedField

/-- `BALLOON`: the operation of SEL 2:0, values 5 to 7 reserved (R59, R430). -/
def decodeBalloon (b : BitVec 21) : Except DecodeError Instr :=
  match (bits 0 3 b).toNat with
  | 0 => fixed b 0x7FF8 (.balloonAddb (bits 15 6 b))
  | 1 => fixed b 0x7FF8 (.balloonAddt (bits 15 6 b))
  | 2 => fixed b 0x7FF8 (.balloonDeflate (bits 15 6 b))
  | 3 => fixed b 0x7FF8 (.balloonClrb (bits 15 6 b))
  | 4 => fixed b 0x7FF8 (.balloonClrt (bits 15 6 b))
  | _ => .error .reservedField

/-- The scalar class (R45, R46): the operation `op` and the body below it. -/
def decodeS (op : Nat) (b : BitVec 20) : Except DecodeError Instr :=
  match op with
  | 0x00 => fixed b 0x1 (.add (bits 14 6 b) (bits 8 6 b) (bits 2 6 b) (bits 1 1 b))
  | 0x01 => fixed b 0x1 (.sub (bits 14 6 b) (bits 8 6 b) (bits 2 6 b) (bits 1 1 b))
  | 0x02 => fixed b 0x0 (.addi (bits 14 6 b) (bits 8 6 b) (bits 0 8 b))
  | 0x03 => fixed b 0x1 (.addsh (bits 14 6 b) (bits 8 6 b) (bits 2 6 b) (bits 1 1 b))
  | 0x04 => fixed b 0x1 (.mul (bits 14 6 b) (bits 8 6 b) (bits 2 6 b) (bits 1 1 b))
  | 0x05 => fixed b 0x1 (.mulh (bits 14 6 b) (bits 8 6 b) (bits 2 6 b) (bits 1 1 b))
  | 0x06 => fixed b 0x1 (.div (bits 14 6 b) (bits 8 6 b) (bits 2 6 b) (bits 1 1 b))
  | 0x07 => fixed b 0x1 (.divu (bits 14 6 b) (bits 8 6 b) (bits 2 6 b) (bits 1 1 b))
  | 0x08 => fixed b 0x1 (.rem (bits 14 6 b) (bits 8 6 b) (bits 2 6 b) (bits 1 1 b))
  | 0x09 => fixed b 0x3 (.and (bits 14 6 b) (bits 8 6 b) (bits 2 6 b))
  | 0x0A => fixed b 0x3 (.or (bits 14 6 b) (bits 8 6 b) (bits 2 6 b))
  | 0x0B => fixed b 0x3 (.xor (bits 14 6 b) (bits 8 6 b) (bits 2 6 b))
  | 0x0C => fixed b 0x3 (.andn (bits 14 6 b) (bits 8 6 b) (bits 2 6 b))
  | 0x0D => fixed b 0x1 (.shl (bits 14 6 b) (bits 8 6 b) (bits 2 6 b) (bits 1 1 b))
  | 0x0E => fixed b 0x1 (.shr (bits 14 6 b) (bits 8 6 b) (bits 2 6 b) (bits 1 1 b))
  | 0x0F => fixed b 0x1 (.sar (bits 14 6 b) (bits 8 6 b) (bits 2 6 b) (bits 1 1 b))
  | 0x10 => fixed b 0xC0 (.shli (bits 14 6 b) (bits 8 6 b) (bits 0 6 b))
  | 0x11 => fixed b 0xC0 (.shri (bits 14 6 b) (bits 8 6 b) (bits 0 6 b))
  | 0x12 => fixed b 0xC0 (.sari (bits 14 6 b) (bits 8 6 b) (bits 0 6 b))
  | 0x13 => fixed b 0xFD (.clz (bits 14 6 b) (bits 8 6 b) (bits 1 1 b))
  | 0x14 => fixed b 0xFD (.popc (bits 14 6 b) (bits 8 6 b) (bits 1 1 b))
  | 0x15 => fixed b 0x3 (.bext (bits 14 6 b) (bits 8 6 b) (bits 2 6 b))
  | 0x16 => fixed b 0x3 (.bins (bits 14 6 b) (bits 8 6 b) (bits 2 6 b))
  | 0x17 => fixed b 0x1 (.min (bits 14 6 b) (bits 8 6 b) (bits 2 6 b) (bits 1 1 b))
  | 0x18 => fixed b 0x1 (.max (bits 14 6 b) (bits 8 6 b) (bits 2 6 b) (bits 1 1 b))
  | 0x19 => fixed b 0x1 (.minu (bits 14 6 b) (bits 8 6 b) (bits 2 6 b) (bits 1 1 b))
  | 0x1A => fixed b 0x1 (.maxu (bits 14 6 b) (bits 8 6 b) (bits 2 6 b) (bits 1 1 b))
  | 0x1B => fixed b 0x1 (.seq (bits 14 6 b) (bits 8 6 b) (bits 2 6 b) (bits 1 1 b))
  | 0x1C => fixed b 0x1 (.sne (bits 14 6 b) (bits 8 6 b) (bits 2 6 b) (bits 1 1 b))
  | 0x1D => fixed b 0x1 (.slt (bits 14 6 b) (bits 8 6 b) (bits 2 6 b) (bits 1 1 b))
  | 0x1E => fixed b 0x1 (.sltu (bits 14 6 b) (bits 8 6 b) (bits 2 6 b) (bits 1 1 b))
  | 0x1F => fixed b 0x1 (.sle (bits 14 6 b) (bits 8 6 b) (bits 2 6 b) (bits 1 1 b))
  | 0x20 => fixed b 0x1 (.sleu (bits 14 6 b) (bits 8 6 b) (bits 2 6 b) (bits 1 1 b))
  | 0x21 => fixed b 0x3 (.sel (bits 14 6 b) (bits 8 6 b) (bits 2 6 b))
  | 0x22 => fixed b 0x0 (.movi (bits 14 6 b) (bits 0 14 b))
  | 0x23 => fixed b 0x0 (.movhi (bits 14 6 b) (bits 0 14 b))
  | 0x24 => fixed b 0x3 (.fadd (bits 14 6 b) (bits 8 6 b) (bits 2 6 b))
  | 0x25 => fixed b 0x3 (.fsub (bits 14 6 b) (bits 8 6 b) (bits 2 6 b))
  | 0x26 => fixed b 0x3 (.fmul (bits 14 6 b) (bits 8 6 b) (bits 2 6 b))
  | 0x27 => fixed b 0x3 (.ffma (bits 14 6 b) (bits 8 6 b) (bits 2 6 b))
  | 0x28 => fixed b 0x3 (.fdiv (bits 14 6 b) (bits 8 6 b) (bits 2 6 b))
  | 0x29 => fixed b 0xFF (.fsqrt (bits 14 6 b) (bits 8 6 b))
  | 0x2A => fixed b 0x3 (.fmin (bits 14 6 b) (bits 8 6 b) (bits 2 6 b))
  | 0x2B => fixed b 0x3 (.fmax (bits 14 6 b) (bits 8 6 b) (bits 2 6 b))
  | 0x2C => fixed b 0x3 (.feq (bits 14 6 b) (bits 8 6 b) (bits 2 6 b))
  | 0x2D => fixed b 0x3 (.flt (bits 14 6 b) (bits 8 6 b) (bits 2 6 b))
  | 0x2E => fixed b 0x3 (.fle (bits 14 6 b) (bits 8 6 b) (bits 2 6 b))
  | 0x2F => fixed b 0xFD (.fcvti (bits 14 6 b) (bits 8 6 b) (bits 1 1 b))
  | 0x30 => fixed b 0xFD (.fcvtf (bits 14 6 b) (bits 8 6 b) (bits 1 1 b))
  | _ => .error .illegalOp

/-- The branch and sequencer class (R48): the operation `op` and the body below it. -/
def decodeB (op : Nat) (b : BitVec 22) : Except DecodeError Instr :=
  match op with
  | 0x00 => fixed b 0x0 (.brz (bits 21 1 b) (bits 15 6 b) (bits 0 15 b))
  | 0x01 => fixed b 0x0 (.brnz (bits 21 1 b) (bits 15 6 b) (bits 0 15 b))
  | 0x02 => fixed b 0x18000 (.brkt (bits 21 1 b) (bits 17 4 b) (bits 0 15 b))
  | 0x03 => fixed b 0x18000 (.brkf (bits 21 1 b) (bits 17 4 b) (bits 0 15 b))
  | 0x04 => fixed b 0x200000 (.jmp (bits 0 21 b))
  | 0x05 => fixed b 0x207FFF (.jmpi (bits 15 6 b))
  | 0x06 => fixed b 0x200000 (.call (bits 15 6 b) (bits 0 15 b))
  | 0x07 => fixed b 0x207FFF (.ret (bits 15 6 b))
  | 0x08 => fixed b 0x206000 (.loop (bits 15 6 b) (bits 0 13 b))
  | 0x09 => fixed b 0x0 (.loopi (bits 13 9 b) (bits 0 13 b))
  | 0x0A => fixed b 0x2003FF (.lset (bits 18 3 b) (bits 16 2 b) (bits 10 6 b))
  | 0x0B => fixed b 0x200FFF (.lidx (bits 15 6 b) (bits 12 3 b))
  | 0x0C => fixed b 0x23FFFF (.lbrk (bits 18 3 b))
  | 0x0D => fixed b 0x200000 (.waitc (bits 0 21 b))
  | 0x0E => fixed b 0x3F0000 (.trap (bits 0 16 b))
  | 0x0F => fixed b 0x3FFFFF (.halt)
  | _ => .error .illegalOp

/-- The vector class (R49, R50): the operation `op` and the body below it. -/
def decodeV (op : Nat) (b : BitVec 21) : Except DecodeError Instr :=
  match op with
  | 0x00 => fixed b 0x0 (.vadd (bits 14 7 b) (bits 7 7 b) (bits 0 7 b))
  | 0x01 => fixed b 0x0 (.vsub (bits 14 7 b) (bits 7 7 b) (bits 0 7 b))
  | 0x02 => fixed b 0x0 (.vmul (bits 14 7 b) (bits 7 7 b) (bits 0 7 b))
  | 0x03 => fixed b 0x0 (.vfma (bits 14 7 b) (bits 7 7 b) (bits 0 7 b))
  | 0x04 => fixed b 0x0 (.vfms (bits 14 7 b) (bits 7 7 b) (bits 0 7 b))
  | 0x05 => fixed b 0x0 (.vmin (bits 14 7 b) (bits 7 7 b) (bits 0 7 b))
  | 0x06 => fixed b 0x0 (.vmax (bits 14 7 b) (bits 7 7 b) (bits 0 7 b))
  | 0x07 => fixed b 0x7F (.vabs (bits 14 7 b) (bits 7 7 b))
  | 0x08 => fixed b 0x7F (.vneg (bits 14 7 b) (bits 7 7 b))
  | 0x09 => fixed b 0x1C0000 (.veq (bits 14 4 b) (bits 7 7 b) (bits 0 7 b))
  | 0x0A => fixed b 0x1C0000 (.vne (bits 14 4 b) (bits 7 7 b) (bits 0 7 b))
  | 0x0B => fixed b 0x1C0000 (.vlt (bits 14 4 b) (bits 7 7 b) (bits 0 7 b))
  | 0x0C => fixed b 0x1C0000 (.vle (bits 14 4 b) (bits 7 7 b) (bits 0 7 b))
  | 0x0D => fixed b 0x0 (.vsel (bits 14 7 b) (bits 7 7 b) (bits 0 7 b))
  | 0x0E => fixed b 0x0 (.vand (bits 14 7 b) (bits 7 7 b) (bits 0 7 b))
  | 0x0F => fixed b 0x0 (.vor (bits 14 7 b) (bits 7 7 b) (bits 0 7 b))
  | 0x10 => fixed b 0x0 (.vxor (bits 14 7 b) (bits 7 7 b) (bits 0 7 b))
  | 0x11 => fixed b 0x0 (.viadd (bits 14 7 b) (bits 7 7 b) (bits 0 7 b))
  | 0x12 => fixed b 0x0 (.visub (bits 14 7 b) (bits 7 7 b) (bits 0 7 b))
  | 0x13 => fixed b 0x0 (.vimul (bits 14 7 b) (bits 7 7 b) (bits 0 7 b))
  | 0x14 => fixed b 0x0 (.vimin (bits 14 7 b) (bits 7 7 b) (bits 0 7 b))
  | 0x15 => fixed b 0x0 (.vimax (bits 14 7 b) (bits 7 7 b) (bits 0 7 b))
  | 0x16 => fixed b 0x0 (.vshl (bits 14 7 b) (bits 7 7 b) (bits 0 7 b))
  | 0x17 => fixed b 0x0 (.vshr (bits 14 7 b) (bits 7 7 b) (bits 0 7 b))
  | 0x18 => fixed b 0x0 (.vsar (bits 14 7 b) (bits 7 7 b) (bits 0 7 b))
  | 0x19 => fixed b 0x7F (.vrcp (bits 14 7 b) (bits 7 7 b))
  | 0x1A => fixed b 0x7F (.vrsq (bits 14 7 b) (bits 7 7 b))
  | 0x1B => fixed b 0x7F (.vsqrt (bits 14 7 b) (bits 7 7 b))
  | 0x1C => fixed b 0x7F (.vexp2 (bits 14 7 b) (bits 7 7 b))
  | 0x1D => fixed b 0x7F (.vlog2 (bits 14 7 b) (bits 7 7 b))
  | 0x1E => fixed b 0x7F (.vtanh (bits 14 7 b) (bits 7 7 b))
  | 0x1F => fixed b 0x7F (.vsigm (bits 14 7 b) (bits 7 7 b))
  | 0x20 => fixed b 0x10007F (.vrsum (bits 14 6 b) (bits 7 7 b))
  | 0x21 => fixed b 0x10007F (.vrmax (bits 14 6 b) (bits 7 7 b))
  | 0x22 => fixed b 0x10007F (.vramax (bits 14 6 b) (bits 7 7 b))
  | 0x23 => fixed b 0x207F (.vbcast (bits 14 7 b) (bits 7 6 b))
  | 0x24 => fixed b 0x100040 (.vextr (bits 14 6 b) (bits 7 7 b) (bits 0 6 b))
  | 0x25 => fixed b 0x2040 (.vins (bits 14 7 b) (bits 7 6 b) (bits 0 6 b))
  | 0x26 => fixed b 0x0 (.vperm (bits 14 7 b) (bits 7 7 b) (bits 0 7 b))
  | 0x27 => fixed b 0x40 (.vslide (bits 14 7 b) (bits 7 7 b) (bits 0 6 b))
  | 0x28 => fixed b 0x7F (.vmov (bits 14 7 b) (bits 7 7 b))
  | 0x29 => fixed b 0x3FFF (.viota (bits 14 7 b))
  | 0x2A => fixed b 0x3E7F (.vrand (bits 14 7 b) (bits 7 2 b))
  | 0x2B => fixed b 0x1C3870 (.kand (bits 14 4 b) (bits 7 4 b) (bits 0 4 b))
  | 0x2C => fixed b 0x1C3870 (.kor (bits 14 4 b) (bits 7 4 b) (bits 0 4 b))
  | 0x2D => fixed b 0x1C3870 (.kxor (bits 14 4 b) (bits 7 4 b) (bits 0 4 b))
  | 0x2E => fixed b 0x1C387F (.knot (bits 14 4 b) (bits 7 4 b))
  | 0x2F => fixed b 0x10387F (.kpop (bits 14 6 b) (bits 7 4 b))
  | _ => .error .illegalOp

/-- The conversion class (R51): the operation `op` and the body below it. -/
def decodeVX (op : Nat) (b : BitVec 21) : Except DecodeError Instr :=
  match op with
  | 0x00 | 0x01 | 0x02 | 0x03 => fixed b 0x60 (.vcvtn (opLow 2 op) (bits 14 7 b) (bits 7 7 b) (bits 4 1 b) (bits 0 4 b))
  | 0x04 | 0x05 | 0x06 | 0x07 => fixed b 0x40 (.vcvtns (opLow 2 op) (bits 14 7 b) (bits 7 7 b) (bits 0 6 b))
  | 0x08 => fixed b 0x7F (.vcvtw (bits 14 7 b) (bits 7 7 b))
  | 0x09 => fixed b 0x7E (.vcvti (bits 14 7 b) (bits 7 7 b) (bits 0 1 b))
  | 0x0A => fixed b 0x7E (.vcvtf (bits 14 7 b) (bits 7 7 b) (bits 0 1 b))
  | 0x0B => fixed b 0x100060 (.vqscaleE4m3 (bits 14 6 b) (bits 7 7 b) (bits 4 1 b) (bits 0 4 b))
  | 0x0C => fixed b 0x100060 (.vqscaleE5m2 (bits 14 6 b) (bits 7 7 b) (bits 4 1 b) (bits 0 4 b))
  | 0x0D => fixed b 0x100060 (.vqscaleBf16 (bits 14 6 b) (bits 7 7 b) (bits 4 1 b) (bits 0 4 b))
  | 0x0E => fixed b 0x100060 (.vqscaleInt8 (bits 14 6 b) (bits 7 7 b) (bits 4 1 b) (bits 0 4 b))
  | 0x0F => fixed b 0x10007F (.vside (bits 14 6 b) (bits 7 7 b))
  | 0x10 => fixed b 0x3FC0 (.vsidew (bits 14 7 b) (bits 0 6 b))
  | 0x11 => fixed b 0x1F8040 (.ttwr (bits 14 1 b) (bits 7 7 b) (bits 0 6 b))
  | 0x12 => fixed b 0x7F (.ttrdc (bits 14 7 b) (bits 13 1 b) (bits 7 6 b))
  | 0x13 => fixed b 0x60 (.ttrdcE4m3 (bits 14 7 b) (bits 13 1 b) (bits 7 6 b) (bits 4 1 b) (bits 0 4 b))
  | 0x14 => fixed b 0x60 (.ttrdcE5m2 (bits 14 7 b) (bits 13 1 b) (bits 7 6 b) (bits 4 1 b) (bits 0 4 b))
  | 0x15 => fixed b 0x60 (.ttrdcBf16 (bits 14 7 b) (bits 13 1 b) (bits 7 6 b) (bits 4 1 b) (bits 0 4 b))
  | 0x16 => fixed b 0x60 (.ttrdcInt8 (bits 14 7 b) (bits 13 1 b) (bits 7 6 b) (bits 4 1 b) (bits 0 4 b))
  | 0x17 => fixed b 0x1FBFFF (.ttclr (bits 14 1 b))
  | 0x18 => fixed b 0x1F807F (.fpusha (bits 14 1 b) (bits 7 7 b))
  | 0x19 => fixed b 0x1F807F (.fpushb (bits 14 1 b) (bits 7 7 b))
  | _ => .error .illegalOp

/-- The matrix class of engine 0 (R52): the operation `op` and the body below it. -/
def decodeM0 (op : Nat) (b : BitVec 22) : Except DecodeError Instr :=
  match op with
  | 0x00 => fixed b 0x3F03FF (.mcfg0 (bits 10 6 b))
  | 0x01 => fixed b 0x3FFFFF (.mdrain0)
  | 0x02 => fixed b 0x3FFF7F (.mldb0 (bits 7 1 b))
  | 0x03 => fixed b 0x7F (.mma0 (bits 16 6 b) (bits 10 6 b) (bits 9 1 b) (bits 8 1 b) (bits 7 1 b))
  | 0x04 => fixed b 0x3FF (.mzero0 (bits 16 6 b) (bits 10 6 b))
  | 0x05 => fixed b 0xFFFF (.mskipa0 (bits 16 6 b))
  | 0x06 => fixed b 0x3F03FF (.mstat0 (bits 10 6 b))
  | _ => .error .illegalOp

/-- The matrix class of engine 1 (R52): the operation `op` and the body below it. -/
def decodeM1 (op : Nat) (b : BitVec 22) : Except DecodeError Instr :=
  match op with
  | 0x00 => fixed b 0x3F03FF (.mcfg1 (bits 10 6 b))
  | 0x01 => fixed b 0x3FFFFF (.mdrain1)
  | 0x02 => fixed b 0x3FFF7F (.mldb1 (bits 7 1 b))
  | 0x03 => fixed b 0x7F (.mma1 (bits 16 6 b) (bits 10 6 b) (bits 9 1 b) (bits 8 1 b) (bits 7 1 b))
  | 0x04 => fixed b 0x3FF (.mzero1 (bits 16 6 b) (bits 10 6 b))
  | 0x05 => fixed b 0xFFFF (.mskipa1 (bits 16 6 b))
  | 0x06 => fixed b 0x3F03FF (.mstat1 (bits 10 6 b))
  | _ => .error .illegalOp

/-- The load class (R53, R54): the operation `op` and the body below it. -/
def decodeL (op : Nat) (b : BitVec 21) : Except DecodeError Instr :=
  match op with
  | 0x00 | 0x01 | 0x02 | 0x03 | 0x04 | 0x05 | 0x06 | 0x07 => fixed b 0x100000 (.lds (opLow 3 op) (bits 14 6 b) (bits 8 6 b) (bits 0 8 b))
  | 0x08 => fixed b 0x0 (.ldsv (bits 14 7 b) (bits 8 6 b) (bits 0 8 b))
  | 0x09 => fixed b 0x180000 (.ldsk (bits 18 1 b) (bits 14 4 b) (bits 8 6 b) (bits 0 8 b))
  | 0x0A => fixed b 0x0 (.ldsx (bits 14 7 b) (bits 8 6 b) (bits 0 8 b))
  | 0x10 | 0x11 | 0x12 | 0x13 | 0x14 | 0x15 | 0x16 | 0x17 => fixed b 0x100000 (.ldc (opLow 3 op) (bits 14 6 b) (bits 8 6 b) (bits 0 8 b))
  | 0x18 => fixed b 0x0 (.ldcv (bits 14 7 b) (bits 8 6 b) (bits 0 8 b))
  | 0x20 | 0x21 | 0x22 | 0x23 | 0x24 | 0x25 | 0x26 | 0x27 => fixed b 0x100000 (.ldg (opLow 3 op) (bits 14 6 b) (bits 8 6 b) (bits 0 8 b))
  | 0x28 => fixed b 0x0 (.ldgv (bits 14 7 b) (bits 8 6 b) (bits 0 8 b))
  | 0x29 => fixed b 0x0 (.ldgx (bits 14 7 b) (bits 8 6 b) (bits 0 8 b))
  | 0x2A => fixed b 0x1FC000 (.pref (bits 8 6 b) (bits 0 8 b))
  | _ => .error .illegalOp

/-- The store class (R53, R55): the operation `op` and the body below it. -/
def decodeT (op : Nat) (b : BitVec 21) : Except DecodeError Instr :=
  match op with
  | 0x00 | 0x01 | 0x02 | 0x03 | 0x04 => fixed b 0x100000 (.sts (opLow 3 op) (bits 14 6 b) (bits 8 6 b) (bits 0 8 b))
  | 0x08 => fixed b 0x0 (.stsv (bits 14 7 b) (bits 8 6 b) (bits 0 8 b))
  | 0x09 => fixed b 0x180000 (.stsk (bits 18 1 b) (bits 14 4 b) (bits 8 6 b) (bits 0 8 b))
  | 0x0A => fixed b 0x0 (.stsx (bits 14 7 b) (bits 8 6 b) (bits 0 8 b))
  | 0x10 | 0x11 | 0x12 | 0x13 | 0x14 => fixed b 0x100000 (.stc (opLow 3 op) (bits 14 6 b) (bits 8 6 b) (bits 0 8 b))
  | 0x18 => fixed b 0x0 (.stcv (bits 14 7 b) (bits 8 6 b) (bits 0 8 b))
  | 0x20 | 0x21 | 0x22 | 0x23 | 0x24 => fixed b 0x100000 (.stg (opLow 3 op) (bits 14 6 b) (bits 8 6 b) (bits 0 8 b))
  | 0x28 => fixed b 0x0 (.stgv (bits 14 7 b) (bits 8 6 b) (bits 0 8 b))
  | 0x29 => fixed b 0x0 (.stgn (bits 14 7 b) (bits 8 6 b) (bits 0 8 b))
  | 0x2A => fixed b 0x0 (.stgx (bits 14 7 b) (bits 8 6 b) (bits 0 8 b))
  | _ => .error .illegalOp

/-- The asynchronous class (R56, R57): the operation `op` and the body below it. -/
def decodeA (op : Nat) (b : BitVec 21) : Except DecodeError Instr :=
  match op with
  | 0x00 => fixed b 0x7FF8 (.cpy (bits 15 6 b) (bits 2 1 b) (bits 0 2 b))
  | 0x01 => fixed b 0x7FF8 (.gath (bits 15 6 b) (bits 2 1 b) (bits 0 2 b))
  | 0x02 => fixed b 0x0 (.stash (bits 15 6 b) (bits 9 6 b) (bits 3 6 b) (bits 0 3 b))
  | 0x03 => fixed b 0x7 (.sfetch (bits 15 6 b) (bits 9 6 b) (bits 3 6 b))
  | 0x04 => fixed b 0x1FF (.sprobe (bits 15 6 b) (bits 9 6 b))
  | 0x05 => fixed b 0x1F81FF (.sfree (bits 9 6 b))
  | 0x06 => fixed b 0x1C0 (.chsend (bits 15 6 b) (bits 9 6 b) (bits 0 6 b))
  | 0x07 => fixed b 0x7FC0 (.chpost (bits 15 6 b) (bits 0 6 b))
  | 0x08 => fixed b 0x1F81C0 (.chack (bits 9 6 b) (bits 0 6 b))
  | 0x09 => fixed b 0x7E07 (.coll (bits 15 6 b) (bits 3 6 b))
  | 0x0A => fixed b 0x1FF (.shopen (bits 15 6 b) (bits 9 6 b))
  | 0x0B => fixed b 0x7FF8 (.publish (bits 15 6 b) (bits 0 3 b))
  | 0x0C => fixed b 0x1F81F8 (.ckpt (bits 9 6 b) (bits 0 3 b))
  | 0x0D => fixed b 0x1F81FF (.replay (bits 9 6 b))
  | 0x0E => fixed b 0x7FFF (.split (bits 15 6 b))
  | 0x0F => fixed b 0x7FFC (.wpwait (bits 15 6 b) (bits 0 2 b))
  | 0x10 => fixed b 0x7E00 (.nrmrd (bits 15 6 b) (bits 8 1 b) (bits 0 8 b))
  | 0x11 => fixed b 0x1FFF00 (.nrmclr (bits 0 8 b))
  | 0x12 => fixed b 0x7F00 (.nrmset (bits 15 6 b) (bits 0 8 b))
  | _ => .error .illegalOp

/-- The queue class (R56, R58): the operation `op` and the body below it. -/
def decodeQ (op : Nat) (b : BitVec 21) : Except DecodeError Instr :=
  match op with
  | 0x00 => fixed b 0x1FFC0 (.deq (bits 17 4 b) (bits 0 6 b))
  | 0x01 => fixed b 0x1FFC0 (.deqt (bits 17 4 b) (bits 0 6 b))
  | 0x02 => fixed b 0x1FFC0 (.enq (bits 17 4 b) (bits 0 6 b))
  | 0x03 => fixed b 0x1FFFC0 (.qclose (bits 0 6 b))
  | 0x04 => fixed b 0x7FC0 (.binit (bits 15 6 b) (bits 0 6 b))
  | 0x05 => fixed b 0x1FFFC0 (.barr (bits 0 6 b))
  | 0x06 => fixed b 0x7FC0 (.bexp (bits 15 6 b) (bits 0 6 b))
  | 0x07 => fixed b 0x7F80 (.bwait (bits 15 6 b) (bits 6 1 b) (bits 0 6 b))
  | 0x08 => fixed b 0x7FC0 (.bpoll (bits 15 6 b) (bits 0 6 b))
  | 0x09 => fixed b 0x1FFFE0 (.fence (bits 3 2 b) (bits 0 3 b))
  | 0x0A => fixed b 0x1FFFFF (.qalign)
  | 0x0C | 0x0D | 0x0E | 0x0F => fixed b 0x0 (.amo (opLow 2 op) (bits 15 6 b) (bits 9 6 b) (bits 8 1 b) (bits 5 3 b) (bits 4 1 b) (bits 0 4 b))
  | 0x10 => fixed b 0x1FFFFF (.phadv)
  | _ => .error .illegalOp

/-- The system class (R56, R59): the operation `op` and the body below it. -/
def decodeY (op : Nat) (b : BitVec 21) : Except DecodeError Instr :=
  match op with
  | 0x00 => fixed b 0x7000 (.csrr (bits 15 6 b) (bits 0 12 b))
  | 0x01 => fixed b 0x7000 (.csrw (bits 15 6 b) (bits 0 12 b))
  | 0x02 => fixed b 0x7000 (.csrs (bits 15 6 b) (bits 0 12 b))
  | 0x03 => fixed b 0x7000 (.csrc (bits 15 6 b) (bits 0 12 b))
  | 0x04 => fixed b 0x1FFFFF (.tret)
  | 0x05 => fixed b 0x1FFFFF (.ctxsw)
  | 0x06 => fixed b 0x7FFF (.swpout (bits 15 6 b))
  | 0x07 => fixed b 0x7FFF (.swpin (bits 15 6 b))
  | 0x08 => fixed b 0x1F0 (.seedld (bits 15 6 b) (bits 9 6 b) (bits 0 4 b))
  | 0x09 => fixed b 0x1FC (.genld (bits 15 6 b) (bits 9 6 b) (bits 0 2 b))
  | 0x0A => fixed b 0x1F8000 (.svc (bits 0 15 b))
  | 0x0B => fixed b 0x1FF (.extinv (bits 15 6 b) (bits 9 6 b))
  | 0x0C => fixed b 0x7FFF (.migr (bits 15 6 b))
  | 0x0D => decodeBalloon b
  | 0x0E => fixed b 0x1FFFFF (.idle)
  | _ => .error .illegalOp

/-- The instruction of one slot; bit 31, the STOP bit, is the bundle's and is not read (R36, R37). -/
def decodeSlot (w : Slot) : Except DecodeError Instr :=
  match (bits 27 4 w).toNat with
  | 0 => fixed (bits 0 27 w) 0x7000000 (.pfx (bits 21 3 w) (bits 20 1 w) (bits 16 4 w) (bits 0 16 w))
  | 1 => decodeS (bits 20 7 w).toNat (bits 0 20 w)
  | 2 => decodeB (bits 22 5 w).toNat (bits 0 22 w)
  | 3 => decodeV (bits 21 6 w).toNat (bits 0 21 w)
  | 4 => decodeVX (bits 21 6 w).toNat (bits 0 21 w)
  | 5 => decodeM0 (bits 22 5 w).toNat (bits 0 22 w)
  | 6 => decodeM1 (bits 22 5 w).toNat (bits 0 22 w)
  | 7 => decodeL (bits 21 6 w).toNat (bits 0 21 w)
  | 8 => decodeT (bits 21 6 w).toNat (bits 0 21 w)
  | 9 => decodeA (bits 21 6 w).toNat (bits 0 21 w)
  | 10 => decodeQ (bits 21 6 w).toNat (bits 0 21 w)
  | 11 => fixed (bits 0 27 w) 0x6000000 (.ext (bits 0 25 w))
  | 12 => decodeY (bits 21 6 w).toNat (bits 0 21 w)
  | _ => .error .illegalClass

/-! ## The encoder -/

/-- A slot with no operation field: STOP 0, the class, 27 bits of body (classes P and E). -/
def packBare (cls : BitVec 4) (body : BitVec 27) : Slot := (0 : BitVec 1) ++ cls ++ body
/-- A slot with a 7-bit operation (class S). -/
def pack7 (cls : BitVec 4) (op : BitVec 7) (body : BitVec 20) : Slot := (0 : BitVec 1) ++ cls ++ op ++ body
/-- A slot with a 6-bit operation (classes V, VX, L, T, A, Q and Y). -/
def pack6 (cls : BitVec 4) (op : BitVec 6) (body : BitVec 21) : Slot := (0 : BitVec 1) ++ cls ++ op ++ body
/-- A slot with a 5-bit operation (classes B, M0 and M1). -/
def pack5 (cls : BitVec 4) (op : BitVec 5) (body : BitVec 22) : Slot := (0 : BitVec 1) ++ cls ++ op ++ body

/-- The rows of the opcode table that are steps of the machine and no slots of a bundle. -/
def Instr.isStep : Instr → Bool
  | .runAheadPreissue .. | .segmentExpand .. | .postedTrapTake .. | .loadPerform .. | .storePerform .. | .amoPerform ..
  | .markerEffect .. | .l2LineEvict .. | .drainComplete .. | .haltReport .. | .preemptArrive .. | .swapOutComplete ..
  | .swapInComplete .. | .schedulerRound .. | .enqRecordEnter .. | .barrArrive .. | .copyBlockProgress .. | .chainBlockEnd ..
  | .fifoDelivery .. | .engineCountFix .. | .ccctlAbort .. | .stashCmdTake .. | .stashOffloadComplete .. | .stashDropComplete ..
  | .stashKeepComplete .. | .stashFetchComplete .. | .spillLinkAbort .. | .sfreeComplete .. | .ckptRecordComplete ..
  | .replayRemoteRestore .. | .packetDepart .. | .packetDeposit .. | .windowFlitReceive .. | .packetAckReceive ..
  | .chackEffect .. | .bucketStart .. | .chunkReceive .. | .completionMarkReceive .. | .failureMarkReceive .. | .ringSettle ..
  | .shopenEffect .. | .publishEffect .. | .splitArrive .. | .splitDrainEnd .. | .balloonClaim .. | .evictionStart ..
  | .evictionComplete .. | .pageRecall .. | .spaceAnswer .. | .accessCountHalve .. | .migrationPass .. | .executiveFrame ..
  | .queueNotify .. | .prgResponse .. | .atsTranslationReturn .. | .atsInvalidation .. | .hostWindowWrite ..
  | .hostWindowRead .. | .invoke .. | .load .. | .unload .. | .version .. | .stagecfg .. | .devcfg .. | .tagset ..
  | .snapshot .. | .snapshotSend .. | .holderDigestReceive .. | .pageans .. | .pasiddown .. | .teardownCancel ..
  | .teardownTimeout .. | .preempt .. | .restore .. | .qcreate .. | .qdelete .. | .reset .. | .recoveryMailboxWrite ..
  | .singlePartReset .. | .dieFatalFault .. | .portRetrain .. | .portUp .. | .portDown .. | .linkFlitRetry ..
  | .deviceFailureDeclare .. | .domainAccessTimeout .. | .rollback .. | .fillChunkAck .. | .phaseFlitSend ..
  | .phaseFlitReceive .. | .powerArbitration .. | .spdmGetVersion .. | .spdmGetCapabilities .. | .spdmNegotiateAlgorithms ..
  | .spdmGetDigests .. | .spdmGetCertificate .. | .spdmChallenge .. | .spdmGetMeasurements .. | .cmpctlWrite .. | .cmpwmWrite ..
  | .cmpstatRefusedClear .. | .stashRegionWrite .. | .wakeWrite .. | .barwWrite .. | .ringcfgWrite .. | .rportWrite ..
  | .arbctlWrite .. | .pwrctlWrite .. | .tcoordWrite .. | .registerWrite .. | .nonInstructionEncoding ..
  | .translationWalkComplete .. | .priReenable .. => true
  | _ => false

/-- The word of a slot with STOP 0; a step without an encoding has none. -/
def encode : Instr → Option Slot
  | .pfx rm sat mask strict => some (packBare 0 ((0 : BitVec 3) ++ rm ++ sat ++ mask ++ strict))
  | .ext pay => some (packBare 11 ((0 : BitVec 2) ++ pay))
  | .add rd ra rb mod => some (pack7 1 0x00 (rd ++ ra ++ rb ++ mod ++ (0x0 : BitVec 1)))
  | .sub rd ra rb mod => some (pack7 1 0x01 (rd ++ ra ++ rb ++ mod ++ (0x0 : BitVec 1)))
  | .addi rd ra imm => some (pack7 1 0x02 (rd ++ ra ++ imm))
  | .addsh rd ra rb mod => some (pack7 1 0x03 (rd ++ ra ++ rb ++ mod ++ (0x0 : BitVec 1)))
  | .mul rd ra rb mod => some (pack7 1 0x04 (rd ++ ra ++ rb ++ mod ++ (0x0 : BitVec 1)))
  | .mulh rd ra rb mod => some (pack7 1 0x05 (rd ++ ra ++ rb ++ mod ++ (0x0 : BitVec 1)))
  | .div rd ra rb mod => some (pack7 1 0x06 (rd ++ ra ++ rb ++ mod ++ (0x0 : BitVec 1)))
  | .divu rd ra rb mod => some (pack7 1 0x07 (rd ++ ra ++ rb ++ mod ++ (0x0 : BitVec 1)))
  | .rem rd ra rb mod => some (pack7 1 0x08 (rd ++ ra ++ rb ++ mod ++ (0x0 : BitVec 1)))
  | .and rd ra rb => some (pack7 1 0x09 (rd ++ ra ++ rb ++ (0x0 : BitVec 2)))
  | .or rd ra rb => some (pack7 1 0x0A (rd ++ ra ++ rb ++ (0x0 : BitVec 2)))
  | .xor rd ra rb => some (pack7 1 0x0B (rd ++ ra ++ rb ++ (0x0 : BitVec 2)))
  | .andn rd ra rb => some (pack7 1 0x0C (rd ++ ra ++ rb ++ (0x0 : BitVec 2)))
  | .shl rd ra rb mod => some (pack7 1 0x0D (rd ++ ra ++ rb ++ mod ++ (0x0 : BitVec 1)))
  | .shr rd ra rb mod => some (pack7 1 0x0E (rd ++ ra ++ rb ++ mod ++ (0x0 : BitVec 1)))
  | .sar rd ra rb mod => some (pack7 1 0x0F (rd ++ ra ++ rb ++ mod ++ (0x0 : BitVec 1)))
  | .shli rd ra imm => some (pack7 1 0x10 (rd ++ ra ++ (0 : BitVec 2) ++ imm))
  | .shri rd ra imm => some (pack7 1 0x11 (rd ++ ra ++ (0 : BitVec 2) ++ imm))
  | .sari rd ra imm => some (pack7 1 0x12 (rd ++ ra ++ (0 : BitVec 2) ++ imm))
  | .clz rd ra mod => some (pack7 1 0x13 (rd ++ ra ++ (0 : BitVec 6) ++ mod ++ (0x0 : BitVec 1)))
  | .popc rd ra mod => some (pack7 1 0x14 (rd ++ ra ++ (0 : BitVec 6) ++ mod ++ (0x0 : BitVec 1)))
  | .bext rd ra rb => some (pack7 1 0x15 (rd ++ ra ++ rb ++ (0x0 : BitVec 2)))
  | .bins rd ra rb => some (pack7 1 0x16 (rd ++ ra ++ rb ++ (0x0 : BitVec 2)))
  | .min rd ra rb mod => some (pack7 1 0x17 (rd ++ ra ++ rb ++ mod ++ (0x0 : BitVec 1)))
  | .max rd ra rb mod => some (pack7 1 0x18 (rd ++ ra ++ rb ++ mod ++ (0x0 : BitVec 1)))
  | .minu rd ra rb mod => some (pack7 1 0x19 (rd ++ ra ++ rb ++ mod ++ (0x0 : BitVec 1)))
  | .maxu rd ra rb mod => some (pack7 1 0x1A (rd ++ ra ++ rb ++ mod ++ (0x0 : BitVec 1)))
  | .seq rd ra rb mod => some (pack7 1 0x1B (rd ++ ra ++ rb ++ mod ++ (0x0 : BitVec 1)))
  | .sne rd ra rb mod => some (pack7 1 0x1C (rd ++ ra ++ rb ++ mod ++ (0x0 : BitVec 1)))
  | .slt rd ra rb mod => some (pack7 1 0x1D (rd ++ ra ++ rb ++ mod ++ (0x0 : BitVec 1)))
  | .sltu rd ra rb mod => some (pack7 1 0x1E (rd ++ ra ++ rb ++ mod ++ (0x0 : BitVec 1)))
  | .sle rd ra rb mod => some (pack7 1 0x1F (rd ++ ra ++ rb ++ mod ++ (0x0 : BitVec 1)))
  | .sleu rd ra rb mod => some (pack7 1 0x20 (rd ++ ra ++ rb ++ mod ++ (0x0 : BitVec 1)))
  | .sel rd ra rb => some (pack7 1 0x21 (rd ++ ra ++ rb ++ (0x0 : BitVec 2)))
  | .movi rd imm => some (pack7 1 0x22 (rd ++ imm))
  | .movhi rd imm => some (pack7 1 0x23 (rd ++ imm))
  | .fadd rd ra rb => some (pack7 1 0x24 (rd ++ ra ++ rb ++ (0x0 : BitVec 2)))
  | .fsub rd ra rb => some (pack7 1 0x25 (rd ++ ra ++ rb ++ (0x0 : BitVec 2)))
  | .fmul rd ra rb => some (pack7 1 0x26 (rd ++ ra ++ rb ++ (0x0 : BitVec 2)))
  | .ffma rd ra rb => some (pack7 1 0x27 (rd ++ ra ++ rb ++ (0x0 : BitVec 2)))
  | .fdiv rd ra rb => some (pack7 1 0x28 (rd ++ ra ++ rb ++ (0x0 : BitVec 2)))
  | .fsqrt rd ra => some (pack7 1 0x29 (rd ++ ra ++ (0x0 : BitVec 8)))
  | .fmin rd ra rb => some (pack7 1 0x2A (rd ++ ra ++ rb ++ (0x0 : BitVec 2)))
  | .fmax rd ra rb => some (pack7 1 0x2B (rd ++ ra ++ rb ++ (0x0 : BitVec 2)))
  | .feq rd ra rb => some (pack7 1 0x2C (rd ++ ra ++ rb ++ (0x0 : BitVec 2)))
  | .flt rd ra rb => some (pack7 1 0x2D (rd ++ ra ++ rb ++ (0x0 : BitVec 2)))
  | .fle rd ra rb => some (pack7 1 0x2E (rd ++ ra ++ rb ++ (0x0 : BitVec 2)))
  | .fcvti rd ra mod => some (pack7 1 0x2F (rd ++ ra ++ (0 : BitVec 6) ++ mod ++ (0x0 : BitVec 1)))
  | .fcvtf rd ra mod => some (pack7 1 0x30 (rd ++ ra ++ (0 : BitVec 6) ++ mod ++ (0x0 : BitVec 1)))
  | .brz hint ra off => some (pack5 2 0x00 (hint ++ ra ++ off))
  | .brnz hint ra off => some (pack5 2 0x01 (hint ++ ra ++ off))
  | .brkt hint rk off => some (pack5 2 0x02 (hint ++ rk ++ (0 : BitVec 2) ++ off))
  | .brkf hint rk off => some (pack5 2 0x03 (hint ++ rk ++ (0 : BitVec 2) ++ off))
  | .jmp off => some (pack5 2 0x04 ((0 : BitVec 1) ++ off))
  | .jmpi ra => some (pack5 2 0x05 ((0 : BitVec 1) ++ ra ++ (0x0 : BitVec 15)))
  | .call rd off => some (pack5 2 0x06 ((0 : BitVec 1) ++ rd ++ off))
  | .ret ra => some (pack5 2 0x07 ((0 : BitVec 1) ++ ra ++ (0x0 : BitVec 15)))
  | .loop ra endw => some (pack5 2 0x08 ((0 : BitVec 1) ++ ra ++ (0 : BitVec 2) ++ endw))
  | .loopi cnt endw => some (pack5 2 0x09 (cnt ++ endw))
  | .lset lvl fld ra => some (pack5 2 0x0A ((0 : BitVec 1) ++ lvl ++ fld ++ ra ++ (0x0 : BitVec 10)))
  | .lidx rd lvl => some (pack5 2 0x0B ((0 : BitVec 1) ++ rd ++ lvl ++ (0x0 : BitVec 12)))
  | .lbrk lvl => some (pack5 2 0x0C ((0 : BitVec 1) ++ lvl ++ (0x0 : BitVec 18)))
  | .waitc cnt => some (pack5 2 0x0D ((0 : BitVec 1) ++ cnt))
  | .trap code => some (pack5 2 0x0E ((0 : BitVec 6) ++ code))
  | .halt => some (pack5 2 0x0F ((0x0 : BitVec 22)))
  | .vadd rd ra rb => some (pack6 3 0x00 (rd ++ ra ++ rb))
  | .vsub rd ra rb => some (pack6 3 0x01 (rd ++ ra ++ rb))
  | .vmul rd ra rb => some (pack6 3 0x02 (rd ++ ra ++ rb))
  | .vfma rd ra rb => some (pack6 3 0x03 (rd ++ ra ++ rb))
  | .vfms rd ra rb => some (pack6 3 0x04 (rd ++ ra ++ rb))
  | .vmin rd ra rb => some (pack6 3 0x05 (rd ++ ra ++ rb))
  | .vmax rd ra rb => some (pack6 3 0x06 (rd ++ ra ++ rb))
  | .vabs rd ra => some (pack6 3 0x07 (rd ++ ra ++ (0x0 : BitVec 7)))
  | .vneg rd ra => some (pack6 3 0x08 (rd ++ ra ++ (0x0 : BitVec 7)))
  | .veq rd ra rb => some (pack6 3 0x09 ((0 : BitVec 3) ++ rd ++ ra ++ rb))
  | .vne rd ra rb => some (pack6 3 0x0A ((0 : BitVec 3) ++ rd ++ ra ++ rb))
  | .vlt rd ra rb => some (pack6 3 0x0B ((0 : BitVec 3) ++ rd ++ ra ++ rb))
  | .vle rd ra rb => some (pack6 3 0x0C ((0 : BitVec 3) ++ rd ++ ra ++ rb))
  | .vsel rd ra rb => some (pack6 3 0x0D (rd ++ ra ++ rb))
  | .vand rd ra rb => some (pack6 3 0x0E (rd ++ ra ++ rb))
  | .vor rd ra rb => some (pack6 3 0x0F (rd ++ ra ++ rb))
  | .vxor rd ra rb => some (pack6 3 0x10 (rd ++ ra ++ rb))
  | .viadd rd ra rb => some (pack6 3 0x11 (rd ++ ra ++ rb))
  | .visub rd ra rb => some (pack6 3 0x12 (rd ++ ra ++ rb))
  | .vimul rd ra rb => some (pack6 3 0x13 (rd ++ ra ++ rb))
  | .vimin rd ra rb => some (pack6 3 0x14 (rd ++ ra ++ rb))
  | .vimax rd ra rb => some (pack6 3 0x15 (rd ++ ra ++ rb))
  | .vshl rd ra rb => some (pack6 3 0x16 (rd ++ ra ++ rb))
  | .vshr rd ra rb => some (pack6 3 0x17 (rd ++ ra ++ rb))
  | .vsar rd ra rb => some (pack6 3 0x18 (rd ++ ra ++ rb))
  | .vrcp rd ra => some (pack6 3 0x19 (rd ++ ra ++ (0x0 : BitVec 7)))
  | .vrsq rd ra => some (pack6 3 0x1A (rd ++ ra ++ (0x0 : BitVec 7)))
  | .vsqrt rd ra => some (pack6 3 0x1B (rd ++ ra ++ (0x0 : BitVec 7)))
  | .vexp2 rd ra => some (pack6 3 0x1C (rd ++ ra ++ (0x0 : BitVec 7)))
  | .vlog2 rd ra => some (pack6 3 0x1D (rd ++ ra ++ (0x0 : BitVec 7)))
  | .vtanh rd ra => some (pack6 3 0x1E (rd ++ ra ++ (0x0 : BitVec 7)))
  | .vsigm rd ra => some (pack6 3 0x1F (rd ++ ra ++ (0x0 : BitVec 7)))
  | .vrsum rd ra => some (pack6 3 0x20 ((0 : BitVec 1) ++ rd ++ ra ++ (0x0 : BitVec 7)))
  | .vrmax rd ra => some (pack6 3 0x21 ((0 : BitVec 1) ++ rd ++ ra ++ (0x0 : BitVec 7)))
  | .vramax rd ra => some (pack6 3 0x22 ((0 : BitVec 1) ++ rd ++ ra ++ (0x0 : BitVec 7)))
  | .vbcast rd ra => some (pack6 3 0x23 (rd ++ (0 : BitVec 1) ++ ra ++ (0x0 : BitVec 7)))
  | .vextr rd ra rb => some (pack6 3 0x24 ((0 : BitVec 1) ++ rd ++ ra ++ (0 : BitVec 1) ++ rb))
  | .vins rd ra rb => some (pack6 3 0x25 (rd ++ (0 : BitVec 1) ++ ra ++ (0 : BitVec 1) ++ rb))
  | .vperm rd ra rb => some (pack6 3 0x26 (rd ++ ra ++ rb))
  | .vslide rd ra rb => some (pack6 3 0x27 (rd ++ ra ++ (0 : BitVec 1) ++ rb))
  | .vmov rd ra => some (pack6 3 0x28 (rd ++ ra ++ (0x0 : BitVec 7)))
  | .viota rd => some (pack6 3 0x29 (rd ++ (0x0 : BitVec 14)))
  | .vrand rd ra => some (pack6 3 0x2A (rd ++ (0 : BitVec 5) ++ ra ++ (0x0 : BitVec 7)))
  | .kand rd ra rb => some (pack6 3 0x2B ((0 : BitVec 3) ++ rd ++ (0 : BitVec 3) ++ ra ++ (0 : BitVec 3) ++ rb))
  | .kor rd ra rb => some (pack6 3 0x2C ((0 : BitVec 3) ++ rd ++ (0 : BitVec 3) ++ ra ++ (0 : BitVec 3) ++ rb))
  | .kxor rd ra rb => some (pack6 3 0x2D ((0 : BitVec 3) ++ rd ++ (0 : BitVec 3) ++ ra ++ (0 : BitVec 3) ++ rb))
  | .knot rd ra => some (pack6 3 0x2E ((0 : BitVec 3) ++ rd ++ (0 : BitVec 3) ++ ra ++ (0x0 : BitVec 7)))
  | .kpop rd ra => some (pack6 3 0x2F ((0 : BitVec 1) ++ rd ++ (0 : BitVec 3) ++ ra ++ (0x0 : BitVec 7)))
  | .vcvtn fmt rd ra noRot seed => some (pack6 4 ((0x0 : BitVec 4) ++ fmt) (rd ++ ra ++ (0 : BitVec 2) ++ noRot ++ seed))
  | .vcvtns fmt rd ra rb => some (pack6 4 ((0x1 : BitVec 4) ++ fmt) (rd ++ ra ++ (0 : BitVec 1) ++ rb))
  | .vcvtw rd ra => some (pack6 4 0x08 (rd ++ ra ++ (0x0 : BitVec 7)))
  | .vcvti rd ra uns => some (pack6 4 0x09 (rd ++ ra ++ (0 : BitVec 6) ++ uns))
  | .vcvtf rd ra uns => some (pack6 4 0x0A (rd ++ ra ++ (0 : BitVec 6) ++ uns))
  | .vqscaleE4m3 rd ra noRot seed => some (pack6 4 0x0B ((0 : BitVec 1) ++ rd ++ ra ++ (0 : BitVec 2) ++ noRot ++ seed))
  | .vqscaleE5m2 rd ra noRot seed => some (pack6 4 0x0C ((0 : BitVec 1) ++ rd ++ ra ++ (0 : BitVec 2) ++ noRot ++ seed))
  | .vqscaleBf16 rd ra noRot seed => some (pack6 4 0x0D ((0 : BitVec 1) ++ rd ++ ra ++ (0 : BitVec 2) ++ noRot ++ seed))
  | .vqscaleInt8 rd ra noRot seed => some (pack6 4 0x0E ((0 : BitVec 1) ++ rd ++ ra ++ (0 : BitVec 2) ++ noRot ++ seed))
  | .vside rd ra => some (pack6 4 0x0F ((0 : BitVec 1) ++ rd ++ ra ++ (0x0 : BitVec 7)))
  | .vsidew rd rb => some (pack6 4 0x10 (rd ++ (0 : BitVec 8) ++ rb))
  | .ttwr tile ra rb => some (pack6 4 0x11 ((0 : BitVec 6) ++ tile ++ ra ++ (0 : BitVec 1) ++ rb))
  | .ttrdc rd tile ra => some (pack6 4 0x12 (rd ++ tile ++ ra ++ (0x0 : BitVec 7)))
  | .ttrdcE4m3 rd tile ra noRot seed => some (pack6 4 0x13 (rd ++ tile ++ ra ++ (0 : BitVec 2) ++ noRot ++ seed))
  | .ttrdcE5m2 rd tile ra noRot seed => some (pack6 4 0x14 (rd ++ tile ++ ra ++ (0 : BitVec 2) ++ noRot ++ seed))
  | .ttrdcBf16 rd tile ra noRot seed => some (pack6 4 0x15 (rd ++ tile ++ ra ++ (0 : BitVec 2) ++ noRot ++ seed))
  | .ttrdcInt8 rd tile ra noRot seed => some (pack6 4 0x16 (rd ++ tile ++ ra ++ (0 : BitVec 2) ++ noRot ++ seed))
  | .ttclr tile => some (pack6 4 0x17 ((0 : BitVec 6) ++ tile ++ (0x0 : BitVec 14)))
  | .fpusha fifo ra => some (pack6 4 0x18 ((0 : BitVec 6) ++ fifo ++ ra ++ (0x0 : BitVec 7)))
  | .fpushb fifo ra => some (pack6 4 0x19 ((0 : BitVec 6) ++ fifo ++ ra ++ (0x0 : BitVec 7)))
  | .mcfg0 ra => some (pack5 5 0x00 ((0 : BitVec 6) ++ ra ++ (0x0 : BitVec 10)))
  | .mcfg1 ra => some (pack5 6 0x00 ((0 : BitVec 6) ++ ra ++ (0x0 : BitVec 10)))
  | .mdrain0 => some (pack5 5 0x01 ((0x0 : BitVec 22)))
  | .mdrain1 => some (pack5 6 0x01 ((0x0 : BitVec 22)))
  | .mldb0 wb => some (pack5 5 0x02 ((0 : BitVec 14) ++ wb ++ (0x0 : BitVec 7)))
  | .mldb1 wb => some (pack5 6 0x02 ((0 : BitVec 14) ++ wb ++ (0x0 : BitVec 7)))
  | .mma0 nm1 row0 ovw scl wb => some (pack5 5 0x03 (nm1 ++ row0 ++ ovw ++ scl ++ wb ++ (0x0 : BitVec 7)))
  | .mma1 nm1 row0 ovw scl wb => some (pack5 6 0x03 (nm1 ++ row0 ++ ovw ++ scl ++ wb ++ (0x0 : BitVec 7)))
  | .mzero0 nm1 row0 => some (pack5 5 0x04 (nm1 ++ row0 ++ (0x0 : BitVec 10)))
  | .mzero1 nm1 row0 => some (pack5 6 0x04 (nm1 ++ row0 ++ (0x0 : BitVec 10)))
  | .mskipa0 nm1 => some (pack5 5 0x05 (nm1 ++ (0x0 : BitVec 16)))
  | .mskipa1 nm1 => some (pack5 6 0x05 (nm1 ++ (0x0 : BitVec 16)))
  | .mstat0 rd => some (pack5 5 0x06 ((0 : BitVec 6) ++ rd ++ (0x0 : BitVec 10)))
  | .mstat1 rd => some (pack5 6 0x06 ((0 : BitVec 6) ++ rd ++ (0x0 : BitVec 10)))
  | .lds size rd base off => some (pack6 7 ((0x0 : BitVec 3) ++ size) ((0 : BitVec 1) ++ rd ++ base ++ off))
  | .ldsv rd base off => some (pack6 7 0x08 (rd ++ base ++ off))
  | .ldsk hi rk base off => some (pack6 7 0x09 ((0 : BitVec 2) ++ hi ++ rk ++ base ++ off))
  | .ldsx rd base off => some (pack6 7 0x0A (rd ++ base ++ off))
  | .ldc size rd base off => some (pack6 7 ((0x2 : BitVec 3) ++ size) ((0 : BitVec 1) ++ rd ++ base ++ off))
  | .ldcv rd base off => some (pack6 7 0x18 (rd ++ base ++ off))
  | .ldg size rd base off => some (pack6 7 ((0x4 : BitVec 3) ++ size) ((0 : BitVec 1) ++ rd ++ base ++ off))
  | .ldgv rd base off => some (pack6 7 0x28 (rd ++ base ++ off))
  | .ldgx rd base off => some (pack6 7 0x29 (rd ++ base ++ off))
  | .pref base off => some (pack6 7 0x2A ((0 : BitVec 7) ++ base ++ off))
  | .sts size rd base off => some (pack6 8 ((0x0 : BitVec 3) ++ size) ((0 : BitVec 1) ++ rd ++ base ++ off))
  | .stsv rd base off => some (pack6 8 0x08 (rd ++ base ++ off))
  | .stsk hi rk base off => some (pack6 8 0x09 ((0 : BitVec 2) ++ hi ++ rk ++ base ++ off))
  | .stsx rd base off => some (pack6 8 0x0A (rd ++ base ++ off))
  | .stc size rd base off => some (pack6 8 ((0x2 : BitVec 3) ++ size) ((0 : BitVec 1) ++ rd ++ base ++ off))
  | .stcv rd base off => some (pack6 8 0x18 (rd ++ base ++ off))
  | .stg size rd base off => some (pack6 8 ((0x4 : BitVec 3) ++ size) ((0 : BitVec 1) ++ rd ++ base ++ off))
  | .stgv rd base off => some (pack6 8 0x28 (rd ++ base ++ off))
  | .stgn rd base norm => some (pack6 8 0x29 (rd ++ base ++ norm))
  | .stgx rd base off => some (pack6 8 0x2A (rd ++ base ++ off))
  | .cpy opa inCluster chan => some (pack6 9 0x00 (opa ++ (0 : BitVec 12) ++ inCluster ++ chan))
  | .gath opa inCluster chan => some (pack6 9 0x01 (opa ++ (0 : BitVec 12) ++ inCluster ++ chan))
  | .stash opa opb bar mode => some (pack6 9 0x02 (opa ++ opb ++ bar ++ mode))
  | .sfetch opa opb bar => some (pack6 9 0x03 (opa ++ opb ++ bar ++ (0x0 : BitVec 3)))
  | .sprobe opa opb => some (pack6 9 0x04 (opa ++ opb ++ (0x0 : BitVec 9)))
  | .sfree opb => some (pack6 9 0x05 ((0 : BitVec 6) ++ opb ++ (0x0 : BitVec 9)))
  | .chsend opa opb chan => some (pack6 9 0x06 (opa ++ opb ++ (0 : BitVec 3) ++ chan))
  | .chpost opa chan => some (pack6 9 0x07 (opa ++ (0 : BitVec 9) ++ chan))
  | .chack opb chan => some (pack6 9 0x08 ((0 : BitVec 6) ++ opb ++ (0 : BitVec 3) ++ chan))
  | .coll opa bar => some (pack6 9 0x09 (opa ++ (0 : BitVec 6) ++ bar ++ (0x0 : BitVec 3)))
  | .shopen opa opb => some (pack6 9 0x0A (opa ++ opb ++ (0x0 : BitVec 9)))
  | .publish opa scope => some (pack6 9 0x0B (opa ++ (0 : BitVec 12) ++ scope))
  | .ckpt opb scope => some (pack6 9 0x0C ((0 : BitVec 6) ++ opb ++ (0 : BitVec 6) ++ scope))
  | .replay opb => some (pack6 9 0x0D ((0 : BitVec 6) ++ opb ++ (0x0 : BitVec 9)))
  | .split opa => some (pack6 9 0x0E (opa ++ (0x0 : BitVec 15)))
  | .wpwait opa chan => some (pack6 9 0x0F (opa ++ (0 : BitVec 13) ++ chan))
  | .nrmrd opa wantE norm => some (pack6 9 0x10 (opa ++ (0 : BitVec 6) ++ wantE ++ norm))
  | .nrmclr norm => some (pack6 9 0x11 ((0 : BitVec 13) ++ norm))
  | .nrmset opa norm => some (pack6 9 0x12 (opa ++ (0 : BitVec 7) ++ norm))
  | .deq grp wq => some (pack6 10 0x00 (grp ++ (0 : BitVec 11) ++ wq))
  | .deqt grp wq => some (pack6 10 0x01 (grp ++ (0 : BitVec 11) ++ wq))
  | .enq grp wq => some (pack6 10 0x02 (grp ++ (0 : BitVec 11) ++ wq))
  | .qclose wq => some (pack6 10 0x03 ((0 : BitVec 15) ++ wq))
  | .binit opa bar => some (pack6 10 0x04 (opa ++ (0 : BitVec 9) ++ bar))
  | .barr bar => some (pack6 10 0x05 ((0 : BitVec 15) ++ bar))
  | .bexp opa bar => some (pack6 10 0x06 (opa ++ (0 : BitVec 9) ++ bar))
  | .bwait opa te bar => some (pack6 10 0x07 (opa ++ (0 : BitVec 8) ++ te ++ bar))
  | .bpoll opa bar => some (pack6 10 0x08 (opa ++ (0 : BitVec 9) ++ bar))
  | .fence order scope => some (pack6 10 0x09 ((0 : BitVec 16) ++ order ++ scope))
  | .qalign => some (pack6 10 0x0A ((0x0 : BitVec 21)))
  | .amo order opa opb nr scope size fn => some (pack6 10 ((0x3 : BitVec 4) ++ order) (opa ++ opb ++ nr ++ scope ++ size ++ fn))
  | .phadv => some (pack6 10 0x10 ((0x0 : BitVec 21)))
  | .csrr opa csr => some (pack6 12 0x00 (opa ++ (0 : BitVec 3) ++ csr))
  | .csrw opa csr => some (pack6 12 0x01 (opa ++ (0 : BitVec 3) ++ csr))
  | .csrs opa csr => some (pack6 12 0x02 (opa ++ (0 : BitVec 3) ++ csr))
  | .csrc opa csr => some (pack6 12 0x03 (opa ++ (0 : BitVec 3) ++ csr))
  | .tret => some (pack6 12 0x04 ((0x0 : BitVec 21)))
  | .ctxsw => some (pack6 12 0x05 ((0x0 : BitVec 21)))
  | .swpout opa => some (pack6 12 0x06 (opa ++ (0x0 : BitVec 15)))
  | .swpin opa => some (pack6 12 0x07 (opa ++ (0x0 : BitVec 15)))
  | .seedld opa opb seed => some (pack6 12 0x08 (opa ++ opb ++ (0 : BitVec 5) ++ seed))
  | .genld opa opb gen => some (pack6 12 0x09 (opa ++ opb ++ (0 : BitVec 7) ++ gen))
  | .svc code => some (pack6 12 0x0A ((0 : BitVec 6) ++ code))
  | .extinv opa opb => some (pack6 12 0x0B (opa ++ opb ++ (0x0 : BitVec 9)))
  | .migr opa => some (pack6 12 0x0C (opa ++ (0x0 : BitVec 15)))
  | .balloonAddb opa => some (pack6 12 0x0D (opa ++ (0x0 : BitVec 15)))
  | .balloonAddt opa => some (pack6 12 0x0D (opa ++ (0x1 : BitVec 15)))
  | .balloonDeflate opa => some (pack6 12 0x0D (opa ++ (0x2 : BitVec 15)))
  | .balloonClrb opa => some (pack6 12 0x0D (opa ++ (0x3 : BitVec 15)))
  | .balloonClrt opa => some (pack6 12 0x0D (opa ++ (0x4 : BitVec 15)))
  | .idle => some (pack6 12 0x0E ((0x0 : BitVec 21)))
  | .runAheadPreissue .. => none
  | .segmentExpand .. => none
  | .postedTrapTake .. => none
  | .loadPerform .. => none
  | .storePerform .. => none
  | .amoPerform .. => none
  | .markerEffect .. => none
  | .l2LineEvict .. => none
  | .drainComplete .. => none
  | .haltReport .. => none
  | .preemptArrive .. => none
  | .swapOutComplete .. => none
  | .swapInComplete .. => none
  | .schedulerRound .. => none
  | .enqRecordEnter .. => none
  | .barrArrive .. => none
  | .copyBlockProgress .. => none
  | .chainBlockEnd .. => none
  | .fifoDelivery .. => none
  | .engineCountFix .. => none
  | .ccctlAbort .. => none
  | .stashCmdTake .. => none
  | .stashOffloadComplete .. => none
  | .stashDropComplete .. => none
  | .stashKeepComplete .. => none
  | .stashFetchComplete .. => none
  | .spillLinkAbort .. => none
  | .sfreeComplete .. => none
  | .ckptRecordComplete .. => none
  | .replayRemoteRestore .. => none
  | .packetDepart .. => none
  | .packetDeposit .. => none
  | .windowFlitReceive .. => none
  | .packetAckReceive .. => none
  | .chackEffect .. => none
  | .bucketStart .. => none
  | .chunkReceive .. => none
  | .completionMarkReceive .. => none
  | .failureMarkReceive .. => none
  | .ringSettle .. => none
  | .shopenEffect .. => none
  | .publishEffect .. => none
  | .splitArrive .. => none
  | .splitDrainEnd .. => none
  | .balloonClaim .. => none
  | .evictionStart .. => none
  | .evictionComplete .. => none
  | .pageRecall .. => none
  | .spaceAnswer .. => none
  | .accessCountHalve .. => none
  | .migrationPass .. => none
  | .executiveFrame .. => none
  | .queueNotify .. => none
  | .prgResponse .. => none
  | .atsTranslationReturn .. => none
  | .atsInvalidation .. => none
  | .hostWindowWrite .. => none
  | .hostWindowRead .. => none
  | .invoke .. => none
  | .load .. => none
  | .unload .. => none
  | .version .. => none
  | .stagecfg .. => none
  | .devcfg .. => none
  | .tagset .. => none
  | .snapshot .. => none
  | .snapshotSend .. => none
  | .holderDigestReceive .. => none
  | .pageans .. => none
  | .pasiddown .. => none
  | .teardownCancel .. => none
  | .teardownTimeout .. => none
  | .preempt .. => none
  | .restore .. => none
  | .qcreate .. => none
  | .qdelete .. => none
  | .reset .. => none
  | .recoveryMailboxWrite .. => none
  | .singlePartReset .. => none
  | .dieFatalFault .. => none
  | .portRetrain .. => none
  | .portUp .. => none
  | .portDown .. => none
  | .linkFlitRetry .. => none
  | .deviceFailureDeclare .. => none
  | .domainAccessTimeout .. => none
  | .rollback .. => none
  | .fillChunkAck .. => none
  | .phaseFlitSend .. => none
  | .phaseFlitReceive .. => none
  | .powerArbitration .. => none
  | .spdmGetVersion .. => none
  | .spdmGetCapabilities .. => none
  | .spdmNegotiateAlgorithms .. => none
  | .spdmGetDigests .. => none
  | .spdmGetCertificate .. => none
  | .spdmChallenge .. => none
  | .spdmGetMeasurements .. => none
  | .cmpctlWrite .. => none
  | .cmpwmWrite .. => none
  | .cmpstatRefusedClear .. => none
  | .stashRegionWrite .. => none
  | .wakeWrite .. => none
  | .barwWrite .. => none
  | .ringcfgWrite .. => none
  | .rportWrite .. => none
  | .arbctlWrite .. => none
  | .pwrctlWrite .. => none
  | .tcoordWrite .. => none
  | .registerWrite .. => none
  | .nonInstructionEncoding .. => none
  | .translationWalkComplete .. => none
  | .priReenable .. => none

/-- The bytes a word is stored as, least significant first (R38). -/
def slotBytes (w : Slot) : List Byte := [bits 0 8 w, bits 8 8 w, bits 16 8 w, bits 24 8 w]

/-- The word four stored bytes make (R38). -/
def bytesSlot : List Byte → Slot
  | [b0, b1, b2, b3] => b3 ++ b2 ++ b1 ++ b0
  | _ => 0

/-- What the decoder reads from a table word: the first slot is the low 32 bits, stored least significant byte first. -/
def decodeTableWord (nbits w : Nat) : Option Instr :=
  if nbits = 0 then none
  else
    match decodeSlot (bytesSlot (slotBytes (BitVec.ofNat 32 (w % 2 ^ nbits)))) with
    | .ok i => some i
    | .error _ => none

end Sys2Proof
end

