-- ==== Sys2Proof/Machine/Operands.lean ====
section
/-! DEFINITION. Operand forms: the class of a slot, its register sources and destinations, its immediate with its
extension, its effective address (R41 to R59, spec/02; R103, spec/05; R133, spec/06; R214, spec/10; R284, spec/14; R348,
spec/18; R415, spec/22). -/

namespace Sys2Proof.Machine

/-- The register pair of a 16-byte access, of `NRMRD` and of a compare-and-swap. -/
def pairOf (r : BitVec 6) : List Reg := [.s r.toNat, .s (r.toNat + 1)]

/-- The four registers of a record (R213); the group number is OPA bits 5:2. -/
def quad (g : BitVec 4) : List Reg :=
  [.s (4 * g.toNat), .s (4 * g.toNat + 1), .s (4 * g.toNat + 2), .s (4 * g.toNat + 3)]

/-- Source a of a slot, as R103, R133, R166, R214, R287, R295, R348 and R415 give it; none where the slot has none. -/
def srcA : Instr → Option (List Reg)
  | .add _ ra _ _ | .sub _ ra _ _ | .addsh _ ra _ _ | .mul _ ra _ _ | .mulh _ ra _ _ | .div _ ra _ _
  | .divu _ ra _ _ | .rem _ ra _ _ | .and _ ra _ | .or _ ra _ | .xor _ ra _ | .andn _ ra _ | .shl _ ra _ _
  | .shr _ ra _ _ | .sar _ ra _ _ | .bext _ ra _ | .bins _ ra _ | .min _ ra _ _ | .max _ ra _ _
  | .minu _ ra _ _ | .maxu _ ra _ _ | .seq _ ra _ _ | .sne _ ra _ _ | .slt _ ra _ _ | .sltu _ ra _ _
  | .sle _ ra _ _ | .sleu _ ra _ _ | .sel _ ra _ | .fadd _ ra _ | .fsub _ ra _ | .fmul _ ra _ | .ffma _ ra _
  | .fdiv _ ra _ | .fmin _ ra _ | .fmax _ ra _ | .feq _ ra _ | .flt _ ra _ | .fle _ ra _ | .addi _ ra _
  | .shli _ ra _ | .shri _ ra _ | .sari _ ra _ | .clz _ ra _ | .popc _ ra _ | .fsqrt _ ra | .fcvti _ ra _
  | .fcvtf _ ra _ => some [.s ra.toNat]
  | .brz _ ra _ | .brnz _ ra _ | .jmpi ra | .ret ra | .loop ra _ | .lset _ _ ra => some [.s ra.toNat]
  | .brkt _ rk _ | .brkf _ rk _ => some [.k rk.toNat]
  | .vadd _ ra _ | .vsub _ ra _ | .vmul _ ra _ | .vfma _ ra _ | .vfms _ ra _ | .vmin _ ra _ | .vmax _ ra _
  | .vsel _ ra _ | .vand _ ra _ | .vor _ ra _ | .vxor _ ra _ | .viadd _ ra _ | .visub _ ra _ | .vimul _ ra _
  | .vimin _ ra _ | .vimax _ ra _ | .vshl _ ra _ | .vshr _ ra _ | .vsar _ ra _ | .vperm _ ra _ | .vabs _ ra
  | .vneg _ ra | .vrcp _ ra | .vrsq _ ra | .vsqrt _ ra | .vexp2 _ ra | .vlog2 _ ra | .vtanh _ ra | .vsigm _ ra
  | .vmov _ ra | .veq _ ra _ | .vne _ ra _ | .vlt _ ra _ | .vle _ ra _ | .vrsum _ ra | .vrmax _ ra
  | .vramax _ ra | .vextr _ ra _ | .vslide _ ra _ => some [.v ra.toNat]
  | .vbcast _ ra | .vins _ ra _ => some [.s ra.toNat]
  | .kand _ ra _ | .kor _ ra _ | .kxor _ ra _ | .knot _ ra | .kpop _ ra => some [.k ra.toNat]
  | .vcvtn _ _ ra _ _ | .vcvtns _ _ ra _ | .vcvtw _ ra | .vcvti _ ra _ | .vcvtf _ ra _ | .vqscaleE4m3 _ ra _ _
  | .vqscaleE5m2 _ ra _ _ | .vqscaleBf16 _ ra _ _ | .vqscaleInt8 _ ra _ _ | .vside _ ra | .ttwr _ ra _
  | .fpusha _ ra | .fpushb _ ra => some [.v ra.toNat]
  | .ttrdc _ _ ra | .ttrdcE4m3 _ _ ra _ _ | .ttrdcE5m2 _ _ ra _ _ | .ttrdcBf16 _ _ ra _ _
  | .ttrdcInt8 _ _ ra _ _ => some [.s ra.toNat]
  | .mcfg0 ra | .mcfg1 ra => some [.s ra.toNat]
  | .lds _ _ base _ | .ldsv _ base _ | .ldsk _ _ base _ | .ldsx _ base _ | .ldc _ _ base _ | .ldcv _ base _
  | .ldg _ _ base _ | .ldgv _ base _ | .ldgx _ base _ | .pref base _ | .sts _ _ base _ | .stsv _ base _
  | .stsk _ _ base _ | .stsx _ base _ | .stc _ _ base _ | .stcv _ base _ | .stg _ _ base _ | .stgv _ base _
  | .stgn _ base _ | .stgx _ base _ => some [.s base.toNat]
  | .cpy opa _ _ | .gath opa _ _ | .stash opa _ _ _ | .sfetch opa _ _ | .chsend opa _ _ | .chpost opa _
  | .coll opa _ | .shopen opa _ | .publish opa _ | .split opa | .wpwait opa _ | .nrmset opa _ => some [.s opa.toNat]
  | .enq grp _ => some (quad grp)
  | .binit opa _ | .bexp opa _ => some [.s opa.toNat]
  | .amo _ opa _ _ _ _ fn => some (if fn = 9 then pairOf opa else [.s opa.toNat])
  | .csrw opa _ | .csrs opa _ | .csrc opa _ | .swpout opa | .swpin opa | .seedld opa _ _ | .genld opa _ _
  | .extinv opa _ | .migr opa | .balloonAddb opa | .balloonAddt opa | .balloonDeflate opa | .balloonClrb opa
  | .balloonClrt opa => some [.s opa.toNat]
  | _ => none

/-- Source b of a slot. -/
def srcB : Instr → Option (List Reg)
  | .add _ _ rb _ | .sub _ _ rb _ | .addsh _ _ rb _ | .mul _ _ rb _ | .mulh _ _ rb _ | .div _ _ rb _
  | .divu _ _ rb _ | .rem _ _ rb _ | .and _ _ rb | .or _ _ rb | .xor _ _ rb | .andn _ _ rb | .shl _ _ rb _
  | .shr _ _ rb _ | .sar _ _ rb _ | .bext _ _ rb | .bins _ _ rb | .min _ _ rb _ | .max _ _ rb _
  | .minu _ _ rb _ | .maxu _ _ rb _ | .seq _ _ rb _ | .sne _ _ rb _ | .slt _ _ rb _ | .sltu _ _ rb _
  | .sle _ _ rb _ | .sleu _ _ rb _ | .sel _ _ rb | .fadd _ _ rb | .fsub _ _ rb | .fmul _ _ rb | .ffma _ _ rb
  | .fdiv _ _ rb | .fmin _ _ rb | .fmax _ _ rb | .feq _ _ rb | .flt _ _ rb | .fle _ _ rb => some [.s rb.toNat]
  | .vadd _ _ rb | .vsub _ _ rb | .vmul _ _ rb | .vfma _ _ rb | .vfms _ _ rb | .vmin _ _ rb | .vmax _ _ rb
  | .vsel _ _ rb | .vand _ _ rb | .vor _ _ rb | .vxor _ _ rb | .viadd _ _ rb | .visub _ _ rb | .vimul _ _ rb
  | .vimin _ _ rb | .vimax _ _ rb | .vshl _ _ rb | .vshr _ _ rb | .vsar _ _ rb | .vperm _ _ rb | .veq _ _ rb
  | .vne _ _ rb | .vlt _ _ rb | .vle _ _ rb => some [.v rb.toNat]
  | .vextr _ _ rb | .vins _ _ rb | .vslide _ _ rb => some [.s rb.toNat]
  | .kand _ _ rb | .kor _ _ rb | .kxor _ _ rb => some [.k rb.toNat]
  | .vcvtns _ _ _ rb | .vsidew _ rb | .ttwr _ _ rb => some [.s rb.toNat]
  | .sts size rd _ _ | .stc size rd _ _ | .stg size rd _ _ => some (if size = 4 then pairOf rd else [.s rd.toNat])
  | .stsv rd _ _ | .stsx rd _ _ | .stcv rd _ _ | .stgv rd _ _ | .stgn rd _ _ | .stgx rd _ _ => some [.v rd.toNat]
  | .stsk _ rk _ _ => some [.k rk.toNat]
  | .stash _ opb _ _ | .sfetch _ opb _ | .sprobe _ opb | .sfree opb | .chsend _ opb _ | .chack opb _
  | .shopen _ opb | .ckpt opb _ | .replay opb | .amo _ _ opb _ _ _ _ | .seedld _ opb _ | .genld _ opb _
  | .extinv _ opb => some [.s opb.toNat]
  | _ => none

/-- The registers a slot writes, a third source and the accumulator rows of the matrix slots included: checked as blocking, never
strict (R12, R18, R103, R133). -/
def dests : Instr → List Reg
  | .add rd _ _ _ | .sub rd _ _ _ | .addsh rd _ _ _ | .mul rd _ _ _ | .mulh rd _ _ _ | .div rd _ _ _
  | .divu rd _ _ _ | .rem rd _ _ _ | .and rd _ _ | .or rd _ _ | .xor rd _ _ | .andn rd _ _ | .shl rd _ _ _
  | .shr rd _ _ _ | .sar rd _ _ _ | .bext rd _ _ | .bins rd _ _ | .min rd _ _ _ | .max rd _ _ _
  | .minu rd _ _ _ | .maxu rd _ _ _ | .seq rd _ _ _ | .sne rd _ _ _ | .slt rd _ _ _ | .sltu rd _ _ _
  | .sle rd _ _ _ | .sleu rd _ _ _ | .sel rd _ _ | .fadd rd _ _ | .fsub rd _ _ | .fmul rd _ _ | .ffma rd _ _
  | .fdiv rd _ _ | .fmin rd _ _ | .fmax rd _ _ | .feq rd _ _ | .flt rd _ _ | .fle rd _ _ | .addi rd _ _
  | .shli rd _ _ | .shri rd _ _ | .sari rd _ _ | .clz rd _ _ | .popc rd _ _ | .fsqrt rd _ | .fcvti rd _ _
  | .fcvtf rd _ _ | .movi rd _ | .movhi rd _ | .call rd _ | .lidx rd _ => [.s rd.toNat]
  | .vadd rd _ _ | .vsub rd _ _ | .vmul rd _ _ | .vfma rd _ _ | .vfms rd _ _ | .vmin rd _ _ | .vmax rd _ _
  | .vsel rd _ _ | .vand rd _ _ | .vor rd _ _ | .vxor rd _ _ | .viadd rd _ _ | .visub rd _ _ | .vimul rd _ _
  | .vimin rd _ _ | .vimax rd _ _ | .vshl rd _ _ | .vshr rd _ _ | .vsar rd _ _ | .vperm rd _ _ | .vabs rd _
  | .vneg rd _ | .vrcp rd _ | .vrsq rd _ | .vsqrt rd _ | .vexp2 rd _ | .vlog2 rd _ | .vtanh rd _ | .vsigm rd _
  | .vmov rd _ | .vbcast rd _ | .vins rd _ _ | .vslide rd _ _ | .viota rd | .vrand rd _ => [.v rd.toNat]
  | .veq rd _ _ | .vne rd _ _ | .vlt rd _ _ | .vle rd _ _ | .kand rd _ _ | .kor rd _ _ | .kxor rd _ _
  | .knot rd _ => [.k rd.toNat]
  | .vrsum rd _ | .vrmax rd _ | .vramax rd _ | .vextr rd _ _ | .kpop rd _ | .vside rd _ | .vqscaleE4m3 rd _ _ _
  | .vqscaleE5m2 rd _ _ _ | .vqscaleBf16 rd _ _ _ | .vqscaleInt8 rd _ _ _ | .mstat0 rd | .mstat1 rd => [.s rd.toNat]
  | .vcvtn _ rd _ _ _ | .vcvtns _ rd _ _ | .vcvtw rd _ | .vcvti rd _ _ | .vcvtf rd _ _ | .vsidew rd _
  | .ttrdc rd _ _ | .ttrdcE4m3 rd _ _ _ _ | .ttrdcE5m2 rd _ _ _ _ | .ttrdcBf16 rd _ _ _ _
  | .ttrdcInt8 rd _ _ _ _ => [.v rd.toNat]
  | .lds size rd _ _ | .ldc size rd _ _ | .ldg size rd _ _ => if size = 7 then pairOf rd else [.s rd.toNat]
  | .ldsv rd _ _ | .ldsx rd _ _ | .ldcv rd _ _ | .ldgv rd _ _ | .ldgx rd _ _ => [.v rd.toNat]
  | .ldsk _ rk _ _ => [.k rk.toNat]
  | .sprobe opa _ | .csrr opa _ | .bwait opa _ _ | .bpoll opa _ => [.s opa.toNat]
  | .nrmrd opa _ _ => pairOf opa
  | .deq grp _ | .deqt grp _ => quad grp
  | .amo _ opa _ nr _ _ _ => if nr = 0 then [.s opa.toNat] else []
  | .mma0 nm1 row0 _ _ _ | .mzero0 nm1 row0 => (List.range (nm1.toNat + 1)).map fun i => .v (row0.toNat + i)
  | .mma1 nm1 row0 _ _ _ | .mzero1 nm1 row0 => (List.range (nm1.toNat + 1)).map fun i => .v (64 + row0.toNat + i)
  | _ => []

/-- The vector registers of a V or VX slot, destination included, for the lane-view rule (R13). -/
def vregsOf : Instr → List Nat
  | .vadd rd ra rb | .vsub rd ra rb | .vmul rd ra rb | .vfma rd ra rb | .vfms rd ra rb | .vmin rd ra rb
  | .vmax rd ra rb | .vsel rd ra rb | .vand rd ra rb | .vor rd ra rb | .vxor rd ra rb | .viadd rd ra rb
  | .visub rd ra rb | .vimul rd ra rb | .vimin rd ra rb | .vimax rd ra rb | .vshl rd ra rb | .vshr rd ra rb
  | .vsar rd ra rb | .vperm rd ra rb => [rd.toNat, ra.toNat, rb.toNat]
  | .vabs rd ra | .vneg rd ra | .vrcp rd ra | .vrsq rd ra | .vsqrt rd ra | .vexp2 rd ra | .vlog2 rd ra
  | .vtanh rd ra | .vsigm rd ra | .vmov rd ra | .vslide rd ra _ => [rd.toNat, ra.toNat]
  | .veq _ ra rb | .vne _ ra rb | .vlt _ ra rb | .vle _ ra rb => [ra.toNat, rb.toNat]
  | .vrsum _ ra | .vrmax _ ra | .vramax _ ra | .vextr _ ra _ | .vside _ ra | .vqscaleE4m3 _ ra _ _
  | .vqscaleE5m2 _ ra _ _ | .vqscaleBf16 _ ra _ _ | .vqscaleInt8 _ ra _ _ | .ttwr _ ra _ | .fpusha _ ra
  | .fpushb _ ra => [ra.toNat]
  | .vbcast rd _ | .vins rd _ _ | .viota rd | .vrand rd _ | .vsidew rd _ | .ttrdc rd _ _
  | .ttrdcE4m3 rd _ _ _ _ | .ttrdcE5m2 rd _ _ _ _ | .ttrdcBf16 rd _ _ _ _ | .ttrdcInt8 rd _ _ _ _ => [rd.toNat]
  | .vcvtn _ rd ra _ _ | .vcvtns _ rd ra _ | .vcvtw rd ra | .vcvti rd ra _ | .vcvtf rd ra _ => [rd.toNat, ra.toNat]
  | _ => []
/-! ## Immediates -/

/-- An immediate field with its extension payloads above it (R43). -/
def combine (ext : List (BitVec 25)) (w : Nat) (field : BitVec w) : Nat × Nat :=
  match ext with
  | [] => (w, field.toNat)
  | [p] => (w + 25, p.toNat * 2 ^ w + field.toNat)
  | p :: q :: _ => (w + 50, (p.toNat * 2 ^ 25 + q.toNat) * 2 ^ w + field.toNat)

/-- The combined immediate sign-extended from its top bit (R43). -/
def immSigned (ext : List (BitVec 25)) (w : Nat) (field : BitVec w) : Int :=
  let (n, x) := combine ext w field
  if 2 * x < 2 ^ n then x else (x : Int) - 2 ^ n

/-- The combined immediate zero-extended (R43). -/
def immUnsigned (ext : List (BitVec 25)) (w : Nat) (field : BitVec w) : Nat := (combine ext w field).2

/-- Whether a signed immediate fits a quantity of `q` bits: the bits above it equal its top bit (R43). -/
def fitsSigned (q : Nat) (v : Int) : Bool := decide (-(2 ^ (q - 1)) ≤ v) && decide (v < 2 ^ (q - 1))

/-- The width of an instruction's extendable field and whether it is signed, with the width of its quantity (R44). -/
def extendable : Instr → Bool
  | .addi .. | .movi .. | .brz .. | .brnz .. | .brkt .. | .brkf .. | .call .. | .jmp .. | .loopi .. | .waitc .. => true
  | .lds .. | .ldsv .. | .ldsk .. | .ldsx .. | .ldc .. | .ldcv .. | .ldg .. | .ldgv .. | .ldgx .. | .pref .. => true
  | .sts .. | .stsv .. | .stsk .. | .stsx .. | .stc .. | .stcv .. | .stg .. | .stgv .. | .stgx .. => true
  | _ => false

/-- Whether the extended immediate fits the quantity it sets (R43, R44). -/
def immFits (i : Instr) (ext : List (BitVec 25)) : Bool :=
  match i with
  | .addi _ _ f => fitsSigned 64 (immSigned ext 8 f)
  | .movi _ f => fitsSigned 64 (immSigned ext 14 f)
  | .brz _ _ f | .brnz _ _ f | .brkt _ _ f | .brkf _ _ f | .call _ f => fitsSigned 62 (immSigned ext 15 f)
  | .jmp f => fitsSigned 62 (immSigned ext 21 f)
  | .loopi f _ => decide (immUnsigned ext 9 f < 2 ^ 32)
  | .waitc f => decide (immUnsigned ext 21 f < 2 ^ 32)
  | .lds _ _ _ f | .ldsv _ _ f | .ldsk _ _ _ f | .ldsx _ _ f | .ldc _ _ _ f | .ldcv _ _ f | .ldg _ _ _ f
  | .ldgv _ _ f | .ldgx _ _ f | .pref _ f | .sts _ _ _ f | .stsv _ _ f | .stsk _ _ _ f | .stsx _ _ f | .stc _ _ _ f
  | .stcv _ _ f | .stg _ _ _ f | .stgv _ _ f | .stgx _ _ f => fitsSigned 64 (immSigned ext 8 f)
  | _ => true

/-! ## Effective addresses (R53, R284) -/

/-- Bytes of a load size code (R54). -/
def loadBytes (size : BitVec 3) : Nat :=
  match size.toNat with
  | 0 | 1 => 1
  | 2 | 3 => 2
  | 4 | 5 => 4
  | 6 => 8
  | _ => 16

/-- Bytes of a store size code (R55). -/
def storeBytes (size : BitVec 3) : Nat := 2 ^ size.toNat

/-- BASE + sext(offset) × scale modulo 2^64 (R53). -/
def effAddr (base : SReg) (ext : List (BitVec 25)) (off : BitVec 8) (scale : Nat) : Nat :=
  (base + BitVec.ofInt 64 (immSigned ext 8 off * scale)).toNat

/-- The base register, offset field and scale of a load or store slot; `STGN` has no offset (R53, R284). -/
def addrParts : Instr → Option (BitVec 6 × BitVec 8 × Nat)
  | .lds size _ b f | .ldc size _ b f | .ldg size _ b f => some (b, f, loadBytes size)
  | .sts size _ b f | .stc size _ b f | .stg size _ b f => some (b, f, storeBytes size)
  | .ldsv _ b f | .ldcv _ b f | .ldgv _ b f | .stsv _ b f | .stcv _ b f | .stgv _ b f => some (b, f, 512)
  | .ldsk _ _ b f | .stsk _ _ b f => some (b, f, 16)
  | .ldsx _ b f | .ldgx _ b f | .stsx _ b f | .stgx _ b f | .pref b f => some (b, f, 32)
  | .stgn _ b _ => some (b, 0, 0)
  | _ => none

/-- The effective address of a load or store slot of the bank at issue. -/
def slotAddr (i : Instr) (s : State) : Nat :=
  match addrParts i with
  | some (b, f, scale) => effAddr (s.cur.s b.toNat) (if scale = 0 then [] else s.ctx.ext) f scale
  | none => 0

/-- Bytes an L or T slot accesses; a sparse block counts its first 32 bytes, `STSX` and `STGX` their header (R31, R284). -/
def accessBytes : Instr → Nat
  | .lds size .. | .ldc size .. | .ldg size .. => loadBytes size
  | .sts size .. | .stc size .. | .stg size .. => storeBytes size
  | .ldsk .. | .stsk .. => 16
  | .ldsx .. | .ldgx .. => 32
  | .stsx .. | .stgx .. => 64
  | .pref .. => 0
  | _ => 512

/-! ## Classes -/

/-- The class code of an instruction (R37); a step without an encoding has none. -/
def classOf (i : Instr) : Option Nat := (encode i).map fun w => (bits 27 4 w).toNat

/-- The order in which the slots of one bundle take effect: the classes, with B last so that the end test sees the
bundle's own effects (log 7). The queue entries of the L, T, A, Q and Y slots are aged in this order (R266). -/
def classRank (c : Nat) : Nat :=
  match c with
  | 0 => 0
  | 11 => 1
  | 2 => 20
  | c => c + 1

end Sys2Proof.Machine
end

