-- ==== Sys2Proof/Machine/Checks.lean ====
section
/-! DEFINITION. The issue traps of a slot (R34, R35, R40, spec/01 and 02; R113 to R123 and R127, spec/05; R161, spec/06;
R166 to R171, spec/07; R214, R218, R224, spec/10; R284, spec/14; R349, spec/18; R415 to R430, spec/22). A cause that
depends on a register is examined only once that register is full (R8). -/

namespace Sys2Proof.Machine

/-! ## Code -/

/-- The code section a bank runs (R190; log 13). -/
def State.codeOf (s : State) (k : Bank) : List Slot :=
  match k.task with
  | some t => (tget {} t.slot s.slots).code
  | none => []

/-- The words of a bundle from a list of words: through the first with STOP set, at most eight (R39). -/
def takeBundle : Nat → List Slot → Option (List Slot)
  | 0, _ => none
  | _ + 1, [] => none
  | n + 1, w :: r => if w.getLsbD 31 then some [w] else (takeBundle n r).map (w :: ·)

/-- The words of the bundle at a code address; none breaks the Length rule (R38, R39). -/
def bundleAt (code : List Slot) (a : Nat) : Option (List Slot) := takeBundle 8 (code.drop (a / 4))

/-- The address of the bundle that follows the bundle at `a` (R38); of one with no STOP in eight slots, which has none, the end of the code,
where a transfer is refused (R122; log 63). -/
def addrAfter (code : List Slot) (a : Nat) : Nat :=
  match bundleAt code a with
  | some ws => a + 4 * ws.length
  | none => 4 * code.length

/-- A transfer target that R113 refuses: not a multiple of 4, above 32 bits, or at or past the end of the code. -/
def badTarget (s : State) (a : Nat) : Bool :=
  a % 4 != 0 || decide (2 ^ 32 ≤ a) || decide (4 * (s.codeOf s.cur).length ≤ a)

/-- The target of a relative transfer: the bundle address plus four times the word offset (R114, R116). -/
def relTarget (s : State) (off : Int) : Nat := (BitVec.ofInt 64 ((s.ctx.addr : Int) + 4 * off)).toNat

/-- The address of the bundle that follows the bundle at issue. -/
def nextAddr (s : State) : Nat := s.ctx.addr + s.ctx.len

/-- The address of the bundle that follows the end bundle of a loop (R117, R122). -/
def afterLoop (s : State) (stop : Nat) : Nat := addrAfter (s.codeOf s.cur) stop

/-! ## Branch conditions (R114, R115) -/

/-- The lanes that MCFG0's view gives the mask operations and mask branches (R115, R145). -/
def maskLanes (k : Bank) : Nat := viewLanes k.eng0.mcfg

/-- The tested mask and the active lanes of a mask branch (R115). -/
def maskTest (s : State) (r : Nat) : Mask × Mask :=
  let view := lowMask (maskLanes s.cur)
  let act := s.cur.k s.ctx.maskReg &&& view
  (s.cur.k r &&& act, act)

/-- Neither all true nor all false over the active lanes (R115). -/
def maskMixed (s : State) (r : Nat) : Bool :=
  let (t, act) := maskTest s r
  t != 0 && t != act

/-- Whether a branch, jump or call is taken, and where to (R113 to R117, R122). -/
def transferTarget (i : Instr) (s : State) : Option Nat :=
  match i with
  | .brz _ ra off => if s.cur.s ra.toNat = 0 then some (relTarget s (immSigned s.ctx.ext 15 off)) else none
  | .brnz _ ra off => if s.cur.s ra.toNat = 0 then none else some (relTarget s (immSigned s.ctx.ext 15 off))
  | .brkt _ rk off =>
    let (t, act) := maskTest s rk.toNat
    if t = act then some (relTarget s (immSigned s.ctx.ext 15 off)) else none
  | .brkf _ rk off =>
    let (t, _) := maskTest s rk.toNat
    if t = 0 then some (relTarget s (immSigned s.ctx.ext 15 off)) else none
  | .jmp off => some (relTarget s (immSigned s.ctx.ext 21 off))
  | .call _ off => some (relTarget s (immSigned s.ctx.ext 15 off))
  | .jmpi ra | .ret ra => some (s.cur.s ra.toNat).toNat
  | .loop ra endw =>
    if (s.cur.s ra.toNat).extractLsb' 0 32 = 0 then some (afterLoop s (nextAddr s + 4 * endw.toNat)) else none
  | .loopi cnt endw =>
    if immUnsigned s.ctx.ext 9 cnt = 0 then some (afterLoop s (nextAddr s + 4 * endw.toNat)) else none
  | .lbrk lvl => (s.cur.loops[lvl.toNat]?).map fun e => afterLoop s e.stop
  | _ => none

/-! ## Causes by family -/

/-- Whether every register of an operand is full. -/
def allFull (k : Bank) (rs : Option (List Reg)) : Bool := (rs.getD []).all fun r => !k.isEmpty r

/-- `LOOP_STATE`, `LOOP_OVERFLOW`, `LOOP_UNDERFLOW` (R117, R120, R123). -/
def loopCauses (i : Instr) (s : State) : List Nat :=
  let loops := s.cur.loops
  let enters : List Nat :=
    (if loops.head?.any (fun e => e.stop = s.ctx.addr) then [0x08] else [])
      ++ (if loops.length = 6 then [0x09] else [])
  match i with
  | .loop .. | .loopi .. => enters
  | .lset lvl fld _ =>
    match loops[lvl.toNat]? with
    | none => [0x0A]
    | some e => if 2 ≤ fld.toNat ∧ e.start ≤ s.ctx.addr ∧ s.ctx.addr ≤ e.stop then [0x08] else []
  | .lidx _ lvl | .lbrk lvl => if loops.length ≤ lvl.toNat then [0x0A] else []
  | _ => []

/-- `NONUNIFORM` of a mask branch (R115). -/
def uniformCauses (i : Instr) (s : State) : List Nat :=
  match i with
  | .brkt _ rk _ | .brkf _ rk _ => if maskMixed s rk.toNat then [0x07] else []
  | _ => []

/-- `MISALIGNED` of a transfer, and of a start or end written by `LSET` (R113, R120). -/
def transferCauses (i : Instr) (s : State) : List Nat :=
  (match transferTarget i s with
    | some a => if badTarget s a then [0x0C] else []
    | none => [])
  ++ (match i with
    | .lset _ fld ra =>
      if 2 ≤ fld.toNat ∧ badTarget s ((s.cur.s ra.toNat).extractLsb' 0 32).toNat then [0x0C] else []
    | _ => [])

/-- `SP_BOUNDS` and `MISALIGNED` of a scratchpad access (R127). -/
def padCauses (a n align : Nat) : List Nat :=
  (if Config.scratchpadBytes < a + n then [0x0B] else []) ++ (if a % align ≠ 0 then [0x0C] else [])

/-- Alignment of a cluster or global access (R284). -/
def globalAlign : Instr → Nat
  | .ldc size .. => loadBytes size
  | .stc size .. => storeBytes size
  | .ldcv .. | .stcv .. => 512
  | .ldg size .. => if loadBytes size = 2 then 2 else if loadBytes size = 1 then 1 else 4
  | .stg size .. => if storeBytes size = 2 then 2 else if storeBytes size = 1 then 1 else 4
  | .ldgv .. | .stgv .. | .stgn .. => 16
  | .ldgx .. => 32
  | .stgx .. => 64
  | _ => 1

/-- The issue checks on the address of a load, store or atomic (R127, R284, R291, R292, R297). -/
def addressCauses (i : Instr) (s : State) : List Nat :=
  let a := slotAddr i s
  match i with
  | .lds .. | .ldsv .. | .ldsk .. | .sts .. | .stsv .. | .stsk .. => padCauses a (accessBytes i) (accessBytes i)
  | .ldsx .. =>
    let first := padCauses a 32 32
    if first.isEmpty then
      match sparseBlock (mread s.curCore.pad a 32) with
      | none => [0x18]
      | some b => padCauses a b.bytes 32
    else first
  | .stsx rd _ _ =>
    let first := padCauses a 64 64
    if first.isEmpty ∧ allFull s.cur (srcB i) then
      let h := Header.ofNat (mread s.curCore.pad a 64)
      let src := sparseSource s.cur rd.toNat
      if h.addr / 2 ^ 23 ≠ 0 ∨ sparseHeaderBad h src true then [0x18]
      else if h.len + sparseBytes src.fmt (src.elems.countP (· ≠ 0)) ≤ h.cap
          ∧ Config.scratchpadBytes < h.addr + h.len + sparseBytes src.fmt (src.elems.countP (· ≠ 0)) then [0x0B]
      else []
    else first
  | .ldc .. | .ldcv .. | .ldg .. | .ldgv .. | .ldgx .. | .stc .. | .stcv .. | .stg .. | .stgv .. | .stgn .. | .stgx .. =>
    if a % globalAlign i ≠ 0 then [0x0C] else []
  | _ => []

/-- `FMT_PAIR` and `ROT_TAG` of the narrowing, widening and pushing slots (R146, R150, R158). -/
def convertCauses (i : Instr) (s : State) : List Nat :=
  let k := s.cur
  let narrow (ra : Nat) (fmt : Fmt) : List Nat :=
    if sideValid (k.side ra) ∨ (fmt = .bf16 ∧ sourceType (k.mcfgOf ra) = .bf16) then [0x0E] else []
  let push (isB : Bool) (fifo ra : Nat) : List Nat :=
    if sideValid (k.side ra) then []
    else if (pushFormat (k.eng fifo).mcfg isB).isNone then [0x0E] else []
  match i with
  | .vcvtn f _ ra _ _ | .vcvtns f _ ra _ => narrow ra.toNat (Fmt.ofTarget f.toNat)
  | .vqscaleE4m3 _ ra _ _ => narrow ra.toNat .e4m3
  | .vqscaleE5m2 _ ra _ _ => narrow ra.toNat .e5m2
  | .vqscaleBf16 _ ra _ _ => narrow ra.toNat .bf16
  | .vqscaleInt8 _ ra _ _ => narrow ra.toNat .int8
  | .vcvtw _ ra =>
    let side := k.side ra.toNat
    let tag := sideTag side
    (if sideValid side ∧ (narrowFormat (sideFmt side)).isSome then [] else [0x0E])
      ++ (if sideValid side ∧ (tagUnwidenable tag ∨ (tag.getLsbD 15 ∧ (k.seedFor (tag.extractLsb' 0 12)).isNone))
          then [0x0D] else [])
  | .fpusha fifo ra => push false fifo.toNat ra.toNat
  | .fpushb fifo ra => push true fifo.toNat ra.toNat
  | _ => []

/-- `LANE_VIEW`: vector operands in halves with different views (R13). -/
def viewCauses (i : Instr) (s : State) : List Nat :=
  match vregsOf i with
  | [] => []
  | r :: rs => if rs.any fun q => s.cur.viewOf q ≠ s.cur.viewOf r then [0x10] else []

/-- The first failing check of a matrix slot, in the order R166, R168 and R171 give. -/
def matrixCause (e : Nat) (i : Instr) (s : State) : Option Nat :=
  let m := s.cur.eng e
  match i with
  | .mcfg0 ra | .mcfg1 ra =>
    let v := s.cur.s ra.toNat
    if mcfgReserved v then some 0x03
    else if v ≠ 0 ∧ !mcfgLegal v then some 0x0E
    else if v ≠ m.mcfg ∧ !engineQuiescent m then some 0x0F
    else none
  | .mldb0 _ | .mldb1 _ => if m.load.isSome then some 0x0F else if m.mcfg = 0 then some 0x0E else none
  | .mma0 _ _ _ scl wb | .mma1 _ _ _ scl wb =>
    if s.clk < m.busyUntil then some 0x0F
    else if m.mcfg = 0 ∨ (m.buffer wb.toNat).isNone ∨ (scl = 1 ∧ mcfgAcc m.mcfg = 7) then some 0x0E
    else none
  | _ => none

/-- The engine a matrix slot names by its class (R52). -/
def engineOf : Instr → Option Nat
  | .mcfg0 .. | .mdrain0 | .mldb0 .. | .mma0 .. | .mzero0 .. | .mskipa0 .. | .mstat0 .. => some 0
  | .mcfg1 .. | .mdrain1 | .mldb1 .. | .mma1 .. | .mzero1 .. | .mskipa1 .. | .mstat1 .. => some 1
  | _ => none

/-- The causes of a matrix slot; a failing check hides the later ones. -/
def matrixCauses (i : Instr) (s : State) : List Nat :=
  match engineOf i with
  | some e => (matrixCause e i s).toList
  | none => []

/-- A CSR number with an entry in the map (R418). -/
def csrKnown (n : Nat) : Bool :=
  n ≤ 3 || (8 ≤ n && n < 0x18) || n == 0x20 || n == 0x30 || n == 0x31 || n == 0x40 || (0x100 ≤ n && n ≤ 0x103)
    || n == 0x200 || (0x240 ≤ n && n ≤ 0x2BF) || (0x300 ≤ n && n ≤ 0x304) || (0x310 ≤ n && n ≤ 0x313)
    || (0x320 ≤ n && n ≤ 0x32F) || (0x340 ≤ n && n ≤ 0x37F) || (0x400 ≤ n && n ≤ 0x42F)

/-- The operand checks on source a of the Q, A and Y classes (R218, R224, R349, R417, R424 to R430). -/
def operandCausesA (i : Instr) (s : State) : List Nat :=
  let a (r : BitVec 6) : Nat := (s.cur.s r.toNat).toNat
  let res (b : Bool) : List Nat := if b then [0x03] else []
  let mis (b : Bool) : List Nat := if b then [0x0C] else []
  match i with
  | .enq grp _ => res (badRecord (s.cur.s (4 * grp.toNat)) (s.cur.s (4 * grp.toNat + 3)))
  | .binit opa _ => res (a opa = 0 || 65535 < a opa)
  | .bexp opa _ => res (2 ^ 28 ≤ a opa)
  | .cpy opa c _ | .gath opa c _ =>
    mis (a opa % 64 ≠ 0) ++ (if c = 0 ∧ Config.scratchpadBytes < a opa + 64 then [0x0B] else [])
  | .stash opa _ _ _ | .sfetch opa _ _ | .chpost opa _ | .coll opa _ | .chsend opa _ _ | .migr opa => mis (a opa % 64 ≠ 0)
  | .shopen opa _ => res (a opa % 65536 ≠ 0)
  | .split opa => res (8 < a opa)
  | .wpwait opa _ => res (2 ^ 24 ≤ a opa)
  | .nrmset opa _ => res ((s.cur.s opa.toNat).toInt < -128 || 127 < (s.cur.s opa.toNat).toInt)
  | .swpout opa | .swpin opa => res (32 ≤ a opa)
  | .extinv opa _ => res (a opa % 4096 ≠ 0)
  | .balloonAddb opa | .balloonDeflate opa => res (a opa % 4096 ≠ 0)
  | .balloonAddt opa => res (a opa % 4096 ≠ 0)
  | _ => []

/-- The operand checks on source b (R297, R349, R426, R428). -/
def operandCausesB (i : Instr) (s : State) : List Nat :=
  let b (r : BitVec 6) : Nat := (s.cur.s r.toNat).toNat
  let res (x : Bool) : List Nat := if x then [0x03] else []
  match i with
  | .amo _ _ opb _ _ size _ => if b opb % (if size = 0 then 4 else 8) ≠ 0 then [0x0C] else []
  | .chsend _ opb _ => res (badDescriptor (s.cur.s opb.toNat))
  | .chack opb _ => res (b opb % 64 ≠ 0)
  | .shopen _ opb => res (b opb % 65536 ≠ 0 || b opb = 0 || 2 ^ 30 < b opb)
  | .seedld _ opb _ => res (4096 ≤ b opb)
  | .extinv _ opb => res (b opb % 4096 ≠ 0 || b opb = 0 || 2 ^ 48 < b opb)
  | _ => []

/-! ## The causes of a slot -/

/-- A Y opcode that needs PRIV (R59, R416). -/
def privilegedOp : Instr → Bool
  | .csrr .. | .csrw .. | .csrs .. | .csrc .. | .tret | .ctxsw | .swpout .. | .swpin .. | .extinv .. | .migr ..
  | .balloonAddb .. | .balloonAddt .. | .balloonDeflate .. | .balloonClrb .. | .balloonClrt .. | .idle => true
  | _ => false

/-- `EMPTY_READ`: a strict source found empty (R18, R24). -/
def strictCauses (i : Instr) (s : State) : List Nat :=
  let p := s.ctx.pos
  if (s.ctx.strict.getLsbD (2 * p) ∧ !allFull s.cur (srcA i)) ∨ (s.ctx.strict.getLsbD (2 * p + 1) ∧ !allFull s.cur (srcB i))
  then [0x06] else []

/-- The causes that need no register value: reserved immediates, STRICT bits that name nothing, CSR numbers, `TRAP` and
`SVC`, privilege, loop state, lane views (R13, R25, R40, R43, R125, R416, R417, R427). -/
def staticCauses (i : Instr) (s : State) : List Nat :=
  (if i.wf then [] else [0x03])
    ++ (if immFits i s.ctx.ext then [] else [0x03])
    ++ (match i with
      | .pfx _ _ _ strict => if strict &&& ~~~s.ctx.named ≠ 0 then [0x03] else []
      | _ => [])
    ++ (match i with
      | .csrr _ csr | .csrw _ csr | .csrs _ csr | .csrc _ csr => if csrKnown csr.toNat then [] else [0x03]
      | .trap _ => [0x1C]
      | .svc _ => [0x1B]
      | _ => [])
    ++ (if privilegedOp i ∧ !s.cur.priv then [0x05] else [])
    ++ strictCauses i s ++ loopCauses i s ++ viewCauses i s

/-- The causes that depend on register values, each examined once the source it depends on is full (R8). -/
def valueCauses (i : Instr) (s : State) : List Nat :=
  (if allFull s.cur (srcA i) then
    uniformCauses i s ++ transferCauses i s ++ addressCauses i s ++ convertCauses i s ++ matrixCauses i s ++ operandCausesA i s
  else [])
  ++ (if allFull s.cur (srcB i) then operandCausesB i s else [])

/-- The lowest cause of a slot at issue, if it raises one (R34). -/
def slotTrap (i : Instr) (s : State) : Option Nat := (staticCauses i s ++ valueCauses i s).min?

/-- CODE16 of the record (R125, R427). -/
def trapCode : Instr → Nat
  | .trap code => code.toNat
  | .svc code => code.toNat
  | _ => 0

end Sys2Proof.Machine
end

