-- ==== Sys2Proof/Machine/Memory.lean ====
section
/-! DEFINITION. Main memory and its levels: physical locations (R235), compressed pages (R239 to R246, spec/12), free batts
(R254), tags (R257), extents and the checks of an access (R285, spec/14; R377 to R386, spec/20), the L2 slices and the
remote-data cache (R238, R268 to R274, R437, R438). -/

namespace Sys2Proof.Machine

/-! ## Dies -/

/-- Die `d`. -/
def State.die (s : State) (d : Nat) : Die := tget {} d s.dies
/-- The state with die `d` replaced. -/
def State.setDie (s : State) (d : Nat) (x : Die) : State := { s with dies := tset d x s.dies }
/-- Page record `p` of a die. -/
def Die.page (x : Die) (p : Nat) : Page := tget {} p x.pages
/-- The die with a page record replaced. -/
def Die.setPage (x : Die) (p : Nat) (r : Page) : Die := { x with pages := tset p r x.pages }

/-- EN of CMPCTL (R247). -/
def Die.en (x : Die) : Bool := x.cmpctl.getLsbD 0
/-- RATIO of CMPCTL. -/
def Die.ratio (x : Die) : Nat := (x.cmpctl.extractLsb' 1 5).toNat
/-- HARD of CMPCTL. -/
def Die.hard (x : Die) : Bool := x.cmpctl.getLsbD 6
/-- LOW of CMPWM (R248). -/
def Die.low (x : Die) : Nat := (x.cmpwm.extractLsb' 0 32).toNat
/-- HIGH of CMPWM. -/
def Die.high (x : Die) : Nat := (x.cmpwm.extractLsb' 32 32).toNat

/-- Installed home memory of a die (R239). -/
def installedBytes : Nat := 144 * 2 ^ 30
/-- Presented bytes at a RATIO (R239). -/
def presentedAt (ratio : Nat) : Nat := installedBytes / 16 * (16 + ratio)
/-- Presented bytes of a die. -/
def Die.presented (x : Die) : Nat := presentedAt x.ratio
/-- Batts of the batt store at a RATIO: installed memory less 3/64 of the presented space (R239). -/
def storeAt (ratio : Nat) : Nat := (installedBytes - presentedAt ratio * 3 / 64) / 512

/-! ## The free pool (R254) -/

/-- Batts in a list of ranges. -/
def rangesCount (l : List (Nat × Nat)) : Nat := (l.map (·.2)).sum

/-- FREE (R249). -/
def Die.freeCount (x : Die) : Nat := rangesCount x.free

/-- The lowest `n` batts taken from the pool, with what remains. -/
def takeBatts : Nat → List (Nat × Nat) → List Nat × List (Nat × Nat)
  | _, [] => ([], [])
  | n, (a, c) :: r =>
    if n = 0 then ([], (a, c) :: r)
    else if n < c then ((List.range n).map (a + ·), (a + n, c - n) :: r)
    else
      let (l, r') := takeBatts (n - c) r
      ((List.range c).map (a + ·) ++ l, r')

/-- One batt returned to the pool, ranges kept rising and joined. -/
def giveBatt (b : Nat) : List (Nat × Nat) → List (Nat × Nat)
  | [] => [(b, 1)]
  | (a, c) :: r =>
    if b + 1 < a then (b, 1) :: (a, c) :: r
    else if b + 1 = a then (b, c + 1) :: r
    else if b = a + c then
      match r with
      | (a', c') :: r' => if b + 1 = a' then (a, c + 1 + c') :: r' else (a, c + 1) :: r
      | [] => [(a, c + 1)]
    else (a, c) :: giveBatt b r

/-- Batts returned to the pool. -/
def Die.give (x : Die) (l : List Nat) : Die := { x with free := l.foldl (fun f b => giveBatt b f) x.free }

/-! ## Compressed blocks (R240, R241) -/

/-- Sectors of a page by its blocks. -/
def Page.sectors (p : Page) : Nat := (p.blocks.map (·.2)).sum
/-- Batts the blocks of a page need (R240). -/
def Page.needed (p : Page) : Nat := (p.sectors + 15) / 16
/-- Block entry `b`; sixteen zero blocks where none is listed. -/
def Page.block (p : Page) (b : Nat) : Nat × Nat := (p.blocks[b]?).getD (0, 0)
/-- The page with block `b` chosen anew. -/
def Page.setBlock (p : Page) (b : Nat) (v : Nat × Nat) : Page :=
  { p with blocks := (if p.blocks.isEmpty then List.replicate 16 (0, 0) else p.blocks).set b v }

/-- ALG and SIZE of a block of 256 bytes with content `x` (R241); `codes` are the enabled codes 1 to 3. -/
def chooseBlock (x : Nat) (codes : BitVec 3) (stored : Bool) : Nat × Nat :=
  if x = 0 then (0, 0)
  else if stored then (0, 8)
  else
    let w32 := unpack 32 64 x
    let n32 := w32.countP (· ≠ 0)
    let n16 := (unpack 16 128 x).countP (· ≠ 0)
    let s32 := (8 + 4 * n32 + 31) / 32
    let s16 := (16 + 2 * n16 + 31) / 32
    let c1 := if codes.getLsbD 0 ∧ w32.all (· = w32.headD 0) then [(1, 1)] else []
    let c2 := if codes.getLsbD 1 ∧ s32 ≤ 8 then [(2, s32)] else []
    let c3 := if codes.getLsbD 2 ∧ s16 ≤ 8 then [(3, s16)] else []
    ([(0, 8)] ++ c1 ++ c2 ++ c3).foldl (fun (m c : Nat × Nat) => if c.2 < m.2 then c else m) (0, 8)

/-- A block-map entry (R242): OFF is the sum of the sizes before it. -/
def Page.mapEntry (p : Page) (b : Nat) : BitVec 64 :=
  let (alg, size) := p.block b
  let off := if size = 0 then 0 else ((p.blocks.take b).map (·.2)).sum
  BitVec.ofNat 64 (size + 2 ^ 4 * alg + 2 ^ 8 * (decide (size = 0)).toNat + 2 ^ 9 * off
    + 2 ^ 32 * (p.tags.extractLsb' (32 * b) 32).toNat)

/-- The tag of granule `g` of a page. -/
def Page.tag (p : Page) (g : Nat) : BitVec 4 := p.tags.extractLsb' (4 * g) 4
/-- The page with the tag of granule `g` set. -/
def Page.setTag (p : Page) (g : Nat) (t : BitVec 4) : Page :=
  { p with tags := (p.tags &&& ~~~(15#512 <<< (4 * g))) ||| (t.setWidth 512 <<< (4 * g)) }

/-! ## Physical locations (R235) -/

/-- MEMBER of this device (R443). -/
def Regs.member (r : Regs) : Nat :=
  if r.domcfg.getLsbD 27 then
    let dim (c n o : Nat) : Nat :=
      let size := (r.tcoord.extractLsb' n 7).toNat + 1
      ((r.tcoord.extractLsb' c 7).toNat + size - (r.domcfg.extractLsb' o 7).toNat % size) % size
    dim 0 24 0 + 4 * dim 7 31 7 + 16 * dim 14 38 14
  else 0

/-! ## Routes and ports (R442, R446) -/

/-- The direction in one dimension: none where the coordinates agree, else whether the way leads in the - direction. -/
def direction (size own dest : Nat) : Option Bool :=
  let fwd := (dest + size - own % size) % size
  if fwd = 0 then none else some (decide (size - fwd < fwd))

/-- The torus port of the first hop to a coordinate; none for the device itself. -/
def Regs.route (r : Regs) (pos : Nat) : Option Nat :=
  let f (lo : Nat) : Nat := (r.tcoord.extractLsb' lo 7).toNat
  let dim (i : Nat) : Option Nat :=
    (direction (f (24 + 7 * i) + 1) (f (7 * i)) (pos / 2 ^ (7 * i) % 128)).map fun minus => 2 * i + minus.toNat
  dim 0 <|> dim 1 <|> dim 2

/-- The coordinate of a MEMBER of the domain, laid out as TCOORD bits 20:0 (R443). -/
def Regs.memberPos (r : Regs) (m : Nat) : Nat :=
  let dim (i off : Nat) : Nat :=
    ((r.domcfg.extractLsb' (7 * i) 7).toNat + off) % ((r.tcoord.extractLsb' (24 + 7 * i) 7).toNat + 1) * 2 ^ (7 * i)
  dim 0 (m % 4) + dim 1 (m / 4 % 4) + dim 2 (m / 16 % 4)

/-- The state of a port, with the clk of its last change: 0 UP, 1 RETRAIN, 2 DOWN. -/
def State.port (s : State) (p : Nat) : Nat × Nat := tget (0, 0) p s.ports

/-- The port by which packets leave for a coordinate is UP; packets wait at the sender while it is not (R446). -/
def State.routeUp (s : State) (pos : Nat) : Bool := (s.regs.route pos).all fun p => (s.port p).1 = 0

/-- The port through which an access to another device of the domain leaves (R442, R444). -/
def State.accessPort (s : State) : Loc → Option Nat
  | .other a => s.regs.route (s.regs.memberPos (a / 2 ^ 46 % 64))
  | _ => none

/-- An access to a location may leave: its port is UP, or it stays on the device (R446). -/
def State.reaches (s : State) (l : Loc) : Bool := (s.accessPort l).all fun p => (s.port p).1 = 0

/-- The offset lies in the LPDDR-6 tier (R235). -/
def inTier (off : Nat) : Bool := decide (2 ^ 40 ≤ off) && decide (off < 2 ^ 40 + 2 ^ 38)
/-- The offset lies in the register space (R235). -/
def inRegisters (off : Nat) : Bool := decide (0xF0000000000 ≤ off)
/-- The offset may lie in another device's home memory: no presented space is larger (R235, R239; log 37). -/
def inPeerHome (off : Nat) : Bool := decide (off < presentedAt 16)

/-- The location of a device physical address, or of host memory (R235, R379). -/
def State.locate (s : State) (hm : Bool) (pa : Nat) : Loc :=
  let d := pa / 2 ^ 44 % 4
  let off := pa % 2 ^ 44
  if hm then .host pa
  else if pa / 2 ^ 46 % 64 ≠ s.regs.member then
    if inPeerHome off || inTier off || inRegisters off then .other pa else .nothing
  else if off < (s.die d).presented then .home d off
  else if inTier off then .lp d (off - 2 ^ 40)
  else if d = 0 ∧ 0xF0000010000 ≤ off ∧ off < 0xF0000011000 then .signal (off - 0xF0000010000)
  else if inRegisters off then .register d off
  else .nothing

/-- Home memory, this device's or another's (R235, R257). -/
def Loc.isHome : Loc → Bool
  | .home .. => true
  | .other a => inPeerHome (a % 2 ^ 44)
  | _ => false

/-- A location of a page of home memory after its eviction: its copy (R256). -/
def State.served (s : State) : Loc → Loc
  | .home d off =>
    let p := (s.die d).page (off / 4096)
    if p.state = 1 then .lp d (p.fwd + off % 4096)
    else if p.state = 2 then .host (p.fwd + off % 4096)
    else .home d off
  | l => l

/-- The bytes at a location within one page. -/
def State.rawRead (s : State) (l : Loc) (n : Nat) : Nat :=
  match s.served l with
  | .home d off => mread (s.die d).home off n
  | .lp d off => mread (s.die d).lp off n
  | .host a => mread s.hostMem a n
  | .other a => mread s.otherMem a n
  | .signal off => mread s.signal off n
  | .register d off => packFields 8 ((List.range n).map fun i => (Config.registerByte d (off + i) s.clk).toNat)
  | .nothing => 0

/-- The die of a line. -/
def lineDie (key : Nat) : Nat := key * 128 / 2 ^ 44 % 4

/-- The bit of die `d` in the sharer sets of die `home`: the other dies in rising order (R438). -/
def sharerBit (home d : Nat) : Nat := if d < home then d else d - 1

/-- Invalidates a line in every sharer that the directory of its die names, and clears the set (R438). -/
def State.unshare (s : State) (key : Nat) : State :=
  let h := lineDie key
  match tfind key (s.die h).directory with
  | none => s
  | some sharers =>
    let drop (d : Nat) (x : Die) : Die :=
      if d ≠ h ∧ sharers.getLsbD (sharerBit h d) then { x with rdc := tdel key x.rdc } else x
    let t : State := { s with dies := s.dies.map fun (d, x) => (d, drop d x) }
    t.setDie h { t.die h with directory := tdel key (t.die h).directory }

/-- The physical line of a home or LPDDR-6 location. -/
def lineKey (d off : Nat) : Nat := (d * 2 ^ 44 + off) / 128

/-- The first byte of the page of a location. -/
def Loc.page : Loc → Loc
  | .home d off => .home d (off / 4096 * 4096)
  | .lp d off => .lp d (off / 4096 * 4096)
  | .host a => .host (a / 4096 * 4096)
  | .other a => .other (a / 4096 * 4096)
  | .signal off => .signal (off / 4096 * 4096)
  | .register d off => .register d (off / 4096 * 4096)
  | .nothing => .nothing

/-- The physical offset of a location in its die, for the lines of slices and caches. -/
def Loc.physical : Loc → Option (Nat × Nat)
  | .home d off => some (d, off)
  | .lp d off => some (d, off + 2 ^ 40)
  | _ => none

/-- Bytes written at a location within one page; the directory invalidates the lines in every sharer first (R438). -/
def State.rawWrite (s : State) (l : Loc) (n x : Nat) : State :=
  let s := match l.physical with
    | some (d, off) =>
      (List.range ((off % 128 + n + 127) / 128)).foldl (fun (s : State) i => s.unshare (lineKey d off + i)) s
    | none => s
  match s.served l with
  | .home d off => s.setDie d { s.die d with home := mwrite (s.die d).home off n x }
  | .lp d off => s.setDie d { s.die d with lp := mwrite (s.die d).lp off n x }
  | .host a => { s with hostMem := mwrite s.hostMem a n x }
  | .other a => { s with otherMem := mwrite s.otherMem a n x }
  | .signal off => { s with signal := mwrite s.signal off n x }
  | .register .. | .nothing => s

/-! ## The image of a page and its batts (R244; log 10) -/

/-- A byte mask as a mask of bits. -/
def byteMask (m : BitVec 128) : BitVec 1024 :=
  BitVec.ofNat 1024 (packFields 8 ((List.range 128).map fun i => if m.getLsbD i then 255 else 0))

/-- The 128 bytes of a line with the dirty bytes of every slice of its die over it. -/
def State.lineImage (s : State) (d key : Nat) (base : BitVec 1024) : BitVec 1024 :=
  (List.range 12).foldl (fun b i =>
    match tfind key (s.cluster (12 * d + i)).lines with
    | some l => let m := byteMask l.dirty; (b &&& ~~~m) ||| (l.bytes &&& m)
    | none => b) base

/-- The 256 bytes of block `b` of a resident page once every performed store has been written back. -/
def State.blockImage (s : State) (d page b : Nat) : Nat :=
  let off := 4096 * page + 256 * b
  let half (i : Nat) : Nat :=
    (s.lineImage d (lineKey d (off + 128 * i)) (BitVec.ofNat 1024 (mread (s.die d).home (off + 128 * i) 128))).toNat
  half 0 + 2 ^ 1024 * half 1

/-- Two slices of a die hold unlike dirty bytes for one byte of a line, so that the bytes to come depend on which is written back
later (R271). -/
def State.lineClash (s : State) (d key : Nat) : Bool :=
  let l := (List.range 12).filterMap fun i => tfind key (s.cluster (12 * d + i)).lines
  l.any fun a => l.any fun b =>
    let m := byteMask (a.dirty &&& b.dirty)
    a.bytes &&& m != b.bytes &&& m

/-- A line of block `b` of a page is in that case. -/
def State.blockClash (s : State) (d page b : Nat) : Bool :=
  let off := 4096 * page + 256 * b
  s.lineClash d (lineKey d off) || s.lineClash d (lineKey d (off + 128))

/-- Enabled codes of a page (R241). -/
def Die.codes (x : Die) (p : Page) : BitVec 3 := x.cmpctl.extractLsb' 11 3 &&& p.algm

/-- One page's share of a write: its die, page, first offset, bytes and CZ of the writer's mapping. -/
structure Touch where
  die : Nat
  page : Nat
  off : Nat
  n : Nat
  cz : Bool
deriving DecidableEq, Repr

/-- The record of a resident page after a write that leads from `s` to `t` (R244). A block whose dirty bytes clash is held STORED
until they have been written back, so that a write-back never lacks batts (log 10). -/
def touchPage (s t : State) (p : Page) (w : Touch) : Page :=
  if p.state ≠ 0 then p
  else
    let x := t.die w.die
    (List.range 16).foldl (fun p b =>
      if w.off % 4096 < 256 * (b + 1) ∧ 256 * b < w.off % 4096 + w.n then
        let v := t.blockImage w.die w.page b
        if t.blockClash w.die w.page b then p.setBlock b (0, 8)
        else if v = s.blockImage w.die w.page b ∧ (p.block b).2 ≠ 0 ∧ !s.blockClash w.die w.page b then p
        else p.setBlock b (chooseBlock v (x.codes p) (!w.cz || !x.en))
      else p) p

/-- The records of all resident pages of a write, one for each die and page; an evicted page needs no batt (R256). -/
def touchedPages (s t : State) : List Touch → List (Nat × Nat × Page) → List (Nat × Nat × Page)
  | [], acc => acc
  | w :: r, acc =>
    if ((t.die w.die).page w.page).state ≠ 0 then touchedPages s t r acc else
    let old := ((acc.find? fun e => e.1 = w.die ∧ e.2.1 = w.page).map (·.2.2)).getD ((t.die w.die).page w.page)
    touchedPages s t r ((acc.filter fun e => ¬(e.1 = w.die ∧ e.2.1 = w.page)) ++ [(w.die, w.page, touchPage s t old w)])

/-- Batts set aside for a writer on a die. -/
def Die.asideOf (x : Die) (who : Writer) : List Nat := ((x.aside.find? fun a => a.1 = who).map (·.2)).getD []

/-- Batts a page must still take; below zero those it gives up (R244). -/
def Page.short (p : Page) : Int := (p.needed : Int) - p.batts.length

/-- The shadow that still shares the batts of a page's current copy (R315). -/
def Die.sharing (x : Die) (page : Nat) : Option Nat :=
  (x.shadows.find? fun e => (tfind page e.2.pages).any (·.shares)).map (·.1)

/-- The page of a shadow stops sharing: it keeps the shared batts and the current copy starts with none. -/
def Die.unshareShadow (x : Die) (page : Nat) : Die :=
  match x.sharing page with
  | none => x
  | some i =>
    match tfind i x.shadows with
    | none => x
    | some h =>
      let h := { h with pages := h.pages.map fun (q, e) => if q = page then (q, { e with shares := false }) else (q, e) }
      ({ x with shadows := tset i h x.shadows }).setPage page { x.page page with batts := [] }

/-- Takes and returns batts so that a page holds what its blocks need: batts set aside for the writer first, then the
lowest of the pool; batts given up are the last ones (R240, R254). -/
def Die.fit (x : Die) (who : Writer) (page : Nat) (p : Page) : Die :=
  let need := p.needed
  if need ≤ p.batts.length then
    (x.give (p.batts.drop need)).setPage page { p with batts := p.batts.take need }
  else
    let own := x.asideOf who
    let missing := need - p.batts.length
    let fromOwn := own.take missing
    let (fromPool, free) := takeBatts (missing - fromOwn.length) x.free
    let aside := (x.aside.filter fun a => ¬ a.1 = who)
      ++ (if own.length ≤ missing then [] else [(who, own.drop missing)])
    ({ x with free, aside }).setPage page { p with batts := p.batts ++ fromOwn ++ fromPool }

/-- Batts left over from those set aside return to the pool once the write has been performed. -/
def Die.dropAside (x : Die) (who : Writer) : Die :=
  ({ x with aside := x.aside.filter fun a => ¬ a.1 = who }).give (x.asideOf who)

/-- The need of a die by its touched pages: the sum of their needs, of which one below zero covers another (R244). -/
def needOf (pages : List (Nat × Nat × Page)) (d : Nat) : Nat :=
  (((pages.filter fun e => e.1 = d).map fun e => e.2.2.short).foldl (· + ·) (0 : Int)).toNat

/-- A page whose shadow shares its batts leaves them to the shadow as soon as it is written (R315). -/
def sharedPages (t : State) (l : List (Nat × Nat × Page)) : List (Nat × Nat × Page) :=
  l.map fun (d, p, r) => if ((t.die d).sharing p).isSome then (d, p, { r with batts := [] }) else (d, p, r)

/-- The first die that lacks batts for a write, with the need. -/
def shortDie (t : State) (who : Writer) (pages : List (Nat × Nat × Page)) : Option (Nat × Nat) :=
  ((List.range 4).find? fun d =>
    decide ((t.die d).freeCount + ((t.die d).asideOf who).length < needOf pages d)).map fun d => (d, needOf pages d)

/-- Nothing stays set aside for a writer on any die. -/
def State.dropAsides (s : State) (who : Writer) : State := { s with dies := s.dies.map fun (d, x) => (d, x.dropAside who) }

/-- Accounts a write that leads from `s` to `t`: the state with its batts taken, or the die that is short and the need. The pages that give
batts up are repacked first, since those are free in the same clk (R244, R254). -/
def account (s t : State) (who : Writer) (ws : List Touch) : State ⊕ (Nat × Nat) :=
  let pages := sharedPages t (touchedPages s t ws [])
  match shortDie t who pages with
  | some e => .inr e
  | none =>
    let ordered := (pages.filter fun e => e.2.2.short < 0) ++ pages.filter fun e => 0 ≤ e.2.2.short
    .inl ((ordered.foldl (fun u (d, p, r) => u.setDie d (((u.die d).unshareShadow p).fit who p r)) t).dropAsides who)

/-! ## The balloon engine's standing rules (R250 to R252) -/

/-- Adds a waiter; a write that becomes a waiter counts in SPACEWAITS (R249). -/
def Die.wait (x : Die) (who : Writer) (need now : Nat) : Die :=
  let n := (x.cmpcnt.extractLsb' 32 16).toNat
  { x with waiters := x.waiters ++ [⟨who, need, now⟩],
           cmpcnt := if n = 65535 then x.cmpcnt else x.cmpcnt + BitVec.ofNat 64 (2 ^ 32) }

/-- A target-list entry names a 4 KiB frame of host memory or of the LPDDR-6 tier (R250). -/
def frameOk (t : SReg) : Bool :=
  let a := (t.extractLsb' 0 52).toNat
  t.extractLsb' 52 11 == 0 && a % 4096 == 0 && (t.getLsbD 63 || decide (a < 2 ^ 38))

/-- The first target frame that fits the eviction policy; an entry that names no frame is skipped (R247, R250). -/
def Die.target (x : Die) : Option SReg :=
  let frames := x.targetList.filter frameOk
  let lp := frames.find? fun t => !t.getLsbD 63
  let host := frames.find? fun t => t.getLsbD 63
  match (x.cmpctl.extractLsb' 8 2).toNat with
  | 0 => lp <|> host
  | 1 => host
  | _ => lp

/-- Whether a page may be evicted (R256). -/
def Die.evictable (x : Die) (p : Nat) (r : Page) : Bool :=
  r.state = 0 && !r.batts.isEmpty && !r.shadow && !r.migrating && !x.balloonList.contains (4096 * p)
    && !x.evictions.any fun e => e.1 = p

/-- The coldest eligible page: the lowest ACCESS, then the lowest offset (R256); none where HARD keeps the engine from evicting (R247). -/
def Die.coldest (x : Die) : Option Nat :=
  if x.hard then none else
  ((x.pages.filter fun e => x.evictable e.1 e.2).foldl (fun m e =>
    match m with
    | none => some e
    | some f => if e.2.access < f.2.access then some e else m) none).map (·.1)

/-- The evicted page with the highest ACCESS (R251), and of several the one with the lowest offset (log 62). -/
def Die.hottest (x : Die) : Option (Nat × Page) :=
  (x.pages.filter fun e => e.2.state = 1 ∨ e.2.state = 2).foldl (fun (m : Option (Nat × Page)) e =>
    match m with
    | none => some e
    | some f => if f.2.access < e.2.access then some e else m) none

/-- The block map of a recalled page by its present bytes: an entry that still fits its block stays (R251; log 10). -/
def recalledBlocks (x : Die) (r : Page) (image : Nat) : Page :=
  (List.range 16).foldl (fun q b =>
    let v := image / 256 ^ (256 * b) % 256 ^ 256
    q.setBlock b (if v ≠ 0 ∧ (r.block b).2 = 8 then r.block b else chooseBlock v (x.codes r) (!x.en))) r

/-- The 4 KiB of an evicted page, the dirty bytes of its die's slices over its copy. -/
def State.copyImage (s : State) (d page : Nat) : Nat :=
  packFields 1024 ((List.range 32).map fun i =>
    let off := 4096 * page + 128 * i
    (s.lineImage d (lineKey d off) (BitVec.ofNat 1024 (s.rawRead (.home d off) 128))).toNat)

/-- The evicted page that is recalled next, with its record as recalled; none where FREE would fall below HIGH (R251). -/
def State.recallable (s : State) (d : Nat) : Option (Nat × Page) :=
  let x := s.die d
  match x.hottest with
  | some (p, r) =>
    let q := recalledBlocks x r (s.copyImage d p)
    if x.high + q.needed ≤ x.freeCount then some (p, q) else none
  | none => none

/-- One transition of the state of a die's engine (R251). -/
def State.balloonStep (s : State) (d : Nat) : State :=
  let x := s.die d
  let low := x.freeCount < x.low
  let full := x.high ≤ x.freeCount
  let w := !x.waiters.isEmpty
  let enter (n : Nat) : State := s.setDie d { x with balloon := n }
  match x.balloon with
  | 0 =>
    if low ∨ w then enter 1
    else if x.cmpctl.getLsbD 10 ∧ x.high < x.freeCount ∧ (s.recallable d).isSome then enter 4
    else s
  | 1 => if full ∧ !w then enter 0 else if x.balloonList.isEmpty then enter (if x.hard then 3 else 2) else s
  | 2 => if full ∧ !w then enter 0 else if x.evictions.isEmpty ∧ (x.coldest.isNone ∨ x.target.isNone) then enter 3 else s
  | 3 => if !low ∧ !w then enter 0 else s
  | _ => if w ∨ low then enter 1 else if (s.recallable d).isNone then enter 0 else s

/-- The engine's state once no transition is due. -/
def State.settleDie (s : State) (d : Nat) : State := ((s.balloonStep d).balloonStep d).balloonStep d

/-! ## Extents (R383 to R386) -/

/-- Bytes of one unit of an extent. -/
def Extent.unit (e : Extent) : Nat := if e.fine then 4096 else 65536
/-- Whether an extent covers a virtual address without its top byte. -/
def Extent.covers (e : Extent) (va : Nat) : Bool := decide (e.vbase ≤ va) && decide (va < e.vbase + e.units * e.unit)

/-- The extent that covers an address. -/
def findExtent (xt : List Extent) (va : Nat) : Option Extent := xt.find? fun e => e.covers va

/-- A piece of an access within one page: its address, length, extent and location. -/
structure Part where
  va : Nat
  n : Nat
  ext : Option Extent
  loc : Loc
deriving DecidableEq, Repr

/-- CZ of the mapping of a part. -/
def Part.compressible (p : Part) : Bool := p.ext.any (·.cz)

/-- The parts of an access of `n` bytes, cut at 4 KiB boundaries. -/
def State.parts (s : State) (xt : List Extent) : Nat → Nat → Nat → List Part
  | 0, _, _ => []
  | fuel + 1, va, n =>
    if n = 0 then []
    else
      let k := min n (4096 - va % 4096)
      let e := findExtent xt va
      let l := match e with
        | some e => s.locate e.hm (e.pbase + (va - e.vbase))
        | none => .nothing
      ⟨va, k, e, l⟩ :: s.parts xt fuel (va + k) (n - k)

/-- The first part that fails a check gives the cause. -/
def firstFailing (l : List Part) (bad : Part → Option Nat) : Option Nat := l.findSome? bad

/-- Whether every granule a part touches carries the pointer tag (R257). -/
def State.tagOk (s : State) (ptag : Nat) (p : Part) : Bool :=
  match p.loc with
  | .home d off =>
    (List.range ((off % 32 + p.n + 31) / 32)).all fun i =>
      (((s.die d).page (off / 4096)).tag (off % 4096 / 32 + i)).toNat = ptag
  | .other a => !p.loc.isHome || (List.range ((a % 32 + p.n + 31) / 32)).all fun i => mread s.otherTags (a / 32 + i) 1 % 16 = ptag
  | _ => true

/-- The checks of R285 on a global access, in order: the cause of the first failure, or the parts. -/
def State.checkGlobal (s : State) (xt : List Extent) (priv write tagged : Bool) (a n : Nat) : Nat ⊕ List Part :=
  if a / 2 ^ 56 % 16 ≠ 0 then .inl 0x12
  else
    let l := s.parts xt 64 (a % 2 ^ 56) n
    match firstFailing l fun p => if p.ext.isNone then some 0x11 else none with
    | some c => .inl c
    | none =>
      match firstFailing l fun p => p.ext.bind fun e =>
          if e.p ∧ ((write ∧ !e.w) ∨ (!priv ∧ !e.u)) then some 0x12 else none with
      | some c => .inl c
      | none =>
        match firstFailing l fun p => p.ext.bind fun e => if !e.p then some 0x30 else if e.rvk then some 0x31 else none with
        | some c => .inl c
        | none =>
          match firstFailing l fun p => match p.loc with
            | .home d off => if write ∧ ((s.die d).page (off / 4096)).state = 3 then some 0x12 else none
            | _ => none with
          | some c => .inl c
          | none =>
            if tagged ∧ l.any fun p => p.ext.any (·.tg) ∧ !s.tagOk (a / 2 ^ 60 % 16) p then .inl 0x13
            else .inr l

/-- The limit of a cluster's offsets: during a drain a converting bank still belongs to the space (R236, R237). -/
def Cluster.limit (k : Cluster) : Nat :=
  match k.split with
  | some d => (8 - min k.banks d.banks) * 2 ^ 23
  | none => (8 - k.banks) * 2 ^ 23

/-- The checks of R285 on a cluster access: the cause of the first failure. -/
def Cluster.check (k : Cluster) (off n : Nat) : Option Nat :=
  if k.limit < off + n then some 0x12
  else
    match k.split with
    | some d => if (8 - max k.banks d.banks) * 2 ^ 23 < off + n then some 0x16 else none
    | none => none

/-- The parts of a list of page touches, for the batts of a write. -/
def touches (l : List Part) : List Touch :=
  l.filterMap fun p =>
    match p.loc with
    | .home d off => some ⟨d, off / 4096, off, p.n, p.ext.any (·.cz)⟩
    | _ => none

/-- The home pages that an access touches, each once. -/
def pagesTouched (l : List Part) : List (Nat × Nat) :=
  (l.filterMap fun p => match p.loc with
    | .home d off => some (d, off / 4096)
    | _ => none).eraseDups

/-- Every part of an access may leave the device, or stays on it (R446). -/
def State.allReach (s : State) (l : List Part) : Bool := l.all fun p => s.reaches p.loc

/-- ACCESS rises once on each page that an access touches (R256). -/
def State.countAccess (s : State) (l : List Part) : State :=
  (pagesTouched l).foldl (fun s (d, p) =>
    let x := s.die d
    let r := x.page p
    s.setDie d (x.setPage p { r with access := min 255 (r.access + 1) })) s

/-- The state of an attempt that did not perform its access: ACCESS as it was (R256). -/
def State.uncounted (t s : State) : State :=
  { t with dies := t.dies.map fun (d, x) => (d, { x with pages := x.pages.map fun (p, r) =>
      (p, { r with access := ((s.die d).page p).access }) }) }

/-! ## Slices and the remote-data cache -/

/-- The part of a line that a span of bytes covers. -/
def lineSpan (lo n : Nat) : BitVec 128 := (BitVec.allOnes 128 >>> (128 - min n (128 - lo))) <<< lo

/-- A location `i` bytes further. -/
def Loc.add : Loc → Nat → Loc
  | .home d o, i => .home d (o + i)
  | .lp d o, i => .lp d (o + i)
  | .host a, i => .host (a + i)
  | .other a, i => .other (a + i)
  | .signal o, i => .signal (o + i)
  | .register d o, i => .register d (o + i)
  | .nothing, _ => .nothing

/-- The tag of the granule of home memory at a location set, on this device or another (R257). -/
def State.putTag (s : State) (l : Loc) (tag : Nat) : State :=
  match l with
  | .home d off =>
    let x := s.die d
    s.setDie d (x.setPage (off / 4096) ((x.page (off / 4096)).setTag (off % 4096 / 32) (BitVec.ofNat 4 tag)))
  | .other a => if l.isHome then { s with otherTags := mset (a / 32) (BitVec.ofNat 8 (tag % 16)) s.otherTags } else s
  | _ => s

/-- The home or LPDDR-6 location of a line. -/
def lineLoc (key : Nat) : Loc :=
  let d := key * 128 / 2 ^ 44 % 4
  let off := key * 128 % 2 ^ 44
  if off < 2 ^ 40 then .home d off else .lp d (off - 2 ^ 40)

/-- The banks that hold lines: during a drain those that stay with the slice (R237). -/
def Cluster.sliceBanks (k : Cluster) : Nat :=
  match k.split with
  | some d => min k.banks d.banks
  | none => k.banks

/-- A line of a CLAIMED page, a write to which is discarded (R250). -/
def State.claimedLine (s : State) : Loc → Bool
  | .home d off => ((s.die d).page (off / 4096)).state = 3
  | _ => false

/-- The dirty bytes of a line of slice `k` written to memory, and its block chosen anew where another slice holds unlike dirty
bytes of it (R238, R244, R271; log 10). -/
def State.writeBack (s : State) (k key : Nat) (line : Line) : State :=
  let clean := s.setCluster k { s.cluster k with lines := tset key { line with dirty := 0, writers := 0 } (s.cluster k).lines }
  let l := lineLoc key
  if line.dirty = 0 ∨ s.claimedLine l then clean
  else
    let m := byteMask line.dirty
    let x := (BitVec.ofNat 1024 (s.rawRead l 128) &&& ~~~m) ||| (line.bytes &&& m)
    let t := clean.rawWrite l 128 x.toNat
    match l with
    | .home d off =>
      if s.lineClash d key then
        match account s t (.slice k) [⟨d, off / 4096, off, 128, line.cz⟩] with
        | .inl u => u
        | .inr _ => t
      else t
    | _ => t

/-- Writes one line of a slice back and removes it (R270, R274). -/
def State.evictLine (s : State) (k key : Nat) : State :=
  match tfind key (s.cluster k).lines with
  | none => s
  | some l =>
    let s := s.writeBack k key l
    s.setCluster k { s.cluster k with lines := tdel key (s.cluster k).lines }

/-- Which other line leaves a table of lines that holds more than its room. -/
def victimOf {α : Type} (t : Table α) (room key : Nat) : Option Nat :=
  let others := (t.map (·.1)).filter (· ≠ key)
  if t.length ≤ room then none else others[Config.victimLine key others.length % others.length]?

/-- Lines leave a slice, `n` at most, until it holds no more than its room, 8 MiB of lines for a bank; line `key` stays (R6, R236, R270;
log 36). -/
def State.trimLines (s : State) (k key : Nat) : Nat → State
  | 0 => s
  | n + 1 =>
    match victimOf (s.cluster k).lines ((s.cluster k).sliceBanks * 65536) key with
    | some v => (s.evictLine k v).trimLines k key n
    | none => s

/-- A line enters a full slice in the place of another (R6, R270; log 36). -/
def State.trimSlice (s : State) (k key : Nat) : State :=
  s.trimLines k key ((s.cluster k).lines.length - (s.cluster k).sliceBanks * 65536)

/-- Line `key` of a slice; unless all of it is valid, every byte that is not dirty is read from memory anew (R238, R268, R275). -/
def State.fillLine (s : State) (k d off : Nat) (l : Loc) : Line × State :=
  let key := lineKey d off
  let old := tget {} key (s.cluster k).lines
  if old.valid = BitVec.allOnes 128 then (old, s)
  else
    let back : Nat := off % 128
    let base := match l with
      | .home d o => Loc.home d (o - back)
      | .lp d o => Loc.lp d (o - back)
      | l => l
    let m := byteMask old.dirty
    let line := { old with bytes := (BitVec.ofNat 1024 (s.rawRead base 128) &&& ~~~m) ||| (old.bytes &&& m),
                           valid := BitVec.allOnes 128 }
    (line, (s.setCluster k { s.cluster k with lines := tset key line (s.cluster k).lines }).trimSlice k key)

/-- Loads through a slice, line by line. -/
def State.sliceLoad (s : State) (k d off : Nat) (l : Loc) : Nat → Nat → Nat × State
  | 0, _ => (0, s)
  | fuel + 1, n =>
    if n = 0 then (0, s)
    else
      let c := min n (128 - off % 128)
      let (line, s) := s.fillLine k d off l
      let v := line.bytes.toNat / 256 ^ (off % 128) % 256 ^ c
      let (r, s) := s.sliceLoad k d (off + c) (l.add c) fuel (n - c)
      (v + 256 ^ c * r, s)

/-- Stores into a slice, line by line, by sequencer `q` of the cluster (R238). -/
def State.sliceStore (s : State) (k q d off : Nat) (cz : Bool) : Nat → Nat → Nat → State
  | 0, _, _ => s
  | fuel + 1, n, x =>
    if n = 0 then s
    else
      let c := min n (128 - off % 128)
      let key := lineKey d off
      let old := tget {} key (s.cluster k).lines
      let sel := lineSpan (off % 128) c
      let m := byteMask sel
      let new := BitVec.ofNat 1024 (x % 256 ^ c * 256 ^ (off % 128))
      let line : Line := { bytes := (old.bytes &&& ~~~m) ||| (new &&& m), valid := old.valid ||| sel,
                           dirty := old.dirty ||| sel, writers := old.writers ||| (1 <<< q), cz }
      let s := (s.setCluster k { s.cluster k with lines := tset key line (s.cluster k).lines }).trimSlice k key
      s.sliceStore k q d (off + c) cz fuel (n - c) (x / 256 ^ c)

/-- A line has left the remote-data cache of die `me`: it is no sharer of it any more, and a line without a sharer has no record (R438). -/
def State.unrecord (s : State) (me key : Nat) : State :=
  let h := lineDie key
  match tfind key (s.die h).directory with
  | none => s
  | some b =>
    let b := b &&& ~~~(1#3 <<< sharerBit h me)
    s.setDie h { s.die h with directory := if b = 0 then tdel key (s.die h).directory else tset key b (s.die h).directory }

/-- The directory of a line's die has room for its record: where it is full the line of another record is invalidated in every sharer, and
the record used anew (R438; log 36). -/
def State.recordRoom (s : State) (key : Nat) : State :=
  let h := lineDie key
  let t := (s.die h).directory
  if (tfind key t).isSome || Config.directoryRoom h t.length then s
  else match t[Config.victimLine key t.length % t.length]? with
    | some e => s.unshare e.1
    | none => s

/-- A line enters the remote-data cache of die `me`, 128 MiB, in the place of another where it is full, and its die's directory records the
sharer (R6, R437, R438; log 36). -/
def State.cacheLine (s : State) (me key : Nat) (bytes : BitVec 1024) : State :=
  let h := lineDie key
  let s := s.recordRoom key
  let s := s.setDie h { s.die h with directory := tset key (tget 0 key (s.die h).directory ||| (1#3 <<< sharerBit h me)) (s.die h).directory }
  let rdc := tset key bytes (s.die me).rdc
  match victimOf rdc (2 ^ 20) key with
  | some v => (s.setDie me { s.die me with rdc := tdel v rdc }).unrecord me v
  | none => s.setDie me { s.die me with rdc }

/-- Loads of another die through the reading die's remote-data cache (R437). -/
def State.remoteLoad (s : State) (me d off : Nat) (l : Loc) : Nat → Nat → Nat × State
  | 0, _ => (0, s)
  | fuel + 1, n =>
    if n = 0 then (0, s)
    else
      let c := min n (128 - off % 128)
      let key := lineKey d off
      let back : Nat := off % 128
      let base := match l with
        | .home d o => Loc.home d (o - back)
        | .lp d o => Loc.lp d (o - back)
        | l => l
      let bytes := (tfind key (s.die me).rdc).getD (BitVec.ofNat 1024 (s.rawRead base 128))
      let s := s.cacheLine me key bytes
      let v := bytes.toNat / 256 ^ (off % 128) % 256 ^ c
      let (r, s) := s.remoteLoad me d (off + c) (l.add c) fuel (n - c)
      (v + 256 ^ c * r, s)

/-- Bytes a core of cluster `k` loads at a location within one page (R268). -/
def State.coreLoad (s : State) (k : Nat) (l : Loc) (n : Nat) : Nat × State :=
  match l.physical with
  | some (d, off) =>
    if d = dieOfCluster k then
      if (s.cluster k).sliceBanks = 0 then (s.rawRead l n, s) else s.sliceLoad k d off l 64 n
    else s.remoteLoad (dieOfCluster k) d off l 64 n
  | none => (s.rawRead l n, s)

/-- Bytes a core of cluster `k`, sequencer `q`, stores at a location within one page mapped with `cz` (R268, R437). -/
def State.coreStore (s : State) (k q : Nat) (l : Loc) (cz : Bool) (n x : Nat) : State :=
  match l.physical with
  | some (d, off) =>
    if d = dieOfCluster k ∧ (s.cluster k).sliceBanks ≠ 0 then s.sliceStore k q d off cz 64 n x else s.rawWrite l n x
  | none => s.rawWrite l n x

/-- The sequencer number within its cluster. -/
def seqInCluster (c b : Nat) : Nat := 2 * (c % 8) + b

/-- A release at `.die` or wider by a sequencer: every dirty byte of every line it has written (R238, R272). -/
def State.releaseLines (s : State) (c b : Nat) : State :=
  let k := clusterOf c
  let q := seqInCluster c b
  ((s.cluster k).lines.filter fun e => e.2.writers.getLsbD q).foldl (fun s e => s.writeBack k e.1 e.2) s

/-- An acquire at `.die` or wider: every clean byte of the slice becomes invalid (R238, R272). -/
def State.acquireLines (s : State) (k : Nat) : State :=
  s.setCluster k { s.cluster k with
    lines := (s.cluster k).lines.filterMap fun (key, l) => if l.dirty = 0 then none else some (key, { l with valid := l.dirty }) }

/-- What an `AMO` or a header reservation does first: the line leaves its own cluster's slice, written back (R274, R293). -/
def State.toMemory (s : State) (k : Nat) (l : Loc) (n : Nat) : State :=
  match l.physical with
  | some (d, off) =>
    if d = dieOfCluster k then
      (List.range ((off % 128 + n + 127) / 128)).foldl (fun s i => s.evictLine k (lineKey d off + i)) s
    else s
  | none => s

/-! ## The scopes of an acquire (R211, R272) -/

/-- A release by a sequencer at a scope code: 0 `.seq`, 1 `.core`, 2 `.clu`, 3 `.die`, 4 `.dom`, 5 `.sys`. -/
def State.release (s : State) (c b scope : Nat) : State := if 3 ≤ scope then s.releaseLines c b else s

/-- An acquire by a sequencer at a scope code; it discards the run-ahead buffer at any scope (R29, R272). -/
def State.acquire (s : State) (c b scope : Nat) : State :=
  let s := if 3 ≤ scope then s.acquireLines (clusterOf c) else s
  s.setBank c b { s.bank c b with runAhead := [] }

/-- The narrowest scope that encloses two cores; the same core counts as `.core` (R211). -/
def scopeOf (p c : Nat) : Nat :=
  if p = c then 1 else if clusterOf p = clusterOf c then 2 else if dieOf p = dieOf c then 3 else 4

/-- The narrowest scope that encloses a core and all of a list. -/
def scopeOver (c : Nat) (l : List Nat) : Nat := l.foldl (fun m p => max m (scopeOf p c)) 0

end Sys2Proof.Machine
end

