-- ==== Sys2Proof/Machine/Banks.lean ====
section
/-! DEFINITION. Barriers (R222, R223, spec/10); posted and restartable faults of accesses (R33, R286, spec/14), their answers
(R387, spec/20); the drain and the switching of banks (R403 to R406, spec/21). -/

namespace Sys2Proof.Machine

/-! ## Barriers -/

/-- Barrier `b` of cluster `k`. -/
def State.barrier (s : State) (k b : Nat) : Barrier := tget {} b (s.cluster k).barriers

/-- Completes a phase when nothing is awaited any more (R223). -/
def Barrier.settle (x : Barrier) (now : Nat) : Barrier :=
  if x.expect ≠ 0 ∧ x.remain = 0 ∧ x.pending = 0 then
    { x with lastErr := if x.err then x.errCode else 0, phase := x.phase + 1, remain := x.expect - x.early, early := 0,
             err := false, errCode := 0, doneClk := now }
  else x

/-- The state with a barrier replaced. -/
def State.setBarrier (s : State) (k b : Nat) (x : Barrier) : State :=
  s.setCluster k { s.cluster k with barriers := tset b x (s.cluster k).barriers }

/-- At the end of a clk, after every request and every count of the clk, the phases that await nothing complete, each barrier's
once (R223). -/
def State.settleBarriers (s : State) : State :=
  { s with clusters := s.clusters.map fun (k : Nat × Cluster) =>
      (k.1, { k.2 with barriers := k.2.barriers.map fun (b : Nat × Barrier) => (b.1, b.2.settle s.clk) }) }

/-- Records the first fault of a phase: contributor kind and cause (R223). -/
def Barrier.fail (x : Barrier) (kind cause : Nat) : Barrier :=
  if x.err then x else { x with err := true, errCode := kind * 256 + cause }

/-- Subtracts delivered bytes; below zero leaves zero and records 0x001D (R223). -/
def Barrier.subtract (x : Barrier) (n : Nat) : Barrier :=
  if x.pending < n then { x.fail 0 0x1D with pending := 0 } else { x with pending := x.pending - n }

/-- An engine counts bytes down from a barrier of a cluster (R312). -/
def State.countDown (s : State) (k b n : Nat) : State :=
  if n = 0 then s else s.setBarrier k b ((s.barrier k b).subtract n)

/-- An engine records a failure and only then counts its bytes down (R223). -/
def State.failDown (s : State) (k b kind cause n : Nat) : State :=
  s.setBarrier k b (((s.barrier k b).fail kind cause).subtract n)

/-- An engine adds counted bytes; none where the sum would pass 2^28 - 1 (R312). -/
def State.countUp (s : State) (k b n : Nat) : Option State :=
  let x := s.barrier k b
  if 2 ^ 28 - 1 < x.pending + n then none
  else some (s.setCluster k { s.cluster k with barriers := tset b { x with pending := x.pending + n } (s.cluster k).barriers })

/-! ## Faults of accesses -/

/-- Posts a trap on a bank; one detected during a drain of the bank is marked for MORE (R33, R403). -/
def State.postOn (s : State) (c b cause bundle pos issued : Nat) (addr : Option Nat) : State :=
  let draining := (s.core c).drain.any fun d => d.bank = b
  s.setBank c b ((s.bank c b).post { clk := s.clk, cause, bundle, pos, issued, more := draining, addr })

/-- A bank runs the task that issued a command. -/
def Bank.issued (k : Bank) (w : Captured) : Bool := (k.task.map (·.invocation)).getD 0 = w.invocation

/-- The place in shadow storage of the sequencer that issued a command, where its bank has been swapped out (R408). -/
def State.awayBank (s : State) (w : Captured) : Option Nat :=
  if (s.bank w.core w.bank).issued w then none
  else ((s.cluster (clusterOf w.core)).shadow.find? fun e =>
    e.1 % 1024 = w.core ∧ e.2.1 = w.bank ∧ e.2.2.issued w).map (·.1)

/-- The bank of a captured command, in its core or in shadow storage (R354, R408). -/
def State.bankOf (s : State) (w : Captured) : Bank :=
  match (s.awayBank w).bind fun key => tfind key (s.cluster (clusterOf w.core)).shadow with
  | some e => e.2
  | none => s.bank w.core w.bank

/-- The bank of a captured command replaced where it is. -/
def State.setBankOf (s : State) (w : Captured) (k : Bank) : State :=
  match s.awayBank w with
  | some key =>
    let q := s.cluster (clusterOf w.core)
    s.setCluster (clusterOf w.core) { q with shadow := tset key (w.bank, k) q.shadow }
  | none => s.setBank w.core w.bank k

/-- Posts a trap for a captured command on its issuing sequencer (R353). -/
def State.postFor (s : State) (w : Captured) (cause : Nat) : State :=
  match s.awayBank w with
  | none => s.postOn w.core w.bank cause w.bundle w.pos w.issued none
  | some _ => s.setBankOf w ((s.bankOf w).post { clk := s.clk, cause, bundle := w.bundle, pos := w.pos, issued := w.issued })

/-- The registers that a load, `AMO`, probe or queued CSR read fills. -/
def fillRegs (i : Instr) : List Reg := dests i

/-- Registers filled with zero and marked full, a vector's side word zero (R286). -/
def Bank.fillZero (k : Bank) (now : Nat) (l : List Reg) : Bank :=
  l.foldl (fun k r =>
    match r with
    | .s n => k.fillS now n 0
    | .k n => k.markFull (.k n)
    | .v n => k.fillV n 0) k

/-- Entry `i` of a bank's queue. -/
def Bank.entry (k : Bank) (i : Nat) : Option QEntry := k.queue[i]?
/-- The bank without entry `i`. -/
def Bank.dropEntry (k : Bank) (i : Nat) : Bank := { k with queue := k.queue.eraseIdx i }
/-- The bank with entry `i` replaced. -/
def Bank.setEntry (k : Bank) (i : Nat) (e : QEntry) : Bank := { k with queue := k.queue.set i e }

/-- An access takes a posted trap: its destinations read zero and full, it leaves its queue (R286). -/
def State.failEntry (s : State) (c b i : Nat) (e : QEntry) (cause addr : Nat) : State :=
  let s := s.setBank c b (((s.bank c b).fillZero s.clk (fillRegs e.ins)).dropEntry i)
  s.postOn c b cause e.bundle e.pos e.clk (some addr)

/-- Starts a drain of a core's bank where none runs; a held `DEQ` of the bank no longer waits (R215, R403). -/
def State.startDrain (s : State) (c b : Nat) (reason : DrainReason) : State :=
  let x := s.core c
  if x.drain.isSome then s
  else (s.leaveWaits c b).setCore c { x with drain := some { bank := b, reason, since := s.clk } }

/-- An entry kept for its re-issue, which performs a sparse load from its start (R286). -/
def QEntry.keep (e : QEntry) : QEntry :=
  match e.ins with
  | .ldgx .. => { e with kept := true, done := [], got := 0, phase := 0 }
  | _ => { e with kept := true }

/-- An access of `n` bytes from an address on meets a restartable fault: it is kept with every younger entry, and the core drains (R33,
R281, R403). -/
def State.faultEntry (s : State) (c b i : Nat) (e : QEntry) (cause addr n : Nat) (write : Bool) : State :=
  let k := s.bank c b
  let k := { k.setEntry i e.keep with fault := some { cause, addr, bytes := n, bundle := e.bundle, pos := e.pos, write } }
  let s := s.setBank c b k
  if (s.core c).active = b then s.startDrain c b .fault else s

/-! ## Switching banks -/

/-- A bank that may become active. -/
def Bank.ready (k : Bank) : Bool := k.state == .runnable && !k.stopped

/-- The active bank of a core is at a bundle boundary in this clk. -/
def State.atBoundary (s : State) (c : Nat) : Bool :=
  let x := s.core c
  (x.bank x.active).ready && x.drain.isNone && decide (x.nextIssue ≤ s.clk)

/-- The kept entries of a bank are issued again in queue order (R404). -/
def Bank.reissue (k : Bank) : Bank :=
  if k.fault.isNone then { k with queue := k.queue.map fun e => { e with kept := false } } else k

/-- A bank resumes: a fault that its drain recorded while it stayed RUNNABLE is met again by its access, and the kept entries are issued
again; posted traps that wait are taken first (R403, R405). -/
def Bank.resume (k : Bank) : Bank :=
  let k := if k.state == .runnable then { k with fault := none } else k
  if k.posted.isEmpty then k.reissue else k

/-- Bank `b` becomes active and issues its next bundle 4 clk later (R404, R406); a switch discards the run-ahead buffers
(R29). -/
def State.activate (s : State) (c b : Nat) : State :=
  let x := s.core c
  let x := { x with active := b, nextIssue := s.clk + 4, bank0 := { x.bank0 with runAhead := [] },
                    bank1 := { x.bank1 with runAhead := [] } }
  s.setCore c (x.setBank b (x.bank b).resume)

/-- The other bank becomes active where it is RUNNABLE. -/
def State.handOver (s : State) (c b : Nat) : State :=
  if ((s.core c).bank (1 - b)).ready then s.activate c (1 - b) else s

/-- A bank has become RUNNABLE: it becomes active where the active bank does not run, and issues 4 clk later (R404, R406); with
RETURN, an answered bank drains the running one, but for a bank 0 that was answered in the same clk (R405). -/
def State.offer (s : State) (c b : Nat) (answered : Bool) : State :=
  let x := s.core c
  if x.drain.isSome then s
  else if x.active = b ∨ !(x.bank x.active).ready then
    let t := s.activate c b
    if answered then t.setCore c { t.core c with regained := s.clk + 1 } else t
  else if answered ∧ x.returnBit ∧ !(b = 1 ∧ x.regained = s.clk + 1) then s.startDrain c x.active .answered
  else s

/-- A wake of a core: a held `IDLE` of either bank ends (R423). -/
def State.wakeCore (s : State) (c : Nat) : State :=
  let x := s.core c
  s.setCore c { x with bank0 := { x.bank0 with woken := x.bank0.woken || x.bank0.idle },
                       bank1 := { x.bank1 with woken := x.bank1.woken || x.bank1.idle } }

/-- A worker's bank starts: the TLB entries of the task it held before leave, but for global ones (R385), and it becomes active
where the other bank is not active and RUNNABLE (R191). It takes the place of a worker of another stage that still runs there, which R186
does not allow and for which it states no consequence (log 65). -/
def State.startBank (s : State) (c b : Nat) (k : Bank) : State :=
  let x := s.core c
  let old := (x.bank b).task.map (·.invocation)
  let s := s.setCore c { x.setBank b k with tlb := x.tlb.filter fun t => t.2.2 || some t.1 != old }
  if x.active ≠ b ∧ ((x.bank x.active).ready ∨ x.drain.isSome) then s else s.activate c b

/-- The answer to a bank's restartable fault (R387): re-issue, or the kept access discarded and a posted trap when the bank
resumes. A bank that still drains is drained first (R404); an answer to a bank that a pre-emption has stopped is discarded (R407). -/
def State.answerBank (s : State) (c b : Nat) (success : Bool) (cause : Nat) : State :=
  let k := s.bank c b
  match k.fault with
  | none => s
  | some f =>
    if f.answered ∨ k.stopped then s else
    let k := { k with fault := if k.state == .runnable then some { f with answered := true } else none }
    let k :=
      if success then k
      else
        match k.queue.findIdx? fun e => e.kept with
        | none => k
        | some i =>
          match k.queue[i]? with
          | none => k
          | some e =>
            ((k.fillZero s.clk (fillRegs e.ins)).dropEntry i).post
              { clk := s.clk, cause, bundle := f.bundle, pos := f.pos, issued := e.clk, addr := some f.addr }
    let s :=
      if k.state == .waiting then (s.setBank c b { k with state := .runnable }).offer c b true
      else s.setBank c b (if k.state == .halted then k.reissue else k)
    if (s.core c).returnBit then s else s.wakeCore c

/-- Every fixed-latency result and every row has landed, and no tile load is in progress (R179, R403). -/
def Bank.landed (k : Bank) : Bool :=
  k.inFlight.isEmpty && k.eng0.ops.isEmpty && k.eng1.ops.isEmpty && k.eng0.load.isNone && k.eng1.load.isNone

/-- An issued delivery of a record, which completes before its bank is saved (R215). -/
def isDelivery (e : QEntry) : Bool :=
  match e.ins with
  | .deq .. | .deqt .. => e.phase == 1
  | _ => false

/-- The bank may end its drain: results landed, rows landed, every entry before the first kept one performed, and every delivery
that has issued (R215, R403). -/
def Bank.drained (k : Bank) : Bool :=
  k.landed && (k.queue.head?.all fun e => e.kept) && !(k.queue.any isDelivery)

/-- The record of a restartable fault (R404): RESTART, CAUSE and ADDR. -/
def Bank.faultRecord (k : Bank) (now : Nat) (f : RestartFault) : Bank :=
  { k with trec := trapRecord f.cause (trapFlags false true (!k.posted.isEmpty) k.priv true false) f.pos 0 0 f.bundle k.pc f.addr now }

/-- Step 6 of the drain (R403) and the switch that follows (R404, R405, R407, R422). -/
def State.endDrain (s : State) (c : Nat) (d : Drain) : State :=
  let s := s.setCore c { s.core c with drain := none }
  let k := s.bank c d.bank
  let back := k.fault.any fun f => f.answered
  let k := match k.fault with
    | some f =>
      { k.faultRecord s.clk f with fault := if back then none else some f,
                                   state := if k.state = BankState.runnable ∧ !back ∧ (d.reason == DrainReason.fault) = true then BankState.waiting else k.state }
    | none => k
  let k := { k with waiting := none, idle := false, woken := false }
  let k := if d.reason == .preempt then { k with stopped := true } else k
  let s := (s.leaveWaits c d.bank).setBank c d.bank k
  if ((s.core c).bank (1 - d.bank)).ready ∧ !(back && (s.core c).returnBit && k.ready) then s.activate c (1 - d.bank)
  else if (s.bank c d.bank).ready then s.activate c d.bank
  else s

end Sys2Proof.Machine
end

