-- ==== Sys2Proof/Machine/StashTurn.lean ====
section
/-! DEFINITION. The stash commands of a key (R336, R350, R359): one acts at a time, in the order of acceptance, and changes its entry's
state when its turn comes. -/

namespace Sys2Proof.Machine

/-! ## Waiting engines -/

/-- The engine has taken its verdict. -/
def State.clearWait (s : State) (who : Writer) : State :=
  { s with engineWaits := s.engineWaits.filter fun w => ¬ w.who = who }

/-- Whatever a writer waits for or has set aside is given back. -/
def State.forgetWriter (s : State) (who : Writer) : State :=
  let s := s.clearWait who
  { s with dies := s.dies.map fun e =>
      let x := e.2.dropAside who
      (e.1, { x with waiters := x.waiters.filter fun w => ¬ w.who = who }) }

/-! ## Turns -/

/-- The command whose turn on a key it is. -/
def Die.turn (x : Die) (key : Nat) : Option StashCmd := x.stashRunning.find? fun c => c.key = key

/-- A list of commands with the first one on a key replaced, or left out. -/
def replaceTurn (key : Nat) (new : List StashCmd) : List StashCmd → List StashCmd
  | [] => []
  | c :: r => if c.key = key then new ++ r else c :: replaceTurn key new r

/-- The command in turn on a key replaced. -/
def State.setTurn (s : State) (d : Nat) (cmd : StashCmd) : State :=
  s.setDie d { s.die d with stashRunning := replaceTurn cmd.key [cmd] (s.die d).stashRunning }

/-- The command in turn on a key leaves the engine, and the queue of its core. -/
def State.dropTurn (s : State) (d key : Nat) : State :=
  match (s.die d).turn key with
  | none => s
  | some c =>
    let s := s.forgetWriter (.stash d key)
    let s := s.setDie d { s.die d with stashRunning := replaceTurn key [] (s.die d).stashRunning }
    { s with cores := s.cores.map fun e => (e.1, { e.2 with stashQueue := e.2.stashQueue.filter (· ≠ c.id) }) }

/-- An entry of the stash table replaced. -/
def State.setStash (s : State) (d key : Nat) (e : StashEntry) : State :=
  s.setDie d { s.die d with stash := tset key e (s.die d).stash }

/-- The entry of a command as it was before it. -/
def State.restoreStash (s : State) (d : Nat) (c : StashCmd) : State :=
  s.setDie d { s.die d with stash := match c.old with
    | some e => tset c.key e (s.die d).stash
    | none => tdel c.key (s.die d).stash }

/-- State of the entry before the command; EMPTY where there was none. -/
def StashCmd.prev (c : StashCmd) : Nat := match c.old with
  | some e => e.state
  | none => 0

/-- A failure in the command's barrier phase, contributor kind 3, with the bytes still counted (R342). -/
def State.stashError (s : State) (c : StashCmd) (cause : Nat) : State :=
  match c.bar with
  | some b => s.failDown (clusterOf c.who.core) b 3 cause (if c.running then c.left else 1)
  | none => s

/-- A refusal: the provisional byte removed, a posted trap on the issuing core (R353). -/
def State.stashRefusal (s : State) (c : StashCmd) : State :=
  (match c.bar with
    | some b => s.countDown (clusterOf c.who.core) b 1
    | none => s).postFor c.who 0x1D

/-- The state a `STASH` gives its entry when it is accepted; one that `.auto` is still to choose counts as EMPTY (R336; log 20). -/
def acceptedState (mode : Nat) : Nat :=
  match mode with
  | 1 => 2
  | 2 => 4
  | 3 | 4 => 6
  | 6 => 0
  | _ => 1

/-- The turn of a `STASH` comes: its entry takes its state, or it is refused (R331, R336). A DROPPED entry stays so until the recompute
has been verified (R343). -/
def State.turnStash (s : State) (d : Nat) (c : StashCmd) : State :=
  let x := s.die d
  let full := c.old.isNone && decide (4096 ≤ x.stash.length)
  if full ∨ c.prev = 3 ∨ c.prev = 5 ∨ c.prev = 7 then (s.stashRefusal c).dropTurn d c.key
  else if c.prev = 8 then s.setTurn d c
  else
    let base := c.old.getD { stage := c.who.stage }
    (s.setStash d c.key { base with state := acceptedState c.mode, header := c.header, loc := 1, granules := [],
                                    scales := [] }).setTurn d c

/-- The turn of a fetch comes: its entry is READY at once where the destination is its home, and FETCHING otherwise; a fetch of an
EMPTY or DROPPED entry fails, and the scheduler's leaves a present one alone (R199, R336, R357). -/
def State.turnFetch (s : State) (d : Nat) (c : StashCmd) : State :=
  match c.old with
  | none => (s.stashError c 0x1D).dropTurn d c.key
  | some e =>
    if e.state = 8 ∨ e.state = 0 then (if c.op = 1 then s.stashError c 0x1D else s).dropTurn d c.key
    else if c.op = 3 ∧ (e.state = 1 ∨ e.state = 10) then s.dropTurn d c.key
    else
      (s.setStash d c.key { e with state := if (e.state = 1 ∨ e.state = 10) ∧ c.header = e.header then 10 else 9 }).setTurn d c

/-- The turn of a command comes. -/
def State.beginTurn (s : State) (d : Nat) (c : StashCmd) : State :=
  let c := { c with begun := true, since := s.clk, old := tfind c.key (s.die d).stash }
  match c.op with
  | 0 => s.turnStash d c
  | 2 => s.setTurn d c
  | _ => s.turnFetch d c

/-- Turns come until the command in turn on a key has begun. -/
def State.settleKey (s : State) (d key : Nat) : Nat → State
  | 0 => s
  | fuel + 1 =>
    match (s.die d).turn key with
    | none => s
    | some c => if c.begun then s else (s.beginTurn d c).settleKey d key fuel

/-- The command in turn on a key ends, and the next one's turn comes. -/
def State.endTurn (s : State) (d key : Nat) : State :=
  let s := s.dropTurn d key
  s.settleKey d key ((s.die d).stashRunning.length + 1)

/-- A command is accepted behind every earlier one (R336). -/
def State.enterStash (s : State) (d : Nat) (c : StashCmd) : State :=
  let y := s.die d
  let s := s.setDie d { y with stashRunning := y.stashRunning ++ [{ c with id := s.nextEntry }] }
  { s with nextEntry := s.nextEntry + 1 }.settleKey d c.key (y.stashRunning.length + 1)

/-- A fetch of an entry that the scheduler starts: FETCHING at once where no command is in turn on the key, else behind the others
(R199, R336). -/
def State.enterFetch (s : State) (d : Nat) (c : StashCmd) (e : StashEntry) : State :=
  let y := s.die d
  let first := (y.turn c.key).isNone
  let c := { c with id := s.nextEntry, begun := first, since := s.clk, old := if first then some e else none }
  { s.setDie d { y with stashRunning := y.stashRunning ++ [c],
                        stash := if first then tset c.key { e with state := 9 } y.stash else y.stash } with nextEntry := s.nextEntry + 1 }

/-- The engine has taken the command from the queue of its core (R350). -/
def State.stashTaken (s : State) (c : StashCmd) : Bool := !(s.cores.any fun e => e.2.stashQueue.contains c.id)

end Sys2Proof.Machine
end

