-- ==== Sys2Proof/Machine/Sched.lean ====
section
/-! DEFINITION. The microbatch scheduler (R186 to R212, spec/09): stages, arrivals, bound tags, readiness, rounds; the work
queues and the completion of items (R215 to R220, spec/10); weight versions (R210). -/

namespace Sys2Proof.Machine

/-- Stage `i`. -/
def State.stage (s : State) (i : Nat) : Stage := tget {} i s.stages
/-- The state with stage `i` replaced. -/
def State.setStage (s : State) (i : Nat) (x : Stage) : State := { s with stages := tset i x s.stages }
/-- Work queue `q`. -/
def State.wq (s : State) (q : Nat) : WorkQueue := tget {} q s.queues
/-- The state with work queue `q` replaced. -/
def State.setWq (s : State) (q : Nat) (x : WorkQueue) : State := { s with queues := tset q x s.queues }

/-- The configured stage that owns a queue (R186, R221). -/
def State.ownerOf (s : State) (q : Nat) : Option Nat :=
  let x := s.stage (q / 4)
  if x.configured ∧ q % 4 < x.nq then some (q / 4) else none

/-- The dies of a stage's placement. -/
def Stage.dies (x : Stage) : List Nat := (List.range 4).filter fun d => x.cores.any fun c => dieOf c = d

/-- SPLITW and ARRGATE (R200). -/
def Stage.splitW (x : Stage) : Bool := x.flags % 2 = 1
def Stage.arrGate (x : Stage) : Bool := x.flags / 2 % 2 = 1

/-! ## Stash entries of a tag (R199) -/

/-- The entries of a stage's tag at or above SLOTBASE, as die and entry. -/
def State.tagEntries (s : State) (i : Nat) (tag : Nat) : List (Nat × Nat × StashEntry) :=
  let x := s.stage i
  x.dies.flatMap fun d =>
    ((s.die d).stash.filter fun e => e.2.stage = i ∧ e.1 % 65536 = tag ∧ x.slotBase ≤ e.1 / 65536 ∧ e.2.state ≠ 0).map
      fun e => (d, e.1, e.2)

/-- The stash gate (R199). -/
def State.gate (s : State) (i tag : Nat) (t : BoundTag) : Bool :=
  (s.stage i).arrGate || t.rState = 3
    || (s.tagEntries i tag).all fun e => e.2.2.state = 1 || e.2.2.state = 10

/-- SIZE of a status word: bytes the entry holds in HBM, in 32-byte units (R338). -/
def StashEntry.size (e : StashEntry) : Nat :=
  match e.state with
  | 1 | 10 => (e.len + 31) / 32
  | 3 | 5 => 8 * e.granules.length
  | _ => 0

/-! ## Conditions of a round (R202) -/

/-- In-flight forward count f (R197). -/
def Stage.forwards (x : Stage) : Nat := x.tags.countP fun e => e.2.bState ≠ 3

/-- Occupancy in percent. -/
def State.occupancy (s : State) (i : Nat) : Nat :=
  let x := s.stage i
  if x.sbudget = 0 then 0
  else
    let held := (x.dies.map fun d =>
      (((s.die d).stash.filter fun e => e.2.stage = i).map fun e => 32 * e.2.size).sum).sum
    min 100 (100 * held / (x.sbudget * 65536))

/-- LAST of the valid neighbour entries (R450). -/
def Regs.lasts (r : Regs) : List (BitVec 32) :=
  (r.nbr.filter fun e => e.2.getLsbD 32).map fun e => e.2.extractLsb' 0 32

/-- The least neighbour phase, by its signed difference from the own phase; none without a neighbour (R451). -/
def Regs.least (r : Regs) (own : BitVec 32) : Option (BitVec 32) :=
  r.lasts.foldl (fun m l => match m with
    | none => some l
    | some q => if (l - own).toInt < (q - own).toInt then some l else some q) none

/-- Slack, of the phase that the scheduler sees in this clk (R202, R227). -/
def Regs.slack (r : Regs) : Nat :=
  match r.least r.seen with
  | none => min 15 r.lead
  | some l => (min 15 (max 0 ((r.lead : Int) - (r.seen - l).toInt))).toNat

/-! ## Readiness (R198) -/

/-- Version index `v` of a stage's slot is present. -/
def State.versionPresent (s : State) (x : Stage) (v : Nat) : Bool := (tget {} x.slot s.slots).present.getLsbD v

/-- The items that are ready now, as the number of an arrival record, kind and tag, in the order that breaks ties of age (R198, R204): F by
its arrival, the others by the tag's B arrival. -/
def State.readyNow (s : State) (i : Nat) : List (Nat × Nat × Nat) :=
  let x := s.stage i
  let cur := (tget {} x.slot s.slots).current
  let fs := (x.fArr.filter fun a =>
    (tfind a.tag x.tags).isNone ∧ x.tags.length < 256 ∧ s.versionPresent x cur).map fun a => (a.entered, 0, a.tag)
  let live := x.tags.filter fun e => !e.2.abandoned ∧ s.versionPresent x e.2.version
  let when (tag : Nat) (t : BoundTag) : Nat :=
    ((t.b.map (·.entered)) <|> ((x.bArr.find? fun a => a.tag = tag).map (·.entered))).getD 0
  let rs := (live.filter fun e => e.2.rState = 1).map fun e => (when e.1 e.2, 1, e.1)
  let bs := (live.filter fun e =>
    e.2.fState = 3 ∧ e.2.bState < 2 ∧ (x.bArr.any fun a => a.tag = e.1) ∧ s.gate i e.1 e.2).map fun e => (when e.1 e.2, 2, e.1)
  let ws := (live.filter fun e => x.splitW ∧ e.2.bState = 3 ∧ e.2.wState < 2).map fun e => (when e.1 e.2, 3, e.1)
  let insert (a : Nat × Nat × Nat) (l : List (Nat × Nat × Nat)) : List (Nat × Nat × Nat) :=
    l.takeWhile (fun b => b.1 ≤ a.1) ++ a :: l.dropWhile (fun b => b.1 ≤ a.1)
  (fs ++ rs ++ bs ++ ws).foldl (fun l a => insert a l) []

/-- The scheduler creates an R item for a tag whose B arrival is present and that has a DROPPED entry (R199). -/
def State.createR (s : State) (i : Nat) : State :=
  let x := s.stage i
  if x.arrGate then s
  else
    s.setStage i { x with tags := x.tags.map fun (tag, t) =>
      if t.rState = 0 ∧ t.bState < 2 ∧ (x.bArr.any fun a => a.tag = tag)
          ∧ (s.tagEntries i tag).any (fun e => e.2.2.state = 8) then (tag, { t with rState := 1 }) else (tag, t) }

/-- What the scheduler's own fetches capture: no bank. The spec does not say under which extent table and privilege they act: they act
privileged, under the extents of the stage's latest invocation (R199; log 65). -/
def schedulerCapture (x : Stage) (i now invocation : Nat) : Captured :=
  { core := x.cores.headD 0, bank := x.bank, bundle := 0, pos := 0, issued := now, priv := true, invocation, stage := i,
    partition := x.partition, seeds := [], shadows := [], after := [] }

/-- The invocation that last started workers of a stage. -/
def State.invocationOf (s : State) (i : Nat) : Nat :=
  ((s.invocations.filter fun e => e.2.stages.contains i).getLast?.map (·.1)).getD 0

/-- The scheduler asks for the fetch of every entry of a tag whose B arrival is present that is neither RESIDENT, READY nor DROPPED,
once: one being offloaded or fetched is fetched when its command has ended (R199). -/
def State.requestFetches (s : State) (i : Nat) : State :=
  let x := s.stage i
  if x.arrGate then s
  else
    (x.bArr.map (·.tag)).eraseDups.foldl (fun s tag =>
      (s.tagEntries i tag).foldl (fun s (d, key, e) =>
        let y := s.die d
        if ¬(e.state = 1 ∨ e.state = 8 ∨ e.state = 10)
            ∧ !(y.stashRunning.any fun c => c.key = key ∧ (c.op = 1 ∨ c.op = 3)) then
          s.enterFetch d { op := 3, header := e.header, key, who := schedulerCapture x i s.clk (s.invocationOf i) } e
        else s) s) s

/-- The waiting worker that is served next: the one that has waited longest to which nothing is bound (R204, R215). -/
def WorkQueue.nextWaiter (q : WorkQueue) : Option (Nat × Nat) :=
  q.waiters.find? fun w => ¬ q.bound.any fun e => e.1 = w.1 ∧ e.2.1 = w.2

/-- A queue has demand: a waiting worker and no record, or a `DEQT` that found it empty (R203). -/
def WorkQueue.demand (q : WorkQueue) : Bool := !q.closed && q.records.isEmpty && (q.nextWaiter.isSome || q.once)

/-- Places of a queue that count: its records and the reserved ones (R218). -/
def WorkQueue.taken (q : WorkQueue) : Nat := q.records.length + q.reserved

/-- The queues of a stage. -/
def Stage.queueNumbers (x : Stage) (i : Nat) : List Nat := (List.range x.nq).map (4 * i + ·)

/-- Kinds a queue accepts (R188). -/
def Stage.accepts (x : Stage) (q kind : Nat) : Bool := ((x.qkinds[q % 4]?).getD 0) / 2 ^ kind % 2 = 1

/-- Clk from one round to the next: 8 and the entries in use (R203). -/
def Stage.period (x : Stage) : Nat := 8 + x.entries.countP (·.valid)

/-- Brings a stage's ready set, R items, fetches and round to the present clk: the first round of a demand starts in its clk, unless a
round has already started in it (R198, R199, R203). -/
def State.refreshStage (s : State) (i : Nat) : State :=
  let s := (s.createR i).requestFetches i
  let x := s.stage i
  let ready := (s.readyNow i).map fun (entered, kind, tag) =>
    match x.ready.find? fun r => r.kind = kind ∧ r.tag = tag ∧ r.entered = entered with
    | some r => r
    | none => ⟨kind, tag, entered, s.clk⟩
  let demand := (x.queueNumbers i).any fun q => (s.wq q).demand
  let first := if x.rounded = s.clk + 1 then s.clk + x.period else s.clk
  let round := if demand then some (x.round.getD first) else none
  s.setStage i { x with ready, round }

/-- Every configured stage brought to the present clk. -/
def State.refresh (s : State) : State :=
  (s.stages.filter fun e => e.2.configured).foldl (fun s e => s.refreshStage e.1) s

/-! ## Versions (R210) -/

/-- A version is held while it is CUR or a bound tag holds it. -/
def State.versionHeld (s : State) (slot v : Nat) : Bool :=
  (tget {} slot s.slots).current = v
    || s.stages.any fun e => e.2.slot = slot && e.2.tags.any fun t => t.2.version = v

/-- Versions that are not held retire. -/
def State.retire (s : State) (slot : Nat) : State :=
  let m := tget {} slot s.slots
  let present := (List.range 4).foldl (fun (p : BitVec 4) v =>
    if s.versionHeld slot v then p else p &&& ~~~(1#4 <<< v)) m.present
  { s with slots := tset slot { m with present } s.slots }

/-! ## Items -/

/-- The work-item record (R193). -/
def workRecord (x : Stage) (i kind tag version : Nat) (step addr : SReg) : List SReg :=
  [BitVec.ofNat 64 (kind + 2 ^ 8 * i + 2 ^ 16 * tag + 2 ^ 32 * version), step, addr,
   BitVec.ofNat 64 (tag + 2 ^ 16 * x.slotBase)]

/-- END (R193). -/
def endRecord : List SReg := [7, 0, 0, 0]

/-- The empty result of `DEQT` (R216). -/
def emptyRecord : List SReg := [0, 0, 0, BitVec.ofNat 64 (2 ^ 63)]

/-- Frees the snapshot records of a released tag (R344). -/
def State.freeSnaps (s : State) (i tag : Nat) : State :=
  { s with dies := s.dies.map fun (d, x) => (d, { x with snaps := x.snaps.filter fun r => ¬(r.stage = i ∧ r.tag = tag) }) }

/-- Completes the item a worker holds (R195): its tag's progress, and the release of the tag with its last item (R197). -/
def State.completeItem (s : State) (c b : Nat) : State :=
  let k := s.bank c b
  match k.item with
  | none => s
  | some it =>
    let s := s.setBank c b { k with item := none }
    let x := s.stage it.stage
    match tfind it.tag x.tags with
    | none => s
    | some t =>
      let t := match it.kind with
        | 0 => { t with fState := 3 }
        | 1 => { t with rState := 3 }
        | 2 => { t with bState := 3 }
        | _ => { t with wState := 3 }
      if !t.abandoned ∧ ((it.kind = 2 ∧ !x.splitW) ∨ it.kind = 3) then
        let s := s.setStage it.stage { x with tags := tdel it.tag x.tags }
        (s.freeSnaps it.stage it.tag).retire x.slot
      else s.setStage it.stage { x with tags := tset it.tag t x.tags }

/-- The record of a ready item and the stage after its dispatch (R204, R205): an F binds its tag to CUR. -/
def State.dispatchItem (s : State) (i : Nat) (r : ReadyItem) : QRecord × Stage :=
  let x := s.stage i
  let x' := { x with ready := x.ready.filter fun q => ¬(q.kind = r.kind ∧ q.tag = r.tag) }
  match r.kind with
  | 0 =>
    match x.fArr.find? fun a => a.tag = r.tag ∧ a.entered = r.entered with
    | none => ({ words := endRecord, producers := [] }, x)
    | some a =>
      let v := (tget {} x.slot s.slots).current
      ({ words := workRecord x i 0 r.tag v a.step a.addr, producers := a.producer.toList, fromItem := true, wide := a.producer.isNone },
        { x' with fArr := x.fArr.erase a, tags := tset r.tag { version := v, f := a } x.tags })
  | k =>
    match tfind r.tag x.tags with
    | none => ({ words := endRecord, producers := [] }, x)
    | some t =>
      if k = 1 then
        ({ words := workRecord x i 1 r.tag t.version t.f.step t.f.addr, producers := t.ran.take 1, fromItem := true, after := t.ran.take 1 },
          { x' with tags := tset r.tag { t with rState := 2 } x.tags })
      else if k = 2 then
        match x.bArr.find? fun a => a.tag = r.tag with
        | none => ({ words := endRecord, producers := [] }, x)
        | some a =>
          ({ words := workRecord x i 2 r.tag t.version a.step a.addr, producers := t.ran ++ a.producer.toList, fromItem := true,
             wide := a.producer.isNone || !x.arrGate, after := t.ran },
            { x' with bArr := x.bArr.erase a, tags := tset r.tag { t with bState := 2, b := some a } x.tags })
      else
        let a := t.b.getD t.f
        ({ words := workRecord x i 3 r.tag t.version a.step a.addr, producers := t.ran.drop (t.ran.length - 1), fromItem := true,
           after := t.ran.drop (t.ran.length - 1) },
          { x' with tags := tset r.tag { t with wState := 2 } x.tags })

/-- The core that took an item is recorded for the tokens of the tag's later items (R211). -/
def State.noteRun (s : State) (i tag core : Nat) : State :=
  let x := s.stage i
  match tfind tag x.tags with
  | some t => s.setStage i { x with tags := tset tag { t with ran := t.ran ++ [core] } x.tags }
  | none => s

/-! ## A round (R203, R204) -/

/-- Whether a policy entry matches the conditions (R201, R204). -/
def PolicyEntry.matches (e : PolicyEntry) (warmup f occ slack : Nat) : Bool :=
  let bound (x : Nat) : Nat :=
    if x / 32768 % 2 = 1 then
      (min 256 (max 0 ((warmup : Int) + (BitVec.ofNat 9 x).toInt))).toNat
    else x % 512
  e.valid && decide (bound e.lo ≤ f) && decide (f ≤ bound e.hi)
    && (if e.below then decide (occ < e.stash) else decide (e.stash ≤ occ))
    && decide (e.slmin ≤ slack) && decide (slack ≤ e.slmax)

/-- The age of a ready item, saturating (R198). -/
def ReadyItem.age (r : ReadyItem) (now : Nat) : Nat := min (now - r.since) (2 ^ 32 - 1)

/-- Of items in tie order, the oldest. -/
def oldestItem (now : Nat) (l : List ReadyItem) : Option ReadyItem :=
  l.foldl (fun m r => match m with
    | none => some r
    | some q => if q.age now < r.age now then some r else some q) none

/-- Of items in tie order, the youngest. -/
def youngestItem (now : Nat) (l : List ReadyItem) : Option ReadyItem :=
  l.foldl (fun m r => match m with
    | none => some r
    | some q => if r.age now ≤ q.age now then some r else some q) none

/-- The table's choice among eligible items (R204). -/
def policyChoice (now warmup f occ slack : Nat) (items : List ReadyItem) : List PolicyEntry → Option ReadyItem
  | [] => none
  | e :: r =>
    let c := items.filter fun i => e.kinds / 2 ^ i.kind % 2 = 1 ∧ e.age ≤ i.age now
    if e.matches warmup f occ slack ∧ !c.isEmpty then
      match e.act with
      | 0 => oldestItem now c
      | 1 => youngestItem now c
      | _ => none
    else policyChoice now warmup f occ slack items r

/-- The item a round dispatches, the age guard first (R204). -/
def State.roundChoice (s : State) (i : Nat) : Option ReadyItem :=
  let x := s.stage i
  let open' := (x.queueNumbers i).filter fun q => (s.wq q).demand
  let items := x.ready.filter fun r => open'.any fun q => x.accepts q r.kind
  let limit := max 64 x.ageLim
  let old := items.filter fun r => limit ≤ r.age s.clk
  if !old.isEmpty then oldestItem s.clk old
  else policyChoice s.clk (max 1 x.warmup) x.forwards (s.occupancy i) s.regs.slack items x.entries

/-- Places a dispatched record: to the worker that has waited longest, or into the queue at the landing clk (R204, R216). -/
def WorkQueue.place (q : WorkQueue) (r : QRecord) (lands : Nat) : WorkQueue :=
  match q.nextWaiter with
  | some w => { q with bound := q.bound ++ [(w.1, w.2, r, lands)] }
  | none => { q with placed := q.placed ++ [(lands, r)] }

/-- A held `DEQ` is examined again in the clk in which something happens to its queue, and so issues in the clk in which its
condition first holds (R215, R219). -/
def State.rouse (s : State) (q : Nat) : State :=
  (s.wq q).waiters.foldl (fun (s : State) w =>
    let x := s.core w.1
    if x.active = w.2 ∧ (x.bank w.2).waiting.isSome then s.setCore w.1 { x with nextIssue := min x.nextIssue s.clk } else s) s

/-- One round of a stage (R204): the item goes to the lowest-numbered queue with demand; where that queue has no waiting worker and counts
as full the placement is not made (R218). -/
def State.round (s : State) (i : Nat) : State :=
  let x := s.stage i
  let next := s.clk + x.period
  let clear (s : State) : State :=
    (x.queueNumbers i).foldl (fun s q => s.setWq q { s.wq q with once := false }) s
  let x := { x with round := some next, rounded := s.clk + 1 }
  match s.roundChoice i with
  | none => clear (s.setStage i x)
  | some r =>
    match (x.queueNumbers i).find? fun q => (s.wq q).demand && x.accepts q r.kind with
    | none => clear (s.setStage i x)
    | some q =>
      if (s.wq q).nextWaiter.isNone ∧ 64 ≤ (s.wq q).taken then clear (s.setStage i x)
      else
      let (rec, x') := s.dispatchItem i r
      let s := s.setStage i { x' with round := some next, rounded := s.clk + 1 }
      let s := s.setWq q ((s.wq q).place rec next)
      (clear s).rouse q

/-! ## Arrivals and entering records -/

/-- A record enters a work queue: it is bound to the worker that waits in `DEQ`, or stands behind the records there (R194, R219). -/
def State.enterQueue (s : State) (q : Nat) (r : QRecord) : State :=
  let x := s.wq q
  let x := match x.nextWaiter with
    | some w => { x with bound := x.bound ++ [(w.1, w.2, r, 0)] }
    | none => { x with records := x.records ++ [r] }
  (s.setWq q x).rouse q

/-- An item placed into a queue that has been closed since, or that counts as full, is ready again (R205, R218, R220; log 33). -/
def Stage.undispatch (x : Stage) (kind tag : Nat) : Stage :=
  match tfind tag x.tags with
  | none => x
  | some t =>
    match kind with
    | 0 => { x with fArr := t.f :: x.fArr, tags := tdel tag x.tags }
    | 1 => { x with tags := tset tag { t with rState := 1 } x.tags }
    | 2 => { x with bArr := t.b.toList ++ x.bArr, tags := tset tag { t with bState := 0, b := none } x.tags }
    | _ => { x with tags := tset tag { t with wState := 0 } x.tags }

/-- The item of a record goes back to its stage; a version that no tag holds any more retires (R205, R210, R218). -/
def State.takeBack (s : State) (q : Nat) (r : QRecord) : State :=
  let i := q / 4
  let field (lo n : Nat) : Nat := ((r.words.headD 0).extractLsb' lo n).toNat
  ((s.setStage i ((s.stage i).undispatch (field 0 3) (field 16 16))).retire (s.stage i).slot).refreshStage i

/-- Placed items whose clk has come enter their queues, after a record pushed in the same clk (R194, R216); a closed queue takes none, and
neither does one that counts as full, unless a worker waits (R218). -/
def State.enterPlaced (s : State) (q : Nat) : State :=
  let x := s.wq q
  let due := x.placed.filter fun p => p.1 ≤ s.clk
  due.foldl (fun s p =>
      let y := s.wq q
      if y.closed ∨ (y.nextWaiter.isNone ∧ 64 ≤ y.taken) then s.takeBack q p.2 else s.enterQueue q p.2)
    (if due.isEmpty then s else s.setWq q { x with placed := x.placed.filter fun p => ¬ p.1 ≤ s.clk })

/-- A worker that halted without a `HALT` completes its item in that clk (R195, R401). -/
def State.settleHalt (s : State) (c b : Nat) : State :=
  let k := s.bank c b
  if k.state = .halted ∧ k.item.isSome then (s.completeItem c b).refresh else s

/-- An arrival record enters the F or B arrival queue of a stage (R196). -/
def State.arrive (s : State) (i : Nat) (isB : Bool) (tag : Nat) (step addr : SReg) (producer : Option Nat) : State :=
  let x := s.stage i
  let a : Arrival := { tag, step, addr, producer, entered := x.arrivals }
  let x := { x with arrivals := x.arrivals + 1 }
  (s.setStage i (if isB then { x with bArr := x.bArr ++ [a] } else { x with fArr := x.fArr ++ [a] })).refreshStage i

/-- An arrival queue counts as full (R196, R218). -/
def Stage.arrivalFull (x : Stage) (isB : Bool) : Bool :=
  if isB then 256 ≤ x.bArr.length + x.bReserved else 256 ≤ x.fArr.length + x.fReserved

/-- The step of the snapshot record of a stage and tag; 0 where there is none. -/
def State.snapStep (s : State) (stage tag : Nat) : SReg :=
  match (s.dies.flatMap fun e => e.2.snaps).find? fun r => r.stage = stage ∧ r.tag = tag with
  | some r => r.step
  | none => 0

/-- A tag becomes abandoned: nothing more of it is dispatched (R343, R347). -/
def State.abandon (s : State) (i tag : Nat) : State :=
  let x := s.stage i
  match tfind tag x.tags with
  | some t => s.setStage i { x with tags := tset tag { t with abandoned := true } x.tags }
  | none => s

/-- A recompute has diverged: the tag is abandoned and reported to the control core with the step of its snapshot record (R343, R347). -/
def State.diverge (s : State) (stage tag : Nat) : State :=
  { s.abandon stage tag with reports := s.reports ++ [(stage, tag, s.snapStep stage tag)] }

end Sys2Proof.Machine
end

