-- ==== Sys2Proof/Machine/Holds.lean ====
section
/-! DEFINITION. What holds a bundle at issue (R8, spec/01): empty registers, FIFOs and queues without room, an occupied
command port, explicit waits; and what a bundle does when it first reaches issue (R195, R215, R225, R423). -/

namespace Sys2Proof.Machine

/-- An empty register that the slot reads or writes (R18). -/
def registerHold (i : Instr) (k : Bank) : Bool :=
  !allFull k (srcA i) || !allFull k (srcB i) || (dests i).any k.isEmpty

/-- An `MMA` or `MLDB` whose FIFO lacks the entries it pops, or whose engine still skips (R168, R171). -/
def fifoHold (i : Instr) (k : Bank) : Bool :=
  match i with
  | .mma0 nm1 .. => k.eng0.skip ≠ 0 || k.eng0.aFifo.length < nm1.toNat + 1
  | .mma1 nm1 .. => k.eng1.skip ≠ 0 || k.eng1.aFifo.length < nm1.toNat + 1
  | .mldb0 _ => k.eng0.bFifo.length < 128
  | .mldb1 _ => k.eng1.bFifo.length < 128
  | _ => false

/-! ## Queues -/

/-- The sequencer at issue. -/
def State.me (s : State) : Nat × Nat := (s.ctx.core, s.ctx.bank)

/-- A `DEQ` that must still wait (R215): nothing is bound to the worker, the queue is open, and it has no record or another
waiting worker comes first. -/
def deqHold (wq : Nat) (s : State) : Bool :=
  let q := s.wq wq
  match s.ownerOf wq with
  | none => false
  | some _ =>
    if q.bound.any fun e => (e.1, e.2.1) = s.me then false
    else if !q.records.isEmpty then q.nextWaiter.any fun w => w ≠ s.me
    else !q.closed

/-- An `ENQ` whose target counts as full (R218). -/
def enqHold (grp : BitVec 4) (wq : Nat) (s : State) : Bool :=
  let w0 := s.cur.s (4 * grp.toNat)
  match s.ownerOf wq with
  | none => false
  | some i =>
    if w0.getLsbD 7 then (s.stage i).arrivalFull (w0.extractLsb' 0 3 = 2)
    else !(s.wq wq).closed && decide (64 ≤ (s.wq wq).taken)

/-- A `BWAIT` whose awaited phase has not completed in an earlier clk (R225). -/
def bwaitHold (bar : Nat) (s : State) : Bool :=
  match s.cur.waiting.bind (·.phase) with
  | none => true
  | some p =>
    let x := s.barrier (clusterOf s.ctx.core) bar
    x.phase = p || s.clk ≤ x.doneClk && x.phase = p + 1

/-- The advance would put the device more than L ahead of its least neighbour, as a signed 32-bit difference (R227). -/
def phadvHold (r : Regs) : Bool :=
  match r.least r.phase with
  | none => false
  | some l => (r.lead : Int) < (r.phase + 1 - l).toInt

/-! ## Engines -/

/-- Copy channel `n` of a core. -/
def Core.channel (x : Core) (n : Nat) : Channel := tget {} n x.channels
/-- BUSY of a channel (R305). -/
def Channel.busy (h : Channel) : Bool := h.queue.head?.any (·.started)
/-- Tensor channel `n`. -/
def State.tensor (s : State) (n : Nat) : TensorChannel := tget {} n s.tensors

/-- A `WPWAIT` still waits for its write pointer (R368). -/
def wpwaitHold (h : Channel) (a : SReg) : Bool := decide (h.offset < (a.extractLsb' 0 24).toNat) && !h.queue.isEmpty

/-- A command that occupies the port of its sequencer (R351). -/
def Command.onPort (c : Command) : Bool :=
  match c.ins with
  | .shopen .. | .publish .. | .ckpt .. | .split .. => true
  | _ => false

/-- A command of the bank at issue occupies its port, whichever task has issued it (R351). -/
def State.portBusy (s : State) : Bool :=
  s.commands.any fun c => c.onPort && c.who.core == s.ctx.core && c.who.bank == s.ctx.bank

/-- A `CKPT` of the bank at issue, whose record a later `STASH` is to find, holds the port (R366; log 68). -/
def State.ckptBusy (s : State) : Bool :=
  s.commands.any fun c => c.who.core == s.ctx.core && c.who.bank == s.ctx.bank && match c.ins with
    | .ckpt .. => true
    | _ => false

/-- A queue of an engine has no room (R350, R351). -/
def engineHold (i : Instr) (s : State) : Bool :=
  match i with
  | .cpy _ _ chan | .gath _ _ chan => 8 ≤ (s.curCore.channel chan.toNat).queue.length
  | .stash .. => s.ckptBusy || 8 ≤ s.curCore.stashQueue.length
  | .sfetch .. | .sfree .. => 8 ≤ s.curCore.stashQueue.length
  | .chsend _ _ chan => 16 ≤ (s.tensor chan.toNat).sq.length
  | .coll .. => 64 ≤ s.buckets.length
  | .shopen .. | .publish .. | .ckpt .. | .split .. => s.portBusy
  | .wpwait opa chan => wpwaitHold (s.curCore.channel chan.toNat) (s.cur.s opa.toNat)
  | _ => false

/-- The explicit waits of the Q and Y classes. -/
def waitHold (i : Instr) (s : State) : Bool :=
  match i with
  | .deq _ wq => deqHold wq.toNat s
  | .enq grp wq => enqHold grp wq.toNat s
  | .bwait _ _ bar => bwaitHold bar.toNat s
  | .phadv => phadvHold s.regs
  | .idle => !s.cur.woken
  | _ => false

/-- The power arbiter holds issue (R8, R477). -/
def powerHold (s : State) : Bool := decide (s.clk < s.curCore.powerUntil)

/-- The slot cannot issue in this clk (R8). -/
def slotHold (i : Instr) (s : State) : Bool :=
  powerHold s || registerHold i s.cur || fifoHold i s.cur || engineHold i s || waitHold i s

/-! ## First reaching issue -/

/-- Pushes a queue entry of the slot at issue under the next number. -/
def State.pushEntry (s : State) (e : QEntry) : State :=
  let s := s.setCur { s.cur with queue := s.cur.queue ++ [{ e with id := s.nextEntry }] }
  { s with nextEntry := s.nextEntry + 1 }

/-- The completion release of an item: a marker behind every older access (R211, R217). Its scope encloses the worker and the
stage's placement. -/
def State.pushRelease (s : State) (i : Instr) : State :=
  match s.cur.item with
  | none => s
  | some it =>
    s.pushEntry { ins := i, bundle := s.ctx.addr, pos := s.ctx.pos, clk := s.clk,
                  addr := scopeOver s.ctx.core (s.stage it.stage).cores }

/-- The sequencer at issue joins the waiters of a queue, in the order in which their bundles first reached issue (R215). -/
def State.joinWaiters (s : State) (wq since : Nat) : State :=
  let q := s.wq wq
  let first (w : Nat × Nat) : Bool := decide ((((s.bank w.1 w.2).waiting.map (·.since)).getD 0) ≤ since)
  s.setWq wq { q with waiters := q.waiters.takeWhile first ++ s.me :: q.waiters.dropWhile first }

/-- A `DEQ` or `DEQT` first reaches issue: the item delivered last completes (R195), and a `DEQ` joins the waiters. After a pre-emption or a
fault it has the place of the clk in which it first did (R215). -/
def State.reachDeq (s : State) (i : Instr) (wq : Nat) (waits : Bool) : State :=
  if s.cur.waiting.any fun w => w.bundle = s.ctx.addr then s
  else
    let since := match s.cur.reached with
      | some (a, t) => if a = s.ctx.addr then t else s.clk
      | none => s.clk
    let s := (s.pushRelease i).completeItem s.ctx.core s.ctx.bank
    let s := s.setCur { s.cur with waiting := some { bundle := s.ctx.addr, since }, reached := some (s.ctx.addr, since),
                                   replaying := none }
    match s.ownerOf wq with
    | none => s.refresh
    | some _ => (if waits then s.joinWaiters wq since else s).refresh

/-- Whether a `BARR` of the sequencer to a barrier has issued and has not been applied before this clk (R225). -/
def Bank.barrPending (k : Bank) (now b : Nat) : Bool :=
  (k.queue.any fun e => match e.ins with
    | .barr bar => bar.toNat = b
    | _ => false)
  || (tfind b k.barrClk).any fun c => c = now

/-- A `BWAIT` reaches issue: it chooses its awaited phase once no `BARR` of its own is under way (R225). One without a valid arrival phase
that a drain has sent back chooses anew when it returns to issue (log 66). -/
def State.reachBwait (s : State) (bar : Nat) : State :=
  let k := s.cur
  if k.waiting.any fun w => w.bundle = s.ctx.addr ∧ w.phase.isSome then s
  else if k.barrPending s.clk bar then s
  else
    let p := (tfind bar k.arrival).getD (s.barrier (clusterOf s.ctx.core) bar).phase
    s.setCur { k with waiting := some { bundle := s.ctx.addr, since := s.clk, phase := some p } }

/-- An `IDLE` reaches issue: a pending wake lets it issue at once (R423). -/
def State.reachIdle (s : State) : State :=
  let x := s.curCore
  if x.wakePending then
    (s.setCurCore { x with wakePending := false }).setCur { x.bank s.ctx.bank with idle := true, woken := true }
  else s.setCur { s.cur with idle := true }

/-- What a slot does when its bundle reaches issue, whether or not it is held. -/
def State.reach (s : State) (i : Instr) : State :=
  match i with
  | .deq _ wq => s.reachDeq i wq.toNat true
  | .deqt _ wq => s.reachDeq i wq.toNat false
  | .bwait _ _ bar => s.reachBwait bar.toNat
  | .idle => s.reachIdle
  | _ => s

end Sys2Proof.Machine
end

