-- ==== Sys2Proof/Machine/Access.lean ====
section
/-! DEFINITION. The load and store queues: their orders and markers (R265 to R267, spec/13), and an access of the queue at its
point (R268, R275, R285, R286; R291, R293 to R296, spec/14; R101, R283). -/

namespace Sys2Proof.Machine

/-! ## Orders (R266, R267) -/

/-- Loads and stores. -/
structure Kinds where
  loads : Bool
  stores : Bool
deriving DecidableEq, Repr

/-- Two sets of kinds meet. -/
def Kinds.meets (a b : Kinds) : Bool := (a.loads && b.loads) || (a.stores && b.stores)

/-- The queues an entry stands in (R265, R350, R417, R430). -/
def entryKinds (e : QEntry) : Kinds :=
  match e.ins with
  | .ldc .. | .ldcv .. | .ldg .. | .ldgv .. | .ldgx .. | .sprobe .. | .nrmrd .. | .csrr .. => ⟨true, false⟩
  | .stc .. | .stcv .. | .stg .. | .stgv .. | .stgn .. | .stgx .. | .nrmclr .. | .nrmset .. | .csrw .. | .csrs .. | .csrc ..
  | .balloonAddb .. | .balloonAddt .. | .balloonDeflate .. | .balloonClrb .. | .balloonClrt .. => ⟨false, true⟩
  | .amo .. => ⟨true, true⟩
  | _ => ⟨false, false⟩

/-- A marker that takes effect in queue order (R267). A `DEQ` is one until its completion release is done: phase 0, or 2 while its bundle,
with accesses of its own, has not issued. -/
def isMarker (e : QEntry) : Bool :=
  match e.ins with
  | .amo .. | .fence .. | .qalign | .barr .. | .enq .. | .extinv .. => true
  | .deq .. | .deqt .. => e.phase ≠ 1
  | _ => false

/-- The older accesses that are performed first (R267, R428). -/
def waitsFor (e : QEntry) : Kinds :=
  match e.ins with
  | .amo .. | .qalign | .enq .. | .extinv .. => ⟨true, true⟩
  | .fence order _ => if order = 1 then ⟨true, false⟩ else ⟨true, true⟩
  | .deq .. | .deqt .. => if e.phase = 1 then ⟨false, false⟩ else ⟨true, true⟩
  | .barr .. => ⟨false, true⟩
  | _ => ⟨false, false⟩

/-- The younger accesses that an entry holds (R267, R217, R428). -/
def holdsBack (e : QEntry) : Kinds :=
  match e.ins with
  | .amo .. | .qalign => ⟨true, true⟩
  | .fence order _ => if order = 2 then ⟨false, true⟩ else ⟨true, true⟩
  | .deq .. | .deqt .. => ⟨e.phase = 1, false⟩
  | .extinv .. => ⟨false, true⟩
  | _ => ⟨false, false⟩

/-- A cluster-memory access of the queues. -/
def isClusterAccess (e : QEntry) : Bool :=
  match e.ins with
  | .ldc .. | .ldcv .. | .stc .. | .stcv .. => true
  | _ => false

/-- An entry that is kept behind a kept one: an access or a marker (R281). -/
def isQueued (e : QEntry) : Bool := (entryKinds e).loads || (entryKinds e).stores || isMarker e

/-- An older entry holds back a younger one (R266, R267, R281). -/
def blocks (o e : QEntry) : Bool :=
  (o.kept && isQueued e) || (entryKinds o).meets (entryKinds e) || (waitsFor e).meets (entryKinds o) || (holdsBack o).meets (entryKinds e)
    || (isMarker o && isMarker e)

/-- Entry `i` of a queue may be performed: it is not kept, and nothing older holds it back. -/
def mayPerform (q : List QEntry) (i : Nat) : Bool :=
  match q[i]? with
  | none => false
  | some e => !e.kept && !(q.take i).any fun o => blocks o e

/-! ## Translation of a bank -/

/-- The extent table of a bank's task. -/
def State.extentsOf (s : State) (k : Bank) : List Extent := tget [] ((k.task.map (·.invocation)).getD 0) s.extents

/-- The task whose tag the first-level TLB gives the entries a bank loads (R385). -/
def Bank.tlbTask (k : Bank) : Nat := (k.task.map (·.invocation)).getD 0

/-- An extent of a bank's task is in the first-level TLB: under the task's tag, or as a global one that survived a change of
task (R385). -/
def Core.tlbHolds (x : Core) (k : Bank) (e : Extent) : Bool :=
  x.tlb.any fun t => t.2.1 = e.vbase && (t.1 = k.tlbTask || (t.2.2 && e.g))

/-- The extents of an access become the most recent of the 1,024 entries of the core's TLB (R385). -/
def State.refill (s : State) (c : Nat) (k : Bank) (l : List Part) : State :=
  let x := s.core c
  let keys := l.filterMap fun p => p.ext.map fun e => (k.tlbTask, e.vbase, e.g)
  s.setCore c { x with tlb := (keys.foldl (fun t key => key :: t.filter (· ≠ key)) x.tlb).take 1024 }

/-! ## Pieces (R275) -/

/-- Bytes of an access of the queues; a sparse block is its first 32 bytes until its header has been read. -/
def QEntry.bytes (e : QEntry) : Nat :=
  match e.ins with
  | .ldgx .. => if e.phase = 0 then 32 else e.phase
  | .stgx .. => e.phase
  | i => accessBytes i

/-- The pieces of an access, as offset and length (R275). -/
def QEntry.pieces (e : QEntry) : List (Nat × Nat) :=
  let n := e.bytes
  if 16 < n then (List.range (n / 16)).map fun j => (16 * j, 16)
  else if 4 ≤ n ∧ e.addr % n ≠ 0 ∧ 32 < e.addr % 32 + n then [(0, 32 - e.addr % 32), (32 - e.addr % 32, n - (32 - e.addr % 32))]
  else [(0, n)]

/-- Whether an access is to cluster memory. -/
def QEntry.inCluster (e : QEntry) : Bool := isClusterAccess e

/-- The least clk from issue to a result (R287, R358, R369). -/
def leastLatency : Instr → Nat
  | .sprobe .. => 8
  | .nrmrd .. => 16
  | .ldc .. | .ldcv .. | .ldg .. | .ldgv .. | .ldgx .. | .csrr .. => 2
  | .binit .. | .bexp .. | .barr .. => 2
  | .enq .. => 4
  | _ => 0

/-! ## Norm registers (R101) -/

/-- Norm register `n`. -/
def State.norm (s : State) (n : Nat) : Norm := tget {} n s.norms

/-- The exact addition of one value's square, saturating; NaN and infinities saturate (R101). -/
def Norm.add (r : Norm) (x : FVal) : Norm :=
  let top := BitVec.allOnes 128
  match x with
  | .fin _ m e =>
    let sh := 2 * e - r.e.toInt
    let q := if 0 ≤ sh then m * m * 2 ^ sh.toNat else m * m / 2 ^ (-sh).toNat
    if top.toNat ≤ r.a.toNat + q then { r with a := top } else { r with a := r.a + BitVec.ofNat 128 q }
  | _ => { r with a := top }

/-- The exact withdrawal of an addition; a saturated register stays saturated (R329). -/
def Norm.withdraw (r : Norm) (x : FVal) : Norm :=
  if r.a = BitVec.allOnes 128 then r
  else
    match x with
    | .fin _ m e =>
      let sh := 2 * e - r.e.toInt
      let q := if 0 ≤ sh then m * m * 2 ^ sh.toNat else m * m / 2 ^ (-sh).toNat
      { r with a := r.a - BitVec.ofNat 128 q }
    | _ => r

/-- Adds the squares of a list of values to a norm register. -/
def State.addNorm (s : State) (n : Nat) (l : List FVal) : State :=
  { s with norms := tset n (l.foldl Norm.add (s.norm n)) s.norms }

/-! ## A load at its point -/

/-- The value of a finished access fills its registers (R22, R287, R289, R291). -/
def Bank.finishLoad (k : Bank) (now : Nat) (e : QEntry) : Bank :=
  let x := e.got.toNat
  match e.ins with
  | .ldc size rd _ _ | .ldg size rd _ _ =>
    if size = 7 then (k.arriveS now e rd.toNat (BitVec.ofNat 64 x)).arriveS now e (rd.toNat + 1) (BitVec.ofNat 64 (x / 2 ^ 64))
    else
      let v : SReg := match size.toNat with
        | 0 => (BitVec.ofNat 8 x).signExtend 64
        | 2 => (BitVec.ofNat 16 x).signExtend 64
        | 4 => (BitVec.ofNat 32 x).signExtend 64
        | _ => BitVec.ofNat 64 x
      k.arriveS now e rd.toNat v
  | .ldcv rd _ _ | .ldgv rd _ _ => k.arriveV now e rd.toNat (BitVec.ofNat 4096 x)
  | .ldgx rd _ _ =>
    match sparseBlock (x % 2 ^ 256) with
    | some b => k.arriveV now e rd.toNat (b.row x)
    | none => k
  | _ => k

/-- Bytes of one piece read by a core through its caches, and the state after the fills. -/
def State.pieceLoad (s : State) (c : Nat) (xt : List Extent) (a n : Nat) : Nat × State :=
  (s.parts xt 4 (a % 2 ^ 56) n).foldr (fun p (acc : Nat × State) =>
    let (v, s) := acc.2.coreLoad (clusterOf c) p.loc p.n
    (v + 256 ^ p.n * acc.1, s)) (0, s)

/-- Bytes of one piece stored by a core. -/
def State.pieceStore (s : State) (c b : Nat) (xt : List Extent) (a n x : Nat) : State :=
  ((s.parts xt 4 (a % 2 ^ 56) n).foldl (fun (acc : State × Nat) p =>
    (acc.1.coreStore (clusterOf c) (seqInCluster c b) p.loc p.compressible p.n (acc.2 % 256 ^ p.n), acc.2 / 256 ^ p.n)) (s, x)).1

/-- Records that piece `j` of an entry has been performed with the bytes it gave. -/
def QEntry.withPiece (e : QEntry) (j off x : Nat) : QEntry :=
  { e with done := e.done ++ [j], got := e.got ||| BitVec.ofNat 4608 (x * 256 ^ off) }

/-- The bytes of a claimed run-ahead entry stand for a piece where a load performed at issue, or one performed now, would return them; the
load then takes its data from the entry (R29, R289; log 9). -/
def QEntry.claimedPiece (e : QEntry) (off n now : Nat) : Option Nat :=
  e.claimed.bind fun d =>
    let x := d / 256 ^ off % 256 ^ n
    if off + n ≤ accessBytes e.ins ∧ (e.sure ∨ x = now) then some x else none

/-- A sparse load. -/
def isSparseLoad : Instr → Bool
  | .ldgx .. => true
  | _ => false

/-- A piece of a load: the checks of the whole access before its first piece, then the bytes; the register fills with the
last piece. -/
def State.performLoad (s : State) (c b i j : Nat) (e : QEntry) : State :=
  let k := s.bank c b
  let xt := s.extentsOf k
  match e.pieces[j]? with
  | none => s
  | some (off, n) =>
    if e.done.contains j then s
    else if e.inCluster then
      match (if e.done.isEmpty then (s.cluster (clusterOf c)).check e.addr e.bytes else none) with
      | some cause => s.failEntry c b i e cause e.addr
      | none =>
        let e := e.withPiece j off (mread (s.cluster (clusterOf c)).cmem (e.addr + off) n)
        if e.done.length = e.pieces.length then s.setBank c b ((k.finishLoad s.clk e).dropEntry i)
        else s.setBank c b (k.setEntry i e)
    else
      let first := e.done.isEmpty || (e.phase ≠ 0 && e.done.length = 2)
      let checked := if first then s.checkGlobal xt e.priv false true e.addr e.bytes else .inr []
      match checked with
      | .inl cause =>
        if 0x30 ≤ cause then s.faultEntry c b i e cause e.addr e.bytes false else s.failEntry c b i e cause e.addr
      | .inr l =>
        let s := if first then s.refill c k l else s
        -- a sparse block is counted once, when all its pages are known (R256)
        let s := if (isSparseLoad e.ins && e.phase = 0) || !first then s else s.countAccess l
        let read := s.pieceLoad c xt (e.addr + off) n
        let (x, s) := match e.claimedPiece off n read.1 with
          | some x => (x, s)
          | none => read
        let e := e.withPiece j off x
        if e.done.length < e.pieces.length then s.setBank c b ((s.bank c b).setEntry i e)
        else
          match e.ins with
          | .ldgx .. =>
            match sparseBlock (e.got.toNat % 2 ^ 256) with
            | none => s.failEntry c b i e 0x18 e.addr
            | some blk =>
              if e.phase = 0 ∧ 32 < blk.bytes then s.setBank c b ((s.bank c b).setEntry i { e with phase := blk.bytes })
              else
                let s := if e.phase = 0 then s.countAccess (s.parts xt 4 (e.addr % 2 ^ 56) 32) else s
                s.setBank c b (((s.bank c b).finishLoad s.clk e).dropEntry i)
          | _ => s.setBank c b (((s.bank c b).finishLoad s.clk e).dropEntry i)

/-! ## A store at its point -/

/-- The bytes an entry stores, as a number (R288, R289). -/
def QEntry.data (e : QEntry) : Nat :=
  match e.ins with
  | .stc size .. | .stg size .. =>
    let lo := (e.ops.headD 0).toNat
    if size = 4 then lo + 2 ^ 64 * ((e.ops[1]?).getD 0).toNat else lo % 256 ^ storeBytes size
  | .stgx .. => e.got.toNat
  | _ => e.row.toNat

/-- The values a norm store adds: 128 FP32 lanes or 256 BF16 lanes (R294). -/
def normValues (view : Nat) (row : Nat) : List FVal :=
  if view = 256 then (unpack 16 256 row).map Fmt.bf16.decode else (unpack 32 128 row).map Fmt.fp32.decode

/-- The norm addition performed with a store (R283, R293, R294). -/
def State.storeNorm (s : State) (e : QEntry) : State :=
  match e.ins with
  | .stgn _ _ norm => s.addNorm norm.toNat (normValues ((e.ops.headD 0).toNat) e.row.toNat)
  | .stgx .. =>
    match e.ops with
    | [fmt, _, norm] =>
      match Fmt.ofCode fmt.toNat with
      | some f => s.addNorm (norm.toNat % 256) ((unpack f.width 128 e.row.toNat).map f.decode)
      | none => s
    | _ => s
  | _ => s

/-- A write waits for batts: a restartable fault and a waiter of the die's balloon engine (R244, R395). -/
def State.waitBatts (s : State) (c b i : Nat) (e : QEntry) (d need : Nat) (addr : Nat) : State :=
  let x := s.die d
  let x := (x.dropAside (.bank c b)).wait (.bank c b) need s.clk
  ((s.setDie d x).settleDie d).faultEntry c b i e 0x32 addr 1 true

/-- The whole of a write applied, for the accounting of its pages (R244). -/
def State.wholeStore (s : State) (c b : Nat) (l : List Part) (x : Nat) : State :=
  (l.foldl (fun (acc : State × Nat) p =>
    (acc.1.coreStore (clusterOf c) (seqInCluster c b) p.loc p.compressible p.n (acc.2 % 256 ^ p.n), acc.2 / 256 ^ p.n)) (s, x)).1

/-- The page records that a write leaves, taken over into a state whose bytes are not yet written. -/
def State.takeRecords (s t : State) : State :=
  let keep (x y : Die) : Die := { x with home := y.home, lp := y.lp, rdc := y.rdc, directory := y.directory }
  { s with dies := t.dies.map fun (d, x) => (d, keep x (s.die d)) }

/-- Where a virtual page of a migration lies. -/
def State.sourceLoc (s : State) (m : Migration) (va : Nat) : Loc :=
  match findExtent (tget [] m.who.invocation s.extents) (va % 2 ^ 56) with
  | some e => if e.p then s.locate e.hm (e.pbase + (va % 2 ^ 56 - e.vbase)) else .nothing
  | none => .nothing

/-- Whether a page of a write is being migrated in its final pass, so that the store waits (R397). -/
def State.heldByMigration (s : State) (l : List Part) : Bool :=
  s.migrations.any fun m => m.final && m.pages.any fun va => l.any fun p => p.loc.page = s.sourceLoc m va

/-- A sparse store, whose checks and batts its reservation has settled (R293). -/
def QEntry.reserves (e : QEntry) : Bool :=
  match e.ins with
  | .stgx .. => true
  | _ => false

/-- What a store has still to write, applied for the accounting of its pages: its pieces that have not been performed (R244, R275). -/
def State.restStore (s : State) (c b : Nat) (xt : List Extent) (e : QEntry) : State :=
  ((List.range e.pieces.length).zip e.pieces).foldl (fun s (j, off, n) =>
    if e.done.contains j then s else s.pieceStore c b xt (e.addr + off) n (e.data / 256 ^ off % 256 ^ n)) s

/-- A piece of a store: the checks and the batts of the whole access before its first piece. Before a later piece the blocks are sized anew,
since another write may have changed them; where batts are then lacking, the access is issued again from the start (R244; log 10). -/
def State.performStore (s : State) (c b i j : Nat) (e : QEntry) : State :=
  let k := s.bank c b
  let xt := s.extentsOf k
  match e.pieces[j]? with
  | none => s
  | some (off, n) =>
    if e.done.contains j then s
    else
      let piece := e.data / 256 ^ off % 256 ^ n
      let close (s : State) (e : QEntry) : State :=
        if e.done.length = e.pieces.length then (s.setBank c b ((s.bank c b).dropEntry i)).storeNorm e
        else s.setBank c b ((s.bank c b).setEntry i e)
      if e.inCluster then
        match (if e.done.isEmpty then (s.cluster (clusterOf c)).check e.addr e.bytes else none) with
        | some cause => s.failEntry c b i e cause e.addr
        | none =>
          let q := s.cluster (clusterOf c)
          let s := s.setCluster (clusterOf c) { q with cmem := mwrite q.cmem (e.addr + off) n piece }
          close s { e with done := e.done ++ [j] }
      else if e.done.isEmpty && !e.reserves then
        match s.checkGlobal xt e.priv true true e.addr e.bytes with
        | .inl cause =>
          if 0x30 ≤ cause then s.faultEntry c b i e cause e.addr e.bytes true else s.failEntry c b i e cause e.addr
        | .inr l =>
          if s.heldByMigration l then s
          else
            match account s (s.wholeStore c b l e.data) (.bank c b) (touches l) with
            | .inr (d, need) => s.waitBatts c b i e d need e.addr
            | .inl t =>
              let s := ((s.takeRecords t).countAccess l).refill c k l
              close (s.pieceStore c b xt (e.addr + off) n piece) { e with done := e.done ++ [j] }
      else
        let l := s.parts xt 64 (e.addr % 2 ^ 56) e.bytes
        match account s (s.restStore c b xt e) (.bank c b) (touches l) with
        | .inr (d, need) => s.waitBatts c b i (if e.reserves then e else { e with done := [] }) d need e.addr
        | .inl t =>
          let s := if e.done.isEmpty then (s.takeRecords t).refill c k l else s.takeRecords t
          close (s.pieceStore c b xt (e.addr + off) n piece) { e with done := e.done ++ [j] }

/-! ## The reservation of a sparse store (R293) -/

/-- The header of a sparse store at its point: checks, `SPARSE_OVERRUN`, the reservation of LEN in one atomic step, and the
block that is then written as ordinary pieces. -/
def State.reserveSparse (s : State) (c b i : Nat) (e : QEntry) : State :=
  let k := s.bank c b
  let xt := s.extentsOf k
  let fail (cause addr : Nat) : State := s.failEntry c b i e cause addr
  let fault (cause addr : Nat) : State := if 0x30 ≤ cause then s.faultEntry c b i e cause addr 64 true else fail cause addr
  match s.checkGlobal xt e.priv true true e.addr 64 with
  | .inl cause => fault cause e.addr
  | .inr hl =>
    let loc := (hl.head?.map (·.loc)).getD .nothing
    let s := s.toMemory (clusterOf c) loc 64
    let h := Header.ofNat (s.rawRead loc 64)
    let fmt := (e.ops.headD 0).toNat
    let tag := ((e.ops[1]?).getD 0).setWidth 16
    let src : SparseSource := { fmt, tag, elems := unpack (8 * codeBytes fmt) 128 e.row.toNat }
    if sparseHeaderBad h src false then s.failEntry c b i e 0x18 e.addr
    else
      let block := sparseStored src h.point
      if h.cap < h.len + block.length then s.failEntry c b i e 0x15 e.addr
      else
        let a := (h.addr + h.len) % 2 ^ 64
        match s.checkGlobal xt e.priv true true a block.length with
        | .inl cause => if 0x30 ≤ cause then s.faultEntry c b i e cause a block.length true else s.failEntry c b i e cause a
        | .inr bl =>
          if s.heldByMigration (hl ++ bl) then s else
          let x := bytesNat block
          let t := (s.wholeStore c b bl x).rawWrite (loc.add 12) 4 (h.len + block.length)
          let lenPart : Part := { va := e.addr + 12, n := 4, ext := (hl.head?.bind (·.ext)), loc := loc.add 12 }
          match account s t (.bank c b) (touches (bl ++ [lenPart])) with
          | .inr (d, need) => s.waitBatts c b i e d need a
          | .inl t =>
            let s := (((s.takeRecords t).countAccess (hl ++ bl)).refill c k (hl ++ bl)).rawWrite (loc.add 12) 4 (h.len + block.length)
            let norm : List SReg := if h.normEn then [BitVec.ofNat 64 h.norm] else []
            s.setBank c b (((s.bank c b).discardAhead a block.length).setEntry i
              { e with addr := a, phase := block.length, got := BitVec.ofNat 4608 x, ops := e.ops ++ norm })

/-! ## Atomics (R296) -/

/-- The new value of an atomic; none where a compare fails. -/
def amoResult (fn : BitVec 4) (w : Nat) (old v cmp : Nat) : Option Nat :=
  let sgn (x : Nat) : Int := (BitVec.ofNat w x).toInt
  let v := v % 2 ^ w
  match fn.toNat with
  | 0 => some ((old + v) % 2 ^ w)
  | 1 => some (if sgn old ≤ sgn v then old else v)
  | 2 => some (if sgn old ≤ sgn v then v else old)
  | 3 => some (min old v)
  | 4 => some (max old v)
  | 5 => some (old &&& v)
  | 6 => some (old ||| v)
  | 7 => some (old ^^^ v)
  | 8 => some v
  | 9 => if old = cmp % 2 ^ w then some v else none
  | _ => some (Fmt.fp32.ofVal .rne false ((Fmt.fp32.decode old).add (Fmt.fp32.decode v)))

/-- An `AMO` at its point (R274, R295, R296): the release before, the line out of the own slice, read and write as one piece,
the old value, the acquire after. -/
def State.performAmo (s : State) (c b i : Nat) (e : QEntry) : State :=
  match e.ins with
  | .amo order opa _ nr scope size fn =>
    let k := s.bank c b
    let xt := s.extentsOf k
    let n := if size = 0 then 4 else 8
    let w := 8 * n
    match s.checkGlobal xt e.priv true true e.addr n with
    | .inl cause =>
      if 0x30 ≤ cause then s.faultEntry c b i e cause e.addr n true else s.failEntry c b i e cause e.addr
    | .inr l =>
      if s.heldByMigration l then s
      else
        let loc := (l.head?.map (·.loc)).getD .nothing
        let s := if order = 2 ∨ order = 3 then s.release c b scope.toNat else s
        let s := s.toMemory (clusterOf c) loc n
        let old := s.rawRead loc n
        let v0 := (e.ops.headD 0).toNat
        let v1 := ((e.ops[1]?).getD 0).toNat
        let new := amoResult fn w old (if fn = 9 then v1 else v0) v0
        let written : State ⊕ (Nat × Nat) := match new with
          | none => .inl s
          | some x => account s (s.rawWrite loc n x) (.bank c b) (touches l)
        match written with
        | .inr (d, need) => s.waitBatts c b i e d need e.addr
        | .inl s =>
          let s := (s.countAccess l).refill c k l
          let v : SReg := if size = 0 ∧ fn ≠ 10 then (BitVec.ofNat 32 old).signExtend 64 else BitVec.ofNat 64 old
          let k := (s.bank c b).dropEntry i
          let s := s.setBank c b (if nr = 0 then k.arriveS s.clk e opa.toNat v else k)
          if order = 1 ∨ order = 3 then s.acquire c b scope.toNat else s
  | _ => s

end Sys2Proof.Machine
end

