-- ==== Sys2Proof/Machine/Translate.lean ====
section
/-! DEFINITION. Page tables (R377 to R381, spec/20), the extents of a task (R382, R383) and their replacement after an answer
(R387, R388); revocation (R391, R392). -/

namespace Sys2Proof.Machine

/-- `n` bits of a number from bit `lo` up. -/
def bitField (x lo n : Nat) : Nat := x / 2 ^ lo % 2 ^ n

/-! ## A walk -/

/-- Whether a device physical address may be mapped: its MEMBER lies in the domain's box (R443). -/
def Regs.memberOk (r : Regs) (pa : Nat) : Bool :=
  let m := pa / 2 ^ 46 % 64
  let f (lo : Nat) : Nat := (r.domcfg.extractLsb' lo 2).toNat
  if r.domcfg.getLsbD 27 then m % 4 ≤ f 21 && m / 4 % 4 ≤ f 23 && m / 16 ≤ f 25 else m == 0

/-- What the tables say of one 4 KiB page: absent, malformed, or a leaf with its entry's address (R380). -/
inductive Walked where
  | absent
  | malformed
  /-- A present page as a one-page extent with the leaf's W; `ats` where the host gives the translation (R379). -/
  | page (e : Extent) (ats : Bool) (entry : Nat)
deriving DecidableEq, Repr

/-- A table entry. -/
def State.tableEntry (s : State) (a : Nat) : Nat := s.rawRead (s.locate false a) 8

/-- The page of virtual address `va` under a leaf that maps `bytes` bytes (R378 to R380). -/
def State.leafPage (s : State) (va at' x bytes : Nat) : Walked :=
  let bit (n : Nat) : Bool := x / 2 ^ n % 2 = 1
  let frame := bitField x 12 40 * 4096
  let sz := x / 2 ^ 10 % 4
  let hm := bit 9
  let ends := [s.locate false frame, s.locate false (frame + bytes - 1)]
  let home := !hm && ends.all Loc.isHome
  let first := at' / 128 * 128
  let even := sz ≠ 1 || (List.range 16).all fun i =>
    (s.tableEntry (first + 8 * i)) ||| 0x180 = x ||| 0x180
  let bad := x / 2 ^ 52 ≠ 0 || (sz = 1 && frame % 65536 ≠ 0) || !even || ((bit 5 || bit 4) && !home)
    || (!hm && (ends.contains .nothing || !s.regs.memberOk frame))
  if bad then .malformed
  else
    .page { vbase := va, units := 1, p := true, w := bit 1, u := bit 2, g := bit 3, tg := bit 4, cz := bit 5, sh := bit 6, hm,
            fine := true, pbase := frame + va % bytes } (hm && frame == 0) at'

/-- A pointer to the next table: none where absent, or malformed (R378, R380). -/
def nextTable (x : Nat) : Option Nat :=
  if x / 2 ^ 52 ≠ 0 ∨ x / 2 ^ 10 % 4 ≠ 0 ∨ x / 2 % 512 ≠ 0 then none else some (bitField x 12 40 * 4096)

/-- The walk of one 4 KiB page from a root (R377). -/
def State.walkPage (s : State) (root va : Nat) : Walked :=
  let x0 := s.tableEntry (root + 8 * (va / 2 ^ 39 % 2 ^ 17))
  if x0 % 2 = 0 then .absent
  else
    match nextTable x0 with
    | none => .malformed
    | some t1 =>
      let a1 := t1 + 8 * (va / 2 ^ 30 % 512)
      let x1 := s.tableEntry a1
      if x1 % 2 = 0 then .absent
      else if x1 / 2 ^ 10 % 4 = 3 then s.leafPage va a1 x1 (2 ^ 30)
      else
        match nextTable x1 with
        | none => .malformed
        | some t2 =>
          let a2 := t2 + 8 * (va / 2 ^ 21 % 512)
          let x2 := s.tableEntry a2
          if x2 % 2 = 0 then .absent
          else if x2 / 2 ^ 10 % 4 = 2 then s.leafPage va a2 x2 (2 ^ 21)
          else
            match nextTable x2 with
            | none => .malformed
            | some t3 =>
              let a3 := t3 + 8 * (va / 2 ^ 12 % 512)
              let x3 := s.tableEntry a3
              if x3 % 2 = 0 then .absent
              else
                match x3 / 2 ^ 10 % 4 with
                | 0 => s.leafPage va a3 x3 4096
                | 1 => s.leafPage va a3 x3 65536
                | _ => .malformed

/-- The root of a partition's page table (R418). -/
def State.tableRoot (s : State) (partition : Nat) : Nat := (tget 0 partition s.regs.ptroot).toNat / 2 ^ 20 % 2 ^ 32 * 2 ^ 20

/-! ## Extents -/

/-- A page of a task's set: its one-page extent, the leaf to be marked (R381), and whether the host gives its translation (R379). -/
structure SetPage where
  ext : Extent
  entry : Option Nat := none
  dirty : Bool := false
  host : Bool := false
deriving DecidableEq, Repr

/-- An absent page (R383). -/
def absentPage (va : Nat) : Extent := { vbase := va, units := 1, p := false, fine := true }

/-- A page as the walk finds it, at its new frame where a migration has moved it and the table still names the former one (R397;
log 23). -/
def State.currentPage (s : State) (root va : Nat) : Walked :=
  match s.walkPage root va with
  | .page e ats entry =>
    match s.moved.find? fun m => m.root = root ∧ m.va = va ∧ m.source = e.pbase with
    | some m =>
      .page { e with pbase := m.frame, hm := m.hm, cz := e.cz && !m.hm, tg := e.tg && !m.hm } false entry
    | none => .page e ats entry
  | w => w

/-- One page of the set, with the ATS translations given as page, host page and write permission (R379, R383); none where it
is malformed. -/
def State.setPage (s : State) (root : Nat) (ats : List (Nat × Nat × Bool)) (va : Nat) (writable : Bool) : Option SetPage :=
  match s.currentPage root va with
  | .absent => some { ext := absentPage va }
  | .malformed => none
  | .page e isAts entry =>
    let mark : SetPage := { ext := { e with w := e.w && writable }, entry := some entry, dirty := e.w && writable, host := isAts }
    if isAts then
      match ats.find? fun t => t.1 = va with
      | some (_, host, w) => some { mark with ext := { mark.ext with pbase := host, w := mark.ext.w && w } }
      | none => some { mark with ext := absentPage va }
    else some mark

/-- Two extents that one entry can hold (R383): the same attributes and unit, contiguous in both spaces. -/
def Extent.follows (b a : Extent) : Bool :=
  a.fine == b.fine && a.p == b.p && a.w == b.w && a.u == b.u && a.g == b.g && a.tg == b.tg && a.cz == b.cz && a.sh == b.sh
    && a.hm == b.hm && a.rvk == b.rvk && a.shsel == b.shsel && b.vbase == a.vbase + a.units * a.unit
    && (!a.p || b.pbase == a.pbase + a.units * a.unit) && decide (a.units + b.units ≤ 2 ^ 24)

/-- Maximal runs (R383). -/
def mergeExtents : List Extent → List Extent
  | [] => []
  | e :: r =>
    match mergeExtents r with
    | [] => [e]
    | f :: t => if f.follows e then { e with units := e.units + f.units } :: t else e :: f :: t

/-- The extents of the pages of one 64 KiB unit: one of 64 KiB where rule 1 covers it, else its pages (R383). -/
def unitExtents (pages : List Extent) : List Extent :=
  match pages with
  | [] => []
  | f :: _ =>
    match mergeExtents pages with
    | [e] => if e.units = 16 ∧ f.vbase % 65536 = 0 then [{ e with fine := false, units := 1 }] else pages
    | _ => pages

/-- Pages grouped by unit; the pages rise. -/
def groupUnits : List Extent → List (List Extent)
  | [] => []
  | e :: r =>
    match groupUnits r with
    | (f :: g) :: t => if f.vbase / 65536 = e.vbase / 65536 then (e :: f :: g) :: t else [e] :: (f :: g) :: t
    | t => [e] :: t

/-- The extents of rising pages (R383). -/
def extentsOfPages (pages : List Extent) : List Extent := mergeExtents ((groupUnits pages).flatMap unitExtents)

/-- The pages of ranges by number, with whether a range that holds them is declared writable; an address has 56 bits (R377, R384). -/
def pagesOf (ranges : List (Nat × Nat × Bool)) : Table Bool :=
  (ranges.filter fun r => r.2.1 ≠ 0).foldl (fun t (base, len, w) =>
    (List.range ((base % 4096 + len + 4095) / 4096)).foldl (fun t i =>
      let p := (base % 2 ^ 56 / 4096 + i) % 2 ^ 44
      tset p (tget false p t || w) t) t) []

/-! ## A and D (R381) -/

/-- A bit pattern set in a table entry, as an atomic OR at home memory (R274, R381); the die that is short and the need where its block
lacks batts. -/
def State.orEntry (s : State) (a bitsToSet : Nat) : State ⊕ (Nat × Nat) :=
  let l := s.locate false a
  let x := s.rawRead l 8
  if x ||| bitsToSet = x then .inl s
  else
    let t := s.rawWrite l 8 (x ||| bitsToSet)
    match l with
    | .home d off => account s t .walker [⟨d, off / 4096, off, 8, true⟩]
    | _ => .inl t

/-- The bits that the walker owes are set in their order, until one has to wait for batts (R244; log 40). -/
def State.payMarks (s : State) : Nat → State
  | 0 => s
  | fuel + 1 =>
    match s.owedMarks with
    | [] => s
    | (a, x) :: r =>
      if s.dies.any fun e => e.2.waiters.any fun w => w.who = .walker then s
      else
        match s.orEntry a x with
        | .inl t => { t with owedMarks := r }.payMarks fuel
        | .inr (d, need) => s.setDie d ((((s.die d).dropAside .walker).wait .walker need s.clk))

/-- A and D set in the leaves of translated pages (R381). -/
def State.markLeaves (s : State) (l : List SetPage) : State :=
  let marks := l.filterMap fun p => p.entry.map fun a => (a, if p.dirty then 0x180 else 0x80)
  let t := { s with owedMarks := s.owedMarks ++ marks }
  t.payMarks t.owedMarks.length

/-! ## The walk of a set (R382, R383) -/

/-- What the walk of a translated set found, page by page; none for a malformed entry. -/
def State.walkSet (s : State) (partition : Nat) (ranges : List (Nat × Nat × Bool)) (ats : List (Nat × Nat × Bool)) :
    List (Option SetPage) :=
  (pagesOf ranges).map fun (p, w) => s.setPage (s.tableRoot partition) ats (4096 * p) w

/-- The host pages of a walk (R379). -/
def hostPagesOf (l : List (Option SetPage)) : List Nat := l.filterMap fun p => (p.filter (·.host)).map (·.ext.vbase)

/-- The extent table of a walk; none where an entry is malformed or the table too large (R383). -/
def tableOf (l : List (Option SetPage)) : Option (List Extent) :=
  match l.mapM id with
  | none => none
  | some l =>
    let xt := extentsOfPages (l.map (·.ext))
    if 65536 < xt.length then none else some xt

/-! ## Replacing one page (R388) -/

/-- One page of an extent, as an extent of its own. -/
def Extent.pageAt (e : Extent) (va : Nat) : Extent :=
  { e with vbase := va, units := 1, fine := true, pbase := if e.p then e.pbase + (va - e.vbase) else 0 }

/-- What of an extent lies outside a 64 KiB unit. -/
def Extent.outside (e : Extent) (base : Nat) : List Extent × List Extent :=
  let stop := e.vbase + e.units * e.unit
  let left := if e.vbase < base then [{ e with units := (min stop base - e.vbase) / e.unit }] else []
  let from' := max e.vbase (base + 65536)
  let right :=
    if from' < stop then
      [{ e with vbase := from', units := (stop - from') / e.unit, pbase := if e.p then e.pbase + (from' - e.vbase) else 0 }]
    else []
  (left, right)

/-- An extent table with one page replaced. -/
def replacePage (xt : List Extent) (new : Extent) : List Extent :=
  let base := new.vbase / 65536 * 65536
  let pages := (List.range 16).filterMap fun i =>
    let va := base + 4096 * i
    if va = new.vbase then some new else (findExtent xt va).map fun e => e.pageAt va
  let left := xt.flatMap fun e => (e.outside base).1
  let right := xt.flatMap fun e => (e.outside base).2
  mergeExtents (left ++ unitExtents pages ++ right)

/-- A declared range of an invocation that is writable holds a page (R383). -/
def Invocation.writable (v : Invocation) (page : Nat) : Bool := tget false (page / 4096) (pagesOf v.ranges)

/-- The open shadow of a task over one of its pages, by its index on its die (R384). -/
def State.shadowOver (s : State) (id page : Nat) : Option Nat :=
  s.dies.findSome? fun e => (e.2.shadows.find? fun h => h.2.invocation = id && decide (h.2.base % 2 ^ 56 ≤ page)
    && decide (page < h.2.base % 2 ^ 56 + h.2.bytes)).map (·.1)

/-- The walk of one page of a task again, its extents replaced, which name the shadow that is open over it; none where the entry is
malformed (R384, R387, R388). -/
def State.rewalk (s : State) (id page : Nat) (ats : List (Nat × Nat × Bool)) : Option State :=
  match tfind id s.invocations with
  | none => none
  | some v =>
    match s.setPage (s.tableRoot v.partition) ats page (v.writable page) with
    | none => none
    | some p =>
      let s := s.markLeaves [p]
      let pages := v.hostPages.filter (· ≠ page)
      let new := { p.ext with shsel := s.shadowOver id page }
      some { s with extents := tset id (replacePage (tget [] id s.extents) new) s.extents,
                    invocations := tset id { v with hostPages := if p.host then page :: pages else pages } s.invocations }

/-- Whether the host gives the translation of a page of a task, as the latest walk of the page found it (R379, R382). -/
def State.isHostPage (s : State) (id page : Nat) : Bool := (tfind id s.invocations).any fun v => v.hostPages.contains page

/-! ## The table's entries in memory (R384) -/

/-- The header of a task's extent table (R384). -/
structure TableHeader where
  pasid : Nat
  count : Nat
  base : SReg
deriving DecidableEq, Repr

/-- The header of the table of an invocation. -/
def State.tableHeader (s : State) (id : Nat) : TableHeader :=
  { pasid := ((tfind id s.invocations).map (·.pasid)).getD 0, count := (tget [] id s.extents).length, base := Config.extentTable id }

/-- The 32 bytes of an extent entry. -/
def Extent.entry (e : Extent) : BitVec 256 :=
  let bit (b : Bool) (n : Nat) : Nat := if b then 2 ^ n else 0
  let flags := bit e.p 0 + bit e.w 1 + bit e.u 2 + bit e.g 3 + bit e.tg 4 + bit e.cz 5 + bit e.sh 6 + bit e.hm 7 + bit e.fine 8
    + bit e.rvk 9
  let shsel := match e.shsel with
    | some i => 2 ^ 15 + i % 64
    | none => 0
  BitVec.ofNat 256 (e.vbase + 2 ^ 64 * (e.units % 2 ^ 32) + 2 ^ 96 * flags + 2 ^ 112 * shsel + 2 ^ 128 * (e.pbase % 2 ^ 64))

/-! ## Revocation -/

/-- RVK set in every overlapping extent of the tasks a test selects, in one clk (R391, R392). -/
def State.revokeIn (s : State) (which : Invocation → Bool) (base len : Nat) : State :=
  { s with extents := s.extents.map fun (id, xt) =>
      if (tfind id s.invocations).any which then
        (id, xt.map fun e =>
          if e.vbase < base + len ∧ base < e.vbase + e.units * e.unit then { e with rvk := true } else e)
      else (id, xt) }

/-! ## Pages a table names (R247) -/

/-- Some valid leaf of a partition's table maps an offset of a die at or above a bound, or a page that it names has moved there. -/
def State.tableNames (s : State) (partition d bound : Nat) : Bool :=
  let above (pa bytes : Nat) : Bool :=
    decide (pa / 2 ^ 44 % 4 = d) && decide (pa % 2 ^ 44 < 2 ^ 40) && decide (bound < pa % 2 ^ 44 + bytes)
      && decide (pa / 2 ^ 46 % 64 = s.regs.member)
  let hits (x bytes : Nat) : Bool := x / 2 ^ 9 % 2 = 0 && above (bitField x 12 40 * 4096) bytes
  let valid (a : Nat) : Option Nat := let x := s.tableEntry a; if x % 2 = 1 then some x else none
  (s.moved.any fun m => m.root = s.tableRoot partition && !m.hm && above m.frame 4096) || (List.range (2 ^ 17)).any fun i =>
    match (valid (s.tableRoot partition + 8 * i)).bind nextTable with
    | none => false
    | some t1 => (List.range 512).any fun j =>
      match valid (t1 + 8 * j) with
      | none => false
      | some x1 =>
        if x1 / 2 ^ 10 % 4 = 3 then hits x1 (2 ^ 30)
        else
          match nextTable x1 with
          | none => false
          | some t2 => (List.range 512).any fun k =>
            match valid (t2 + 8 * k) with
            | none => false
            | some x2 =>
              if x2 / 2 ^ 10 % 4 = 2 then hits x2 (2 ^ 21)
              else
                match nextTable x2 with
                | none => false
                | some t3 => (List.range 512).any fun l =>
                  match valid (t3 + 8 * l) with
                  | none => false
                  | some x3 => hits x3 (if x3 / 2 ^ 10 % 4 = 1 then 65536 else 4096)

end Sys2Proof.Machine
end

