-- ==== Sys2Proof/Machine/DeviceRegs.lean ====
section
/-! DEFINITION. The registers of the CSR map (R417 to R420, spec/22) and the device registers without a CSR number: compression
(R247 to R249, R260, spec/12), stash regions (R332, spec/17), position, ring and phase (R441, R448 to R451, spec/24),
arbitration (R330, spec/16), power (R478, spec/25). A register is named by its CSR number, or from 0x1000 on by a number of the
model's own (log 16). -/

namespace Sys2Proof.Machine

/-- Bits `lo` to `lo + n - 1`. -/
def maskBits (lo n : Nat) : SReg := BitVec.ofNat 64 ((2 ^ n - 1) * 2 ^ lo)

/-! ## Compression (R247 to R249) -/

/-- CMPSTAT. -/
def Die.cmpstat (x : Die) : SReg :=
  BitVec.ofNat 64 (x.balloon + 2 ^ 32 * min 65535 x.waiters.length + 2 ^ 63 * x.refused.toNat)

/-- Batts held by pages: the store less the pool and what is set aside. -/
def Die.usedCount (x : Die) : Nat := storeAt x.ratio - x.freeCount - (x.aside.map fun a => a.2.length).sum

/-- CMPFREE. -/
def Die.cmpfree (x : Die) : SReg := BitVec.ofNat 64 (x.freeCount + 2 ^ 32 * x.usedCount)

/-- Every batt that a page, a shadow or a waiter holds. -/
def Die.heldBatts (x : Die) : List Nat :=
  (x.pages.flatMap fun e => e.2.batts) ++ (x.aside.flatMap (·.2))
    ++ (x.shadows.flatMap fun e => e.2.pages.flatMap fun p => p.2.record.batts)

/-- A page that EN or RATIO may not change under: it holds a batt or is not RESIDENT. -/
def Page.busy (p : Page) : Bool := !p.batts.isEmpty || p.state != 0

/-- A page of die `d` at or beyond a presented size is mapped (R247). -/
def State.mappedBeyond (s : State) (d bound : Nat) : Bool :=
  (s.extents.any fun e => e.2.any fun x =>
    x.p && !x.hm && decide (x.pbase / 2 ^ 44 % 4 = d) && decide (x.pbase / 2 ^ 46 % 64 = s.regs.member)
      && decide (x.pbase % 2 ^ 44 < 2 ^ 40) && decide (bound < x.pbase % 2 ^ 44 + x.units * x.unit))
  || (List.range 16).any fun p => s.tableNames p d bound

/-- The pool once RATIO has moved the boundary (R239). -/
def movePool (free : List (Nat × Nat)) (old new : Nat) : List (Nat × Nat) :=
  if new < old then (free.filter fun r => r.1 < new).map fun r => (r.1, min r.2 (new - r.1))
  else if old < new then
    match free.getLast? with
    | some (a, n) => if a + n = old then free.dropLast ++ [(a, n + (new - old))] else free ++ [(old, new - old)]
    | none => [(old, new - old)]
  else free

/-- A write of CMPCTL: refused as a whole, or the new value with the pool moved (R239, R247). -/
def State.writeCmpctl (s : State) (d : Nat) (v : SReg) : State × Bool :=
  let x := s.die d
  let ratio := (v.extractLsb' 1 5).toNat
  let bad := v &&& ~~~0x3F7F ≠ 0 ∨ v.extractLsb' 8 2 = 3 ∨ 16 < ratio ∨ (ratio ≠ 0 ∧ !v.getLsbD 0)
    ∨ (v.getLsbD 0 ≠ x.en ∧ ((x.pages.any fun e => e.2.busy) ∨ x.shadows.any fun e => e.2.pages.any fun p => !p.2.record.batts.isEmpty))
    ∨ (ratio < x.ratio ∧ ((x.pages.any fun e => decide (presentedAt ratio ≤ 4096 * e.1) && e.2.busy)
        ∨ (x.shadows.any fun e => e.2.pages.any fun p => decide (presentedAt ratio ≤ 4096 * p.1) && !p.2.record.batts.isEmpty)
        ∨ s.mappedBeyond d (presentedAt ratio)))
    ∨ (x.ratio < ratio ∧ x.heldBatts.any fun b => storeAt ratio ≤ b)
  if bad then (s.setDie d { x with refused := true }, false)
  else (s.setDie d ({ x with cmpctl := v, free := movePool x.free (storeAt x.ratio) (storeAt ratio) }), true)

/-- A write of CMPWM (R248). -/
def State.writeCmpwm (s : State) (d : Nat) (v : SReg) : State × Bool :=
  let x := s.die d
  let low := (v.extractLsb' 0 32).toNat
  let high := (v.extractLsb' 32 32).toNat
  if high ≤ low ∨ storeAt x.ratio < high then (s.setDie d { x with refused := true }, false)
  else (s.setDie d { x with cmpwm := v }, true)

/-! ## Stash regions and policies (R332) -/

/-- First byte and size of region `r`: 0 STPOOL, 1 STLP, 2 STHOST, 3 SNPPOOL. -/
def Die.region (x : Die) (r : Nat) : Nat × Nat :=
  let v := tget 0 r x.regions
  ((v.extractLsb' 20 36).toNat * 2 ^ 20, (v.extractLsb' 0 20).toNat * 2 ^ 20)

/-- The reset value of a policy register. -/
def stpolReset : SReg := 0x32000B
/-- STPOL of stage `i`. -/
def Die.policy (x : Die) (i : Nat) : SReg := tget stpolReset i x.stpol

/-- Some entry, record or copy under way uses region `r` (R332). -/
def Die.regionUsed (x : Die) (r : Nat) : Bool :=
  if r = 3 then !x.snaps.isEmpty
  else (x.stash.any fun e => e.2.loc == r + 2) || x.stashRunning.any fun c => c.copied.any fun e => e.loc == r + 2

/-- The regions of all dies that lie in the address space of region `r` of a die: home memory's for 0 and 3, the die's LPDDR-6 tier's for
1, the host's for 2 (R332). -/
def State.regionsBeside (s : State) (d r : Nat) : List (Nat × Nat) :=
  if r = 1 then []
  else if r = 2 then ((List.range 4).filter (· ≠ d)).map fun e => (s.die e).region 2
  else ((List.range 4).flatMap fun e => [(e, 0), (e, 3)]).filter (· ≠ (d, r)) |>.map fun e => (s.die e.1).region e.2

/-- A write of a region register. -/
def State.writeRegion (s : State) (d r : Nat) (v : SReg) : State × Bool :=
  let x := s.die d
  let y := { x with regions := tset r v x.regions }
  let new := y.region r
  let meets (b : Nat × Nat) : Bool := new.2 ≠ 0 && b.2 ≠ 0 && decide (new.1 < b.1 + b.2) && decide (b.1 < new.1 + new.2)
  let overlap := (s.regionsBeside d r).any meets
  if v &&& ~~~(maskBits 0 56) ≠ 0 ∨ overlap ∨ (v ≠ tget 0 r x.regions ∧ x.regionUsed r) then (s, false)
  else (s.setDie d y, true)

/-- A write of a stash policy register. -/
def State.writePolicy (s : State) (d i : Nat) (v : SReg) : State × Bool :=
  if v &&& ~~~0xFFF00F ≠ 0 ∨ 100 < (v.extractLsb' 16 8).toNat then (s, false)
  else (s.setDie d { s.die d with stpol := tset i v (s.die d).stpol }, true)

/-! ## Barriers (R412, R420) -/

/-- Half `h` of a barrier's record. -/
def Barrier.word (x : Barrier) (h : Nat) : SReg :=
  if h = 0 then
    BitVec.ofNat 64 (x.phase.toNat + 2 ^ 8 * x.err.toNat + 2 ^ 16 * x.expect + 2 ^ 32 * x.remain + 2 ^ 48 * x.early)
  else BitVec.ofNat 64 (x.pending + 2 ^ 32 * x.errCode + 2 ^ 48 * x.lastErr)

/-- The barrier with half `h` of its record written. -/
def Barrier.setWord (x : Barrier) (h : Nat) (v : SReg) : Barrier :=
  let f (lo n : Nat) : Nat := v.toNat / 2 ^ lo % 2 ^ n
  if h = 0 then
    { x with phase := v.setWidth 8, err := v.getLsbD 8, expect := f 16 16, remain := f 32 16, early := f 48 16 }
  else { x with pending := f 0 28, errCode := f 32 16, lastErr := f 48 16 }

/-- A write of a BARW register of a cluster, refused while PENDING is not 0 (R420). -/
def State.writeBarw (s : State) (k n : Nat) (v : SReg) : State × Bool :=
  let b := n / 2
  let x := s.barrier k b
  if x.pending ≠ 0 then (s, false)
  else (s.setCluster k { s.cluster k with barriers := tset b (x.setWord (n % 2) v) (s.cluster k).barriers }, true)

/-! ## Position, ring, phase (R441, R448 to R451) -/

/-- A port is DOWN (R446). -/
def State.isDown (s : State) (port : Nat) : Bool := (tget (0, 0) port s.ports).1 = 2

/-- BYPASS of a ring port, numbered as NBR's PORT. -/
def Regs.bypassed (r : Regs) (port : Nat) : Bool := 6 ≤ port && (tget 0 (port - 6) r.rport).getLsbD 32

/-- PORT of a neighbour entry. -/
def nbrPort (v : SReg) : Nat := (v.extractLsb' 36 3).toNat

/-- The port of what travels in the direction of a half of the ring: ring port n, or where it is bypassed the torus port towards PEER
(R448). -/
def Regs.ringRoute (r : Regs) (half : Nat) : Option Nat :=
  if r.bypassed (6 + half) then r.route ((tget 0 half r.rport).extractLsb' 0 21).toNat else some (6 + half)

/-- The half of the ring in whose direction a flit travels. -/
def Flit.half : Flit → Option Nat
  | .chunk h .. | .mark h .. | .failure h .. | .settled h .. => some h
  | .phase p _ => if 6 ≤ p then some (p - 6) else none
  | _ => none

/-- The port through which a flit leaves for another device: on the ring, or on the route of its channel's packets (R442, R447). -/
def State.outPort (s : State) (f : Flit) : Option Nat :=
  match f with
  | .window chan _ | .consumed chan _ | .packet chan _ | .ack chan _ => s.regs.route (s.tensor chan).peerPos
  | .phase p _ => if p < 6 then some p else s.regs.ringRoute (p - 6)
  | f => f.half.bind s.regs.ringRoute

/-- What the device sends to a peer end, or to an end of its own: it waits while its port is not UP (R446). A flit sent ends a run of
retries of its port (log 69). -/
def State.send (s : State) (f : Flit) : State :=
  match s.outPort f with
  | none => { s with sent := s.sent ++ [f] }
  | some p =>
    if (s.port p).1 = 0 then { s with sent := s.sent ++ [.via p f], retries := tdel p s.retries }
    else { s with held := s.held ++ [(p, f)] }

/-- The flits held for one port, or those of one half of the ring, sent by the port that is now theirs (R446, R448). -/
def State.sendHeld (s : State) (mine : Nat × Flit → Bool) : State :=
  (s.held.filter mine).foldl (fun (s : State) e => s.send e.2) { s with held := s.held.filter fun e => !mine e }

/-- A neighbour entry with FAILED as its port stands. -/
def State.nbrFailed (s : State) (v : SReg) : SReg :=
  let clear := v &&& ~~~(1#64 <<< 39)
  if v.getLsbD 32 ∧ s.isDown (nbrPort v) ∧ !s.regs.bypassed (nbrPort v) then clear ||| (1#64 <<< 39) else clear

/-- A write of NBRn: two valid entries with one PORT are refused (R450). -/
def State.writeNbr (s : State) (n : Nat) (v : SReg) : State × Bool :=
  let old := tget 0 n s.regs.nbr
  let new := s.nbrFailed ((v &&& (maskBits 32 1 ||| maskBits 36 3)) ||| (old &&& maskBits 0 32))
  let clash := new.getLsbD 32 ∧ s.regs.nbr.any fun e => e.1 ≠ n && e.2.getLsbD 32 && nbrPort e.2 == nbrPort new
  if clash then (s, false) else ({ s with regs := { s.regs with nbr := tset n new s.regs.nbr } }, true)

/-- A write of TCOORD (R441). -/
def State.writeTcoord (s : State) (v : SReg) : State × Bool :=
  let f (lo : Nat) : Nat := (v.extractLsb' lo 7).toNat
  if v &&& ~~~(maskBits 0 21 ||| maskBits 24 21) ≠ 0 ∨ f 24 < f 0 ∨ f 31 < f 7 ∨ f 38 < f 14 then (s, false)
  else ({ s with regs := { s.regs with tcoord := v } }, true)

/-- Every result of the bucket is written here. -/
def Bucket.full (b : Bucket) : Bool := (b.written.map (·.2)).sum = b.count

/-- A write of RINGCFG: a change of N or RANK while buckets are held is a reconfiguration, at which the member reports on each of them
(R328, R449). -/
def State.writeRingcfg (s : State) (v : SReg) : State × Bool :=
  let new := v &&& maskBits 0 33
  let changed := new.extractLsb' 0 32 ≠ s.regs.ringcfg.extractLsb' 0 32
  let t := { s with regs := { s.regs with ringcfg := new },
                    buckets := if changed then s.buckets.map fun b => { b with unsettled := true } else s.buckets,
                    markCopies := if changed then [] else s.markCopies }
  let reports := if changed then (s.buckets.filter (·.fixed)).flatMap fun b => [0, 1].map fun h => Flit.settled h b.step b.bucket b.full
    else []
  (reports.foldl State.send t, true)

/-- A write of RPORTn: a change of BYPASS sends the phase in the next clk and moves the entries of the ring port (R451); what waits for the
ring port, or for the torus port that stood in for it, takes the new way (R448). -/
def State.writeRport (s : State) (n : Nat) (v : SReg) : State × Bool :=
  let new := v &&& (maskBits 0 21 ||| maskBits 32 1)
  let old := tget 0 n s.regs.rport
  let s := { s with regs := { s.regs with rport := tset n new s.regs.rport } }
  let s : State := { s with regs := { s.regs with nbr := s.regs.nbr.map fun (i, e) =>
      (i, if e.getLsbD 32 ∧ nbrPort e = 6 + n then s.nbrFailed e else e) } }
  let s := s.sendHeld fun e => e.2.half == some n
  (if old.getLsbD 32 ≠ new.getLsbD 32 then s.schedule (s.clk + 1) .phaseFlit else s, true)

/-- A write of PHASECNT: the change is sent in the next clk; after a fill it is the fill's (R450, R451, R456). -/
def State.writePhase (s : State) (v : SReg) : State × Bool :=
  let fill := s.fill.map fun f => if f.stage = 1 then { f with stage := 2 } else f
  (({ s with regs := { s.regs with phase := v.setWidth 32 }, fill }).schedule (s.clk + 1) .phaseFlit, true)

/-! ## Arbitration and power (R330, R478) -/

/-- A write of ARBCTL (R330). -/
def State.writeArbctl (s : State) (v : SReg) : State × Bool :=
  if v &&& ~~~(maskBits 0 35) ≠ 0 ∨ (v.getLsbD 32 ∧ v.extractLsb' 0 32 = 0) then (s, false)
  else ({ s with regs := { s.regs with arbctl := v } }, true)

/-- The reset value of an island register (R478). -/
def pislReset : SReg := 0x8FFF000
/-- PISL of island `i`. -/
def Regs.island (r : Regs) (i : Nat) : SReg := tget pislReset i r.pisl
/-- The sum of the FLOORs. -/
def Regs.floors (r : Regs) : Nat := ((List.range 24).map fun i => ((r.island i).extractLsb' 0 12).toNat).sum

/-- A write of PWRCTL, number 0, or of PISL of island n - 1 (R478). -/
def State.writePower (s : State) (n : Nat) (v : SReg) : State × Bool :=
  if n = 0 then
    let budget := (v.extractLsb' 0 12).toNat
    if v &&& ~~~(maskBits 0 13) ≠ 0 ∨ budget < 1000 ∨ 3400 < budget ∨ budget < s.regs.floors then (s, false)
    else ({ s with regs := { s.regs with pwrctl := v } }, true)
  else
    let r := { s.regs with pisl := tset (n - 1) v s.regs.pisl }
    if v &&& ~~~(maskBits 0 28) ≠ 0 ∨ v.extractLsb' 12 12 < v.extractLsb' 0 12
        ∨ (s.regs.pwrctl.extractLsb' 0 12).toNat < r.floors then (s, false)
    else ({ s with regs := r }, true)

/-- A write of a PGRANT, whose fields are read-only: it changes nothing, and a reserved bit is refused (R478). -/
def State.writeGrant (s : State) (v : SReg) : State × Bool := (s, v &&& ~~~(maskBits 0 24) = 0)

/-- A time within bounds (R393, R445, R456, R471); the value written is a count of clk (log 29). -/
def writeTime (lo hi : Nat) (v : SReg) (r : Nat → Regs) (s : State) : State × Bool :=
  if v.toNat < lo ∨ hi < v.toNat then (s, false) else ({ s with regs := r v.toNat }, true)

/-! ## The registers by number -/

/-- The clusters of a partition: those that hold a core of a configured stage placed in it, in ascending number (R185, R186; log 35). -/
def State.partitionClusters (s : State) (p : Nat) : List Nat :=
  let mine := (s.stages.filter fun e => e.2.configured ∧ e.2.partition = p).flatMap fun e => e.2.cores.map clusterOf
  (List.range (Config.cores / Config.coresPerCluster)).filter mine.contains

/-- The cores of a partition: every core of its clusters, in ascending number (R185). -/
def State.partitionCores (s : State) (p : Nat) : List Nat :=
  (s.partitionClusters p).flatMap fun k => (List.range Config.coresPerCluster).map (Config.coresPerCluster * k + ·)

/-- SWPSTAT of partition `p` (R419): what the shadow storage of a bank of the partition does. -/
def State.swapStatus (s : State) (p b : Nat) : Nat :=
  match s.swaps.find? fun w => w.partition = p ∧ w.bank = b with
  | some w => if w.inward then 3 else 1
  | none =>
    if (s.partitionClusters p).any fun k => (s.cluster k).shadow.any fun e => e.2.1 == b then 2 else 0

/-- RW fields of the registers that the queues reach (R417). -/
def rwBits (n : Nat) : SReg :=
  if n = 0x300 then 0x3F7F
  else if n = 0x301 ∨ n = 0x304 then BitVec.allOnes 64
  else if 0x240 ≤ n ∧ n ≤ 0x2BF then BitVec.allOnes 64
  else if 0x310 ≤ n ∧ n ≤ 0x313 then maskBits 0 56
  else if 0x320 ≤ n ∧ n ≤ 0x32F then 0xFFF00F
  else if 0x340 ≤ n ∧ n ≤ 0x37F then 0xFFFF
  else if 0x400 ≤ n ∧ n ≤ 0x40F then maskBits 20 32
  else if 0x410 ≤ n ∧ n ≤ 0x41F then 0xFFFFFFC1
  else 0

/-- The value of a register of the CSR map that is no bank or core register, seen from cluster `k` (R418). -/
def State.readRegister (s : State) (k n : Nat) : SReg :=
  let d := s.die (dieOfCluster k)
  let c := s.cluster k
  if n = 0x020 then BitVec.ofNat 64 s.clk
  else if n = 0x200 then
    BitVec.ofNat 64 ((match c.split with
      | some x => x.ends - s.clk
      | none => 0) + 2 ^ 24 * c.banks)
  else if 0x240 ≤ n ∧ n ≤ 0x2BF then (s.barrier k ((n - 0x240) / 2)).word (n % 2)
  else if n = 0x300 then d.cmpctl
  else if n = 0x301 then d.cmpwm
  else if n = 0x302 then d.cmpstat
  else if n = 0x303 then d.cmpfree
  else if n = 0x304 then d.cmpcnt
  else if 0x310 ≤ n ∧ n ≤ 0x313 then tget 0 (n - 0x310) d.regions
  else if 0x320 ≤ n ∧ n ≤ 0x32F then d.policy (n - 0x320)
  else if 0x340 ≤ n ∧ n ≤ 0x37F then tget 0 (n - 0x340) d.patStatus
  else if 0x400 ≤ n ∧ n ≤ 0x40F then tget 0 (n - 0x400) s.regs.ptroot
  else if 0x410 ≤ n ∧ n ≤ 0x41F then tget 0 (n - 0x410) s.regs.pvec
  else if 0x420 ≤ n ∧ n ≤ 0x42F then
    BitVec.ofNat 64 (s.swapStatus (n - 0x420) 0 + 4 * s.swapStatus (n - 0x420) 1)
  else 0

/-- A write of a register by number, at cluster `k` or its die; the second part says whether it was accepted (R417, R420). -/
def State.writeRegister (s : State) (k n : Nat) (v : SReg) : State × Bool :=
  let d := dieOfCluster k
  let x := s.die d
  let r := s.regs
  if 0x240 ≤ n ∧ n ≤ 0x2BF then s.writeBarw k (n - 0x240) v
  else if n = 0x300 then s.writeCmpctl d v
  else if n = 0x301 then s.writeCmpwm d v
  else if n = 0x302 then (s.setDie d { x with refused := x.refused && !v.getLsbD 63 }, true)
  else if n = 0x304 then (s.setDie d { x with cmpcnt := v }, true)
  else if 0x310 ≤ n ∧ n ≤ 0x313 then s.writeRegion d (n - 0x310) v
  else if 0x320 ≤ n ∧ n ≤ 0x32F then s.writePolicy d (n - 0x320) v
  else if 0x340 ≤ n ∧ n ≤ 0x37F then (s.setDie d { x with patStatus := tset (n - 0x340) (v &&& rwBits n) x.patStatus }, true)
  else if 0x400 ≤ n ∧ n ≤ 0x40F then ({ s with regs := { r with ptroot := tset (n - 0x400) (v &&& rwBits n) r.ptroot } }, true)
  else if 0x410 ≤ n ∧ n ≤ 0x41F then ({ s with regs := { r with pvec := tset (n - 0x410) (v &&& rwBits n) r.pvec } }, true)
  else if n = 0x1000 then s.writeArbctl v
  else if n = 0x1001 then s.writePhase v
  else if n = 0x1002 then ({ s with regs := { r with lead := v.toNat % 16 } }, true)
  else if 0x1003 ≤ n ∧ n ≤ 0x100A then s.writeNbr (n - 0x1003) v
  else if n = 0x100B then s.writeTcoord v
  else if n = 0x100C then ({ s with regs := { r with domcfg := v &&& maskBits 0 28 } }, true)
  else if n = 0x100D then s.writeRingcfg v
  else if 0x100E ≤ n ∧ n ≤ 0x100F then s.writeRport (n - 0x100E) v
  else if 0x1010 ≤ n ∧ n ≤ 0x1028 then s.writePower (n - 0x1010) v
  else if 0x1050 ≤ n ∧ n ≤ 0x1067 then s.writeGrant v
  else if n = 0x1040 then writeTime 12500 12500000 v (fun t => { r with tlink := t }) s
  else if n = 0x1041 then ({ s with regs := { r with tfail := v.toNat } }, true)
  else if n = 0x1042 then writeTime 125000 125000000 v (fun t => { r with teardown := t }) s
  else if n = 0x1043 then writeTime 1250 20000 v (fun t => { r with frame := t }) s
  else (s, true)

/-! ## A queued CSR access at its point -/

/-- What a queued CSR write leaves in the register: all of a, or its RW fields set or cleared (R417). -/
def csrNew (i : Instr) (old a : SReg) (n : Nat) : Option SReg :=
  match i with
  | .csrw .. => some a
  | .csrs .. => if rwBits n = 0 then none else some (old ||| (a &&& rwBits n))
  | .csrc .. => if rwBits n = 0 then none else some (old &&& ~~~(a &&& rwBits n))
  | _ => none

/-- A queued CSR write of core `c`, bank `b`; a refused one is posted, but for CMPCTL and CMPWM (R420). -/
def State.performCsr (s : State) (c b : Nat) (e : QEntry) (n : Nat) : State :=
  let k := clusterOf c
  match csrNew e.ins (s.readRegister k n) (e.ops.headD 0) n with
  | none => s
  | some v =>
    let (t, ok) := s.writeRegister k n v
    if ok ∨ n = 0x300 ∨ n = 0x301 then t else t.postOn c b 0x1D e.bundle e.pos e.clk none

/-! ## `BALLOON` at its point (R430) -/

/-- A balloon operation on the die of core `c`; an add to a full list and a deflate of a page that is not CLAIMED are posted. -/
def State.performBalloon (s : State) (c b : Nat) (e : QEntry) : State :=
  let d := dieOf c
  let x := s.die d
  let a := (e.ops.headD 0).toNat
  let refuse : State := s.postOn c b 0x1D e.bundle e.pos e.clk none
  match e.ins with
  | .balloonAddb _ =>
    if 65536 ≤ x.balloonList.length then refuse
    else s.setDie d { x with balloonList := x.balloonList ++ [a], balloon := if x.balloon = 3 then 1 else x.balloon }
  | .balloonAddt _ =>
    if 65536 ≤ x.targetList.length then refuse
    else
      s.setDie d { x with targetList := x.targetList ++ [e.ops.headD 0],
                          balloon := if x.balloon = 3 ∧ !x.hard then 2 else x.balloon }
  | .balloonDeflate _ =>
    let p := x.page (a / 4096)
    if p.state = 3 ∧ a / 4096 * 4096 = a then s.setDie d (x.setPage (a / 4096) { p with state := 0, blocks := [] }) else refuse
  | .balloonClrb _ => s.setDie d { x with balloonList := [] }
  | .balloonClrt _ => s.setDie d { x with targetList := [] }
  | _ => s

end Sys2Proof.Machine
end

