-- ==== Sys2Proof/Machine/Issue.lean ====
section
/-! DEFINITION. Issue of one slot (R8, R18, R34, spec/01): its traps, then its holds, then its effect. A slot whose bundle
has been examined as a whole takes its effect at once (log 7). -/

namespace Sys2Proof.Machine

/-- The state with the bundle at issue held: nothing of it has taken effect. -/
def State.hold (s : State) : State := { s with ctx := { s.ctx with status := .held } }

/-- One slot at issue. -/
def issueSlot (i : Instr) (s : State) (effect : State → State) : Result :=
  if s.failed then .fault .deviceFailed
  else if s.ctx.checked then .next (effect s)
  else
    match slotTrap i s with
    | some cause => .next (s.takeIssueTrap cause s.ctx.pos (trapCode i))
    | none => if slotHold i (s.reach i) then .next (s.reach i).hold else .next (effect (s.reach i))

/-- A step without an encoding: where it is not enabled it changes nothing (log 6). -/
def event (s : State) (effect : State → Option State) : Result :=
  if s.failed then .fault .deviceFailed
  else
    match effect s with
    | some t => .next t
    | none => .next s

/-- A scalar result of the slot at issue after `lat` clk. -/
def State.landS (s : State) (lat : Nat) (rd : BitVec 6) (v : SReg) : State := s.land lat (.sreg rd.toNat v)

/-- The scalar source registers of the slot at issue. -/
def State.sa (s : State) (r : BitVec 6) : SReg := s.cur.s r.toNat

/-- The mask of the bundle (R24, R135). -/
def State.bundleMask (s : State) : Mask := s.cur.k s.ctx.maskReg

/-- The rounding mode of the bundle (R24). -/
def State.mode (s : State) : RoundMode := RoundMode.ofCode s.ctx.rm

/-- The clk to the next bundle, where no slot of the bundle asked for more. -/
def State.setGap (s : State) (gap : Nat) : State := { s with ctx := { s.ctx with gap := max s.ctx.gap gap } }

/-- A transfer of the bundle to a target, with the clk to the next bundle; a `TRET` of the bundle keeps its own (log 15). -/
def State.transfer (s : State) (target gap : Nat) : State :=
  { s.setGap gap with ctx := { (s.setGap gap).ctx with next := some (s.ctx.next.getD target) } }

end Sys2Proof.Machine
end

