-- ==== Sys2Proof/Machine/QueueOps.lean ====
section
/-! DEFINITION. The Q class: work queues (R213 to R221, spec/10), barriers (R222 to R226), the phase counter (R227), markers
and atomics as queue entries (R295 to R298, spec/14). -/

namespace Sys2Proof.Machine

/-- A queue entry of the slot at issue with no data. -/
def State.entryHere (s : State) (i : Instr) : QEntry :=
  { ins := i, bundle := s.ctx.addr, pos := s.ctx.pos, clk := s.clk, priv := s.cur.priv }

/-- Marks registers empty at issue (R17). -/
def State.markEmpties (s : State) (l : List Reg) : State := s.setCur (l.foldl Bank.markEmpty s.cur)

/-! ## Work queues -/

/-- The landing of a delivered record as a queue entry: younger loads wait for it (R217, R267). -/
def State.deliver (s : State) (i : Instr) (r : QRecord) (lands : Nat) : State :=
  let scope := max (scopeOver s.ctx.core r.producers) (if r.wide then 3 else 0)
  let k := s.cur
  let kind := ((r.words.headD 0).extractLsb' 0 3).toNat
  let tag := ((r.words.headD 0).extractLsb' 16 16).toNat
  let stage := ((r.words.headD 0).extractLsb' 8 8).toNat
  let step := (r.words[1]?).getD 0
  let s := s.setCur { k with waiting := none, lastStep := if kind = 7 then 0 else step,
                             item := if r.fromItem then some { stage, kind, tag, step } else none }
  let s := if r.fromItem then s.noteRun stage tag s.ctx.core else s
  (s.markEmpties (dests i)).pushEntry
    { s.entryHere i with addr := lands, ops := r.words, phase := 1, done := r.after, side := BitVec.ofNat 64 scope }

/-- The waiter leaves the queue it waited in. -/
def State.leaveQueue (s : State) (wq : Nat) : State :=
  let q := s.wq wq
  s.setWq wq { q with waiters := q.waiters.filter fun w => w ≠ s.me, bound := q.bound.filter fun e => (e.1, e.2.1) ≠ s.me }

/-- The completion release of the bundle at issue, which waited for the accesses of its own bundle, now follows them (R266, R267). -/
def State.queueRelease (s : State) : State :=
  let late (e : QEntry) : Bool := match e.ins with
    | .deq .. | .deqt .. => e.phase == 2
    | _ => false
  let k := s.cur
  let moved := (k.queue.filter late).map fun e => { e with phase := 0, id := s.nextEntry }
  { s with nextEntry := s.nextEntry + 1 }.setCur { k with queue := (k.queue.filter fun e => !late e) ++ moved }

/-- Delivery at issue: what is bound to the worker, the oldest record, END of a closed queue, or the empty result, which makes demand for
one round (R215, R216, R220, R221). -/
def takeRecord (i : Instr) (wq : Nat) (s : State) : State :=
  let q := s.wq wq
  let plain (words : List SReg) (producers : List Nat) : QRecord := { words, producers }
  match s.ownerOf wq with
  | none => (s.postHere 0x12).deliver i (plain endRecord []) (s.clk + 4)
  | some _ =>
    match q.bound.find? fun e => (e.1, e.2.1) = s.me with
    | some e => (s.leaveQueue wq).deliver i e.2.2.1 (if e.2.2.2 = 0 then s.clk + 4 else e.2.2.2)
    | none =>
      let s := s.leaveQueue wq
      match q.records with
      | r :: rest => (s.setWq wq { s.wq wq with records := rest }).deliver i r (s.clk + 4)
      | [] =>
        if q.closed then s.deliver i (plain endRecord q.closer.toList) (s.clk + 4)
        else (s.setWq wq { s.wq wq with once := true }).deliver i (plain emptyRecord []) (s.clk + 4)

def execDeq (grp : BitVec 4) (wq : BitVec 6) (s : State) : Result :=
  issueSlot (.deq grp wq) s fun s => ((takeRecord (.deq grp wq) wq.toNat s.queueRelease).rouse wq.toNat).refresh

def execDeqt (grp : BitVec 4) (wq : BitVec 6) (s : State) : Result :=
  issueSlot (.deqt grp wq) s fun s => ((takeRecord (.deqt grp wq) wq.toNat s.queueRelease).rouse wq.toNat).refresh

/-- `ENQ`: reserves its place and waits as a marker until its record enters (R218, R219). -/
def execEnq (grp : BitVec 4) (wq : BitVec 6) (s : State) : Result :=
  issueSlot (.enq grp wq) s fun s =>
    let r := 4 * grp.toNat
    let words := [s.cur.s r, s.cur.s (r + 1), s.cur.s (r + 2), s.cur.s (r + 3)]
    let w0 := s.cur.s r
    match s.ownerOf wq.toNat with
    | none => s.postHere 0x12
    | some i =>
      let arrive := w0.getLsbD 7
      if !arrive ∧ (s.wq wq.toNat).closed then s.postHere 0x1D
      else
        let x := s.stage i
        let s :=
          if arrive then
            s.setStage i (if w0.extractLsb' 0 3 = 2 then { x with bReserved := x.bReserved + 1 }
              else { x with fReserved := x.fReserved + 1 })
          else s.setWq wq.toNat { s.wq wq.toNat with reserved := (s.wq wq.toNat).reserved + 1 }
        s.pushEntry { s.entryHere (.enq grp wq) with ops := words }

def execQclose (wq : BitVec 6) (s : State) : Result :=
  issueSlot (.qclose wq) s fun s =>
    match s.ownerOf wq.toNat with
    | none => s.postHere 0x12
    | some _ =>
      let q := s.wq wq.toNat
      if q.closed then s
      else ((s.setWq wq.toNat { q with closed := true, closer := some s.ctx.core }).rouse wq.toNat).refresh

/-! ## Barriers: requests that reach the barrier later (R224) -/

def execBinit (opa bar : BitVec 6) (s : State) : Result :=
  issueSlot (.binit opa bar) s fun s => s.pushEntry { s.entryHere (.binit opa bar) with ops := [s.sa opa] }

def execBarr (bar : BitVec 6) (s : State) : Result :=
  issueSlot (.barr bar) s fun s => s.pushEntry (s.entryHere (.barr bar))

def execBexp (opa bar : BitVec 6) (s : State) : Result :=
  issueSlot (.bexp opa bar) s fun s => s.pushEntry { s.entryHere (.bexp opa bar) with ops := [s.sa opa] }

/-- `BPOLL`: read at the end of issue + 2, written at issue + 8 (R226). -/
def execBpoll (opa bar : BitVec 6) (s : State) : Result :=
  issueSlot (.bpoll opa bar) s fun s => s.pushEntry (s.entryHere (.bpoll opa bar))

/-- The code a `BWAIT` writes: LASTERR of the phase just completed, 0xFFFF of an older one (R225). -/
def bwaitCode (x : Barrier) (p : BitVec 8) : Nat := if p = x.phase - 1 then x.lastErr else 0xFFFF

/-- `BWAIT`: an acquire at `.clu`; with `.te` a code raises a posted trap (R225). -/
def execBwait (opa : BitVec 6) (te : BitVec 1) (bar : BitVec 6) (s : State) : Result :=
  issueSlot (.bwait opa te bar) s fun s =>
    let x := s.barrier (clusterOf s.ctx.core) bar.toNat
    let p := ((s.cur.waiting.bind (·.phase)) <|> (tfind bar.toNat s.cur.arrival)).getD x.phase
    let code := bwaitCode x p
    let k := s.cur
    let s := s.setCur { k with waiting := none, arrival := tdel bar.toNat k.arrival, runAhead := [] }
    let s := s.landS 2 opa (BitVec.ofNat 64 code)
    if te = 1 ∧ code ≠ 0 then s.postHere (if code = 0xFFFF then 0x1D else code % 256) else s

/-- `PHADV` (R227): the new phase is sent to the neighbours in the next clk (R451). -/
def execPhadv (s : State) : Result :=
  issueSlot .phadv s fun s => { s with regs := { s.regs with phase := s.regs.phase + 1 } }.schedule (s.clk + 1) .phaseFlit

/-! ## Markers and atomics (R265, R267) -/

def execFence (order : BitVec 2) (scope : BitVec 3) (s : State) : Result :=
  issueSlot (.fence order scope) s fun s => s.pushEntry (s.entryHere (.fence order scope))

def execQalign (s : State) : Result := issueSlot .qalign s fun s => s.pushEntry (s.entryHere .qalign)

/-- `AMO`: its operands are read at issue, its destination is empty until it is performed (R295). -/
def execAmo (order : BitVec 2) (opa opb : BitVec 6) (nr : BitVec 1) (scope : BitVec 3) (size : BitVec 1) (fn : BitVec 4)
    (s : State) : Result :=
  issueSlot (.amo order opa opb nr scope size fn) s fun s =>
    let i := Instr.amo order opa opb nr scope size fn
    let e := { s.entryHere i with addr := (s.sa opb).toNat, ops := [s.sa opa, s.cur.s (opa.toNat + 1)] }
    let s := s.setCur (s.cur.discardAhead (s.sa opb).toNat (if size = 0 then 4 else 8))
    (s.markEmpties (dests i)).pushEntry e

end Sys2Proof.Machine
end

