-- ==== Sys2Proof/Machine/Global.lean ====
section
/-! DEFINITION. Cluster and global loads and stores at issue (R284 to R294, spec/14): each becomes an entry of the load or the
store queue with its address, and a store with its data (R266). -/

namespace Sys2Proof.Machine

/-- The run-ahead entry of the current generation that a global load claims (R29; log 9). -/
def State.claims (s : State) (i : Instr) (a : Nat) : Option RunAheadEntry :=
  match i with
  | .ldg .. | .ldgv .. | .ldgx .. => s.cur.runAhead.find? fun e => e.addr = a ∧ e.size = accessBytes i ∧ e.gen = s.cur.raGen
  | _ => none

/-- A load of the sequencer at issue that nothing older holds back would return these data if it were performed now (R29, R266; log 9). -/
def State.wouldReturn (s : State) (e : QEntry) (x : Nat) : Bool :=
  let q := s.cur.queue ++ [e]
  mayPerform q s.cur.queue.length && (s.pieceLoad s.ctx.core (s.extentsOf s.cur) e.addr (accessBytes e.ins)).1 == x

/-- A queued load: its destinations become empty, and it enters the load queue with the data of the entry it claims (R17, R29, R287,
R289). -/
def queueLoad (i : Instr) (s : State) : State :=
  let a := slotAddr i s
  let claimed := s.claims i a
  let k := s.cur
  let e := { s.entryHere i with addr := a, claimed := claimed.map fun (r : RunAheadEntry) => r.data }
  let e := { e with sure := claimed.any fun (r : RunAheadEntry) => s.wouldReturn e r.data }
  ((s.setCur { k with runAhead := k.runAhead.filter fun e => claimed ≠ some e }).markEmpties (dests i)).pushEntry e

/-- A queued store with the data read at issue; run-ahead entries of the sectors it writes are discarded (R29, R288). -/
def queueStore (i : Instr) (data : List SReg) (row : Row) (side : SReg) (n : Nat) (s : State) : State :=
  let a := slotAddr i s
  let s := s.setCur (s.cur.discardAhead a n)
  s.pushEntry { s.entryHere i with addr := a, ops := data, row, side }

def execLdc (size : BitVec 3) (rd base : BitVec 6) (off : BitVec 8) (s : State) : Result :=
  issueSlot (.ldc size rd base off) s (queueLoad (.ldc size rd base off))
def execLdcv (rd : BitVec 7) (base : BitVec 6) (off : BitVec 8) (s : State) : Result :=
  issueSlot (.ldcv rd base off) s (queueLoad (.ldcv rd base off))
def execLdg (size : BitVec 3) (rd base : BitVec 6) (off : BitVec 8) (s : State) : Result :=
  issueSlot (.ldg size rd base off) s (queueLoad (.ldg size rd base off))
def execLdgv (rd : BitVec 7) (base : BitVec 6) (off : BitVec 8) (s : State) : Result :=
  issueSlot (.ldgv rd base off) s (queueLoad (.ldgv rd base off))
def execLdgx (rd : BitVec 7) (base : BitVec 6) (off : BitVec 8) (s : State) : Result :=
  issueSlot (.ldgx rd base off) s (queueLoad (.ldgx rd base off))

/-- The registers a scalar store reads: the pair for 16 bytes (R288). -/
def storeRegs (k : Bank) (rd : BitVec 6) : List SReg := [k.s rd.toNat, k.s (rd.toNat + 1)]

def execStc (size : BitVec 3) (rd base : BitVec 6) (off : BitVec 8) (s : State) : Result :=
  issueSlot (.stc size rd base off) s fun s =>
    queueStore (.stc size rd base off) (storeRegs s.cur rd) 0 0 (storeBytes size) s
def execStcv (rd : BitVec 7) (base : BitVec 6) (off : BitVec 8) (s : State) : Result :=
  issueSlot (.stcv rd base off) s fun s => queueStore (.stcv rd base off) [] (s.cur.v rd.toNat) 0 512 s
def execStg (size : BitVec 3) (rd base : BitVec 6) (off : BitVec 8) (s : State) : Result :=
  issueSlot (.stg size rd base off) s fun s =>
    queueStore (.stg size rd base off) (storeRegs s.cur rd) 0 0 (storeBytes size) s
def execStgv (rd : BitVec 7) (base : BitVec 6) (off : BitVec 8) (s : State) : Result :=
  issueSlot (.stgv rd base off) s fun s => queueStore (.stgv rd base off) [] (s.cur.v rd.toNat) 0 512 s

/-- `STGN`: the lane view at issue, 128 or 256, is kept with the row for the norm addition (R294). -/
def execStgn (rd : BitVec 7) (base : BitVec 6) (norm : BitVec 8) (s : State) : Result :=
  issueSlot (.stgn rd base norm) s fun s =>
    queueStore (.stgn rd base norm) [BitVec.ofNat 64 (s.cur.viewOf rd.toNat)] (s.cur.v rd.toNat) 0 512 s

/-- `STGX`: the source format, tag and elements are those of the register at issue (R292). -/
def execStgx (rd : BitVec 7) (base : BitVec 6) (off : BitVec 8) (s : State) : Result :=
  issueSlot (.stgx rd base off) s fun s =>
    let src := sparseSource s.cur rd.toNat
    queueStore (.stgx rd base off) [BitVec.ofNat 64 src.fmt, src.tag.setWidth 64] (s.cur.v rd.toNat) 0 64 s

/-- `PREF` is a hint and may fetch a line: the line of an address of the own die's home memory that passes every check is
filled into the slice (R290). -/
def execPref (base : BitVec 6) (off : BitVec 8) (s : State) : Result :=
  issueSlot (.pref base off) s fun s =>
    let a := slotAddr (.pref base off) s
    let xt := tget [] ((s.cur.task.map (·.invocation)).getD 0) s.extents
    match s.checkGlobal xt s.cur.priv false false a 1 with
    | .inl _ => s
    | .inr l =>
      match l with
      | p :: _ =>
        match p.loc with
        | .home d o => (s.coreLoad (clusterOf s.ctx.core) (.home d o) 1).2
        | .lp d o => if d = dieOf s.ctx.core then s else (s.coreLoad (clusterOf s.ctx.core) (.lp d o) 1).2
        | _ => s
      | [] => s

end Sys2Proof.Machine
end

