-- ==== Sys2Proof/Machine/Async.lean ====
section
/-! DEFINITION. The A class at issue (R348 to R371, spec/18): acceptance of commands by their engines, with the state each
captures (R303, spec/16). -/

namespace Sys2Proof.Machine

/-! ## Acceptance -/

/-- A release among queue entries (R272, R354): `FENCE` `.rel` and `.acqrel`, releasing `AMO`s, `BARR`, the record of an `ENQ`, and the
completion of an item by a `DEQ`. -/
def isRelease (e : QEntry) : Bool :=
  match e.ins with
  | .fence order _ => order = 2 || order = 3
  | .amo order .. => order = 2 || order = 3
  | .barr _ | .enq .. | .deq .. | .deqt .. => true
  | _ => false

/-- A `PUBLISH`, which releases at its scope (R272). -/
def Command.publishes (c : Command) : Bool :=
  match c.ins with
  | .publish .. => true
  | _ => false

/-- A home page of a virtual address of a task, as die and page. -/
def State.pageAt (s : State) (invocation va : Nat) : Option (Nat × Nat) :=
  (findExtent (tget [] invocation s.extents) (va % 2 ^ 56)).bind fun e =>
    match s.locate e.hm (e.pbase + (va % 2 ^ 56 - e.vbase)) with
    | .home d off => some (d, off / 4096)
    | _ => none

/-- The open shadow whose extent begins at an address, as die and index: the page there is its first, or the task that opened it names
its base, whatever the pointer tag (R365). -/
def State.findShadow (s : State) (invocation va : Nat) : Option (Nat × Nat) :=
  let at' := s.pageAt invocation va
  s.dies.findSome? fun e => (e.2.shadows.find? fun h =>
    decide (va % 65536 = 0) && (at' == some (e.1, h.2.first) || (h.2.invocation == invocation && h.2.base % 2 ^ 56 == va % 2 ^ 56))).map
      fun h => (e.1, h.1)

/-- The open shadows whose `PUBLISH` has not issued, as die and number of the opening (R315). -/
def State.openShadows (s : State) : List (Nat × Nat) :=
  let published := s.commands.filterMap fun c => match c.ins with
    | .publish .. => s.findShadow c.who.invocation c.addr
    | _ => none
  s.dies.flatMap fun e => (e.2.shadows.filter fun h => !published.contains (e.1, h.1)).map fun h => (e.1, h.2.id)

/-- The releases of the sequencer at issue that have still to take effect, by number (R354). -/
def State.releasesHere (s : State) : List Nat :=
  (s.cur.queue.filter isRelease).map (·.id)
    ++ (s.commands.filter fun c => c.publishes && c.who.core == s.ctx.core && c.who.bank == s.ctx.bank).map (·.id)

/-- What a command captures at acceptance (R303). -/
def State.capture (s : State) : Captured :=
  let k := s.cur
  { core := s.ctx.core, bank := s.ctx.bank, bundle := s.ctx.addr, pos := s.ctx.pos, issued := s.clk, priv := k.priv,
    invocation := (k.task.map (·.invocation)).getD 0, stage := (k.task.map (·.stage)).getD 0,
    partition := (k.task.map (·.partition)).getD 0, seeds := k.seeds, shadows := s.openShadows,
    after := s.releasesHere }

/-- A queue entry or a `PUBLISH` of a list of numbers is still to be performed, by a bank of a core or by one in shadow storage. -/
def State.stillQueued (s : State) (ids : List Nat) : Bool :=
  let has (k : Bank) : Bool := k.queue.any fun e => ids.contains e.id
  !ids.isEmpty && ((s.cores.any fun e => has e.2.bank0 || has e.2.bank1) || (s.clusters.any fun e => e.2.shadow.any fun h => has h.2.2)
    || s.commands.any fun c => c.publishes && ids.contains c.id)

/-- Every release older than a command has taken effect (R354). -/
def State.released (s : State) (w : Captured) : Bool := !s.stillQueued w.after

/-- A command of the slot at issue waits for its effect (R351, R354), behind the entries of the sequencer that a test selects. -/
def State.pushCommand (s : State) (i : Instr) (addr : Nat) (ops : List SReg) (behind : QEntry → Bool) : State :=
  let c : Command := { who := s.capture, ins := i, addr, ops, id := s.nextEntry, waits := (s.cur.queue.filter behind).map (·.id) }
  { s with commands := s.commands ++ [c], nextEntry := s.nextEntry + 1 }

/-- One provisional byte on each barrier of a list; none where one would overflow (R312, R352). -/
def State.provisional (s : State) (k : Nat) : List Nat → Option State
  | [] => some s
  | b :: r => (s.countUp k b 1).bind fun s => s.provisional k r

/-! ## Copy commands (R306, R311, R355) -/

/-- The block of 64 bytes (R306), with its reserved fields and values (R306, R307, R309). -/
def CopyBlock.ofNat (x : Nat) : CopyBlock :=
  let f (lo n : Nat) := fieldAt x lo n
  let kind := f 0 1
  let flags := f 1 1
  let dspace := f 2 1
  let sspace := f 3 1
  let param := f 6 2
  let aux := f 40 8
  let srci := flags % 2 = 1
  let dsti := flags / 2 % 2 = 1
  let header := kind = 2 || kind = 3 || kind = 4 || kind = 6
  let bad := 8 ≤ kind || 4 ≤ flags || 16 ≤ dspace || 5 ≤ dspace % 8 || 3 ≤ sspace || 64 ≤ f 4 1 || f 5 1 ≠ 0 || f 56 8 ≠ 0
    || (srci && (sspace ≠ 0 || f 8 8 ≠ 0)) || (dsti && (dspace ≠ 0 || f 16 8 ≠ 0))
    || ((dspace % 8 = 3 || dspace % 8 = 4) && !(kind = 0 || kind = 1 || kind = 2))
    || (header && (f 24 4 ≠ 0 || f 28 4 ≠ 0 || f 32 4 ≠ 0 || f 36 4 ≠ 0))
    || (kind = 0 && (param ≠ 0 || aux ≠ 0))
    || (kind = 1 && (param ≠ 0 || aux / 2 ^ 6 % 4 ≠ 0 || aux / 2 ^ 56 ≠ 0 || f 24 4 ≠ 0 || f 28 4 ≠ 0 || f 32 4 ≠ 0))
    || (kind = 2 && (param / 2 ^ 9 ≠ 0 || aux / 2 ^ 32 ≠ 0 || 5 ≤ param % 8 || (param / 16 % 2 = 1 && param / 32 % 16 ≠ 0)))
    || ((kind = 3 || kind = 4 || kind = 6) && (param ≠ 0 || aux ≠ 0))
    || (kind = 5 && (param / 2 % 8 ≠ 0 || param / 256 ≠ 0))
    || (kind = 7 && (param ≠ 0 || aux / 64 ≠ 0 || f 24 4 ≠ 32 || f 28 4 ≠ 0 || f 32 4 ≠ 0 || f 36 4 ≠ 0))
  { kind, flags, dspace, sspace, bar := f 4 1 % 64, param, src := f 8 8, dst := f 16 8, len := f 24 4,
    rows := max 1 (f 28 4), spitch := f 32 4, dpitch := f 36 4, aux, link := f 48 8, bad }

/-- A block whose counted bytes depend on a header (R352). -/
def CopyBlock.isHeader (b : CopyBlock) : Bool :=
  b.kind = 2 || b.kind = 3 || b.kind = 4 || b.kind = 6 || (b.kind = 0 && (b.dspace % 8 = 3 || b.dspace % 8 = 4))

/-- Bytes of a pattern element (R258). -/
def patternBytes (p : BitVec 256) : Nat := 2 ^ ((p.extractLsb' 96 8).toNat % 4)

/-- Counted bytes of a block that no header decides (R307). -/
def CopyBlock.plainCount (b : CopyBlock) (elem : Nat) : Nat :=
  match b.kind with
  | 0 | 5 => b.rows * b.len
  | 1 => (b.aux / 2 ^ 48 % 256 + 1) * 128 * elem
  | _ => 32

/-- The chain from a block address on, read in the acceptance clk; the space it lies in gives its bytes or a cause (R311,
R355). -/
def readChain (read : Nat → Nat ⊕ Nat) : Nat → Nat → Nat ⊕ List CopyBlock
  | 0, _ => .inl 0x1D
  | fuel + 1, a =>
    match read a with
    | .inl cause => .inl cause
    | .inr x =>
      let b := CopyBlock.ofNat x
      if b.link = 0 then .inr [b]
      else if b.link % 64 ≠ 0 then .inl 0x1D
      else
        match readChain read fuel b.link with
        | .inl cause => .inl cause
        | .inr l => .inr (b :: l)

/-- Bytes of the intermediate that a block fills, where the block says so: `elem` gives the element size of a gather's pattern (R311). -/
def CopyBlock.reach (b : CopyBlock) (elem : CopyBlock → Nat) : Nat :=
  match b.kind with
  | 0 | 5 => (b.rows - 1) * b.dpitch + b.len
  | 1 => if b.deferred then 0 else b.aux / 2 ^ 48 % 256 * b.dpitch + 128 * elem b
  | _ => 0

/-- The gathers of a chain whose pattern is still to be written: entries of a list that earlier commands write, or that an earlier block
of the chain writes (R355). -/
def deferGathers : List Nat → List CopyBlock → List CopyBlock
  | _, [] => []
  | pending, b :: r =>
    if b.kind = 7 then b :: deferGathers (b.aux % 64 :: pending) r
    else { b with deferred := b.kind = 1 && pending.contains (b.aux % 64) } :: deferGathers pending r

/-- The pattern entries that accepted commands of a die have still to write. -/
def State.pendingPatterns (s : State) (d : Nat) : List Nat :=
  (s.cores.filter fun e => dieOf e.1 = d).flatMap fun e => e.2.channels.flatMap fun h => h.2.queue.flatMap fun q =>
    (q.blocks.filter fun b => b.kind = 7).map fun b => b.aux % 64

/-- The chain rules of R311. -/
def chainBad (elem : CopyBlock → Nat) (l : List CopyBlock) : Bool :=
  16 < l.length || l.any (·.bad)
    || (l.getLast?.any fun b => b.flags / 2 % 2 = 1)
    || ((l.zip (l.drop 1)).any fun (p, q) => q.flags % 2 = 1 && p.flags / 2 % 2 = 0)
    || (l.head?.any fun b => b.flags % 2 = 1)
    || l.any fun b => b.flags / 2 % 2 = 1 && decide (2 ^ 18 < b.reach elem)

/-- The opcode that accepts a chain (R355). -/
def wrongOpcode (gath : Bool) (l : List CopyBlock) : Bool :=
  if gath then !l.head?.any fun b => b.kind = 1 || b.kind = 7 else l.any fun b => b.kind = 1 || b.kind = 7

/-- A block that the copy channel runs itself: one COPY or FILL (R311). -/
def runsOnChannel (l : List CopyBlock) : Bool :=
  match l with
  | [b] => b.kind = 0 || b.kind = 5
  | _ => false

/-- Adds the counted bytes of blocks to their barriers; none where one overflows (R312). -/
def State.countBlocks (s : State) (k : Nat) : List (Nat × Nat) → Option State
  | [] => some s
  | (b, n) :: r => (s.countUp k b n).bind fun s => s.countBlocks k r

/-- `CPY` and `GATH`: the command enters its channel's queue, or is refused (R303, R311, R312, R353, R355). -/
def acceptCopy (gath : Bool) (opa : BitVec 6) (inCluster : BitVec 1) (chan : BitVec 2) (s : State) : State :=
  let c := s.ctx.core
  let cl := clusterOf c
  let pad := s.curCore.pad
  let q := s.cluster cl
  let read (a : Nat) : Nat ⊕ Nat :=
    if inCluster = 1 then
      match q.check a 64 with
      | some cause => .inl cause
      | none => .inr (mread q.cmem a 64)
    else if Config.scratchpadBytes < a + 64 then .inl 0x1D
    else .inr (mread pad a 64)
  match readChain read 17 (s.sa opa).toNat with
  | .inl cause => s.postHere cause
  | .inr l =>
    let l := deferGathers (s.pendingPatterns (dieOf c)) l
    let elem (b : CopyBlock) : Nat := patternBytes (tget 0 (b.aux % 64) (s.die (dieOf c)).patterns)
    if chainBad elem l ∨ wrongOpcode gath l then s.postHere 0x1D
    else
      let hasHeader := l.any fun b => b.isHeader || b.deferred
      let bars := (l.map (·.bar)).eraseDups
      let counts := l.map fun b => b.plainCount (elem b)
      let counted := if hasHeader then s.provisional cl bars else s.countBlocks cl ((l.map (·.bar)).zip counts)
      match counted with
      | none => s.postHere 0x1D
      | some s =>
        let cmd : CopyCmd := { who := s.capture, blocks := l, onEngine := !runsOnChannel l,
                               mcfg0 := s.cur.eng0.mcfg, mcfg1 := s.cur.eng1.mcfg,
                               provisional := if hasHeader then bars else [],
                               counted := if hasHeader then [] else counts, fixed := !hasHeader,
                               left := if hasHeader then 0 else counts.headD 0 }
        let x := s.curCore
        let h := x.channel chan.toNat
        s.setCurCore { x with channels := tset chan.toNat { h with queue := h.queue ++ [cmd] } x.channels }

def execCpy (opa : BitVec 6) (inCluster : BitVec 1) (chan : BitVec 2) (s : State) : Result :=
  issueSlot (.cpy opa inCluster chan) s (acceptCopy false opa inCluster chan)
def execGath (opa : BitVec 6) (inCluster : BitVec 1) (chan : BitVec 2) (s : State) : Result :=
  issueSlot (.gath opa inCluster chan) s (acceptCopy true opa inCluster chan)

/-! ## Stash commands (R356 to R359) -/

/-- A stash command enters the core's stash queue and takes its place on its key; with a barrier it adds its provisional byte (R336, R350,
R352). -/
def acceptStash (cmd : StashCmd) (s : State) : State :=
  let put (s : State) : State :=
    ((s.setCurCore { s.curCore with stashQueue := s.curCore.stashQueue ++ [s.nextEntry] }).enterStash (dieOf s.ctx.core) cmd).refresh
  match cmd.bar with
  | none => put s
  | some b =>
    match s.provisional (clusterOf s.ctx.core) [b] with
    | some s => put s
    | none => s.postHere 0x1D

/-- The 32-bit key of a key register (R331). -/
def keyOf (v : SReg) : Nat := v.toNat % 2 ^ 32

/-- The snapshot record of a stage and tag; a `CKPT` leaves one at most (R344, R345). -/
def State.snapOf (s : State) (stage tag : Nat) : Option SnapRecord :=
  (s.dies.flatMap fun e => e.2.snaps).find? fun r => r.stage = stage ∧ r.tag = tag

/-- `STASH`: RESV in units of 32 bytes from key bits 47:32 (R331); the occupancy, the snapshot and the seed are those of the
acceptance (R334, R339, R341). -/
def execStash (opa opb bar : BitVec 6) (mode : BitVec 3) (s : State) : Result :=
  issueSlot (.stash opa opb bar mode) s fun s =>
    let key := keyOf (s.sa opb)
    let w := s.capture
    let nseed := (((s.die (dieOf w.core)).policy w.stage).extractLsb' 12 4).toNat
    acceptStash { op := 0, mode := mode.toNat, header := (s.sa opa).toNat, key,
                  resv := 32 * ((s.sa opb).extractLsb' 32 16).toNat, bar := some bar.toNat, who := w,
                  occupied := s.occupancy w.stage, eligible := (s.snapOf w.stage (key % 65536)).isSome,
                  seed := s.cur.seed nseed } s

def execSfetch (opa opb bar : BitVec 6) (s : State) : Result :=
  issueSlot (.sfetch opa opb bar) s fun s =>
    acceptStash { op := 1, header := (s.sa opa).toNat, key := keyOf (s.sa opb), bar := some bar.toNat, who := s.capture } s

def execSfree (opb : BitVec 6) (s : State) : Result :=
  issueSlot (.sfree opb) s fun s => acceptStash { op := 2, key := keyOf (s.sa opb), who := s.capture } s

/-- `SPROBE`: an entry of the load queue (R350, R358). -/
def execSprobe (opa opb : BitVec 6) (s : State) : Result :=
  issueSlot (.sprobe opa opb) s fun s =>
    let e := { s.entryHere (.sprobe opa opb) with ops := [s.sa opb] }
    (s.markEmpties (dests (.sprobe opa opb))).pushEntry e

/-! ## Channel and collective commands (R360 to R363) -/

/-- `CHSEND`: the packet enters SQ with its descriptor; a channel not bound to the stage as sender refuses it (R360). -/
def execChsend (opa opb chan : BitVec 6) (s : State) : Result :=
  issueSlot (.chsend opa opb chan) s fun s =>
    let t := s.tensor chan.toNat
    let w := s.capture
    let d := s.sa opb
    if !t.bound ∨ !t.sender ∨ t.stage ≠ w.stage then s.postHere 0x19
    else
      let counted := if d.getLsbD 3 then s.provisional (clusterOf s.ctx.core) [(d.extractLsb' 4 6).toNat] else some s
      match counted with
      | none => s.postHere 0x1D
      | some s =>
        let p : Packet := { who := w, descriptor := d, headerAddr := (s.sa opa).toNat, provisional := d.getLsbD 3 }
        { s with tensors := tset chan.toNat { t with sq := t.sq ++ [p] } s.tensors }

/-- `CHPOST`: waits for the releases older than it; its header is read then (R361). -/
def execChpost (opa chan : BitVec 6) (s : State) : Result :=
  issueSlot (.chpost opa chan) s fun s => s.pushCommand (.chpost opa chan) (s.sa opa).toNat [] isRelease

/-- `CHACK`: waits for every older load (R362). -/
def execChack (opb chan : BitVec 6) (s : State) : Result :=
  issueSlot (.chack opb chan) s fun s => s.pushCommand (.chack opb chan) 0 [s.sa opb] fun e => (entryKinds e).loads

/-- `COLL`: the bucket enters the engine; its descriptor is read after R354 (R323, R352, R363). -/
def execColl (opa bar : BitVec 6) (s : State) : Result :=
  issueSlot (.coll opa bar) s fun s =>
    match s.provisional (clusterOf s.ctx.core) [bar.toNat] with
    | none => s.postHere 0x1D
    | some s => { s with buckets := s.buckets ++ [{ who := s.capture, bar := bar.toNat, descAddr := (s.sa opa).toNat }] }

/-! ## Commands of the command port (R351, R364 to R367) -/

def execShopen (opa opb : BitVec 6) (s : State) : Result :=
  issueSlot (.shopen opa opb) s fun s => s.pushCommand (.shopen opa opb) (s.sa opa).toNat [s.sa opb] fun _ => false

/-- `PUBLISH`: waits for every older store of the sequencer (R280, R365). -/
def execPublish (opa : BitVec 6) (scope : BitVec 3) (s : State) : Result :=
  issueSlot (.publish opa scope) s fun s => s.pushCommand (.publish opa scope) (s.sa opa).toNat [] fun e => (entryKinds e).stores

/-- `SPLIT`: waits for every older access of the sequencer to cluster memory (R367). -/
def execSplit (opa : BitVec 6) (s : State) : Result :=
  issueSlot (.split opa) s fun s => s.pushCommand (.split opa) 0 [s.sa opa] isClusterAccess

/-- The sequencers that a snapshot covers: workers of the stage within the scope of the issuer, by worker index (R344). -/
def State.covered (s : State) (c b scope : Nat) : List (Nat × Nat × Nat) :=
  let k := s.bank c b
  match k.task with
  | none => []
  | some t =>
    let all := s.cores.flatMap fun (n, x) => [(n, 0, x.bank0), (n, 1, x.bank1)]
    let inScope (n m : Nat) : Bool :=
      match scope with
      | 0 => n = c && m = b
      | 1 => n = c
      | 2 => clusterOf n = clusterOf c
      | _ => dieOf n = dieOf c
    let mine := all.filterMap fun (n, m, y) =>
      match y.task with
      | some u =>
        if u.stage = t.stage ∧ u.invocation = t.invocation ∧ inScope n m ∧ y.state ≠ .halted then some (u.worker, n, m) else none
      | none => none
    mine.foldl (fun l a => l.takeWhile (fun b => b.1 < a.1) ++ a :: l.dropWhile (fun b => b.1 < a.1)) []

/-- Generators and seeds as the bytes of a snapshot record's entry from GEN to SEEDI (R345). -/
def Bank.regBytes (k : Bank) : List Byte :=
  ((List.range 4).flatMap fun g => natBytes 8 (k.gen g).key.toNat ++ natBytes 8 (k.gen g).ctr.toNat)
    ++ ((List.range 16).flatMap fun n => natBytes 8 (k.seed n).value.toNat)
    ++ (List.range 16).flatMap fun n => natBytes 2 (k.seed n).ident.toNat

/-- The generators of those bytes. -/
def regGens (x : Nat) : Table Gen :=
  (List.range 4).map fun g => (g, ⟨BitVec.ofNat 64 (fieldAt x (16 * g) 8), BitVec.ofNat 64 (fieldAt x (16 * g + 8) 8)⟩)

/-- The seeds of those bytes. -/
def regSeeds (x : Nat) : Table Seed :=
  (List.range 16).map fun n => (n, ⟨BitVec.ofNat 12 (fieldAt x (192 + 2 * n) 2), BitVec.ofNat 64 (fieldAt x (64 + 8 * n) 8)⟩)

/-- `CKPT`: the issuer's registers as they stand now; the others are captured at issue + 2, where each stands at a bundle boundary (R344,
R366; log 38). -/
def execCkpt (opb : BitVec 6) (scope : BitVec 3) (s : State) : Result :=
  issueSlot (.ckpt opb scope) s fun s =>
    let covers := (s.covered s.ctx.core s.ctx.bank scope.toNat).map fun (w, c, b) =>
      (w, c, b, if (c, b) = s.me then some (bytesNat s.cur.regBytes) else none)
    let c : Command := { who := s.capture, ins := .ckpt opb scope, ops := [s.sa opb, s.cur.lastStep], id := s.nextEntry, covers }
    { s.schedule (s.clk + 2) (.snapCapture s.nextEntry) with commands := s.commands ++ [c], nextEntry := s.nextEntry + 1 }

/-- The registers of the sequencers that a `CKPT` covers, as they stand now (R344). -/
def State.captureSnap (s : State) (id : Nat) : State :=
  { s with commands := s.commands.map fun c =>
      if c.id = id then
        { c with covers := c.covers.map fun (w, n, b, x) => (w, n, b, x <|> some (bytesNat (s.bank n b).regBytes)) }
      else c }

/-- Registers of a snapshot entry written into a bank in issue + `lat` (R346). -/
def State.landSnapshot (s : State) (lat : Nat) (gens : Table Gen) (seeds : Table Seed) : State :=
  let s := (List.range 4).foldl (fun (s : State) g => let v := tget {} g gens; s.land lat (.gen g v.key v.ctr)) s
  (List.range 16).foldl (fun (s : State) n => s.land lat (.seed n (tget ⟨0, 0⟩ n seeds))) s

/-- The die that holds the snapshot record of a stage and tag. -/
def State.snapDie (s : State) (stage tag : Nat) : Nat :=
  ((s.dies.find? fun e => e.2.snaps.any fun r => r.stage = stage ∧ r.tag = tag).map (·.1)).getD 0

/-- The bytes of a snapshot record as its granules of SNPPOOL hold them, seen through the extents of a task (R345, R346). -/
def State.snapImage (s : State) (xt : List Extent) (d : Nat) (r : SnapRecord) : Nat :=
  bytesNat (r.granules.flatMap fun g =>
    (s.parts xt 2 (((s.die d).region 3).1 + 256 * g) 256).flatMap fun p => natBytes p.n (s.rawRead p.loc p.n))

/-- `REPLAY`: the registers that the record holds, the issuer's at issue + 4, the others' at issue + 2, where each stands at a bundle
boundary (R346, R347; log 38). -/
def execReplay (opb : BitVec 6) (s : State) : Result :=
  issueSlot (.replay opb) s fun s =>
    let stage := (s.cur.task.map (·.stage)).getD 0
    let tag := (s.sa opb).toNat % 65536
    match s.snapOf stage tag with
    | none => s.postHere 0x1D
    | some r =>
      let l := s.covered s.ctx.core s.ctx.bank r.scope
      if l.length ≠ r.covered.length then s.postHere 0x1D
      else
        let image := s.snapImage (s.extentsOf s.cur) (s.snapDie stage tag) r
        (l.zipIdx).foldl (fun (s : State) (w, i) =>
          let x := image / 256 ^ (64 + 256 * i + 8) % 256 ^ 224
          if w.2 = s.me then
            let s := s.landSnapshot 4 (regGens x) (regSeeds x)
            s.setCur { s.cur with replaying := some (stage, tag) }
          else s.schedule (s.clk + 2) (.replayRestore w.2.1 w.2.2 stage tag (regGens x) (regSeeds x))) s

/-! ## Write pointers and norm registers (R368 to R370) -/

/-- `WPWAIT`: where no delivery can raise the pointer any more, a posted `ENGINE` (R368). -/
def execWpwait (opa : BitVec 6) (chan : BitVec 2) (s : State) : Result :=
  issueSlot (.wpwait opa chan) s fun s =>
    if (s.curCore.channel chan.toNat).offset < ((s.sa opa).extractLsb' 0 24).toNat then s.postHere 0x1D else s

def execNrmrd (opa : BitVec 6) (wantE : BitVec 1) (norm : BitVec 8) (s : State) : Result :=
  issueSlot (.nrmrd opa wantE norm) s fun s =>
    (s.markEmpties (dests (.nrmrd opa wantE norm))).pushEntry (s.entryHere (.nrmrd opa wantE norm))

def execNrmclr (norm : BitVec 8) (s : State) : Result :=
  issueSlot (.nrmclr norm) s fun s => s.pushEntry (s.entryHere (.nrmclr norm))

def execNrmset (opa : BitVec 6) (norm : BitVec 8) (s : State) : Result :=
  issueSlot (.nrmset opa norm) s fun s => s.pushEntry { s.entryHere (.nrmset opa norm) with ops := [s.sa opa] }

end Sys2Proof.Machine
end

