-- ==== Sys2Proof/Machine/Branch.lean ====
section
/-! DEFINITION. The branch and sequencer class (R27, R29, spec/01; R113 to R126, spec/05) and what a bundle leaves at its
end: the end test of the hardware loops and the next position (R10, R118). -/

namespace Sys2Proof.Machine

/-! ## Conditional branches -/

/-- A branch that resolves against its hint advances the generation and discards every older entry (R29). -/
def Bank.mispredict (k : Bank) : Bank := { k with raGen := k.raGen + 1, runAhead := [] }

/-- A conditional branch: 1 clk to the next bundle when the hint agrees with the outcome, 4 otherwise (R27, R114). -/
def condBranch (i : Instr) (hint : BitVec 1) (s : State) : Result :=
  issueSlot i s fun s =>
    let target := transferTarget i s
    let agree := (hint = 1) = target.isSome
    let gap := if agree then 1 else 4
    let t := if agree then s else s.setCur s.cur.mispredict
    match target with
    | some a => t.transfer a gap
    | none => t.setGap gap

def execBrz (hint : BitVec 1) (ra : BitVec 6) (off : BitVec 15) (s : State) : Result := condBranch (.brz hint ra off) hint s
def execBrnz (hint : BitVec 1) (ra : BitVec 6) (off : BitVec 15) (s : State) : Result := condBranch (.brnz hint ra off) hint s
def execBrkt (hint : BitVec 1) (rk : BitVec 4) (off : BitVec 15) (s : State) : Result := condBranch (.brkt hint rk off) hint s
def execBrkf (hint : BitVec 1) (rk : BitVec 4) (off : BitVec 15) (s : State) : Result := condBranch (.brkf hint rk off) hint s

/-! ## Jumps and calls (R116) -/

/-- A transfer that is always made. -/
def jumpTo (i : Instr) (gap : Nat) (s : State) : State :=
  match transferTarget i s with
  | some a => s.transfer a gap
  | none => s

/-- Clk from a register jump to its target: 1 when the register has held its value for 4 clk, 4 otherwise (R116). A write of the register by
another slot of the jump's bundle counts as pending (log 63). -/
def registerGap (k : Bank) (now : Nat) (r : Nat) : Nat :=
  if k.pendingS r ∨ ((tfind r k.sChanged).any fun c => now < c + 4) then 4 else 1

def execJmp (off : BitVec 21) (s : State) : Result := issueSlot (.jmp off) s (jumpTo (.jmp off) 1)

def execJmpi (ra : BitVec 6) (s : State) : Result :=
  issueSlot (.jmpi ra) s fun s => jumpTo (.jmpi ra) (registerGap s.cur s.clk ra.toNat) s

/-- `CALL`: the address of the following bundle into the link register, latency 1 (R116). -/
def execCall (rd : BitVec 6) (off : BitVec 15) (s : State) : Result :=
  issueSlot (.call rd off) s fun s => jumpTo (.call rd off) 1 (s.landS 1 rd (BitVec.ofNat 64 (nextAddr s)))

def execRet (ra : BitVec 6) (s : State) : Result :=
  issueSlot (.ret ra) s fun s => jumpTo (.ret ra) (registerGap s.cur s.clk ra.toNat) s

/-! ## Hardware loops (R117 to R123) -/

/-- Enters a loop, or with a count of 0 skips to the bundle after its end bundle 4 clk later (R117). -/
def enterLoop (i : Instr) (count : BitVec 32) (endw : BitVec 13) (s : State) : State :=
  if count = 0 then jumpTo i 4 s
  else
    let start := nextAddr s
    let k := s.cur
    s.setCur { k with loops := ⟨start, start + 4 * endw.toNat, count, 0⟩ :: k.loops }

def execLoop (ra : BitVec 6) (endw : BitVec 13) (s : State) : Result :=
  issueSlot (.loop ra endw) s fun s => enterLoop (.loop ra endw) ((s.sa ra).extractLsb' 0 32) endw s

def execLoopi (cnt : BitVec 9) (endw : BitVec 13) (s : State) : Result :=
  issueSlot (.loopi cnt endw) s fun s =>
    enterLoop (.loopi cnt endw) (BitVec.ofNat 32 (immUnsigned s.ctx.ext 9 cnt)) endw s

/-- One field of a loop entry written (R48, R120). -/
def LoopEntry.setField (e : LoopEntry) (fld : BitVec 2) (v : BitVec 32) : LoopEntry :=
  match fld.toNat with
  | 0 => { e with remaining := v }
  | 1 => { e with index := v }
  | 2 => { e with start := v.toNat }
  | _ => { e with stop := v.toNat }

def execLset (lvl : BitVec 3) (fld : BitVec 2) (ra : BitVec 6) (s : State) : Result :=
  issueSlot (.lset lvl fld ra) s fun s =>
    let k := s.cur
    s.setCur { k with loops := k.loops.modify lvl.toNat fun e => e.setField fld ((s.sa ra).extractLsb' 0 32) }

def execLidx (rd : BitVec 6) (lvl : BitVec 3) (s : State) : Result :=
  issueSlot (.lidx rd lvl) s fun s =>
    s.landS 1 rd (((s.cur.loops[lvl.toNat]?).map fun e => e.index.setWidth 64).getD 0)

def execLbrk (lvl : BitVec 3) (s : State) : Result :=
  issueSlot (.lbrk lvl) s fun s =>
    let t := jumpTo (.lbrk lvl) 4 s
    t.setCur { t.cur with loops := t.cur.loops.drop (lvl.toNat + 1) }

/-! ## Waits, traps and halt (R124 to R126) -/

def execWaitc (cnt : BitVec 21) (s : State) : Result :=
  issueSlot (.waitc cnt) s fun s => s.setGap (immUnsigned s.ctx.ext 21 cnt)

/-- `TRAP`: the issue trap 0x1C with CODE16 (R125). -/
def execTrap (code : BitVec 16) (s : State) : Result :=
  issueSlot (.trap code) s fun s => s.takeIssueTrap 0x1C s.ctx.pos code.toNat

/-- `HALT`: the sequencer stops after its bundle (R126), and its item completes (R195). The release of R192 comes with the
report of the halt. -/
def execHalt (s : State) : Result :=
  issueSlot .halt s fun s =>
    let s := s.completeItem s.ctx.core s.ctx.bank
    (s.setCur { s.cur with state := .halted, haltReported := false, haltClk := s.clk }).refresh

/-! ## The end of a bundle -/

/-- The end test of R118 at end address `a`: pops finished entries that share the end, or branches back; answers the
loop stack and the branch-back target. -/
def endTest (a : Nat) : List LoopEntry → List LoopEntry × Option Nat
  | [] => ([], none)
  | e :: r =>
    if e.stop = a then
      if e.remaining.toNat ≤ 1 then endTest a r
      else ({ e with remaining := e.remaining - 1, index := e.index + 1 } :: r, some e.start)
    else (e :: r, none)

/-- Where the sequencer stands after the bundle at issue: a transfer of its own, a branch back, or the next bundle, with
the loop stack (R10, R118). -/
def nextPosition (s : State) : Nat × List LoopEntry :=
  match s.ctx.next with
  | some a => (a, s.cur.loops)
  | none =>
    match endTest s.ctx.addr s.cur.loops with
    | (l, some a) => (a, l)
    | (l, none) => (nextAddr s, l)

/-- The bundle leads past the end of the code section by fall-through, or its loop branches back to a start that is no target of R113. -/
def fallsOff (s : State) : Bool :=
  s.cur.state == .runnable && s.ctx.next.isNone
    && match (endTest s.ctx.addr s.cur.loops).2 with
      | some a => badTarget s a
      | none => decide (4 * (s.codeOf s.cur).length ≤ nextAddr s)

end Sys2Proof.Machine
end

