-- ==== Sys2Proof/Machine/HostRings.lean ====
section
/-! DEFINITION. Host queues, their completions and the command journal (R459, R463 to R470, spec/24 and spec/25). -/

namespace Sys2Proof.Machine

/-- Host queue `q`. -/
def State.hostQueue (s : State) (q : Nat) : HostQueue := tget {} q s.hostQueues
/-- The state with a host queue replaced. -/
def State.setHostQueue (s : State) (q : Nat) (x : HostQueue) : State := { s with hostQueues := tset q x s.hostQueues }

/-! ## Completions (R469) -/

/-- The completion ring is full. -/
def HostQueue.cplFull (x : HostQueue) : Bool := decide (2 ^ x.clog ≤ x.written - x.taken)

/-- A journal entry as the 64 bytes of each of its copies (R459). -/
def JournalEntry.image (e : JournalEntry) : List Byte :=
  let l := natBytes 8 e.seq ++ natBytes 2 e.queue ++ natBytes 1 e.state ++ natBytes 1 0 ++ natBytes 4 e.status ++ natBytes 8 e.ring
    ++ natBytes 32 e.body
  l ++ natBytes 8 (Config.crc64 l).toNat

/-- A change of journal entries, made in both copies (R459). -/
def State.updateJournal (s : State) (f : JournalEntry → JournalEntry) : State :=
  { s with journal := s.journal.map f, mirror := s.mirror.map f }

/-- The journal entry of a command becomes COMPLETED (R459). -/
def State.markCompleted (s : State) (q seq status : Nat) : State :=
  s.updateJournal fun e => if e.queue = q ∧ e.seq = seq then { e with state := 3, status, intact := true } else e

/-- A completion entry written to the ring, followed by its MSI-X message; its command is COMPLETED in this clk (R459, R469). -/
def State.writeCompletion (s : State) (q : Nat) (h : HeldCompletion) : State :=
  let x := s.hostQueue q
  let entry := h.cid + 2 ^ 64 * h.seq + 2 ^ 128 * h.status + 2 ^ 160 * h.info + 2 ^ 248 * x.cphase.toNat
  let next := (x.ctail + 1) % 2 ^ x.clog
  let s := { s with hostMem := mwrite s.hostMem (x.cpl + 32 * x.ctail) 32 entry, sent := s.sent ++ [Flit.msix x.vec] }
  let s := s.setHostQueue q { x with ctail := next, cphase := if next = 0 then !x.cphase else x.cphase, written := x.written + 1 }
  match h.source with
  | some o => s.markCompleted o h.seq h.status
  | none => s

/-- A completion: written at once, or held while the ring is full. -/
def State.postCompletion (s : State) (q : Nat) (h : HeldCompletion) : State :=
  let x := s.hostQueue q
  if x.cplFull ∨ !x.heldCpl.isEmpty then s.setHostQueue q { x with heldCpl := x.heldCpl ++ [h] } else s.writeCompletion q h

/-- All ones: the CID of an admin event. -/
def adminCid : Nat := 2 ^ 64 - 1

/-- Held completions written while there is room. -/
def State.flushHeld (s : State) (q : Nat) : Nat → State
  | 0 => s
  | fuel + 1 =>
    let x := s.hostQueue q
    match x.heldCpl with
    | [] => s
    | h :: r => if x.cplFull then s else ((s.setHostQueue q { x with heldCpl := r }).writeCompletion q h).flushHeld q fuel

/-- The journal entry of a command that has no completion yet. -/
def State.openEntry (s : State) (q seq : Nat) : Option JournalEntry :=
  s.journal.find? fun e => e.queue = q ∧ e.seq = seq ∧ e.state ≠ 3

/-- The one completion of a command is held. -/
def State.answered (s : State) (q seq : Nat) : Bool :=
  s.hostQueues.any fun e => e.2.heldCpl.any fun h => h.source = some q && h.seq = seq

/-- Bytes `lo` to `lo + n - 1` of a command. -/
def JournalEntry.arg (e : JournalEntry) (lo n : Nat) : Nat := fieldAt e.body lo n

/-- A command completes with a status (R469, R470). -/
def State.complete (s : State) (q seq status info : Nat) : State :=
  match s.openEntry q seq with
  | none => s
  | some e => if s.answered q seq then s else s.postCompletion q ⟨e.arg 8 8, seq, status, info, some q⟩

/-- An admin event on queue 0, named by the rule that has the device send it (log 22). -/
def State.adminEvent (s : State) (rule : Nat) (fields : List Nat) : State :=
  let (seq, kind, info) := Config.adminEvent rule fields
  s.postCompletion 0 ⟨adminCid, seq.toNat, kind.toNat, info.toNat, none⟩

/-- An admin event whose STATUS is a status of R470. -/
def State.adminStatus (s : State) (rule status : Nat) : State :=
  let (seq, _, info) := Config.adminEvent rule [status]
  s.postCompletion 0 ⟨adminCid, seq.toNat, status, info.toNat, none⟩

/-! ## Commands -/

/-- A command becomes DISPATCHED, in both copies (R459). -/
def State.markDispatched (s : State) (q seq : Nat) : State :=
  s.updateJournal fun e => if e.queue = q ∧ e.seq = seq ∧ e.state = 1 then { e with state := 2 } else e

/-- A command that is still to be dispatched: ACCEPTED, and not refused with a completion that is held (R467). -/
def State.undispatched (s : State) (e : JournalEntry) : Bool := e.state = 1 && !s.answered e.queue e.seq

/-- The ACCEPTED command of a queue with this opcode that is dispatched next: commands of one queue are dispatched in acceptance
order (R461). -/
def State.commandNext (s : State) (op q seq : Nat) : Option JournalEntry :=
  match s.journal.find? fun e => e.queue = q && s.undispatched e with
  | some e => if e.seq = seq ∧ e.arg 0 1 = op then some e else none
  | none => none

/-- The page of host memory in which a page of a PASID's address space stands (R466; log 71). -/
def State.hostPage (s : State) (pasid page : Nat) : Nat :=
  match s.hostMaps.find? fun m => m.1 = (pasid, page) with
  | some m => m.2
  | none => page

/-- Bytes at a host address of a PASID's address space, page by page. -/
def State.hostBytes (s : State) (pasid : Nat) : Nat → Nat → Nat → List Byte
  | 0, _, _ => []
  | fuel + 1, a, n =>
    if n = 0 then []
    else
      let k := min n (4096 - a % 4096)
      mbytes s.hostMem (4096 * s.hostPage pasid (a / 4096) + a % 4096) k ++ s.hostBytes pasid fuel (a + k) (n - k)

/-- The extended body of a command, read at its host address under its queue's PASID (R466). -/
def State.extended (s : State) (e : JournalEntry) : List Byte :=
  s.hostBytes (s.hostQueue e.queue).pasid (e.arg 4 4 / 4096 + 2) (e.arg 16 8) (e.arg 4 4)

/-- A command's arguments beyond those its opcode uses are zero (R466 to R468). -/
def JournalEntry.wellFormed (e : JournalEntry) : Bool :=
  let zero (lo n : Nat) : Bool := e.arg lo n = 0
  let op := e.arg 0 1
  zero 1 3 && decide (e.arg 4 4 ≤ 65536) &&
    (match op with
    | 0x01 => zero 30 2 && zero 40 24 && decide (e.arg 26 1 ≤ 12) && decide (e.arg 27 1 ≤ 64)
        && e.arg 4 4 = 8 * e.arg 26 1 + 16 * e.arg 27 1
    | 0x02 => zero 26 6 && zero 40 24 && decide (e.arg 24 1 < 32) && decide (e.arg 25 1 < 16) && e.arg 32 8 % 65536 = 0
    | 0x03 => zero 25 39 && decide (e.arg 24 1 < 32)
    | 0x04 => zero 26 38 && decide (e.arg 24 1 < 32) && decide (e.arg 25 1 < 4)
    | 0x06 => zero 24 40
    | 0x08 => zero 32 32
    | 0x0A => zero 28 36 && decide (e.arg 24 4 < 2 ^ 20)
    | 0x05 | 0x07 | 0x09 | 0x0B | 0x0C | 0x0D | 0x0E => !Config.reservedArgs op e.body
    | _ => false)

/-- The queue accepts the opcode (R467). -/
def JournalEntry.queueOk (e : JournalEntry) : Bool :=
  e.queue = 0 || e.arg 0 1 = 0x01 || e.arg 0 1 = 0x04 || e.arg 0 1 = 0x08

end Sys2Proof.Machine
end

