-- ==== Sys2Proof/Machine/Engine.lean ====
section
/-! DEFINITION. What the engines share: their accesses to scratchpad, cluster and global memory with their checks and waits
(R313, spec/16; R244, spec/12), and writes that land in an open shadow (R315). -/

namespace Sys2Proof.Machine

/-! ## Waiting engines -/

/-- How an engine stands: free to go on, waiting for an answer, or told to fail. -/
inductive Standing where
  | free
  | waiting
  | failed (cause : Nat)
deriving DecidableEq, Repr

/-- The standing of an engine (R313). -/
def State.standing (s : State) (who : Writer) : Standing :=
  match s.engineWaits.find? fun w => w.who = who with
  | some w => match w.verdict with
    | some c => .failed c
    | none => .waiting
  | none => if s.dies.any fun e => e.2.waiters.any fun w => w.who = who then .waiting else .free

/-- The page of an access that is absent or revoked. -/
def State.faultPage (s : State) (xt : List Extent) (a n : Nat) : Nat :=
  match (s.parts xt 64 (a % 2 ^ 56) n).find? fun p => p.ext.any fun e => !e.p || e.rvk with
  | some p => p.va / 4096 * 4096
  | none => a % 2 ^ 56 / 4096 * 4096

/-- An engine starts to wait for a page. -/
def State.engineFault (s : State) (who : Writer) (invocation a n cause : Nat) (write : Bool) : State :=
  let page := s.faultPage (tget [] invocation s.extents) a n
  { s with engineWaits := s.engineWaits ++ [{ who, invocation, page, cause, write }] }

/-! ## Reads -/

/-- The outcome of an engine's access. -/
inductive Got where
  | value (x : Nat) (s : State)
  | fail (cause : Nat)
  | wait (s : State)
deriving DecidableEq, Repr

/-- The bytes of parts as one number. -/
def State.readParts (s : State) (l : List Part) : Nat := l.foldr (fun p acc => s.rawRead p.loc p.n + 256 ^ p.n * acc) 0

/-- An engine's read of global memory, at memory itself (R313); it waits while its port is not UP (R446). -/
def State.engineRead (s : State) (who : Writer) (w : Captured) (a n : Nat) : Got :=
  match s.checkGlobal (tget [] w.invocation s.extents) w.priv false true a n with
  | .inl c => if 0x30 ≤ c then .wait (s.engineFault who w.invocation a n c false) else .fail c
  | .inr l => if s.allReach l then .value (s.readParts l) (s.countAccess l) else .wait s

/-! ## Writes -/

/-- The open shadow that a captured command's writes to a page land in, as die and index (R315, R364). -/
def State.shadowOf (s : State) (w : Captured) : Loc → Option (Nat × Nat)
  | .home d off =>
    ((s.die d).shadows.find? fun h => w.shadows.contains (d, h.2.id) && (tfind (off / 4096) h.2.pages).isSome).map fun h => (d, h.1)
  | _ => none

/-- Block `b` of a shadow page. -/
def ShadowPage.block (p : ShadowPage) (b : Nat) : Nat := mread p.bytes (256 * b) 256

/-- Bytes written into a page of an open shadow: it takes batts of its own with its first write (R244, R315). -/
def State.shadowWrite (s : State) (who : Writer) (d i off n x : Nat) (cz : Bool) : State ⊕ Nat :=
  let y := s.die d
  match tfind i y.shadows with
  | none => .inl s
  | some h =>
    match tfind (off / 4096) h.pages with
    | none => .inl s
    | some p =>
      let q := { p with bytes := mwrite p.bytes (off % 4096) n x }
      let record := (List.range 16).foldl (fun (r : Page) b =>
        if off % 4096 < 256 * (b + 1) ∧ 256 * b < off % 4096 + n then
          if q.block b = p.block b ∧ (r.block b).2 ≠ 0 then r else r.setBlock b (chooseBlock (q.block b) (y.codes r) (!cz || !y.en))
        else r) p.record
      let record := if p.shares then { record with batts := [] } else record
      let own := y.asideOf who
      if y.freeCount + own.length < record.short.toNat then .inr record.short.toNat
      else
        let need := record.needed
        let (record, y) :=
          if need ≤ record.batts.length then
            ({ record with batts := record.batts.take need }, y.give (record.batts.drop need))
          else
            let missing := need - record.batts.length
            let (l, free) := takeBatts (missing - (own.take missing).length) y.free
            ({ record with batts := record.batts ++ own.take missing ++ l },
              { y with free, aside := (y.aside.filter fun a => ¬ a.1 = who) ++
                (if own.length ≤ missing then [] else [(who, own.drop missing)]) })
        let h := { h with pages := tset (off / 4096) { q with record, shares := false } h.pages }
        .inl (s.setDie d ({ y with shadows := tset i h y.shadows }.dropAside who))

/-- Data of the parts of a write, least significant first. -/
def partData : List Part → Nat → List (Part × Nat)
  | [], _ => []
  | p :: r, x => (p, x % 256 ^ p.n) :: partData r (x / 256 ^ p.n)

/-- A checked write of an engine: the state after it, or the die that is short and the need (R244). -/
def State.engineStore (s : State) (who : Writer) (w : Captured) (l : List Part) (x : Nat) : State ⊕ (Nat × Nat) :=
  let data := partData l x
  let (shadowed, plain) := data.partition fun e => (s.shadowOf w e.1.loc).isSome
  let t := plain.foldl (fun (s : State) e => s.rawWrite e.1.loc e.1.n e.2) s
  match account s t who (touches (plain.map (·.1))) with
  | .inr e => .inr e
  | .inl t =>
    shadowed.foldl (fun (acc : State ⊕ (Nat × Nat)) e =>
      match acc with
      | .inr e => .inr e
      | .inl t =>
        match e.1.loc, s.shadowOf w e.1.loc with
        | .home d off, some (_, i) =>
          match t.shadowWrite who d i off e.1.n e.2 (e.1.ext.any (·.cz)) with
          | .inl t => .inl t
          | .inr need => .inr (d, need + ((s.die d).freeCount - (t.die d).freeCount))
        | _, _ => .inl t) (.inl t)

/-- A write that lacks batts waits inside its engine (R244). -/
def State.engineWaitBatts (s : State) (who : Writer) (d need : Nat) : State :=
  let x := (s.die d).dropAside who
  (s.setDie d (x.wait who need s.clk)).settleDie d

/-- A write of an engine whose checks have left its parts, or the cause of a failure. -/
def State.writeChecked (s : State) (who : Writer) (w : Captured) (a n x : Nat) : Nat ⊕ List Part → Got
  | .inl c => if 0x30 ≤ c then .wait (s.engineFault who w.invocation a n c true) else .fail c
  | .inr l =>
    if s.heldByMigration l ∨ !s.allReach l then .wait s
    else
      match s.engineStore who w l x with
      | .inl t => .value 0 (t.countAccess l)
      | .inr (d, need) => .wait (s.engineWaitBatts who d need)

/-- An engine's write of global memory; `tagged` is off for a fill that writes tags (R310, R313). -/
def State.engineWrite (s : State) (who : Writer) (w : Captured) (tagged : Bool) (a n x : Nat) : Got :=
  s.writeChecked who w a n x (s.checkGlobal (tget [] w.invocation s.extents) w.priv true tagged a n)

/-! ## Answers to waiting writers (R252, R387) -/

/-- The answer to a writer that waited for batts: SPACE fails it, room lets it go on. -/
def State.answerWriter (s : State) (who : Writer) (room : Bool) : State :=
  match who with
  | .bank c b => s.answerBank c b room 0x14
  | .walker => if room then s else { s with owedMarks := s.owedMarks.drop 1 }
  | _ =>
    if room then s
    else { s with engineWaits := s.engineWaits ++ [{ who, invocation := 0, page := 0, cause := 0x32, write := true,
                                                     verdict := some 0x14 }] }

/-- The oldest waiter of a die leaves its list, its batts set aside where there is room. -/
def Die.release (x : Die) (w : Waiter) (room : Bool) : Die :=
  let x := { x with waiters := x.waiters.drop 1 }
  if room then
    let (l, free) := takeBatts w.need x.free
    { x with free, aside := x.aside ++ [(w.who, l)] }
  else x

/-- The waiters of a die for which there is room, in their order: their batts are set aside and they leave the list (R252). -/
def State.grantWaiters (s : State) (d : Nat) : Nat → State × List Writer
  | 0 => (s, [])
  | fuel + 1 =>
    match (s.die d).waiters with
    | [] => (s, [])
    | w :: _ =>
      if w.need ≤ (s.die d).freeCount then
        let (t, l) := (s.setDie d ((s.die d).release w true)).grantWaiters d fuel
        (t, w.who :: l)
      else (s, [])

/-- A bank 1. -/
def Writer.second : Writer → Bool
  | .bank _ b => b == 1
  | _ => false

/-- Writers answered with room in one clk: of the two banks of a core, bank 0 first (R405). -/
def State.answerWriters (s : State) (l : List Writer) : State :=
  ((l.filter fun w => !w.second) ++ l.filter (·.second)).foldl (fun (s : State) w => s.answerWriter w true) s

/-- The standing rules of the balloon engines of some dies brought to the present clk (R251, R252). -/
def State.balloonSettles (s : State) (ds : List Nat) : State :=
  let (t, l) := ds.foldl (fun (acc : State × List Writer) d =>
    let (t, l) := acc.1.grantWaiters d (acc.1.die d).waiters.length
    (t, acc.2 ++ l)) (s, [])
  ds.foldl (fun (s : State) d => s.settleDie d) (t.answerWriters l)

/-- Those of one die. -/
def State.balloonSettle (s : State) (d : Nat) : State := s.balloonSettles [d]

end Sys2Proof.Machine
end

