-- ==== Sys2Proof/Machine/Matrix.lean ====
section
/-! DEFINITION. The matrix classes and the engines between issues (R162 to R180, spec/07; R95 to R99, spec/04). -/

namespace Sys2Proof.Machine

/-- The engine of the bank at issue changed. -/
def State.modEng (s : State) (e : Nat) (f : MatEngine → MatEngine) : State := s.setCur (s.cur.setEng e (f (s.cur.eng e)))

/-! ## One row of an `MMA` (R173) -/

/-- The elements of an entry as data. -/
def FifoEntry.values (x : FifoEntry) : List FVal :=
  match Fmt.ofCode x.fmt with
  | some f => (unpack f.width 128 x.elems.toNat).map f.decode
  | none => List.replicate 128 .nan

/-- Whether a scale is NaN. -/
def scaleNan (s : BitVec 32) : Bool := Fmt.fp32.decode s.toNat == .nan

/-- The cause with which a row fails, the tag rule first (R174). -/
def rowFailure (o : MmaOp) (a : FifoEntry) : Option Nat :=
  if o.tile.any fun c => (tagAdjust a.tag c.tag).isNone then some 0x0D
  else if a.fmt ≠ mcfgA o.mcfg then some 0x0E
  else none

/-- One output lane of an INT32 accumulator (R99, R173). -/
def laneInt (o : MmaOp) (a c : FifoEntry) (p : List FVal) (old : Nat) : Nat :=
  if scaleNan a.scale || scaleNan c.scale then 0x80000000
  else
    let g := groupInt p c.values
    let base : Int := if o.ovw then 0 else (BitVec.ofNat 32 old).toInt
    (BitVec.ofInt 32 (max (-(2 ^ 31)) (min (base + g) (2 ^ 31 - 1)))).toNat

/-- One output lane of a floating accumulator (R98, R173). -/
def laneFloat (o : MmaOp) (acc : Fmt) (a c : FifoEntry) (p : List FVal) (old : Nat) : Nat :=
  let g := if mcfgA o.mcfg = 1 then FVal.ofInteger (groupInt p c.values) else groupSum p c.values
  let one : FVal := .fin false 1 0
  let s := if o.scl then
      Fmt.fp32.decode (Fmt.fp32.rne ((Fmt.fp32.decode a.scale.toNat).mul (Fmt.fp32.decode c.scale.toNat)))
    else one
  let t := promote g ((tagAdjust a.tag c.tag).getD 0) s
  acc.rne (if o.ovw then t else (acc.decode old).add t)

/-- The accumulator row a row of an `MMA` writes: column c to lane c, lanes above 127 kept (R173). -/
def rowResult (o : MmaOp) (a : FifoEntry) (old : Row) : Row × Row :=
  let acc := mcfgAcc o.mcfg
  let f : Fmt := if acc = 4 then .bf16 else .fp32
  let w := if acc = 4 then 16 else 32
  let p := a.values
  let l := List.zipWith (fun c x => if acc = 7 then laneInt o a c p x else laneFloat o f a c p x) o.tile
    (unpack w 128 old.toNat)
  (rowOf w (List.replicate 128 (2 ^ w - 1)), rowOf w l)

/-! ## The engines from one clk to the next -/

/-- The clk in which row `i` starts (R172). -/
def MmaOp.starts (o : MmaOp) (i : Nat) : Nat := o.issued + o.rate * i

/-- Posts the failure of row `i`; a further failing row of the same `MMA` marks MORE instead (R174). -/
def Bank.rowTrap (k : Bank) (o : MmaOp) (i cause now : Nat) : Bank :=
  if o.failed then
    if k.posted.isEmpty then { k with trec := tset 0 (k.trecWord 0 ||| (1#64 <<< 10)) k.trec }
    else { k with posted := k.posted.map fun t => { t with more := true } }
  else k.post { clk := now, cause, bundle := o.bundle, pos := o.pos, issued := o.issued, row := some (o.row0 + i) }

/-- The row of an operation that starts at clk `now` and has not been checked, if it fails (R174). -/
def failingRow (o : MmaOp) (now : Nat) : Option (Nat × Nat) :=
  (List.range o.rows.length).findSome? fun i =>
    if o.starts i = now ∧ o.checked ≤ i then (o.rows[i]?).bind fun a => (rowFailure o a).map fun c => (i, c) else none

/-- Rows of engine `e` that start at clk `now` are checked, each once (R174). -/
def Bank.startRows (k : Bank) (e now : Nat) : Bank :=
  (k.eng e).ops.foldl (fun k o =>
    match failingRow o now with
    | none => k
    | some (i, c) =>
      let k := k.rowTrap o i c now
      let m := k.eng e
      k.setEng e { m with ops := m.ops.map fun p => if p.issued = o.issued then { p with failed := true, checked := i + 1 } else p }) k

/-- What the pushes of clk `now` and the rows that start in it post (R159, R174). -/
def Bank.detect (k : Bank) (now : Nat) : Bank := ((k.settlePushes now).startRows 0 now).startRows 1 now

/-- Rows of engine `e` that land at clk `now + 1`, computed from the accumulator at `now` (R172). -/
def Bank.landingRows (k : Bank) (e now : Nat) : List InFlight :=
  (k.eng e).ops.flatMap fun o =>
    (List.range o.rows.length).filterMap fun i =>
      if o.lands i = now + 1 then
        (o.rows[i]?).bind fun a =>
          if (rowFailure o a).isSome then none
          else
            let r := 64 * e + o.row0 + i
            let (sel, v) := rowResult o a (k.v r)
            some { due := now + 1, issued := o.issued, pos := o.pos, bundle := o.bundle, write := .vrow r sel v 0 }
      else none

/-- A tile becomes available, and finished operations leave (R168, R172). -/
def MatEngine.settle (m : MatEngine) (now : Nat) : MatEngine :=
  let m := { m with ops := m.ops.filter fun o => now < o.lands (o.rows.length - 1) }
  match m.load with
  | some l =>
    if l.avail ≤ now then
      let m := { m with load := none }
      if l.buf = 0 then { m with wb0 := l.tile } else { m with wb1 := l.tile }
    else m
  | none => m

/-- A bank goes from clk `now` to the next: the pushes that waited for the clk's pops enter, the rows that started are checked, rows are
computed, results land, tiles become available (R22, R159, R168, R172, R174). -/
def Bank.tick (k : Bank) (now : Nat) : Bank :=
  let k := k.detect now
  let rows := k.landingRows 0 now ++ k.landingRows 1 now
  let k := { k with inFlight := k.inFlight ++ rows }
  let k := k.landDue (now + 1)
  { k with eng0 := k.eng0.settle (now + 1), eng1 := k.eng1.settle (now + 1) }

/-! ## Meanings -/

/-- `MCFG`: the new value takes effect at issue + 1 (R166). -/
def execMcfg0 (ra : BitVec 6) (s : State) : Result := issueSlot (.mcfg0 ra) s fun s => s.land 1 (.mcfg 0 (s.sa ra))
def execMcfg1 (ra : BitVec 6) (s : State) : Result := issueSlot (.mcfg1 ra) s fun s => s.land 1 (.mcfg 1 (s.sa ra))

/-- The engine emptied in its issue clk; rows already issued are not affected (R167). -/
def MatEngine.drained (m : MatEngine) : MatEngine :=
  { m with aFifo := [], bFifo := [], wb0 := none, wb1 := none, load := none, skip := 0 }

/-- A push of an engine that arrives in this clk. -/
def InFlight.pushesTo (f : InFlight) (e now : Nat) : Bool :=
  decide (f.due ≤ now) && match f.write with
    | .push n .. => n == e
    | _ => false

/-- An engine of the bank at issue emptied, with the entries that arrive in the issue clk (R167). -/
def State.drainEngine (s : State) (e : Nat) : State :=
  let s := s.modEng e MatEngine.drained
  s.setCur { s.cur with inFlight := s.cur.inFlight.filter fun f => !f.pushesTo e s.clk }

def execMdrain0 (s : State) : Result := issueSlot .mdrain0 s fun s => s.drainEngine 0
def execMdrain1 (s : State) : Result := issueSlot .mdrain1 s fun s => s.drainEngine 1

/-- `MLDB`: pops 128 entries into a tile that becomes available later; an entry of another format makes the buffer invalid
then and is posted now with its column (R168, R169). -/
def loadTile (e : Nat) (wb : BitVec 1) (s : State) : State :=
  let m := s.cur.eng e
  let cols := m.bFifo.take 128
  let bad := cols.findIdx? fun c => c.fmt ≠ mcfgB m.mcfg
  let avail := s.clk + if mcfgB m.mcfg = 4 then 128 else 64
  let s := s.modEng e fun m =>
    { m with bFifo := m.bFifo.drop 128, load := some ⟨wb.toNat, avail, if bad.isSome then none else some cols⟩ }
  match bad with
  | none => s
  | some j =>
    s.setCur (s.cur.post
      { clk := s.clk, cause := 0x0E, bundle := s.ctx.addr, pos := s.ctx.pos, issued := s.clk, row := some j })

def execMldb0 (wb : BitVec 1) (s : State) : Result := issueSlot (.mldb0 wb) s (loadTile 0 wb)
def execMldb1 (wb : BitVec 1) (s : State) : Result := issueSlot (.mldb1 wb) s (loadTile 1 wb)

/-- `MMA`: pops n entries, takes the tile as it stands, and occupies the engine; its rows are checked in the clk in which they
start (R170 to R172). -/
def startMma (e : Nat) (nm1 row0 : BitVec 6) (ovw scl wb : BitVec 1) (s : State) : State :=
  let m := s.cur.eng e
  let n := nm1.toNat + 1
  let rate := if mcfgA m.mcfg = 4 then 2 else 1
  let o : MmaOp := { issued := s.clk, bundle := s.ctx.addr, pos := s.ctx.pos, row0 := row0.toNat, rate, ovw := ovw = 1,
                     scl := scl = 1, mcfg := m.mcfg, tile := (m.buffer wb.toNat).getD [], rows := m.aFifo.take n }
  s.modEng e fun m => { m with aFifo := m.aFifo.drop n, ops := m.ops ++ [o], busyUntil := s.clk + rate * n }

def execMma0 (nm1 row0 : BitVec 6) (ovw scl wb : BitVec 1) (s : State) : Result :=
  issueSlot (.mma0 nm1 row0 ovw scl wb) s (startMma 0 nm1 row0 ovw scl wb)
def execMma1 (nm1 row0 : BitVec 6) (ovw scl wb : BitVec 1) (s : State) : Result :=
  issueSlot (.mma1 nm1 row0 ovw scl wb) s (startMma 1 nm1 row0 ovw scl wb)

/-- `MZERO`: zero rows and zero side words at issue + 2 (R175). -/
def zeroRows (e : Nat) (nm1 row0 : BitVec 6) (s : State) : State :=
  (List.range (nm1.toNat + 1)).foldl (fun s i => s.land 2 (.vrow (64 * e + row0.toNat + i) rowAll 0 0)) s

def execMzero0 (nm1 row0 : BitVec 6) (s : State) : Result := issueSlot (.mzero0 nm1 row0) s (zeroRows 0 nm1 row0)
def execMzero1 (nm1 row0 : BitVec 6) (s : State) : Result := issueSlot (.mzero1 nm1 row0) s (zeroRows 1 nm1 row0)

/-- `MSKIPA`: raises the skip count and discards what is there; past 256 nothing changes and `ENGINE` is posted (R176). -/
def skipRows (e : Nat) (nm1 : BitVec 6) (s : State) : State :=
  let n := nm1.toNat + 1
  if 256 < (s.cur.eng e).skip + n then s.postHere 0x1D
  else s.modEng e fun m => { m with skip := m.skip + n }.discardSkipped

def execMskipa0 (nm1 : BitVec 6) (s : State) : Result := issueSlot (.mskipa0 nm1) s (skipRows 0 nm1)
def execMskipa1 (nm1 : BitVec 6) (s : State) : Result := issueSlot (.mskipa1 nm1) s (skipRows 1 nm1)

/-- `MSTAT`: the status word of the issue clk at issue + 2 (R177). -/
def execMstat0 (rd : BitVec 6) (s : State) : Result :=
  issueSlot (.mstat0 rd) s fun s => s.landS 2 rd (mstatWord (s.cur.eng 0) s.clk)
def execMstat1 (rd : BitVec 6) (s : State) : Result :=
  issueSlot (.mstat1 rd) s fun s => s.landS 2 rd (mstatWord (s.cur.eng 1) s.clk)

end Sys2Proof.Machine
end

