-- ==== Sys2Proof/Machine/MemEvents.lean ====
section
/-! DEFINITION. Steps of the memory system and of the banks: run-ahead and prefetch (R28 to R30, spec/01), accesses and markers
of the queues (R266 to R276, spec/13), evicted lines (R270), posted traps (R401, spec/21), the drain (R403), the arrival of a
pre-emption (R407), barrier requests and `ENQ` records (R219, R224, spec/10), rounds (R204, spec/09). -/

namespace Sys2Proof.Machine

/-! ## Run-ahead and prefetch -/

/-- The value of a scalar register as the unit may use it: full, with no fixed-latency write pending (R28). -/
def Bank.knownS (k : Bank) (r : Nat) : Option SReg := if k.isEmpty (.s r) ∨ k.pendingS r then none else some (k.s r)

/-- The slots at which the unit stops (R28). -/
def stopsAhead (i : Instr) : Bool :=
  match i with
  | .trap _ | .svc _ | .halt => true
  | i => classOf i == some 12

/-- The instructions of a bundle with the extension payloads before each; none where a word is no instruction. -/
def bundleCode : List (BitVec 25) → List Slot → Option (List (List (BitVec 25) × Instr))
  | _, [] => some []
  | ext, w :: r =>
    match decodeSlot w with
    | .ok (.ext p) => bundleCode (ext ++ [p]) r
    | .ok i => (bundleCode [] r).map fun l => (ext, i) :: l
    | .error _ => none

/-- A load slot (R53). -/
def isLoad (i : Instr) : Bool :=
  match i with
  | .pref .. => false
  | i => classOf i == some 7

/-- A load that the unit may pre-issue (R28). -/
def isGlobalLoad (i : Instr) : Bool :=
  match i with
  | .ldg .. | .ldgv .. | .ldgx .. => true
  | _ => false

/-- The global loads of a bundle up to the first slot that stops the unit or the first load whose address it cannot compute, and whether
it reached the end of the bundle; one that is not aligned would fault and is left out (R28, R284). -/
def hintedLoads (k : Bank) : List (List (BitVec 25) × Instr) → List (Nat × Nat) × Bool
  | [] => ([], true)
  | (ext, i) :: r =>
    if stopsAhead i then ([], false)
    else
      match (if isLoad i then addrParts i else none) with
      | some (b, f, scale) =>
        match k.knownS b.toNat with
        | some v =>
          let (l, all) := hintedLoads k r
          let a := effAddr v ext f scale
          (if isGlobalLoad i ∧ a % globalAlign i = 0 then (a, accessBytes i) :: l else l, all)
        | none => ([], false)
      | none => hintedLoads k r

/-- Where the unit reads ahead: a bundle address and the loop stack as the path leaves it. -/
structure AheadPos where
  addr : Nat
  loops : List LoopEntry
deriving DecidableEq, Repr

/-- What a slot does to the path: it stops it, or it leaves a target, if it makes a transfer, and the loop stack. -/
def hintedSlot (code : List Slot) (k : Bank) (p : AheadPos) (next : Nat) (ext : List (BitVec 25)) (i : Instr) :
    Option (Option Nat × List LoopEntry) :=
  let rel (off : Int) : Nat := (BitVec.ofInt 64 ((p.addr : Int) + 4 * off)).toNat
  let enter (count : Option (BitVec 32)) (endw : BitVec 13) : Option (Option Nat × List LoopEntry) :=
    count.map fun n =>
      if n = 0 then (some (addrAfter code (next + 4 * endw.toNat)), p.loops)
      else (none, ⟨next, next + 4 * endw.toNat, n, 0⟩ :: p.loops)
  match i with
  | .brz h _ off | .brnz h _ off | .brkt h _ off | .brkf h _ off =>
    some (if h = 1 then some (rel (immSigned ext 15 off)) else none, p.loops)
  | .jmp off => some (some (rel (immSigned ext 21 off)), p.loops)
  | .call _ off => some (some (rel (immSigned ext 15 off)), p.loops)
  | .jmpi ra | .ret ra => (k.knownS ra.toNat).map fun v => (some v.toNat, p.loops)
  | .loop ra endw => enter ((k.knownS ra.toNat).map fun v => v.extractLsb' 0 32) endw
  | .loopi cnt endw => enter (some (BitVec.ofNat 32 (immUnsigned ext 9 cnt))) endw
  | .lset lvl fld ra =>
    (k.knownS ra.toNat).map fun v => (none, p.loops.modify lvl.toNat fun e => e.setField fld (v.extractLsb' 0 32))
  | .lbrk lvl => (p.loops[lvl.toNat]?).map fun e => (some (addrAfter code e.stop), p.loops.drop (lvl.toNat + 1))
  | _ => some (none, p.loops)

/-- Where a bundle leads along the hinted path: its transfer, the branch-back of a loop, or the next bundle (R28, R118; log 9). -/
def hintedNext (code : List Slot) (k : Bank) (p : AheadPos) (next : Nat) : List (List (BitVec 25) × Instr) → Option AheadPos
  | [] =>
    match endTest p.addr p.loops with
    | (l, some a) => some ⟨a, l⟩
    | (l, none) => some ⟨next, l⟩
  | (ext, i) :: r =>
    match hintedSlot code k p next ext i with
    | none => none
    | some (some a, l) => some ⟨a, l⟩
    | some (none, l) => hintedNext code k { p with loops := l } next r

/-- The loads that the run-ahead unit may pre-issue from a position of the code on, bundle by bundle: the bundle at the program counter and
256 past it (R28). -/
def runAheadLoads (code : List Slot) (k : Bank) : Nat → AheadPos → List (Nat × Nat)
  | 0, _ => []
  | fuel + 1, p =>
    match bundleAt code p.addr with
    | none => []
    | some ws =>
      match bundleCode [] ws with
      | none => []
      | some is =>
        let (l, all) := hintedLoads k is
        if all then
          match hintedNext code k p (p.addr + 4 * ws.length) is with
          | some q => l ++ runAheadLoads code k fuel q
          | none => l
        else l

/-- `RUN_AHEAD_PREISSUE`: a load of the hinted path that would pass its checks, lies in the first-level TLB and in no other device
enters the buffer with its data (R28, R29; log 9). -/
def execRunAheadPreissue (core addr size : Nat) (s : State) : Result :=
  event s fun s =>
    let x := s.core core
    let k := x.bank x.active
    if k.state = .runnable ∧ k.runAhead.length < 64 ∧ (runAheadLoads (s.codeOf k) k 257 ⟨k.pc, k.loops⟩).contains (addr, size) then
      match s.checkGlobal (s.extentsOf k) k.priv false false addr size with
      | .inl _ => none
      | .inr l =>
        let away (p : Part) : Bool := match p.loc with
          | .other _ => true
          | _ => false
        if l.any away ∨ !l.all (fun p => p.ext.any fun e => x.tlbHolds k e) then none
        else
          let (v, s) := s.pieceLoad core (s.extentsOf k) addr size
          some (s.setBank core x.active { k with runAhead := k.runAhead ++ [⟨addr, size, k.raGen, v⟩] })
    else none

/-- The segment of a bank's image that holds a code address, named by slot and start (R30, R68). -/
def State.segmentOf (s : State) (k : Bank) (a : Nat) : Option Nat :=
  k.task.bind fun t =>
    ((tget {} t.slot s.slots).segments.find? fun g => g.1 ≤ a ∧ a < g.1 + g.2).map fun g => t.slot * 2 ^ 32 + g.1

/-- The segment that the next-segment pointer of the one at an address names: the next entry of the chain (R30, R68). -/
def State.segmentAfter (s : State) (k : Bank) (a : Nat) : Option Nat :=
  k.task.bind fun t =>
    let l := (tget {} t.slot s.slots).segments
    (l.findIdx? fun g => g.1 ≤ a ∧ a < g.1 + g.2).bind fun i => (l[i + 1]?).map fun g => t.slot * 2 ^ 32 + g.1

/-- The segment that the next bundle of a core needs and that neither half of the loop buffer holds (R30). -/
def State.segmentMissing (s : State) (c : Nat) : Option Nat :=
  let x := s.core c
  let k := x.bank x.active
  (s.segmentOf k k.pc).filter fun g => !x.segments.contains g

/-- The segment that the prefetch engine expands next: the one issue waits for, then the one the pointer names (R30). -/
def State.segmentWanted (s : State) (c : Nat) : Option Nat :=
  let x := s.core c
  let k := x.bank x.active
  s.segmentMissing c <|> (s.segmentAfter k k.pc).filter fun g => !x.segments.contains g

/-- `SEGMENT_EXPAND`: the wanted segment is expanded in one half of the loop buffer, while the core issues from the other (R30). -/
def execSegmentExpand (core segment : Nat) (s : State) : Result :=
  event s fun s =>
    let x := s.core core
    let k := x.bank x.active
    if s.segmentWanted core = some segment then
      let used := x.segments.filter fun g => s.segmentOf k k.pc = some g
      some (s.setCore core { x with segments := segment :: (if used.isEmpty then x.segments else used).take 1 })
    else none

/-! ## Outside stores -/

/-- What the host and other devices have stored in their own memory. -/
def State.outside (s : State) : List (Bool × Nat × BitVec 8) → State
  | [] => s
  | (host, a, v) :: r =>
    (if host then { s with hostMem := mset a v s.hostMem } else { s with otherMem := mset a v s.otherMem }).outside r

/-! ## Traps of a replayed segment (R347) -/

/-- A trap other than a restartable fault or a pre-emption in a replayed segment makes the tag of its `REPLAY` abandoned and reported
(R347). -/
def State.abandonReplay (s : State) (c b : Nat) : State :=
  let k := s.bank c b
  match k.replaying with
  | some (stage, tag) => (s.diverge stage tag).setBank c b { k with replaying := none }
  | none => s

/-- `POSTED_TRAP_TAKE`: the posted traps of a bank are taken at its bundle boundary, together with those that its pushes and rows raise
in the same clk, in which it issues no bundle (R33, R34, R159, R174, R401). -/
def execPostedTrapTake (core bank : Nat) (s : State) : Result :=
  event s fun s =>
    let k := s.bank core bank
    if k.posted.isEmpty ∨ k.state ≠ .runnable ∨ (s.core core).drain.isSome then none
    else some (((s.setBank core bank (k.detect s.clk)).abandonReplay core bank).takePosted core bank)

/-! ## Accesses -/

/-- A store that an older `PUBLISH` of its sequencer holds (R280). -/
def State.heldByPublish (s : State) (c b : Nat) (e : QEntry) : Bool :=
  (entryKinds e).stores && s.commands.any fun p => match p.ins with
    | .publish .. => p.who.core == c && p.who.bank == b && (s.bank c b).issued p.who && decide (p.id < e.id)
    | _ => false

/-- A load, a store or an `AMO` of global memory. -/
def isGlobalAccess (e : QEntry) : Bool :=
  match e.ins with
  | .ldg .. | .ldgv .. | .ldgx .. | .stg .. | .stgv .. | .stgn .. | .stgx .. | .amo .. => true
  | _ => false

/-- The parts of a global access in its present phase; none of any other entry. -/
def State.partsOf (s : State) (k : Bank) (e : QEntry) : List Part :=
  if isGlobalAccess e then s.parts (s.extentsOf k) 64 (e.addr % 2 ^ 56) (max 1 e.bytes) else []

/-- Entry `i` of a bank, where the orders and its least latency let it be performed. -/
def State.ripe (s : State) (c b i : Nat) : Option QEntry :=
  let k := s.bank c b
  match k.entry i with
  | some e => if mayPerform k.queue i ∧ !s.heldByPublish c b e ∧ e.clk + leastLatency e.ins ≤ s.clk then some e else none
  | none => none

/-- Entry `i` of a bank, where it may be performed and its access may leave the device (R446). -/
def State.performable (s : State) (c b i : Nat) : Option QEntry :=
  (s.ripe c b i).filter fun e => s.allReach (s.partsOf (s.bank c b) e)

/-- Sign-extended exponent, or the two halves, of a norm register (R369). -/
def normPair (r : Norm) (wantE : Bool) : SReg × SReg :=
  if wantE then (r.e.signExtend 64, if r.a = BitVec.allOnes 128 then 1 else 0) else (r.a.setWidth 64, r.a.extractLsb' 64 64)

/-- The status word of a stash entry (R338). -/
def statusWord (e : Option StashEntry) : SReg :=
  match e with
  | none => 0
  | some e =>
    BitVec.ofNat 64 (e.state + 2 ^ 4 * e.mode + 2 ^ 7 * e.checksum.isSome.toNat + 2 ^ 8 * e.err + 2 ^ 16 * e.loc
      + 2 ^ 20 * e.stage + 2 ^ 24 * e.size)

/-- The command in turn on a key has not yet given its entry its state: `.auto` has still to choose it, or a recompute to be verified
(R336, R358). -/
def State.unseen (s : State) (d key : Nat) : Bool :=
  ((s.die d).turn key).any fun c => c.op = 0 && !c.running
    && (c.mode = 6 || (tfind key (s.die d).stash).any fun e => e.state = 8)

/-- `LOAD_PERFORM` (R266, R268, R275, R285 to R291, R338, R369, R417). -/
def execLoadPerform (core bank index piece : Nat) (outside : List (Bool × Nat × BitVec 8)) (s : State) : Result :=
  event s fun s =>
    match s.performable core bank index with
    | none => none
    | some e =>
      let k := s.bank core bank
      match e.ins with
      | .ldc .. | .ldcv .. | .ldg .. | .ldgv .. | .ldgx .. => some ((s.outside outside).performLoad core bank index piece e)
      | .sprobe opa _ =>
        let key := (e.ops.headD 0).toNat % 2 ^ 32
        if s.unseen (dieOf core) key then none
        else some (s.setBank core bank ((k.arriveS s.clk e opa.toNat (statusWord (tfind key (s.die (dieOf core)).stash))).dropEntry index))
      | .nrmrd opa wantE norm =>
        let (lo, hi) := normPair (s.norm norm.toNat) (wantE = 1)
        some (s.setBank core bank (((k.arriveS s.clk e opa.toNat lo).arriveS s.clk e (opa.toNat + 1) hi).dropEntry index))
      | .csrr opa csr =>
        some (s.setBank core bank ((k.arriveS s.clk e opa.toNat (s.readRegister (clusterOf core) csr.toNat)).dropEntry index))
      | _ => none

/-- `STORE_PERFORM` (R266, R268, R275, R285, R288, R293, R294, R370). -/
def execStorePerform (core bank index piece : Nat) (s : State) : Result :=
  event s fun s =>
    match s.performable core bank index with
    | none => none
    | some e =>
      let drop (s : State) : State := s.setBank core bank ((s.bank core bank).dropEntry index)
      match e.ins with
      | .stc .. | .stcv .. | .stg .. | .stgv .. | .stgn .. => some (s.performStore core bank index piece e)
      | .stgx .. => some (if e.phase = 0 then s.reserveSparse core bank index e else s.performStore core bank index piece e)
      | .nrmclr norm => some (drop { s with norms := tset norm.toNat { s.norm norm.toNat with a := 0 } s.norms })
      | .nrmset _ norm => some (drop { s with norms := tset norm.toNat ⟨0, (e.ops.headD 0).setWidth 8⟩ s.norms })
      | .csrw _ csr | .csrs _ csr | .csrc _ csr => some ((drop s).performCsr core bank e csr.toNat)
      | .balloonAddb .. | .balloonAddt .. | .balloonDeflate .. | .balloonClrb .. | .balloonClrt .. =>
        some ((drop s).performBalloon core bank e)
      | _ => none

/-- `AMO_PERFORM` (R274, R295, R296). -/
def execAmoPerform (core bank index : Nat) (outside : List (Bool × Nat × BitVec 8)) (s : State) : Result :=
  event s fun s =>
    match s.performable core bank index with
    | none => none
    | some e =>
      match e.ins with
      | .amo .. => some ((s.outside outside).performAmo core bank index e)
      | _ => none

/-- A core of a list still owes the completion release of an item it had completed by `clk` (R211). -/
def State.owesRelease (s : State) (cores : List Nat) (clk : Nat) : Bool :=
  cores.any fun c => [(s.core c).bank0, (s.core c).bank1].any fun k =>
    (k.state == .halted && !k.haltReported && decide (k.haltClk ≤ clk)) || k.queue.any fun e =>
    match e.ins with
    | .deq .. | .deqt .. => e.phase ≠ 1 && decide (e.clk ≤ clk)
    | _ => false

/-- An access that has passed its checks, or a sparse store that has reserved its block, has pieces still to perform (R280, R391). -/
def QEntry.begun (e : QEntry) : Bool :=
  match e.ins with
  | .stgx .. => e.phase ≠ 0
  | .ldg .. | .ldgv .. | .ldgx .. | .stg .. | .stgv .. | .stgn .. => !e.done.isEmpty
  | _ => false

/-- The global accesses of the device that have begun and not ended, by their numbers. -/
def State.underWay (s : State) : List Nat :=
  s.cores.flatMap fun (_, x) => [x.bank0, x.bank1].flatMap fun k => (k.queue.filter QEntry.begun).map (·.id)

/-- Some global access of the device has begun and not ended. -/
def State.midAccess (s : State) : Bool := !s.underWay.isEmpty

/-- A held bundle of a bank still stands at issue. -/
def State.atIssue (s : State) (c b bundle : Nat) : Bool :=
  let x := s.core c
  x.active = b && x.drain.isNone && (x.bank b).ready && (x.bank b).waiting.any fun w => w.bundle = bundle

/-- `MARKER_EFFECT`: fences, the completion release of an item, the landing of a delivered record, a revocation
(R217, R267, R272, R298, R428). -/
def execMarkerEffect (core bank index : Nat) (s : State) : Result :=
  event s fun s =>
    match s.performable core bank index with
    | none => none
    | some e =>
      let drop (s : State) : State := s.setBank core bank ((s.bank core bank).dropEntry index)
      match e.ins with
      | .fence order scope =>
        let s := drop s
        let s := if order = 2 ∨ order = 3 then s.release core bank scope.toNat else s
        some (if order = 1 ∨ order = 3 then s.acquire core bank scope.toNat else s)
      | .qalign => some (drop s)
      | .deq .. | .deqt .. =>
        if e.phase = 0 then some ((drop s).release core bank e.addr)
        else if e.phase = 2 then if s.atIssue core bank e.bundle then none else some ((drop s).release core bank e.addr)
        else if s.clk < e.addr ∨ s.owesRelease e.done e.clk then none
        else
          let s := (drop s).acquire core bank e.side.toNat
          let k := s.bank core bank
          let regs := dests e.ins
          some (s.setBank core bank ((regs.zip e.ops).foldl (fun k (r, v) =>
            match r with
            | .s n => k.arriveS s.clk e n v
            | _ => k) k))
      | .extinv .. =>
        if e.phase = 0 then
          let s := s.release core bank 3
          let part := ((s.bank core bank).task.map (·.partition)).getD 0
          let s := s.revokeIn (fun v => v.partition = part) (e.ops.headD 0).toNat ((e.ops[1]?).getD 0).toNat
          some (s.setBank core bank ((s.bank core bank).setEntry index { e with phase := 1, done := s.underWay }))
        else if s.underWay.any e.done.contains then none
        else some (drop s)
      | _ => none

/-- `L2_LINE_EVICT`: a line leaves a slice, its dirty bytes written back (R270). -/
def execL2LineEvict (cluster line : Nat) (s : State) : Result :=
  event s fun s =>
    if (tfind line (s.cluster cluster).lines).isNone then none else some (s.evictLine cluster line)

/-! ## Drains and pre-emption -/

/-- `DRAIN_COMPLETE`: step 6, no earlier than 4 clk after the drain began (R403). -/
def execDrainComplete (core : Nat) (s : State) : Result :=
  event s fun s =>
    match (s.core core).drain with
    | none => none
    | some d =>
      if d.since + 4 ≤ s.clk ∧ ((s.core core).bank d.bank).drained then some (s.endDrain core d) else none

/-- `PREEMPT_ARRIVE`: a pre-emption request reaches a core and stops the named bank (R407). -/
def execPreemptArrive (core bank : Nat) (s : State) : Result :=
  event s fun s =>
    let x := s.core core
    let k := x.bank bank
    if !(s.swaps.any fun w => !w.inward ∧ w.bank = bank ∧ (s.partitionCores w.partition).contains core) ∨ k.stopped then none
    else
      let s := if k.idle then s else s.wakeCore core
      if x.active = bank ∧ k.state = .runnable then
        if x.drain.isSome then none else some (s.startDrain core bank .preempt)
      else if (s.bank core bank).state = .halted ∧ !(s.bank core bank).landed then none
      else
        -- an answer that arrives later is discarded: the bank waits for no batts any more
        let s := s.forgetWriter (.bank core bank)
        some (s.setBank core bank { s.bank core bank with stopped := true, waiting := none, idle := false, woken := false })

/-! ## Records, barriers and rounds -/

/-- `SCHEDULER_ROUND` (R203, R204). -/
def execSchedulerRound (stage : Nat) (s : State) : Result :=
  event s fun s =>
    let s := s.refreshStage stage
    match (s.stage stage).round with
    | some t => if t ≤ s.clk then some ((s.round stage).refreshStage stage) else none
    | none => none

/-- `ENQ_RECORD_ENTER`: a release over the owning stage's placement, then the record enters the place it reserved (R219);
a queue closed meanwhile takes no record, and the `ENQ` falls under R218 (R220). -/
def execEnqRecordEnter (core bank index : Nat) (s : State) : Result :=
  event s fun s =>
    match s.performable core bank index with
    | none => none
    | some e =>
      match e.ins with
      | .enq _ wq =>
        let q := wq.toNat
        let w0 := e.ops.headD 0
        let addr := (e.ops[2]?).getD 0
        let step := (e.ops[1]?).getD 0
        let i := q / 4
        let x := s.stage i
        let s := s.setBank core bank ((s.bank core bank).dropEntry index)
        let s := s.release core bank (scopeOver core x.cores)
        if w0.getLsbD 7 then
          let isB := w0.extractLsb' 0 3 = 2
          let x := if isB then { x with bReserved := x.bReserved - 1 } else { x with fReserved := x.fReserved - 1 }
          some ((s.setStage i x).arrive i isB (w0.extractLsb' 16 16).toNat step addr (some core))
        else
          let s := s.setWq q { s.wq q with reserved := (s.wq q).reserved - 1 }
          if (s.wq q).closed then some (s.postOn core bank 0x1D e.bundle e.pos e.clk none)
          else some ((s.enterQueue q { words := e.ops, producers := [core] }).refresh)
      | _ => none

/-- `BARR_ARRIVE`: a request of `BINIT`, `BARR` or `BEXP` is applied at its barrier, or refused (R224, R225). -/
def execBarrArrive (core bank index : Nat) (s : State) : Result :=
  event s fun s =>
    match s.performable core bank index with
    | none => none
    | some e =>
      let c := clusterOf core
      let a := (e.ops.headD 0).toNat
      let s' := s.setBank core bank ((s.bank core bank).dropEntry index)
      let refuse (s : State) : State := s.postOn core bank 0x1D e.bundle e.pos e.clk none
      match e.ins with
      | .binit _ bar =>
        let x := s.barrier c bar.toNat
        if x.pending ≠ 0 then some (refuse s')
        else some (s'.setBarrier c bar.toNat { x with expect := a, remain := a, early := 0, err := false, errCode := 0 })
      | .bexp _ bar =>
        let x := s.barrier c bar.toNat
        if 2 ^ 28 - 1 < x.pending + a then some (refuse s')
        else some (s'.setBarrier c bar.toNat { x with pending := x.pending + a })
      | .barr bar =>
        let b := bar.toNat
        let x := s.barrier c b
        let k := s'.bank core bank
        let s' := s'.setBank core bank { k with barrClk := tset b s.clk k.barrClk }
        if x.expect = 0 ∨ (x.remain = 0 ∧ x.expect ≤ x.early + 1) then some (refuse s')
        else
          let phase := if 0 < x.remain then x.phase else x.phase + 1
          let k := s'.bank core bank
          let s' := s'.setBank core bank { k with arrival := tset b phase k.arrival }
          some (s'.setBarrier c b (if 0 < x.remain then { x with remain := x.remain - 1 } else { x with early := x.early + 1 }))
      | _ => none

end Sys2Proof.Machine
end

