-- ==== Sys2Proof/Machine/CopyEvents.lean ====
section
/-! DEFINITION. The copy channels and the transform engine at work (R304 to R314, spec/16; the stride-gather unit: R258 to R260,
spec/12). -/

namespace Sys2Proof.Machine

/-! ## The running command -/

/-- The command at the head of a channel. -/
def State.headCmd (s : State) (c n : Nat) : Option CopyCmd := ((s.core c).channel n).queue.head?

/-- The channel replaced. -/
def State.setChannel (s : State) (c n : Nat) (h : Channel) : State :=
  s.setCore c { s.core c with channels := tset n h (s.core c).channels }

/-- The command at the head of a channel replaced. -/
def State.setHead (s : State) (c n : Nat) (cmd : CopyCmd) : State :=
  let h := (s.core c).channel n
  s.setChannel c n { h with queue := cmd :: h.queue.drop 1 }

/-- The command at the head of a channel leaves it, with whatever it waits for. -/
def State.dropHead (s : State) (c n : Nat) : State :=
  let h := (s.core c).channel n
  (s.setChannel c n { h with queue := h.queue.drop 1 }).clearWait (.copy c n)

/-- Contributor kind: 1 on the channel itself, 2 on the transform engine (R311). -/
def CopyCmd.kindCode (cmd : CopyCmd) : Nat := if cmd.onEngine then 2 else 1

/-- Where a side of a block lies. -/
inductive Space where
  | pad | cluster | global | inter
  | fifo (engine : Nat) (isB : Bool)
deriving DecidableEq, Repr

/-- The source space of a block. -/
def CopyBlock.from (b : CopyBlock) : Space :=
  if b.flags % 2 = 1 then .inter else match b.sspace with
    | 0 => .pad
    | 1 => .cluster
    | _ => .global

/-- The destination space of a block. -/
def CopyBlock.to (b : CopyBlock) : Space :=
  if b.flags / 2 % 2 = 1 then .inter else match b.dspace % 8 with
    | 0 => .pad
    | 1 => .cluster
    | 2 => .global
    | 3 => .fifo (b.dspace / 8 % 2) false
    | _ => .fifo (b.dspace / 8 % 2) true

/-- A FIFO destination. -/
def Space.isFifo : Space → Bool
  | .fifo .. => true
  | _ => false

/-! ## Accesses of a block -/

/-- Bytes read by the running command (R304, R313); past the intermediate the block fails with `ENGINE` (log 18). -/
def State.copyRead (s : State) (c n : Nat) (cmd : CopyCmd) (sp : Space) (a len : Nat) : Got :=
  match sp with
  | .pad => if Config.scratchpadBytes < a + len then .fail 0x0B else .value (mread (s.core c).pad a len) s
  | .cluster =>
    match (s.cluster (clusterOf c)).check a len with
    | some cause => .fail cause
    | none => .value (mread (s.cluster (clusterOf c)).cmem a len) s
  | .global => s.engineRead (.copy c n) cmd.who a len
  | .inter =>
    if 2 ^ 18 < a + len then .fail 0x1D
    else .value (mread ((s.headCmd c n).getD cmd).inter a len) s
  | .fifo .. => .fail 0x1D

/-- A long read, in pieces of at most 4 KiB. -/
def State.copyReadLong (s : State) (c n : Nat) (cmd : CopyCmd) (sp : Space) : Nat → Nat → Nat → Got
  | 0, _, _ => .value 0 s
  | fuel + 1, a, len =>
    if len = 0 then .value 0 s
    else
      let k := min len 4096
      match s.copyRead c n cmd sp a k with
      | .value x s =>
        match s.copyReadLong c n cmd sp fuel (a + k) (len - k) with
        | .value y s => .value (x + 256 ^ k * y) s
        | o => o
      | o => o

/-- Scratchpad bytes a channel has written in this clk. -/
def Channel.rate (h : Channel) (now : Nat) : Nat := if h.rateClk = now then h.rateBytes else 0

/-- Port bytes that the sparse accesses of a core's bundle have taken in this clk (R31). -/
def Core.sparsePorts (x : Core) (now : Nat) : Nat := if x.sparseClk = now then x.sparseBytes else 0

/-- The channel may still write `len` scratchpad bytes in this clk: after the bundle of the clk, whose store its write follows
(R32), and within the rates of R303, less what sparse accesses take (R31). -/
def State.padRoom (s : State) (c n len : Nat) : Bool :=
  let x := s.core c
  !s.atBoundary c && decide ((x.channel n).rate s.clk + len ≤ 512)
    && decide (((List.range 4).map fun i => (x.channel i).rate s.clk).sum + len + x.sparsePorts s.clk ≤ 1024)

/-- Bytes written by the running command. -/
def State.copyWrite (s : State) (c n : Nat) (cmd : CopyCmd) (sp : Space) (tagged : Bool) (a len x : Nat) : Got :=
  match sp with
  | .pad =>
    if Config.scratchpadBytes < a + len then .fail 0x0B
    else if !s.padRoom c n len then .wait s
    else
      let y := s.core c
      let h := y.channel n
      let h := { h with rateClk := s.clk, rateBytes := h.rate s.clk + len }
      .value 0 (s.setCore c { y with pad := mwrite y.pad a len x, channels := tset n h y.channels })
  | .cluster =>
    let q := s.cluster (clusterOf c)
    match q.check a len with
    | some cause => .fail cause
    | none => .value 0 (s.setCluster (clusterOf c) { q with cmem := mwrite q.cmem a len x })
  | .global => s.engineWrite (.copy c n) cmd.who tagged a len x
  | .inter =>
    if 2 ^ 18 < a + len then .fail 0x1D
    else
      let y := (s.headCmd c n).getD cmd
      .value 0 (s.setHead c n { y with inter := mwrite y.inter a len x })
  | .fifo .. => .fail 0x1D

/-- Writes one after another; the first that does not complete decides. -/
def State.copyWrites (s : State) (c n : Nat) (cmd : CopyCmd) (sp : Space) : List (Nat × Nat × Nat) → Got
  | [] => .value 0 s
  | (a, len, x) :: r =>
    match s.copyWrite c n cmd sp true a len x with
    | .value _ s => s.copyWrites c n cmd sp r
    | o => o

/-! ## Delivery -/

/-- The pieces of `n` bytes from byte `start` of a delivery of rows of `len` bytes, as row, column and length. -/
def rowPieces (len : Nat) : Nat → Nat → Nat → List (Nat × Nat × Nat)
  | 0, _, _ => []
  | fuel + 1, start, n =>
    if n = 0 ∨ len = 0 then []
    else
      let k := min n (len - start % len)
      (start / len, start % len, k) :: rowPieces len fuel (start + k) (n - k)

/-- The elements of a dense tensor from element `e` on, as row, first element and number. -/
def elemPieces (rowLen e n : Nat) : List (Nat × Nat × Nat) := rowPieces rowLen n e n

/-- The bytes of a fill from column `col` of a row (R307). -/
def fillBytes (aux col n : Nat) : Nat := bytesNat ((List.range n).map fun i => BitVec.ofNat 8 (aux / 256 ^ ((col + i) % 8)))

/-- The tag of a granule of a page of an open shadow set (R315). -/
def State.putShadowTag (s : State) (d i off tag : Nat) : State :=
  let x := s.die d
  match tfind i x.shadows with
  | none => s
  | some h => s.setDie d { x with shadows := tset i { h with pages := h.pages.map fun (p, e) =>
      (p, if p = off / 4096 then { e with record := e.record.setTag (off % 4096 / 32) (BitVec.ofNat 4 tag) } else e) } x.shadows }

/-- Tags of every granule that parts touch set where their bytes land, in the current copy or in an open shadow; none where a page is not
home memory mapped with TG = 1 (R310, R315). -/
def State.setTags (s : State) (w : Captured) (l : List Part) (tag : Nat) : Option State :=
  if l.all fun p => p.loc.isHome && p.ext.any (·.tg) then
    some (l.foldl (fun (s : State) p =>
      (List.range ((p.va % 32 + p.n + 31) / 32)).foldl (fun (s : State) j =>
        match p.loc.add (32 * j - p.va % 32), s.shadowOf w p.loc with
        | .home d off, some (_, i) => s.putShadowTag d i off tag
        | l, _ => s.putTag l tag) s) s)
  else none

/-- Unit `i` of a `COPY` or `FILL` to an address: 32 bytes of the delivery (R305). -/
def State.copyUnit (s : State) (c n : Nat) (cmd : CopyCmd) (b : CopyBlock) (i : Nat) : Got :=
  let total := b.rows * b.len
  let size := min 32 (total - 32 * i)
  let tagw := b.kind = 5 && b.param % 2 = 1
  let o := (rowPieces b.len 33 (32 * i) size).foldl (fun (acc : Got) (row, col, k) =>
    match acc with
    | .value m s =>
      let data : Got :=
        if b.kind = 5 then .value (fillBytes b.aux col k) s
        else s.copyRead c n cmd b.from (if b.from = .inter then row * b.spitch + col else b.src + row * b.spitch + col) k
      match data with
      | .value x s =>
        let a := (if b.to = .inter then 0 else b.dst) + row * b.dpitch + col
        match s.copyWrite c n cmd b.to (!tagw) a k x with
        | .value _ s =>
          if tagw then
            match s.setTags cmd.who (s.parts (tget [] cmd.who.invocation s.extents) 64 (a % 2 ^ 56) k) (b.param / 16 % 16) with
            | some s => .value (m + k) s
            | none => .fail 0x12
          else .value (m + k) s
        | o => o
      | o => o
    | o => o) (.value 0 s)
  if tagw ∧ (b.dst % 32 ≠ 0 ∨ b.len % 32 ≠ 0 ∨ !cmd.who.priv ∨ b.to ≠ .global) then .fail 0x12 else o

/-! ## The stride-gather unit (R258 to R260) -/

/-- The fields of a pattern entry. -/
structure Pattern where
  base : Nat
  pitch : Nat
  esize : Nat
  fmt : Nat
  rot : BitVec 16
  rows : Nat
  cols : Nat
  tilew : Nat
  valid : Bool
deriving DecidableEq, Repr

/-- A pattern entry of 32 bytes, with its validity (R258). -/
def Pattern.ofBits (v : BitVec 256) : Pattern :=
  let x := v.toNat
  let p : Pattern :=
    { base := fieldAt x 0 8, pitch := fieldAt x 8 4, esize := 2 ^ fieldAt x 12 1, fmt := fieldAt x 13 1,
      rot := BitVec.ofNat 16 (fieldAt x 14 2), rows := fieldAt x 16 4, cols := fieldAt x 20 4, tilew := fieldAt x 24 1,
      valid := false }
  { p with valid := fieldAt x 25 1 = 1 && fieldAt x 26 6 = 0 && p.tilew ≠ 0 && p.tilew ≤ 128 && fieldAt x 12 1 ≤ 2
      && fmtCodeOk p.fmt && (p.fmt = 0 || codeBytes p.fmt = p.esize) && p.cols * p.esize ≤ p.pitch && !tagMalformed p.rot }

/-- A fault of a request: status code and barrier cause. -/
inductive Gathered where
  | blocks (l : List FifoEntry) (s : State)
  | fault (code cause : Nat)
  | wait (s : State)
deriving DecidableEq, Repr

/-- The parts of element (row, column) of a pattern, none past its last row, or the cause of its fault. -/
def State.strideElem (s : State) (w : Captured) (p : Pattern) (row col : Nat) : Nat ⊕ List Part :=
  if p.rows ≤ row then .inr []
  else s.checkGlobal (tget [] w.invocation s.extents) w.priv false true ((p.base + row * p.pitch + col * p.esize) % 2 ^ 64) p.esize

/-- The scale and tag of gathered blocks (R259). -/
def Pattern.entry (p : Pattern) (elems : List Nat) : FifoEntry :=
  { fmt := p.fmt, elems := BitVec.ofNat 2048 (packFields (8 * p.esize) elems),
    scale := if p.fmt = 1 ∨ p.fmt = 2 ∨ p.fmt = 3 then 0x7FC00000 else 0x3F800000,
    tag := if p.rot.getLsbD 15 then p.rot ||| 0x4000 else p.rot, mask := BitVec.allOnes 128 }

/-- A request for `n` columns from column `col`: 128 elements of each from row `row0` (R259, R260). The elements of a block, as
packed numbers, stand beside its entry. -/
def State.gather (s : State) (c n : Nat) (w : Captured) (entry row0 col count : Nat) : Gathered × List Nat :=
  let p := Pattern.ofBits (tget 0 entry (s.die (dieOf c)).patterns)
  if !p.valid then (.fault 1 0x1D, [])
  else if p.cols < col + count ∨ p.rows ≤ row0 ∨ p.tilew < count then (.fault 2 0x12, [])
  else
    let cols := (List.range count).map fun j => (List.range 128).map fun i => s.strideElem w p (row0 + i) (col + j)
    match (cols.flatten).findSome? fun e => match e with
      | .inl c => some c
      | .inr _ => none with
    | some cause =>
      if 0x30 ≤ cause then
        let bad := (List.range count).findSome? fun j => (List.range 128).findSome? fun i =>
          match s.strideElem w p (row0 + i) (col + j) with
          | .inl _ => some (p.base + (row0 + i) * p.pitch + (col + j) * p.esize)
          | .inr _ => none
        (.wait (s.engineFault (.copy c n) w.invocation (bad.getD p.base) p.esize cause false), [])
      else (.fault (if cause = 0x13 then 4 else 0) cause, [])
    | none =>
      let parts := cols.map fun l => l.map fun e => match e with
        | .inr x => x
        | .inl _ => []
      let vals := parts.map fun l => l.map s.readParts
      if parts.flatten.all s.allReach then
        (.blocks (vals.map p.entry) (parts.flatten.foldl State.countAccess s), vals.map fun l => packFields (8 * p.esize) l)
      else (.wait s, [])

/-- A fault recorded in a pattern's status register (R260). -/
def Die.strideFault (x : Die) (entry code : Nat) : Die :=
  let v := tget 0 entry x.patStatus
  let count := min 255 ((v.extractLsb' 8 8).toNat + 1)
  let code := if code = 0 then (v.extractLsb' 0 8).toNat else code
  { x with patStatus := tset entry (BitVec.ofNat 64 (code + 256 * count)) x.patStatus }

/-! ## Header kinds -/

/-- Headers of the running block. -/
def CopyCmd.srcHead (cmd : CopyCmd) : Header := Header.ofNat (cmd.heads.headD 0)
def CopyCmd.dstHead (cmd : CopyCmd) : Header := Header.ofNat ((cmd.heads[1]?).getD 0)

/-- 128 elements of a dense tensor from element `e` of the row order, zero past its end: its bytes in pieces. -/
def State.denseElems (s : State) (c n : Nat) (cmd : CopyCmd) (sp : Space) (h : Header) (e : Nat) : Got :=
  let w := codeBytes h.fmt
  let count := min 128 (h.rows * h.rowLen - e)
  (elemPieces h.rowLen e count).foldl (fun (acc : Got) (row, first, k) =>
    match acc with
    | .value x s =>
      match s.copyRead c n cmd sp ((h.addr + row * h.pitch + first * w) % 2 ^ 64) (k * w) with
      | .value y s => .value (x + 256 ^ ((row * h.rowLen + first - e) * w) * y) s
      | o => o
    | o => o) (.value 0 s)

/-- The scale of block `i` of a tensor (R261). -/
def State.blockScaleAt (s : State) (c n : Nat) (cmd : CopyCmd) (sp : Space) (h : Header) (i : Nat) : Got :=
  if h.scales = 0 then .value 0x3F800000 s else s.copyRead c n cmd sp ((h.scales + 4 * i) % 2 ^ 64) 4

/-- Blocks of a row (R261). -/
def Header.rowBlocks (h : Header) : Nat := (h.rowLen + 127) / 128

/-- Blocks of a tensor: of its rows, or of its row order in the sparse form (R262, R308). -/
def Header.blocks (h : Header) : Nat := if h.form = 1 then (h.rows * h.rowLen + 127) / 128 else h.rows * h.rowBlocks

/-- A block of a sparse tensor at byte `off` of its payload, checked against its header (R264): bytes and packed elements. -/
def State.sparseAt (s : State) (c n : Nat) (cmd : CopyCmd) (sp : Space) (h : Header) (off limit : Nat) : (Got × Nat) :=
  match s.copyRead c n cmd sp ((h.addr + off) % 2 ^ 64) 32 with
  | .value x s =>
    match anyBlock x with
    | none => (.fail 0x18, 0)
    | some b =>
      if b.fmt ≠ h.fmt ∨ limit < b.point then (.fail 0x18, 0)
      else
        match s.copyRead c n cmd sp ((h.addr + off) % 2 ^ 64) b.bytes with
        | .value y s => (.value (packFields (8 * codeBytes b.fmt) (expandSparse (8 * codeBytes b.fmt) b.mask (y / 2 ^ 192) 128 0)) s, b.bytes)
        | o => (o, 0)
  | o => (o, 0)

/-- A FIFO entry of a block of packed elements. -/
def fifoEntryOf (fmt x : Nat) (scale : BitVec 32) (tag : BitVec 16) : FifoEntry :=
  { fmt, elems := BitVec.ofNat 2048 x, scale, tag, mask := BitVec.allOnes 128 }

/-- The direction of a conversion: narrowing, widening, or neither (R309). -/
def conversion (src dst : Fmt) : Option Bool :=
  let narrowing := (src = .fp32 ∨ src = .bf16 ∨ src = .int32) ∧ (dst = .e4m3 ∨ dst = .e5m2 ∨ dst = .bf16 ∨ dst = .int8)
    ∧ ¬(src = .bf16 ∧ dst = .bf16)
  let widening := (src = .e4m3 ∨ src = .e5m2 ∨ src = .bf16 ∨ src = .int8) ∧ dst = .fp32
  if narrowing then some true else if widening then some false else none

/-- The captured seed register `i`. -/
def Captured.seed (w : Captured) (i : Nat) : Seed := tget ⟨0, 0⟩ i w.seeds

/-- The lowest captured seed register with an identity (R94, R309). -/
def Captured.seedFor (w : Captured) (ident : BitVec 12) : Option Seed :=
  ((List.range 16).map w.seed).find? fun d => d.ident = ident

/-- The destination format of a `CONVERT`: its header's, or the FIFO's as MCFG gave it at acceptance (log 18). -/
def CopyCmd.convertTarget (cmd : CopyCmd) (b : CopyBlock) : Option Fmt :=
  match b.to with
  | .fifo e isB => pushFormat (if e = 0 then cmd.mcfg0 else cmd.mcfg1) isB
  | _ => Fmt.ofCode cmd.dstHead.fmt

/-- Unit `i` of a `CONVERT` (R309). -/
def State.convertUnit (s : State) (c n : Nat) (cmd : CopyCmd) (b : CopyBlock) (i : Nat) : Got :=
  let h := cmd.srcHead
  let d := cmd.dstHead
  let nb := h.rowBlocks
  match Fmt.ofCode h.fmt, cmd.convertTarget b with
  | some f, some g =>
    match conversion f g with
    | none => .fail 0x18
    | some narrow =>
      if i = h.rows * nb then
        -- the destination header at the end
        let seed := cmd.who.seed (b.param / 32 % 16)
        let tag : BitVec 16 := if narrow then (if b.param / 16 % 2 = 1 then 0 else rotatedTag seed.ident) else 0
        let len := (h.rows - 1) * d.pitch + h.rowLen * g.bytes
        let at' := if b.to = .inter then 0 else b.dst
        s.copyWrites c n cmd b.to [((at' + 18) % 2 ^ 64, 2, tag.toNat), ((at' + 12) % 2 ^ 64, 4, len)]
      else
        let r := i / nb
        let j := i % nb
        let k := b.aux % 2 ^ 32 + j
        let (got, used) := if h.form = 1 then s.sparseAt c n cmd b.from h cmd.srcOff 1
          else (s.denseElems c n cmd b.from h (r * h.rowLen + 128 * j), 0)
        match got with
        | .value x s =>
          let elems := unpack f.width 128 x
          let out : (List Nat × BitVec 32 × BitVec 16) ⊕ Got :=
            if narrow then
              let blk := cardBlock (elems.map f.decode) g (RoundMode.ofCode (b.param % 8)) (b.param / 8 % 2 = 1)
                (cmd.who.seed (b.param / 32 % 16)) k (b.param / 16 % 2 = 1) none
              .inl (blk.elems, blk.scale, blk.tag)
            else if tagUnwidenable h.rot then .inr (.fail 0x0D)
            else
              match h.rot.getLsbD 15, cmd.who.seedFor (h.rot.extractLsb' 0 12) with
              | true, none => .inr (.fail 0x0D)
              | rotated, seed =>
                match s.blockScaleAt c n cmd b.from h i with
                | .value sc _ => .inl (widenBlock f elems (BitVec.ofNat 32 sc) rotated (seed.getD ⟨0, 0⟩).value k, 0x3F800000, 0)
                | o => .inr o
          match out with
          | .inr o => o
          | .inl (l, scale, tag) =>
            let data := packFields g.width l
            match b.to with
            | .fifo .. =>
              let y := (s.headCmd c n).getD cmd
              .value 0 (s.setHead c n { y with waiting := y.waiting ++ [fifoEntryOf g.code data scale tag],
                                               srcOff := y.srcOff + used })
            | sp =>
              let w1 := [((d.addr + r * d.pitch + 128 * j * g.bytes) % 2 ^ 64, 128 * g.bytes, data)]
              let w2 := if narrow then [((d.scales + 4 * i) % 2 ^ 64, 4, scale.toNat)] else []
              match s.copyWrites c n cmd sp (w1 ++ w2) with
              | .value _ s =>
                let y := (s.headCmd c n).getD cmd
                .value (128 * g.bytes) (s.setHead c n { y with srcOff := y.srcOff + used })
              | o => o
        | o => o
  | _, _ => .fail 0x18

/-- Unit `i` of a `COPY` into a FIFO: one block of the header's tensor as an entry (R308). -/
def State.fifoUnit (s : State) (c n : Nat) (cmd : CopyCmd) (b : CopyBlock) (i : Nat) : Got :=
  let h := cmd.srcHead
  match s.blockScaleAt c n cmd b.from h i with
  | .value sc s =>
    let put (s : State) (x used : Nat) : Got :=
      let y := (s.headCmd c n).getD cmd
      .value 0 (s.setHead c n { y with waiting := y.waiting ++ [fifoEntryOf h.fmt x (BitVec.ofNat 32 sc) h.rot],
                                       srcOff := y.srcOff + used })
    if h.form = 1 then
      match s.sparseAt c n cmd b.from h cmd.srcOff 3 with
      | (.value x s, used) => put s x used
      | (o, _) => o
    else
      let e := i / h.rowBlocks * h.rowLen + 128 * (i % h.rowBlocks)
      let count := min 128 (h.rowLen - 128 * (i % h.rowBlocks))
      match s.denseElems c n cmd b.from h e with
      | .value x s => put s (x % 256 ^ (count * codeBytes h.fmt)) 0
      | o => o
  | o => o

/-- The offset of the first byte of a block in the scratchpad, where that is its destination, its header being as it now stands there
(R305). -/
def State.padStart (s : State) (c : Nat) (b : CopyBlock) : Option Nat :=
  let d := Header.ofNat (mread (s.core c).pad b.dst 64)
  if b.to ≠ .pad then none
  else match b.kind with
    | 0 | 1 | 5 => some b.dst
    | 2 | 4 => some d.addr
    | 3 => some (d.addr + d.len)
    | _ => none

/-- The lowest of the first bytes of blocks in the scratchpad. -/
def State.padLowest (s : State) (c : Nat) (l : List CopyBlock) : Option Nat := (l.filterMap (s.padStart c)).min?

/-- The running block has written the scratchpad up to an address, and ended if `ends` is set: OFFSET rises past each byte below which no
byte of the command is still to be written, and never falls while the command runs (R279, R305). -/
def State.raiseOffset (s : State) (c n : Nat) (ends : Bool) (a : Nat) : State :=
  let h := (s.core c).channel n
  match h.queue with
  | [] => s
  | cmd :: r =>
    let top := max cmd.top a
    let done := if ends then top else a
    let upTo := match s.padLowest c (cmd.blocks.drop 1) with
      | some low => min low done
      | none => done
    s.setChannel c n { h with offset := max h.offset (upTo % 2 ^ 24), queue := { cmd with top } :: r }

/-- A block of a `PACKSP` reserved as `STGX` reserves its block, and written, but for a scratchpad, whose rate may take it in pieces:
there the block is held (R293, R303, R307). -/
def State.packBlock (s : State) (c n : Nat) (cmd : CopyCmd) (b : CopyBlock) (i : Nat) : Got :=
  let h := cmd.srcHead
  let w := codeBytes h.fmt
  let count := min 128 (h.rows * h.rowLen - 128 * i)
  match s.denseElems c n cmd b.from h (128 * i) with
  | .value x s =>
    let at' := if b.to = .inter then 0 else b.dst
    match s.copyRead c n cmd b.to at' 64 with
    | .value y t =>
      -- the reservation reads the header and writes LEN in one access (R256, R293)
      let s := t.uncounted s
      let d := Header.ofNat y
      let src : SparseSource := { fmt := h.fmt, tag := h.rot, elems := unpack (8 * w) 128 x }
      if sparseHeaderBad d src (b.to = .pad) then .fail 0x18
      else
        let block := sparseStored src d.point
        let a := (d.addr + d.len) % 2 ^ 64
        let lenWrite := ((at' + 12) % 2 ^ 64, 4, d.len + block.length)
        if d.cap < d.len + block.length then .fail 0x15
        else if b.to = .pad then
          if Config.scratchpadBytes < a + block.length then .fail 0x0B
          else
            match s.copyWrites c n cmd b.to [lenWrite] with
            | .value _ s =>
              let y := (s.headCmd c n).getD cmd
              .value 0 (s.setHead c n { y with held := some (a, block.length, bytesNat block) })
            | o => o
        else
          match s.copyWrites c n cmd b.to [(a, block.length, bytesNat block), lenWrite] with
          | .value _ s =>
            let s := match d.normEn, Fmt.ofCode h.fmt with
              | true, some f => s.addNorm d.norm (src.elems.map f.decode)
              | _, _ => s
            .value (count * w) s
          | o => o
    | o => o
  | o => o

/-- Unit `i` of a `PACKSP`: three for each block, its reservation and the two pieces in which a scratchpad takes it (R303, R307). -/
def State.packUnit (s : State) (c n : Nat) (cmd : CopyCmd) (b : CopyBlock) (i : Nat) : Got :=
  let h := cmd.srcHead
  if i % 3 = 0 then s.packBlock c n cmd b (i / 3)
  else
    match cmd.held with
    | none => .value 0 s
    | some (a, len, x) =>
      let k := min len 512
      match s.copyWrite c n cmd b.to true a k (x % 256 ^ k) with
      | .value _ s =>
        let left := if len = k then none else some (a + k, len - k, x / 256 ^ k)
        let s := s.raiseOffset c n (left.isNone && decide ((h.rows * h.rowLen + 127) / 128 ≤ i / 3 + 1)) (a + k)
        let y := (s.headCmd c n).getD cmd
        .value (if left.isNone then min 128 (h.rows * h.rowLen - 128 * (i / 3)) * codeBytes h.fmt else 0)
          (s.setHead c n { y with held := left })
      | o => o

/-- Unit `i` of an `EXPAND`: one sparse block written densely (R310). -/
def State.expandUnit (s : State) (c n : Nat) (cmd : CopyCmd) (b : CopyBlock) (i : Nat) : Got :=
  let h := cmd.srcHead
  let d := cmd.dstHead
  let w := codeBytes h.fmt
  let count := min 128 (h.rows * h.rowLen - 128 * i)
  match s.sparseAt c n cmd b.from h cmd.srcOff 1 with
  | (.value x s, used) =>
    let writes := (elemPieces h.rowLen (128 * i) count).map fun (row, first, k) =>
      ((d.addr + row * d.pitch + first * w) % 2 ^ 64, k * w, x / 256 ^ ((row * h.rowLen + first - 128 * i) * w) % 256 ^ (k * w))
    match s.copyWrites c n cmd b.to writes with
    | .value _ s =>
      let y := (s.headCmd c n).getD cmd
      .value (count * w) (s.setHead c n { y with srcOff := y.srcOff + used })
    | o => o
  | (o, _) => o

/-- The checksum of a payload (R310, R335). -/
def checksumOf (x len : Nat) : Nat := (((List.range ((len + 7) / 8)).map fun i => x / 256 ^ (8 * i) % 2 ^ 64).sum % 2 ^ 64) ^^^ len

/-- The unit of a `CHECKSUM`. -/
def State.checksumUnit (s : State) (c n : Nat) (cmd : CopyCmd) (b : CopyBlock) : Got :=
  let h := cmd.srcHead
  match s.copyReadLong c n cmd b.from (h.len / 4096 + 1) h.addr h.len with
  | .value x s =>
    let at' := if b.from = .inter then 0 else b.src
    let old := (cmd.heads.headD 0) / 256 ^ 48 % 2 ^ 64
    match s.copyWrite c n cmd b.from true ((at' + 40) % 2 ^ 64) 16 (checksumOf x h.len + 2 ^ 64 * (old ||| 2 ^ 33)) with
    | .value _ s => .value h.len s
    | o => o
  | o => o

/-! ## Blocks -/

/-- Units of the running block. -/
def CopyCmd.units (cmd : CopyCmd) (b : CopyBlock) : Nat :=
  let h := cmd.srcHead
  match b.kind with
  | 0 => if b.to.isFifo then h.blocks else (b.rows * b.len + 31) / 32
  | 1 => 1 + (b.aux / 2 ^ 48 % 256 + 1)
  | 2 => h.rows * h.rowBlocks + (if b.to.isFifo then 0 else 1)
  | 3 => 3 * ((h.rows * h.rowLen + 127) / 128)
  | 4 => (h.rows * h.rowLen + 127) / 128
  | 5 => (b.rows * b.len + 31) / 32
  | _ => 1

/-- A block that reads a source header, and one that reads a destination header. -/
def CopyBlock.needsSrc (b : CopyBlock) : Bool := b.isHeader
def CopyBlock.needsDst (b : CopyBlock) : Bool := !b.to.isFifo && (b.kind = 2 || b.kind = 3 || b.kind = 4)

/-- The headers of a block as numbers (R261); `dst` asks for that of its destination. -/
def State.readHeads (s : State) (c n : Nat) (cmd : CopyCmd) (b : CopyBlock) (dst : Bool) : Got :=
  let one (s : State) (want : Bool) (sp : Space) (a : Nat) : Got :=
    if !want then .value 0 s
    else if sp ≠ .inter ∧ a % 64 ≠ 0 then .fail 0x18
    else s.copyRead c n cmd sp (if sp = .inter then 0 else a) 64
  match one s b.needsSrc b.from b.src with
  | .value x s =>
    match one s (b.needsDst && dst) b.to b.dst with
    | .value y s => .value (x + 2 ^ 512 * y) s
    | o => o
  | o => o

/-- The `CONVERT` of a block widens (R309). -/
def CopyCmd.widens (cmd : CopyCmd) (b : CopyBlock) : Bool :=
  b.kind = 2 && match Fmt.ofCode cmd.srcHead.fmt, cmd.convertTarget b with
    | some f, some g => conversion f g == some false
    | _, _ => false

/-- The checks of a header block at its start; the tag of a widening is checked for itself (R307, R309, R310). -/
def CopyCmd.headsBad (cmd : CopyCmd) (b : CopyBlock) : Bool :=
  let h := cmd.srcHead
  let d := cmd.dstHead
  (b.needsSrc && (h.badShape || (!cmd.widens b && tagMalformed h.rot))) || (b.needsDst && d.fault)
    || (match b.kind with
      | 2 => (h.form = 1 && 1 < h.point) || (!b.to.isFifo && d.form ≠ 0) || h.rowLen % 128 ≠ 0
          || (match Fmt.ofCode h.fmt, cmd.convertTarget b with
            | some f, some g => match conversion f g with
              | none => true
              | some narrow => narrow && !b.to.isFifo && d.scales = 0
            | _, _ => true)
          || decide (2 ^ 32 ≤ b.aux % 2 ^ 32 + h.rowBlocks - 1 ∧ h.rowBlocks ≠ 0)
      | 3 => h.form ≠ 0
      | 4 => h.form ≠ 1 || d.form ≠ 0 || h.fmt ≠ d.fmt || 1 < h.point
      | _ => false)

/-- The cause with which a header block fails at its start. -/
def CopyCmd.headsFault (cmd : CopyCmd) (b : CopyBlock) : Option Nat :=
  if cmd.headsBad b then some 0x18 else if cmd.widens b ∧ tagUnwidenable cmd.srcHead.rot then some 0x0D else none

/-- Counted bytes of a block once its headers are known (R307). -/
def State.countOf (s : State) (cmd : CopyCmd) (b : CopyBlock) : Nat :=
  let h := cmd.srcHead
  match b.kind with
  | 0 => if b.to.isFifo then 512 * h.blocks else b.rows * b.len
  | 2 => h.rows * h.rowLen * ((cmd.convertTarget b).map Fmt.bytes).getD 0
  | 3 => h.rows * h.rowLen * codeBytes h.fmt
  | 4 => h.rows * h.rowLen * codeBytes h.fmt
  | 6 => h.len
  | _ => b.plainCount (patternBytes (tget 0 (b.aux % 64) (s.die (dieOf cmd.who.core)).patterns))

/-- A block whose count depends on what an earlier block of its chain writes: a header in the intermediate, or a pattern. -/
def CopyBlock.late (b : CopyBlock) : Bool :=
  b.deferred || b.isHeader && (b.flags % 2 = 1 || (b.flags / 2 % 2 = 1 && (b.kind = 2 || b.kind = 4)))

/-- A block whose count, or whose use of the intermediate, the chain has to be foreseen for (R311, R312). -/
def CopyBlock.unclear (b : CopyBlock) : Bool := b.late || (b.to = .inter && b.kind = 3)

/-- A block fails: its code is recorded, its remaining bytes subtracted, and every later block of the chain records the same
code (R312). -/
def State.failBlock (s : State) (c n : Nat) (cmd : CopyCmd) (kind cause : Nat) : State :=
  let k := clusterOf c
  let rest := (cmd.blocks.zip (cmd.counted ++ List.replicate 16 0)).drop 1
  let s := match cmd.blocks with
    | b :: _ => s.failDown k b.bar kind cause cmd.left
    | [] => s
  let s := rest.foldl (fun (s : State) (b, count) => s.failDown k b.bar kind cause count) s
  let s := cmd.provisional.foldl (fun (s : State) b => s.countDown k b 1) s
  s.dropHead c n

/-- A command is refused once blocks of it have run, since its chain could not be foreseen: what is counted for the others and any
provisional byte is removed (R312, R353; log 41). -/
def State.refuseRest (s : State) (c n : Nat) (cmd : CopyCmd) : State :=
  let k := clusterOf c
  let s := (cmd.blocks.zip (cmd.left :: cmd.counted.drop 1)).foldl (fun (s : State) (b, count) => s.countDown k b.bar count) s
  let s := cmd.provisional.foldl (fun (s : State) b => s.countDown k b 1) s
  (s.dropHead c n).postFor cmd.who 0x1D

/-- A command starts: the channel is BUSY, and OFFSET becomes the lowest offset that its blocks write in the scratchpad (R305). -/
def State.startCommand (s : State) (c n : Nat) (cmd : CopyCmd) : State :=
  if cmd.started then s
  else
    let s := s.setHead c n { cmd with started := true }
    match s.padLowest c cmd.blocks with
    | some a => s.setChannel c n { (s.core c).channel n with offset := a % 2 ^ 24 }
    | none => s

/-- The output of a block in the chain's intermediate would exceed it (R311; log 18). -/
def State.passesInter (s : State) (cmd : CopyCmd) (b : CopyBlock) : Bool :=
  let h := cmd.srcHead
  let d := cmd.dstHead
  b.to = .inter && match b.kind with
    | 1 => decide (2 ^ 18 < { b with deferred := false }.reach fun b => patternBytes (tget 0 (b.aux % 64) (s.die (dieOf cmd.who.core)).patterns))
    | 2 | 4 => h.rows ≠ 0 && decide (2 ^ 18 < d.addr + (h.rows - 1) * d.pitch + h.rowLen * codeBytes d.fmt)
    | 3 => decide (2 ^ 18 < d.addr + d.len)
    | _ => false

/-- An earlier accepted `PATTERN` of the die has still to be written (R355). -/
def State.patternBefore (s : State) (cmd : CopyCmd) : Bool :=
  let d := dieOf cmd.who.core
  s.cores.any fun (c, x) => dieOf c = d && x.channels.any fun (_, h) => h.queue.any fun q =>
    decide (q.who.issued < cmd.who.issued) && q.blocks.any fun b => b.kind = 7

/-- The headers of the running block are read and checked (R307 to R311). -/
def State.openBlock (s : State) (c n : Nat) (cmd : CopyCmd) (b : CopyBlock) : Got :=
  match s.readHeads c n cmd b true with
  | .value x t =>
    let cmd := { (t.headCmd c n).getD cmd with heads := [x % 2 ^ 512, x / 2 ^ 512] }
    match cmd.headsFault b with
    | some cause => .fail cause
    | none => if t.passesInter cmd b then .fail 0x1D else .value 0 (t.setHead c n cmd)
  | .fail cause => .fail cause
  | .wait t => .wait (t.uncounted s)

/-- The running block starts: its headers, and its count where the chain could not be foreseen (R305, R352; log 41). -/
def State.startBlock (s : State) (c n : Nat) (cmd : CopyCmd) (b : CopyBlock) : Got :=
  match s.openBlock c n cmd b with
  | .value _ s =>
    let cmd := (s.headCmd c n).getD cmd
    if !b.deferred then .value 0 s
    else
        let count := s.countOf cmd b
        match s.countUp (clusterOf c) b.bar count with
        | none => .wait (s.refuseRest c n cmd)
        | some s =>
          let still := ((cmd.blocks.drop 1).filter (·.deferred)).map (·.bar)
          let gone := cmd.provisional.filter fun p => !still.contains p
          let s := gone.foldl (fun (s : State) p => s.countDown (clusterOf c) p 1) s
          .value 0 (s.setHead c n { cmd with left := count, counted := count :: cmd.counted.drop 1,
                                             provisional := cmd.provisional.filter fun p => still.contains p })
  | o => o

/-- The counted bytes of one block of a gather (R312). -/
def CopyCmd.share (cmd : CopyCmd) (b : CopyBlock) : Nat := cmd.counted.headD 0 / (b.aux / 2 ^ 48 % 256 + 1)

/-- The write pointer once `m` bytes of a delivery of rows have been written, row after row: below it no byte of the delivery is still
to be written (R279, R305). -/
def deliveryOffset (base pitch len rows m : Nat) : Nat :=
  let r := m / len
  let next := base + r * pitch
  if rows * len ≤ m then base + (rows - 1) * pitch + len
  else if m % len = 0 then (if r = 0 then base else min (next - pitch + len) next)
  else if r + 1 < rows then min (next + m % len) (next + pitch)
  else next + m % len

/-- The write pointer that `u` units of a block leave in the scratchpad (R305). -/
def CopyCmd.unitOffset (cmd : CopyCmd) (b : CopyBlock) (u : Nat) : Option Nat :=
  let h := cmd.srcHead
  let d := cmd.dstHead
  if b.to ≠ .pad then none
  else match b.kind with
    | 0 | 5 => some (deliveryOffset b.dst b.dpitch b.len b.rows (32 * u))
    | 1 =>
      let len := 128 * cmd.esize
      if u ≤ 1 then none else some (deliveryOffset b.dst b.dpitch len (b.aux / 2 ^ 48 % 256 + 1) ((u - 1) * len))
    | 2 => let w := ((cmd.convertTarget b).map Fmt.bytes).getD 0; some (deliveryOffset d.addr d.pitch (h.rowLen * w) h.rows (128 * w * u))
    | 4 => let w := codeBytes h.fmt; some (deliveryOffset d.addr d.pitch (h.rowLen * w) h.rows (128 * w * u))
    | _ => none

/-- One unit of the running block: its counted bytes, and the state after it. -/
def State.blockUnit (s : State) (c n : Nat) (cmd : CopyCmd) (b : CopyBlock) : Got :=
  match b.kind with
  | 0 => if b.to.isFifo then s.fifoUnit c n cmd b cmd.progress else s.copyUnit c n cmd b cmd.progress
  | 1 =>
    if cmd.progress = 0 then
      let esize := patternBytes (tget 0 (b.aux % 64) (s.die (dieOf c)).patterns)
      match s.gather c n cmd.who (b.aux % 64) (b.aux / 2 ^ 8 % 2 ^ 24) (b.aux / 2 ^ 32 % 2 ^ 16) (b.aux / 2 ^ 48 % 256 + 1) with
      | (.blocks l t, raw) =>
        -- a destination other than a FIFO holds the packed elements until they are written
        let y := (t.headCmd c n).getD cmd
        let held := (raw.zipIdx).foldl (fun m (x, i) => mwrite m (2 ^ 20 + 512 * i) (128 * esize) x) y.inter
        .value 0 (t.setHead c n { y with waiting := l, esize, inter := if b.to.isFifo then y.inter else held })
      | (.fault code cause, _) => .fail (2 ^ 16 + 256 * code + cause)
      | (.wait t, _) => .wait t
    else if b.to.isFifo then .wait s
    else
      let j := cmd.progress - 1
      let data := mread cmd.inter (2 ^ 20 + 512 * j) (128 * cmd.esize)
      match s.copyWrite c n cmd b.to true ((if b.to = .inter then 0 else b.dst) + j * b.dpitch) (128 * cmd.esize) data with
      | .value _ s => .value (cmd.share b) s
      | o => o
  | 2 => s.convertUnit c n cmd b cmd.progress
  | 3 => s.packUnit c n cmd b cmd.progress
  | 4 => s.expandUnit c n cmd b cmd.progress
  | 5 => s.copyUnit c n cmd b cmd.progress
  | 6 => s.checksumUnit c n cmd b
  | _ =>
    match s.copyRead c n cmd b.from b.src 32 with
    | .value x s =>
      let d := dieOf c
      .value 32 (s.setDie d { s.die d with patterns := tset (b.aux % 64) (BitVec.ofNat 256 x) (s.die d).patterns })
    | o => o

/-- The outcome of a failing unit: a fault of the stride-gather unit is recorded in its status register too (R260). -/
def State.unitFailed (s : State) (c n : Nat) (cmd : CopyCmd) (b : CopyBlock) (code : Nat) : State :=
  if 2 ^ 16 ≤ code then
    let d := dieOf c
    (s.setDie d ((s.die d).strideFault (b.aux % 64) (code / 256 % 256))).failBlock c n cmd 4 (code % 256)
  else s.failBlock c n cmd cmd.kindCode code

/-- Up to `fuel` units of the running block, each counted down as it is written (R312). -/
def State.runUnits (s : State) (c n : Nat) : Nat → State
  | 0 => s
  | fuel + 1 =>
    match s.headCmd c n with
    | none => s
    | some cmd =>
      match cmd.blocks with
      | [] => s
      | b :: _ =>
        if cmd.units b ≤ cmd.progress ∨ (b.to.isFifo ∧ !cmd.waiting.isEmpty) then s
        else
          match s.blockUnit c n cmd b with
          | .value bytes t =>
            let y := (t.headCmd c n).getD cmd
            let down := min bytes y.left
            let t := t.setHead c n { y with progress := y.progress + 1, left := y.left - down }
            let t := match y.unitOffset b (cmd.progress + 1) with
              | some a => t.raiseOffset c n (cmd.units b ≤ cmd.progress + 1) a
              | none => t
            (t.countDown (clusterOf c) b.bar down).runUnits c n fuel
          | .fail cause => s.unitFailed c n cmd b cause
          | .wait t => t.uncounted s

/-- Chains that run on a die's transform engine (R311). -/
def State.chainsRunning (s : State) (d : Nat) : Nat :=
  ((s.cores.filter fun e => dieOf e.1 = d).map fun (_, x) =>
    (x.channels.filter fun (_, h) => h.queue.head?.any fun q => q.onEngine && q.started).length).sum

/-- The head command of a channel may run: its older releases are done and its engine has room (R311, R354). -/
def State.copyMayRun (s : State) (c : Nat) (cmd : CopyCmd) : Bool :=
  s.released cmd.who && (cmd.started || !cmd.onEngine || decide (s.chainsRunning (dieOf c) < 4))

/-- `COPY_BLOCK_PROGRESS` (R304, R305, R307 to R313). -/
def execCopyBlockProgress (core chan units : Nat) (outside : List (Bool × Nat × BitVec 8)) (s : State) : Result :=
  event s fun s =>
    match s.headCmd core chan with
    | none => none
    | some cmd =>
      match cmd.blocks with
      | [] => none
      | b :: _ =>
        if !cmd.fixed ∨ !s.copyMayRun core cmd then none
        else
          if !cmd.started ∧ b.kind = 1 ∧ s.patternBefore cmd then none else
          match s.standing (.copy core chan) with
          | .waiting => none
          | .failed cause =>
            if b.kind = 1 ∧ cmd.progress = 0 then some (s.unitFailed core chan cmd b (2 ^ 16 + 256 * 3 + 0x30))
            else some (s.failBlock core chan cmd cmd.kindCode cause)
          | .free =>
            let s := (s.outside outside).startCommand core chan cmd
            let cmd := { cmd with started := true }
            if cmd.heads.isEmpty then
              match s.startBlock core chan cmd b with
              | .value _ s => some (s.runUnits core chan units)
              | .fail cause => some (s.failBlock core chan cmd cmd.kindCode cause)
              | .wait s => some s
            else some (s.runUnits core chan units)

/-- `CHAIN_BLOCK_END`: a block that has written its output ends, having subtracted its counted bytes; the next one of its chain
follows, or the command ends (R311, R312). -/
def execChainBlockEnd (core chan : Nat) (s : State) : Result :=
  event s fun s =>
    match s.headCmd core chan with
    | none => none
    | some cmd =>
      match cmd.blocks with
      | [] => none
      | b :: rest =>
        if cmd.heads.isEmpty ∨ cmd.progress < cmd.units b ∨ !cmd.waiting.isEmpty ∧ b.to.isFifo then none
        else
          let s := s.countDown (clusterOf core) b.bar cmd.left
          if rest.isEmpty then some (s.dropHead core chan)
          else
            some (s.setHead core chan { cmd with blocks := rest, counted := cmd.counted.drop 1, progress := 0, heads := [],
                                                 srcOff := 0, waiting := [], left := (cmd.counted.drop 1).headD 0 })

/-- Bytes that one FIFO entry of a block counts (R307). -/
def CopyCmd.entryBytes (cmd : CopyCmd) (b : CopyBlock) : Nat :=
  match b.kind with
  | 0 => 512
  | 1 => cmd.share b
  | _ => 128 * ((cmd.convertTarget b).map Fmt.bytes).getD 0

/-- A channel may deliver to a FIFO in this clk: before the bundle of the clk is examined, which then counts what arrives (R159, R167,
R177), and after no higher channel (R308). -/
def State.mayDeliver (s : State) (c chan : Nat) (last : Nat × Nat) : Bool :=
  (s.core c).examined != s.clk + 1 && !(last.1 == s.clk && decide (chan < last.2))

/-- `FIFO_DELIVERY`: the oldest waiting entry enters its FIFO where there is room (R308). -/
def execFifoDelivery (core chan : Nat) (s : State) : Result :=
  event s fun s =>
    match s.headCmd core chan with
    | none => none
    | some cmd =>
      match cmd.blocks, cmd.waiting with
      | b :: _, e :: rest =>
        match b.to with
        | .fifo engine isB =>
          let k := s.bankOf cmd.who
          let m := k.eng engine
          match (m.accept isB e).filter fun _ => s.mayDeliver core chan (if isB then m.bLast else m.aLast) with
          | none => none
          | some m =>
            let m := if isB then { m with bLast := (s.clk, chan) } else { m with aLast := (s.clk, chan) }
            let s := s.setBankOf cmd.who (k.setEng engine m)
            let down := min (cmd.entryBytes b) cmd.left
            let gathered := if b.kind = 1 then 1 else 0
            let s := s.setHead core chan { cmd with waiting := rest, left := cmd.left - down, progress := cmd.progress + gathered }
            some (s.countDown (clusterOf core) b.bar down)
        | _ => none
      | _, _ => none

/-! ## Counted bytes (R352) -/

/-- The state in which a chain is foreseen: no rate of a scratchpad holds its writes (R303). -/
def State.unhindered (s : State) (c : Nat) : State :=
  let x := s.core c
  s.setCore c { x with nextIssue := s.clk + 1, sparseBytes := 0,
                       channels := x.channels.map fun (n, h) => (n, { h with rateBytes := 0 }) }

/-- Units of a block one after another, as they will go if nothing delays them. -/
def State.foreseeUnits (s : State) (c n : Nat) (b : CopyBlock) : Nat → Got
  | 0 => .value 0 s
  | fuel + 1 =>
    match s.headCmd c n with
    | none => .value 0 s
    | some cmd =>
      match (s.unhindered c).blockUnit c n cmd b with
      | .value _ t =>
        let y := (t.headCmd c n).getD cmd
        (t.setHead c n { y with progress := y.progress + 1 }).foreseeUnits c n b fuel
      | o => o

/-- What the blocks of a chain will count, foreseen by running them on the state as it is, and whether one will pass the intermediate; none
for a block that an earlier one's failure or delay keeps from being foreseen (R311, R312; log 41). -/
def State.foresee (s : State) (c n : Nat) (cmd : CopyCmd) : List CopyBlock → List (Option Nat) × Bool
  | [] => ([], false)
  | b :: r =>
    let y : CopyCmd := { (s.headCmd c n).getD cmd with blocks := b :: r, progress := 0, heads := [], srcOff := 0, waiting := [], held := none }
    let unknown := r.map fun _ => none
    let passes (cause : Nat) : Bool := b.to = .inter && cause = 0x1D
    match (s.setHead c n y).openBlock c n y b with
    | .wait _ => (none :: unknown, false)
    | .fail cause => (none :: unknown, passes cause)
    | .value _ t =>
      let z := (t.headCmd c n).getD y
      let count := some (t.countOf z b)
      match t.foreseeUnits c n b (if b.to.isFifo then 0 else z.units b) with
      | .value _ t => let (l, p) := t.foresee c n cmd r; (count :: l, p)
      | .fail cause => (count :: unknown, passes cause)
      | .wait _ => (count :: unknown, false)

/-- The counts of a command's blocks in order, a late one's as foreseen; none for one that could not be foreseen, or whose header cannot be
read or is bad: it keeps its provisional byte until it starts (R352, R353; log 41). -/
def State.readCounts (s : State) (c n : Nat) (cmd : CopyCmd) : List (CopyBlock × Option Nat) → Option (List (Option Nat)) × State
  | [] => (some [], s)
  | (b, ahead) :: r =>
    let rest (s : State) (count : Option Nat) : Option (List (Option Nat)) × State :=
      match s.readCounts c n cmd r with
      | (some l, s) => (some (count :: l), s)
      | o => o
    if b.late then rest s ahead
    else
      match s.readHeads c n cmd b (b.kind = 2) with
      | .value x s =>
        let y := { cmd with heads := [x % 2 ^ 512, x / 2 ^ 512] }
        let bad := b.isHeader && (if b.kind = 2 then y.headsBad b else y.srcHead.fault)
        rest s (if bad then none else some (s.countOf y b))
      | .fail _ => rest s none
      | .wait s => (none, s)

/-- A copy command of which no block has run is refused: its provisional bytes removed, a posted `ENGINE` (R353). -/
def State.refuseCopy (s : State) (c n : Nat) (cmd : CopyCmd) : State :=
  ((cmd.provisional.foldl (fun (s : State) b => s.countDown (clusterOf c) b 1) s).dropHead c n).postFor cmd.who 0x1D

/-- The counted bytes of a copy command are fixed and its provisional bytes removed, once the patterns its gathers use are written; a chain
that will pass its intermediate, or whose sum overflows, is refused (R311, R312, R352, R353, R355). -/
def State.fixCopy (s : State) (c n : Nat) : Option State :=
  match s.headCmd c n with
  | none => none
  | some cmd =>
    if cmd.fixed ∨ !s.copyMayRun c cmd ∨ (cmd.blocks.any (·.kind = 1) ∧ s.patternBefore cmd) then none
    else
      match s.standing (.copy c n) with
      | .waiting => none
      | .failed cause => some (s.failBlock c n { cmd with counted := cmd.blocks.map fun _ => 0 } cmd.kindCode cause)
      | .free =>
        let (seen, passes) := if cmd.blocks.any (·.unclear) then s.foresee c n cmd cmd.blocks else (cmd.blocks.map fun _ => none, false)
        if passes then some (s.refuseCopy c n cmd)
        else
          match s.readCounts c n cmd (cmd.blocks.zip seen) with
          | (none, t) => some (t.uncounted s)
          | (some found, s) =>
            let k := clusterOf c
            let counts := found.map fun x => x.getD 0
            let blocks := (cmd.blocks.zip found).map fun (b, x) => { b with deferred := x.isNone }
            match s.countBlocks k ((cmd.blocks.map (·.bar)).zip counts) with
            | none => some (s.refuseCopy c n cmd)
            | some s =>
              let still := (blocks.filter (·.deferred)).map (·.bar)
              let gone := cmd.provisional.filter fun p => !still.contains p
              let s := gone.foldl (fun (s : State) b => s.countDown k b 1) s
              some (s.setHead c n { cmd with blocks, counted := counts, fixed := true, left := counts.headD 0,
                                             provisional := cmd.provisional.filter fun p => still.contains p })

/-! ## Abort (R314) -/

/-- Commands of a channel stop, all that a test selects: every block with counted bytes outstanding records `ENGINE` and subtracts
them. -/
def State.abortCommands (s : State) (c n : Nat) (which : Captured → Bool) : State :=
  let h := (s.core c).channel n
  let k := clusterOf c
  let s := (h.queue.filter fun cmd => which cmd.who).foldl (fun (s : State) cmd =>
    let counts := if cmd.fixed then cmd.left :: cmd.counted.drop 1 else []
    let s := (cmd.blocks.zip counts).foldl (fun (s : State) (b, n) => if n = 0 then s else s.failDown k b.bar cmd.kindCode 0x1D n) s
    cmd.provisional.foldl (fun (s : State) b => s.failDown k b cmd.kindCode 0x1D 1) s) s
  let s := if h.queue.head?.any fun cmd => which cmd.who then s.forgetWriter (.copy c n) else s
  s.setChannel c n { h with queue := h.queue.filter fun cmd => !which cmd.who }

/-- A channel stops. -/
def State.abortChannel (s : State) (c n : Nat) : State := s.abortCommands c n fun _ => true

/-- `CCCTL_ABORT`. -/
def execCcctlAbort (core chan : Nat) (s : State) : Result :=
  event s fun s => if ((s.core core).channel chan).queue.isEmpty then none else some (s.abortChannel core chan)

end Sys2Proof.Machine
end

