-- ==== Sys2Proof/Machine/StashEvents.lean ====
section
/-! DEFINITION. The stash engine at work (R331 to R343, spec/17; R352, R356 to R359, spec/18); snapshot records and the
restoring of registers (R344 to R347, R366). -/

namespace Sys2Proof.Machine

/-! ## The queue of a core -/

/-- `STASH_CMD_TAKE`: the engine takes the oldest command of a core's queue, whatever others on its key it waits for (R350). -/
def execStashCmdTake (core : Nat) (s : State) : Result :=
  event s fun s =>
    let x := s.core core
    match x.stashQueue with
    | [] => none
    | _ :: r => some (s.setCore core { x with stashQueue := r })

/-! ## Long accesses -/

/-- A read of many bytes, in accesses of at most 4 KiB. -/
def State.readLong (s : State) (who : Writer) (w : Captured) : Nat → Nat → Nat → Got
  | 0, _, _ => .value 0 s
  | fuel + 1, a, n =>
    if n = 0 then .value 0 s
    else
      match s.engineRead who w a (min n 4096) with
      | .value x s =>
        match s.readLong who w fuel ((a + 4096) % 2 ^ 64) (n - 4096) with
        | .value y s => .value (x + 256 ^ 4096 * y) s
        | o => o
      | o => o

/-- A write of many bytes, in accesses of at most 4 KiB. -/
def State.writeLong (s : State) (who : Writer) (w : Captured) : Nat → Nat → Nat → Nat → Got
  | 0, _, _, _ => .value 0 s
  | fuel + 1, a, n, x =>
    if n = 0 then .value 0 s
    else
      match s.engineWrite who w true a (min n 4096) (x % 256 ^ min n 4096) with
      | .value _ s => s.writeLong who w fuel ((a + 4096) % 2 ^ 64) (n - 4096) (x / 256 ^ 4096)
      | o => o

/-- `n` bytes read from an address. -/
def State.readBytes (s : State) (who : Writer) (w : Captured) (a n : Nat) : Got := s.readLong who w (n / 4096 + 1) a n
/-- `n` bytes written to an address. -/
def State.writeBytes (s : State) (who : Writer) (w : Captured) (a n x : Nat) : Got := s.writeLong who w (n / 4096 + 1) a n x

/-! ## Regions (R332) -/

/-- Granules of region `r` in use: 0 pool, 1 LPDDR-6, 2 host, 3 snapshot records. -/
def Die.usedGranules (x : Die) (r : Nat) : List Nat :=
  if r = 3 then x.snaps.flatMap (·.granules)
  else
    (x.stash.flatMap fun e => if e.2.loc = r + 2 then e.2.granules else [])
      ++ x.stashRunning.flatMap fun c => match c.copied with
        | some e => if e.loc = r + 2 then e.granules else []
        | none => []

/-- The lowest `n` numbers below a limit that are not in use (log 20). -/
def pickGranules (used : List Nat) (limit : Nat) : Nat → Nat → Nat → List Nat
  | 0, _, _ => []
  | fuel + 1, g, n =>
    if n = 0 ∨ limit ≤ g then []
    else if used.contains g then pickGranules used limit fuel (g + 1) n
    else g :: pickGranules used limit fuel (g + 1) (n - 1)

/-- Granules for a copy of so many bytes; none where the region is full. -/
def Die.allocate (x : Die) (r size : Nat) : Option (List Nat) :=
  let used := x.usedGranules r
  let n := (size + 255) / 256
  let l := pickGranules used ((x.region r).2 / 256) (n + used.length) 0 n
  if l.length = n then some l else none

/-- Bytes of a held copy read from its granules. -/
def State.copyIn (s : State) (d : Nat) (who : Writer) (w : Captured) (loc : Nat) : List Nat → Got
  | [] => .value 0 s
  | g :: r =>
    let a := ((s.die d).region (loc - 2)).1 + 256 * g
    let first : Got :=
      if loc = 2 then s.engineRead who w a 256
      else .value (s.rawRead (if loc = 3 then .lp d a else .host a) 256) s
    match first with
    | .value x s =>
      match s.copyIn d who w loc r with
      | .value y s => .value (x + 256 ^ 256 * y) s
      | o => o
    | o => o

/-- Bytes of a held copy written to its granules. -/
def State.copyOut (s : State) (d : Nat) (who : Writer) (w : Captured) (loc : Nat) : List Nat → Nat → Got
  | [], _ => .value 0 s
  | g :: r, x =>
    let a := ((s.die d).region (loc - 2)).1 + 256 * g
    let first : Got :=
      if loc = 2 then s.engineWrite who w true a 256 (x % 256 ^ 256)
      else .value 0 (s.rawWrite (if loc = 3 then .lp d a else .host a) 256 (x % 256 ^ 256))
    match first with
    | .value _ s => s.copyOut d who w loc r (x / 256 ^ 256)
    | o => o

/-! ## Held copies (R333, R334) -/

/-- The sparse form of a payload with expansion point 1: a number and its bytes (R262). -/
def packedCopy (e : StashEntry) (x : Nat) : Nat × Nat :=
  let w := 8 * codeBytes e.fmt
  let blocks := (List.range ((e.rows * e.rowLen + 127) / 128)).map fun i =>
    sparseStored { fmt := e.fmt, tag := 0, elems := unpack w 128 (x / 2 ^ (128 * w * i)) } 1
  (bytesNat blocks.flatten, (blocks.map List.length).sum)

/-- The narrowed form of a payload: its E4M3 elements, and the scale of each block (R334). -/
def narrowedCopy (e : StashEntry) (seed : Seed) (x : Nat) : Nat × List (BitVec 32) :=
  match Fmt.ofCode e.fmt with
  | none => (0, [])
  | some f =>
    let blocks := (List.range (e.rows * e.rowLen / 128)).map fun i =>
      cardBlock ((unpack f.width 128 (x / 2 ^ (128 * f.width * i))).map f.decode) .e4m3 .rne true seed (i % (e.rowLen / 128)) false none
    (packFields 8 (blocks.flatMap (·.elems)), blocks.map (·.scale))

/-- Most bytes a packed or narrowed copy may have (R334). -/
def StashCmd.limit (c : StashCmd) (e : StashEntry) : Nat := if c.resv = 0 then e.len else c.resv

/-- NARROW8 takes this tensor (R334). -/
def narrowable (fmt rowLen : Nat) : Bool := (fmt = 6 || fmt = 4) && rowLen % 128 = 0

/-- The modes tried, from the one in hand on (R339). -/
def fallbackChain (mode : Nat) : List Nat :=
  match mode with
  | 4 => [4, 3, 1]
  | 3 => [3, 1]
  | m => [m]

/-- Where a copy goes. -/
inductive HeldChoice where
  /-- The entry it leaves, and the bytes of the copy. -/
  | place (e : StashEntry) (data : Nat)
  | last
  | fail (cause : Nat)
deriving DecidableEq, Repr

/-- The first mode of the chain that has room (R334, R339); `first` is set for a mode that was asked for. -/
def Die.chooseHeld (x : Die) (c : StashCmd) (e : StashEntry) (payload : Nat) : Bool → List Nat → HeldChoice
  | _, [] => .last
  | first, m :: r =>
    let data : Nat × Nat × List (BitVec 32) :=
      match m with
      | 1 => let (y, n) := packedCopy e payload; (y, n, [])
      | 2 => let (y, l) := narrowedCopy e c.seed payload; (y, e.rows * e.rowLen, l)
      | _ => (payload, e.len, [])
    let size := data.2.1
    if m = 1 ∧ e.fmt = 0 then x.chooseHeld c e payload false r
    else if m ≤ 2 ∧ c.limit e < size then (if first then .fail 0x15 else x.chooseHeld c e payload false r)
    else
      match x.allocate (if m ≤ 2 then 0 else m - 2) size with
      | none => x.chooseHeld c e payload false r
      | some l =>
        .place { e with state := if m = 1 then 3 else if m = 2 then 5 else 7, mode := m, granules := l,
                        loc := if m ≤ 2 then 2 else m, copyBytes := size, scales := data.2.2,
                        seed := if m = 2 then c.seed else ⟨0, 0⟩,
                        checksum := if m = 2 then none else some (BitVec.ofNat 64 (checksumOf payload e.len)) } data.1

/-- The mode `.auto` chooses (R341). -/
def Die.autoMode (x : Die) (c : StashCmd) (e : StashEntry) (payload : Nat) : Nat :=
  let pol := x.policy c.who.stage
  let packed := (packedCopy e payload).2
  if c.occupied < (pol.extractLsb' 16 8).toNat then 0
  else if e.fmt ≠ 0 ∧ 2 * packed ≤ e.len ∧ packed ≤ c.limit e then 1
  else if pol.getLsbD 0 ∧ c.eligible then 5
  else if (x.allocate 1 e.len).isSome then 3
  else if pol.getLsbD 1 ∧ (x.allocate 2 e.len).isSome then 4
  else if pol.getLsbD 2 ∧ narrowable e.fmt e.rowLen ∧ e.rows * e.rowLen ≤ c.limit e ∧ (x.allocate 0 (e.rows * e.rowLen)).isSome then 2
  else 0

/-! ## The start of a command (R336, R352) -/

/-- A refusal after acceptance: the entry is as it was before the command, which ends (R353). -/
def State.stashRefused (s : State) (d : Nat) (c : StashCmd) : State :=
  ((s.restoreStash d c).stashRefusal c).endTurn d c.key

/-- Counted bytes added and the provisional byte removed; none where the sum passes the limit (R312, R352). -/
def State.stashCount (s : State) (c : StashCmd) (n : Nat) : Option State :=
  match c.bar with
  | none => some s
  | some b => (s.countUp (clusterOf c.who.core) b n).map fun s => s.countDown (clusterOf c.who.core) b 1

/-- A command fails before its header is understood: a `STASH` leaves its entry RESIDENT or DROPPED, a fetch as it was (R336; log 20). -/
def State.stashBadStart (s : State) (d : Nat) (c : StashCmd) (cause : Nat) : State :=
  let e := (tfind c.key (s.die d).stash).getD {}
  let s :=
    if c.op = 0 then
      s.setStash d c.key (if c.prev = 8 then { e with err := cause } else { e with state := 1, len := 0, err := cause })
    else s.setStash d c.key { e with state := c.prev, err := cause, retryAt := s.clk + 1 }
  (s.stashError c cause).endTurn d c.key

/-- The checks of a home header (R334). -/
def stashHeaderBad (h : Header) (mode : Nat) : Bool :=
  h.fault || h.form ≠ 0 || h.pitch ≠ h.rowLen * codeBytes h.fmt || h.len ≠ h.rows * h.pitch
    || (mode = 1 && h.fmt = 0) || (mode = 2 && !narrowable h.fmt h.rowLen)

/-- A `STASH` in turn: its header read, its bytes counted, a recompute verified, and the mode of `.auto` chosen (R336, R341, R343,
R352). -/
def State.beginStash (s : State) (d : Nat) (c : StashCmd) : State :=
  let s0 := s
  let who := Writer.stash d c.key
  let dropped := c.prev = 8
  match s.engineRead who c.who c.header 64 with
  | .wait t => t.uncounted s0
  | .fail cause => s.stashBadStart d c cause
  | .value y s =>
    let h := Header.ofNat y
    if stashHeaderBad h c.mode then s.stashBadStart d c 0x18
    else
      match (if c.mode = 6 ∨ dropped then s.readBytes who c.who h.addr h.len else .value 0 s) with
      | .wait t => t.uncounted s0
      | .fail cause => s.stashBadStart d c cause
      | .value p s =>
        match s.stashCount c h.len with
        | none => s.stashRefused d c
        | some s =>
          let sum : SReg := BitVec.ofNat 64 (checksumOf p h.len)
          let c := { c with running := true, left := h.len }
          let e := (tfind c.key (s.die d).stash).getD {}
          if dropped ∧ e.checksum ≠ some sum then
            -- the recompute has diverged (R343)
            (((s.setStash d c.key { e with err := 0x17 }).stashError c 0x17).endTurn d c.key).diverge c.who.stage (c.key % 65536)
          else
            let e := { e with header := c.header, payload := h.addr, len := h.len, fmt := h.fmt, rows := h.rows,
                              rowLen := h.rowLen, loc := 1, granules := [], scales := [] }
            let mode := if c.mode = 6 then (s.die d).autoMode c e p else c.mode
            (s.setStash d c.key { e with state := acceptedState mode }).setTurn d { c with mode }

/-- A fetch in turn: its bytes counted, and its end at once where its entry is READY (R336, R352). -/
def State.beginFetch (s : State) (d : Nat) (c : StashCmd) : State :=
  let e := (tfind c.key (s.die d).stash).getD {}
  match s.stashCount c e.len with
  | none => s.stashRefused d c
  | some s =>
    if e.state = 10 then
      (match c.bar with
        | some b => s.countDown (clusterOf c.who.core) b e.len
        | none => s).endTurn d c.key
    else s.setTurn d { c with running := true, left := e.len }

/-- What a step of the stash engine leaves, with the scheduler's view of its entries brought up to date in the same clk (R199). -/
def stashEvent (s : State) (go : State → Option State) : Result := event s fun s => (go s).map State.refresh

/-- A fetch of the scheduler that follows a failed one in the clk of its failure: the engine takes it in the next clk (log 20). -/
def State.tooSoon (s : State) (d : Nat) (c : StashCmd) : Bool :=
  c.op = 3 && (tfind c.key (s.die d).stash).any fun e => decide (s.clk < e.retryAt)

/-- The counted bytes of the stash command in turn on a key are fixed (R352). -/
def State.fixStash (s : State) (d key : Nat) : Option State :=
  match (s.die d).turn key with
  | none => none
  | some c =>
    if c.running ∨ !c.begun ∨ c.op = 2 ∨ !s.stashTaken c ∨ !s.released c.who ∨ s.tooSoon d c then none
    else
      match s.standing (.stash d key) with
      | .waiting => none
      | .failed cause => some (s.stashBadStart d c cause).refresh
      | .free => some (if c.op = 0 then s.beginStash d c else s.beginFetch d c).refresh

/-! ## The end of a command -/

/-- A running command fails: a `STASH` leaves its entry RESIDENT, a fetch leaves it as it was (R336). -/
def State.stashFail (s : State) (d : Nat) (c : StashCmd) (cause : Nat) : State :=
  let s := match tfind c.key (s.die d).stash with
    | some e => s.setStash d c.key { e with state := if c.op = 0 then 1 else c.prev, err := cause, retryAt := s.clk + 1 }
    | none => s
  (s.stashError c cause).endTurn d c.key

/-- A running command succeeds. -/
def State.stashDone (s : State) (d : Nat) (c : StashCmd) (e : StashEntry) : State :=
  let s := s.setStash d c.key e
  let s := match c.bar with
    | some b => s.countDown (clusterOf c.who.core) b c.left
    | none => s
  s.endTurn d c.key

/-- The checksum and CKV of a home header, in one access; NARROW8 clears CKV (R256, R335). -/
def State.markHeader (s : State) (who : Writer) (w : Captured) (a : Nat) (sum : Option SReg) : Got :=
  match s.engineRead who w ((a + 48) % 2 ^ 64) 8 with
  | .value old t =>
    let s := t.uncounted s
    match sum with
    | some v => s.engineWrite who w true ((a + 40) % 2 ^ 64) 16 (v.toNat + 2 ^ 64 * (old ||| 2 ^ 33))
    | none => s.engineWrite who w true ((a + 48) % 2 ^ 64) 8 (old - (old &&& 2 ^ 33))
  | o => o

/-- Once the copy and the header are written, the payload is zeroed, and the command ends (R335). -/
def State.zeroPayload (s : State) (d : Nat) (c : StashCmd) (e : StashEntry) : State :=
  let s0 := s
  match s.writeBytes (.stash d c.key) c.who e.payload e.len 0 with
  | .value _ s => s.stashDone d c e
  | .fail cause => s.stashFail d c cause
  | .wait t => t.uncounted s0

/-- A `STASH` that keeps the home payload or only its checksum: `keep` is set for a KEEP. -/
def State.checksumEntry (s : State) (d : Nat) (c : StashCmd) (e : StashEntry) (keep : Bool) : State :=
  let s0 := s
  match c.copied with
  | some e' => s.zeroPayload d c e'
  | none =>
    let who := Writer.stash d c.key
    match s.readBytes who c.who e.payload e.len with
    | .wait t => t.uncounted s0
    | .fail cause => s.stashFail d c cause
    | .value p s =>
      let sum : SReg := BitVec.ofNat 64 (checksumOf p e.len)
      match s.markHeader who c.who e.header (some sum) with
      | .wait t => t.uncounted s0
      | .fail cause => s.stashFail d c cause
      | .value _ s =>
        if keep then s.stashDone d c { e with state := 1, mode := 0, checksum := some sum }
        else
          let e' := { e with state := 8, mode := 5, loc := 0, checksum := some sum }
          (s.setTurn d { c with copied := some e' }).zeroPayload d { c with copied := some e' } e'

/-- The checksum of a payload, kept in the entry and written to the home header; a NARROW8 keeps none (R335). -/
def State.sumEntry (s : State) (d : Nat) (c : StashCmd) (e : StashEntry) (p : Nat) : Got :=
  if c.mode = 2 then .value 0 s
  else
    let sum : SReg := BitVec.ofNat 64 (checksumOf p e.len)
    match s.markHeader (.stash d c.key) c.who e.header (some sum) with
    | .value _ s => .value 0 (s.setStash d c.key { e with checksum := some sum })
    | o => o

/-- A pack, narrow or spill: the checksum is kept and written, then the copy is written, then the payload zeroed (R335, R339; log 20). -/
def State.offloadEntry (s : State) (d : Nat) (c : StashCmd) (e : StashEntry) : State :=
  let s0 := s
  match c.copied with
  | some e' => s.zeroPayload d c e'
  | none =>
    let who := Writer.stash d c.key
    match s.readBytes who c.who e.payload e.len with
    | .wait t => t.uncounted s0
    | .fail cause => s.stashFail d c cause
    | .value p s =>
      match s.sumEntry d c e p with
      | .wait t => t.uncounted s0
      | .fail cause => s.stashFail d c cause
      | .value _ s =>
        let e := (tfind c.key (s.die d).stash).getD e
        match (s.die d).chooseHeld c e p (!c.chained) (fallbackChain c.mode) with
        | .fail cause => s.stashFail d c cause
        | .last =>
          (s.setStash d c.key { e with state := 1 }).setTurn d { c with mode := if c.eligible then 5 else 0, chained := true }
        | .place e' data =>
          let s := s.setStash d c.key { e with state := acceptedState e'.mode }
          match s.copyOut d who c.who e'.loc e'.granules data with
          | .wait t => t.uncounted s0
          | .fail cause => s.stashFail d c cause
          | .value _ s =>
            match (if c.mode = 2 then s.markHeader who c.who e.header none else .value 0 s) with
            | .wait t => t.uncounted s0
            | .fail cause => s.stashFail d c cause
            | .value _ s => (s.setTurn d { c with copied := some e' }).zeroPayload d { c with copied := some e' } e'

/-- An aborted spill that may not go on: the checksum is kept and written all the same, and the phase fails (R335, R340). -/
def State.abortSpill (s : State) (d : Nat) (c : StashCmd) (e : StashEntry) : State :=
  let s0 := s
  match s.readBytes (.stash d c.key) c.who e.payload e.len with
  | .wait t => t.uncounted s0
  | .fail cause => s.stashFail d c cause
  | .value p s =>
    match s.sumEntry d c e p with
    | .wait t => t.uncounted s0
    | .fail cause => s.stashFail d c cause
    | .value _ s => s.stashFail d c 0x19

/-- The running command on a key with its entry. -/
def State.stashRun (s : State) (d key : Nat) (which : StashCmd → Bool) (go : StashCmd → StashEntry → State) : Option State :=
  match (s.die d).turn key, tfind key (s.die d).stash with
  | some c, some e =>
    if c.running ∧ which c ∧ !s.tooSoon d c then
      match s.standing (.stash d key) with
      | .waiting => none
      | .failed cause => some (s.stashFail d c cause)
      | .free => some (go c e)
    else none
  | _, _ => none

/-- `STASH_OFFLOAD_COMPLETE` (R335, R336, R339). -/
def execStashOffloadComplete (die key : Nat) (s : State) : Result :=
  stashEvent s fun s => s.stashRun die key (fun c => c.op = 0 && decide (1 ≤ c.mode) && decide (c.mode ≤ 4)) fun c e =>
    if c.aborted then s.abortSpill die c e else s.offloadEntry die c e

/-- `STASH_DROP_COMPLETE` (R335). -/
def execStashDropComplete (die key : Nat) (s : State) : Result :=
  stashEvent s fun s => s.stashRun die key (fun c => c.op = 0 && c.mode = 5) fun c e => s.checksumEntry die c e false

/-- `STASH_KEEP_COMPLETE` (R335). -/
def execStashKeepComplete (die key : Nat) (s : State) : Result :=
  stashEvent s fun s => s.stashRun die key (fun c => c.op = 0 && c.mode = 0) fun c e => s.checksumEntry die c e true

/-! ## Fetch (R337) -/

/-- The dense elements of a packed copy, block by block; none where a block is malformed. -/
def unpackCopy (e : StashEntry) (x : Nat) : Nat → Nat → Option (List Nat)
  | 0, _ => some []
  | n + 1, off =>
    let y := x / 256 ^ off
    match sparseBlock (y % 2 ^ 256) with
    | none => none
    | some b =>
      if b.fmt ≠ e.fmt then none
      else
        (unpackCopy e x n (off + b.bytes)).map fun l => expandSparse (8 * codeBytes b.fmt) b.mask (y / 2 ^ 192) 128 0 ++ l

/-- The payload that a held copy stands for, in the home format; none where it cannot be read back. -/
def StashEntry.restore (e : StashEntry) (state x : Nat) : Nat ⊕ Nat :=
  match state with
  | 3 =>
    match unpackCopy e x ((e.rows * e.rowLen + 127) / 128) 0 with
    | some l => .inr (packFields (8 * codeBytes e.fmt) l % 256 ^ e.len)
    | none => .inl 0x18
  | 5 =>
    if tagUnwidenable (rotatedTag e.seed.ident) then .inl 0x0D
    else
      let blocks := e.scales.zipIdx.map fun (scale, i) =>
        let l := widenBlock .e4m3 (unpack 8 128 (x / 2 ^ (1024 * i))) scale true e.seed.value (i % (e.rowLen / 128))
        if e.fmt = 4 then l.map fun y => Fmt.bf16.rne (Fmt.fp32.decode y) else l
      .inr (packFields (8 * codeBytes e.fmt) blocks.flatten)
  | _ => .inr (x % 256 ^ e.len)

/-- A fetch writes its destination: the payload, then LEN, CKSUM and CKV of the header (R337). -/
def State.fetchEntry (s : State) (d : Nat) (c : StashCmd) (e : StashEntry) : State :=
  let s0 := s
  let who := Writer.stash d c.key
  match s.engineRead who c.who c.header 64 with
  | .wait t => t.uncounted s0
  | .fail cause => s.stashFail d c cause
  | .value y s =>
    let h := Header.ofNat y
    if h.fault ∨ h.form ≠ 0 ∨ h.fmt ≠ e.fmt ∨ h.rows ≠ e.rows ∨ h.rowLen ≠ e.rowLen ∨ h.pitch ≠ h.rowLen * codeBytes h.fmt then
      s.stashFail d c 0x18
    else
      let held : Got :=
        if c.prev = 1 ∨ c.prev = 10 then s.readBytes who c.who e.payload e.len else s.copyIn d who c.who e.loc e.granules
      match held with
      | .wait t => t.uncounted s0
      | .fail cause => s.stashFail d c cause
      | .value x s =>
        match e.restore c.prev x with
        | .inl cause => s.stashFail d c cause
        | .inr p =>
          match s.writeBytes who c.who h.addr e.len p with
          | .wait t => t.uncounted s0
          | .fail cause => s.stashFail d c cause
          | .value _ s =>
            match s.engineRead who c.who e.header 64 with
            | .wait t => t.uncounted s0
            | .fail cause => s.stashFail d c cause
            | .value z s =>
              let home := Header.ofNat z
              let flags := fieldAt y 48 8 - (fieldAt y 48 8 &&& 2 ^ 33) + (if home.ckValid then 2 ^ 33 else 0)
              match s.engineWrite who c.who true ((c.header + 12) % 2 ^ 64) 4 e.len with
              | .wait t => t.uncounted s0
              | .fail cause => s.stashFail d c cause
              | .value _ s =>
                match s.engineWrite who c.who true ((c.header + 40) % 2 ^ 64) 16 (home.cksum + 2 ^ 64 * flags) with
                | .wait t => t.uncounted s0
                | .fail cause => s.stashFail d c cause
                | .value _ s =>
                  s.stashDone d c { e with state := 10, header := c.header, payload := h.addr, loc := 1, granules := [],
                                           scales := [], copyBytes := 0 }

/-- `STASH_FETCH_COMPLETE` (R337). -/
def execStashFetchComplete (die key : Nat) (s : State) : Result :=
  stashEvent s fun s => s.stashRun die key (fun c => c.op = 1 || c.op = 3) (s.fetchEntry die)

/-- `SPILL_LINK_ABORT`: the entry of a spill to the host is RESIDENT again, and the spill goes on down its chain with RETRY, or its phase
fails; a fetch leaves the entry SPILLED (R340). -/
def execSpillLinkAbort (die key : Nat) (s : State) : Result :=
  stashEvent s fun s =>
    match (s.die die).turn key, tfind key (s.die die).stash with
    | some c, some e =>
      if c.running ∧ c.op = 0 ∧ c.mode = 4 ∧ c.copied.isNone then
        let s := s.setStash die key { e with state := 1 }
        if ((s.die die).policy c.who.stage).getLsbD 3 then some (s.setTurn die { c with mode := 3, chained := true })
        else
          let c := { c with aborted := true }
          some ((s.setTurn die c).abortSpill die c { e with state := 1 })
      else if c.running ∧ (c.op = 1 ∨ c.op = 3) ∧ e.loc = 4 then some (s.stashFail die c 0x19)
      else none
    | _, _ => none

/-- `SFREE_COMPLETE` (R359). -/
def execSfreeComplete (die key : Nat) (s : State) : Result :=
  stashEvent s fun s =>
    match (s.die die).turn key with
    | some c =>
      if c.op = 2 ∧ s.stashTaken c then
        let s := s.setDie die { s.die die with stash := tdel key (s.die die).stash }
        some (s.endTurn die key)
      else none
    | none => none

/-! ## Snapshot records (R344, R345, R366) -/

/-- The bytes of a snapshot record. -/
def snapBytes (stage scope tag step : Nat) (l : List (Nat × Nat)) : Nat :=
  bytesNat (natBytes 64 (stage + 2 ^ 8 * scope + 2 ^ 16 * tag + 2 ^ 32 * l.length + 2 ^ 64 * step)
    ++ l.flatMap fun (w, x) => natBytes 2 w ++ natBytes 6 0 ++ natBytes 224 x ++ natBytes 24 0)

/-- The command at a place of the list, where it is of that sequencer. -/
def State.commandAt (s : State) (core bank index : Nat) : Option Command :=
  (s.commands[index]?).filter fun c => c.who.core = core ∧ c.who.bank = bank

/-- A command has had its effect. -/
def State.endCommand (s : State) (c : Command) : State := { s with commands := s.commands.filter fun x => x.id ≠ c.id }

/-- The entries that come before a command's effect have been performed. -/
def State.commandReady (s : State) (c : Command) : Bool := !s.stillQueued c.waits

/-- The record of a `CKPT` with its storage taken, in the place of any earlier one of its stage and tag; or its failure as a posted
`ENGINE` (R344, R371). -/
def State.writeRecord (s : State) (c : Command) (scope : Nat) (l : List (Nat × Nat)) : State :=
  let s0 := s
  let d := dieOf c.who.core
  let stage := c.who.stage
  let tag := (c.ops.headD 0).toNat % 65536
  let step := (c.ops[1]?).getD 0
  let who := Writer.ckpt c.who.core c.id
  let fail (s : State) : State := ((s.endCommand c).forgetWriter who).postFor c.who 0x1D
  let without := s.freeSnaps stage tag
  match (without.die d).allocate 3 (64 + 256 * l.length) with
  | none => fail s
  | some g =>
    match s.standing who with
    | .waiting => s
    | .failed _ => fail s
    | .free =>
      -- region 3 lies in home memory as the pool does
      let data := snapBytes stage scope tag step.toNat l
      let put : Got := g.zipIdx.foldl (fun (acc : Got) (i, j) =>
        match acc with
        | .value _ s => s.engineWrite who c.who true (((s.die d).region 3).1 + 256 * i) 256 (data / 256 ^ (256 * j) % 256 ^ 256)
        | o => o) (.value 0 s)
      match put with
      | .wait t => t.uncounted s0
      | .fail _ => fail s
      | .value _ s =>
        let s := s.freeSnaps stage tag
        let r : SnapRecord := { stage, tag, scope, step, granules := g, covered := l.map (·.1) }
        let s := s.setDie d { s.die d with snaps := (s.die d).snaps ++ [r] }
        (s.endCommand c).forgetWriter who

/-- A `CKPT`. -/
def Command.snaps (c : Command) : Bool :=
  match c.ins with
  | .ckpt .. => true
  | _ => false

/-- `CKPT_RECORD_COMPLETE`: once every covered sequencer has been captured (R344, R366). -/
def execCkptRecordComplete (core bank : Nat) (s : State) : Result :=
  event s fun s =>
    match s.commands.find? fun c => c.snaps && c.who.core = core && c.who.bank = bank && c.covers.all fun e => e.2.2.2.isSome with
    | none => none
    | some c =>
      match c.ins with
      | .ckpt _ scope => some (s.writeRecord c scope.toNat (c.covers.map fun e => (e.1, e.2.2.2.getD 0)))
      | _ => none

/-- The generators and seeds of a snapshot entry written into a bank, which replays its segment (R346, R347). -/
def State.restoreRegs (s : State) (c b stage tag : Nat) (gens : Table Gen) (seeds : Table Seed) : State :=
  s.setBank c b { s.bank c b with gens, seeds, replaying := some (stage, tag) }

/-- The first restoring of a bank's registers that is due, with the calendar without it. -/
def takeReplay (now c b : Nat) : List (Nat × Due) → Option (((Nat × Nat) × Table Gen × Table Seed) × List (Nat × Due))
  | [] => none
  | (t, d) :: r =>
    let rest := (takeReplay now c b r).map fun (x, l) => (x, (t, d) :: l)
    match d with
    | .replayRestore c' b' stage tag g n => if t ≤ now ∧ c' = c ∧ b' = b then some (((stage, tag), g, n), r) else rest
    | _ => rest

/-- `REPLAY_REMOTE_RESTORE` (R346). -/
def execReplayRemoteRestore (core bank : Nat) (s : State) : Result :=
  event s fun s =>
    (takeReplay s.clk core bank s.calendar).map fun (r, l) => { s with calendar := l }.restoreRegs core bank r.1.1 r.1.2 r.2.1 r.2.2

end Sys2Proof.Machine
end

