-- ==== Sys2Proof/Machine/ChannelEvents.lean ====
section
/-! DEFINITION. The tensor channels at work (R317 to R322, R484, spec/16; R360 to R362, spec/18). -/

namespace Sys2Proof.Machine

/-- The state with a channel replaced. -/
def State.setTensor (s : State) (n : Nat) (t : TensorChannel) : State := { s with tensors := tset n t s.tensors }

/-! ## What the other end has sent -/

/-- The peer end of a channel is on this device. -/
def State.peerHere (s : State) (t : TensorChannel) : Bool := t.peerPos = (s.regs.tcoord.extractLsb' 0 21).toNat

/-- The channel end that has sent a control flit. -/
def Flit.control : Flit → Option Nat
  | .window chan _ | .consumed chan _ | .ack chan _ => some chan
  | _ => none

/-- A flit of the other end has arrived: from outside, or, of what an end of the device itself has sent, the first (R442). -/
def State.arrived (s : State) (t : TensorChannel) (f : Flit) : Option State :=
  if s.peerHere t then
    if (s.sent.find? fun g => g.control == f.control) = some f then some { s with sent := s.sent.erase f } else none
  else some s

/-! ## The sender (R319, R322) -/

/-- STEP, TAG, BAR, BV and KIND of a descriptor (R319). -/
def Packet.step (p : Packet) : Nat := (p.descriptor.extractLsb' 32 32).toNat
def Packet.tag (p : Packet) : Nat := (p.descriptor.extractLsb' 16 16).toNat
def Packet.bar (p : Packet) : Nat := (p.descriptor.extractLsb' 4 6).toNat
def Packet.bv (p : Packet) : Bool := p.descriptor.getLsbD 3
def Packet.kind (p : Packet) : Nat := (p.descriptor.extractLsb' 0 3).toNat

/-- LEN of a packet whose header has been read. -/
def Packet.len (p : Packet) : Nat := (Header.ofNat (p.header.getD 0)).len
/-- P (R319). -/
def packetBytes (len : Nat) : Nat := 64 + 64 * ((len + 63) / 64)

/-- A packet fails: an error phase of contributor kind 5, or a posted trap, `HEADER` for its header and `CHANNEL` for all else; it leaves
SQ (R322, R360, R371). -/
def State.failPacket (s : State) (n i : Nat) (p : Packet) (cause : Nat) : State :=
  let t := s.tensor n
  let s := (s.setTensor n { t with sq := t.sq.eraseIdx i }).forgetWriter (.channel n)
  if p.bv then s.failDown (clusterOf p.who.core) p.bar 5 cause (if p.provisional then 1 else p.counted)
  else s.postFor p.who (if cause = 0x18 then 0x18 else 0x19)

/-- The header of the first packet that lacks it is read and its payload bytes counted (R352, R360). -/
def State.fixPacket (s : State) (n : Nat) : Option State :=
  let t := s.tensor n
  match t.sq.findIdx? fun p => p.header.isNone with
  | none => none
  | some i =>
    match t.sq[i]? with
    | none => none
    | some p =>
      if !s.released p.who then none
      else
        match s.standing (.channel n) with
        | .waiting => none
        | .failed cause => some (s.failPacket n i p cause)
        | .free =>
          match s.engineRead (.channel n) p.who p.headerAddr 64 with
          | .wait s => some s
          | .fail cause => some (s.failPacket n i p cause)
          | .value x s =>
            let h := Header.ofNat x
            let k := clusterOf p.who.core
            if h.fault then some (s.failPacket n i p 0x18)
            else
              let p' := { p with header := some x, counted := h.len, provisional := false }
              let put (s : State) : State := s.setTensor n { t with sq := t.sq.set i p' }
              if p.bv then
                match s.countUp k p.bar h.len with
                | some s => some (put (s.countDown k p.bar 1))
                | none =>
                  some (((s.setTensor n { t with sq := t.sq.eraseIdx i }).countDown k p.bar 1).postFor p.who 0x1D)
              else some (put s)

/-- `PACKET_DEPART`: the head packet leaves SQ where the window has room (R319) and its port is UP (R446). -/
def execPacketDepart (chan : Nat) (s : State) : Result :=
  event s fun s =>
    let t := s.tensor chan
    match t.sq with
    | [] => none
    | p :: rest =>
      let size := packetBytes p.len
      let o := t.sent % t.w
      let pad := if t.w < o + size then t.w - o else 0
      if p.header.isNone ∨ t.w = 0 then none
      else if t.w < size then some (s.failPacket chan 0 p 0x19)
      else if t.w + t.consumed < pad + t.sent + size ∨ !s.routeUp t.peerPos then none
      else
        match s.standing (.channel chan) with
        | .waiting => none
        | .failed cause => some (s.failPacket chan 0 p cause)
        | .free =>
          match s.readBytes (.channel chan) p.who (Header.ofNat (p.header.getD 0)).addr p.len with
          | .wait t => some (t.uncounted s)
          | .fail cause => some (s.failPacket chan 0 p cause)
          | .value x s =>
            let p' := { p with seq := t.seq, offset := if pad = 0 then o else 0, pad, payload := natBytes (size - 64) x }
            let s := s.setTensor chan { t with sq := rest, replay := t.replay ++ [p'], sent := t.sent + pad + size,
                                               seq := (t.seq + 1) % 2 ^ 32 }
            let s := if p.bv then s.countDown (clusterOf p.who.core) p.bar p.counted else s
            some (s.send (.packet chan p'.seq))

/-- `WINDOW_FLIT_RECEIVE`: a new window, which resets the sender's counts, or a new CONSUMED, which in the order of sending is at least the
former one and at most SENT (R318, R321, R442). -/
def execWindowFlitReceive (chan : Nat) (isWindow : Bool) (value : Nat) (s : State) : Result :=
  event s fun s =>
    let t := s.tensor chan
    if !t.bound ∨ !t.sender ∨ (!isWindow ∧ (value < t.consumed ∨ t.sent < value)) then none
    else
      (s.arrived t (if isWindow then .window t.peer value else .consumed t.peer value)).map fun s =>
        s.setTensor chan (if isWindow then { t with w := value, sent := 0, consumed := 0 } else { t with consumed := value })

/-- `PACKET_ACK_RECEIVE`: the packet leaves the replay buffer; acknowledgements come in the order of the packets (R320, R442). -/
def execPacketAckReceive (chan seq : Nat) (s : State) : Result :=
  event s fun s =>
    let t := s.tensor chan
    if !t.bound ∨ !t.sender ∨ !(t.replay.head?.any fun p => p.seq = seq) then none
    else (s.arrived t (.ack t.peer seq)).map fun s => s.setTensor chan { t with replay := t.replay.drop 1 }

/-! ## The receiver (R320, R321, R484) -/

/-- CONSUMED moved over `n` bytes of software's and over every region the channel consumes itself (R321, R484). -/
def advanceConsumed (regions : List (Nat × Nat)) : Nat → Nat → Nat → Nat
  | 0, c, _ => c
  | fuel + 1, c, n =>
    match regions.find? fun r => r.1 = c ∧ r.2 ≠ 0 with
    | some r => advanceConsumed regions fuel (c + r.2) n
    | none =>
      if n = 0 then c
      else
        let ahead := (regions.filter fun r => c < r.1).map fun r => r.1 - c
        let k := (ahead.foldl min n)
        advanceConsumed regions fuel (c + k) (n - k)

/-- CONSUMED after `n` more bytes. -/
def TensorChannel.consumedAfter (t : TensorChannel) (n : Nat) : Nat :=
  advanceConsumed t.selfConsumed (2 * t.selfConsumed.length + 2) t.consumed n

/-- The receiver takes a new CONSUMED and sends it (R321). -/
def State.consume (s : State) (chan : Nat) (t : TensorChannel) (n : Nat) : State :=
  let c := t.consumedAfter n
  let s := s.setTensor chan { t with consumed := c, selfConsumed := t.selfConsumed.filter fun r => c < r.1 + r.2 }
  if c = t.consumed then s else s.send (.consumed chan c)

/-- The deposited header: ADDR of its payload, KIND 4, the packet's TAG, and CKV 0 (R320; log 26). -/
def depositedHeader (x addr tag : Nat) : Nat :=
  let low := x / 2 ^ 64 % 2 ^ 320
  let flags := fieldAt x 52 4
  addr + 2 ^ 64 * low + 2 ^ 384 * (tag % 2 ^ 16 + 2 ^ 16 * 4) + 2 ^ 408 * fieldAt x 51 1
    + 2 ^ 416 * (flags - (flags &&& 2)) + 2 ^ 448 * fieldAt x 56 8

/-- The link brings this packet: any packet of another device, or one that waits in the replay buffer of the other end here. -/
def State.linkBrings (s : State) (t : TensorChannel) (seq step tag kind offset pad : Nat) (data : List Byte) : Bool :=
  if s.peerHere t then
    (s.tensor t.peer).replay.any fun p =>
      p.seq = seq && p.step = step && p.tag = tag && p.kind = kind && p.offset = offset && p.pad = pad
        && natBytes 64 (p.header.getD 0) ++ p.payload == data
  else (kind = 0 || kind = 2) && data.length = packetBytes (Header.ofNat (bytesNat (data.take 64))).len

/-- DEPOSITED and SEQ after a packet, with the regions that the channel consumes itself; the packet is acknowledged. -/
def State.depositDone (s : State) (chan pad size : Nat) (own : Bool) : State :=
  let t := s.tensor chan
  let regions := (if pad = 0 then [] else [(t.deposited, pad)]) ++ (if own then [(t.deposited + pad, size)] else [])
  let t' := { t with deposited := t.deposited + pad + size, seq := (t.seq + 1) % 2 ^ 32, selfConsumed := t.selfConsumed ++ regions }
  ((s.forgetWriter (.deposit chan)).send (.ack chan t.seq)).consume chan t' 0

/-- A deposit whose write fails (R484). -/
def State.depositFailed (s : State) (chan tag pad size cause : Nat) : State :=
  let t := s.tensor chan
  (s.depositDone chan pad size true).adminEvent 484 [t.stage, chan, t.seq, tag, cause]

/-- Under what a receiver deposits: its `CHPOST`, or, where a fill has restored it (R457), the last task of its stage, unprivileged, once
there is one (log 24). -/
def State.depositor (s : State) (t : TensorChannel) : Option Captured :=
  let x := s.stage t.stage
  let id := s.invocationOf t.stage
  t.who <|> if (tfind id s.extents).isNone then none else
    some { core := x.cores.headD 0, bank := x.bank, bundle := 0, pos := 0, issued := 0, priv := false, invocation := id, stage := t.stage,
           partition := x.partition, seeds := [], shadows := [], after := [] }

/-- `PACKET_DEPOSIT`: a packet already deposited is acknowledged and discarded; packets are deposited in SEQ order, while the
arrival queue has room (R320). -/
def execPacketDeposit (chan seq step tag kind offset pad : Nat) (data : List (BitVec 8)) (s : State) : Result :=
  event s fun s =>
    let t := s.tensor chan
    if !t.bound ∨ t.sender ∨ !s.linkBrings t seq step tag kind offset pad data then none
    else if seq ≠ t.seq then
      if (t.seq + 2 ^ 32 - seq) % 2 ^ 32 < 2 ^ 31 then some (s.send (.ack chan seq)) else none
    else
      let size := data.length
      match s.depositor t with
      | none => none
      | some w =>
        if t.w < offset + size ∨ (s.stage t.stage).arrivalFull (kind = 2) then none
        else
          match s.standing (.deposit chan) with
          | .waiting => none
          | .failed cause => some (s.depositFailed chan tag pad size cause)
          | .free =>
            let a := t.rbase + offset
            let x := bytesNat (data.drop 64)
            let image := depositedHeader (bytesNat (data.take 64)) (a + 64) tag + 2 ^ 512 * x
            match s.writeBytes (.deposit chan) w a size image with
            | .wait t => some (t.uncounted s)
            | .fail cause => some (s.depositFailed chan tag pad size cause)
            | .value _ s =>
              let s := s.arrive t.stage (kind = 2) tag (BitVec.ofNat 64 step) (BitVec.ofNat 64 a) none
              some ((s.depositDone chan pad size false).refresh)

/-- The buffer lies in home memory of one die (R318). -/
def State.homeOf (s : State) (xt : List Extent) (d a n : Nat) : Bool :=
  (List.range ((a % 4096 + n + 4095) / 4096)).all fun i =>
    let va := a / 4096 * 4096 + 4096 * i
    match findExtent xt (va % 2 ^ 56) with
    | some e => match s.locate e.hm (e.pbase + (va % 2 ^ 56 - e.vbase)) with
      | .home d' _ => d' == d
      | _ => false
    | none => false

/-- `CHPOST` at its point; whatever goes wrong is a posted `CHANNEL` (R318, R361, R371). -/
def State.postWindow (s : State) (chan : Nat) (c : Command) : State :=
  let t := s.tensor chan
  let w := c.who
  let who := Writer.deposit chan
  let done (s : State) : State := (s.endCommand c).forgetWriter who
  let bad (s : State) : State := (done s).postFor w 0x19
  if !t.bound ∨ t.sender ∨ t.stage ≠ w.stage ∨ t.deposited ≠ t.consumed then bad s
  else
    match s.standing who with
    | .waiting => s
    | .failed _ => bad s
    | .free =>
      match s.engineRead who w c.addr 64 with
      | .wait s => s
      | .fail _ => bad s
      | .value x s =>
        let h := Header.ofNat x
        let xt := tget [] w.invocation s.extents
        if h.fault ∨ h.addr % 64 ≠ 0 ∨ h.cap % 64 ≠ 0 ∨ h.cap < 128 ∨ !s.homeOf xt (dieOf w.core) h.addr h.cap then bad s
        else
          -- the deposits that follow are no command's: they land in the current copy (R315; log 39)
          ((done s).setTensor chan { t with rbase := h.addr, w := h.cap, sent := 0, consumed := 0, deposited := 0,
                                            selfConsumed := [], who := some { w with shadows := [] } }).send (.window chan h.cap)

/-- `CHACK_EFFECT`: a `CHACK` after every older load, and a `CHPOST` after every older release (R321, R361, R362). -/
def execChackEffect (core bank index : Nat) (s : State) : Result :=
  event s fun s =>
    match s.commandAt core bank index with
    | none => none
    | some c =>
      match c.ins with
      | .chpost _ chan => if s.commandReady c ∧ s.released c.who then some (s.postWindow chan.toNat c) else none
      | .chack _ chan =>
        let n := chan.toNat
        let t := s.tensor n
        let b := (c.ops.headD 0).toNat
        if !s.commandReady c then none
        else
          let s := s.endCommand c
          if !t.bound ∨ t.sender ∨ t.stage ≠ c.who.stage ∨ b % 64 ≠ 0 ∨ t.deposited < t.consumedAfter b then some (s.postFor c.who 0x19)
          else some (s.consume n t b)
      | _ => none

end Sys2Proof.Machine
end

