-- ==== Sys2Proof/Machine/CollEvents.lean ====
section
/-! DEFINITION. The collective engine at work (R323 to R329, R485, spec/16; R363, spec/18; R448, R449, spec/24). -/

namespace Sys2Proof.Machine

/-! ## The ring -/

/-- N and RANK (R448). -/
def Regs.ringSize (r : Regs) : Nat := (r.ringcfg.extractLsb' 16 16).toNat
def Regs.rank (r : Regs) : Nat := (r.ringcfg.extractLsb' 0 16).toNat
/-- LIVE. -/
def Regs.live (r : Regs) : Bool := r.ringcfg.getLsbD 32

/-- The rank reached from `r` in the direction of a half (R325). -/
def stepRank (n r half : Nat) : Nat := if half = 0 then (r + 1) % n else (r + n - 1) % n
/-- Hops from rank `c` to rank `r` in the direction of a half. -/
def hopsTo (n c r half : Nat) : Nat := if half = 0 then (r + n - c % n) % n else (c + n - r % n) % n

/-- The halves and chunks of a bucket (R325): first element of a half, its elements, and those of chunk `c`. -/
def Bucket.halfBase (b : Bucket) (h : Nat) : Nat := if h = 0 then 0 else (b.count + 1) / 2
def Bucket.halfSize (b : Bucket) (h : Nat) : Nat := if h = 0 then (b.count + 1) / 2 else b.count / 2
def Bucket.chunkRange (b : Bucket) (n h c : Nat) : Nat × Nat :=
  let q := (b.halfSize h + n - 1) / n
  let lo := min (c * q) (b.halfSize h)
  (b.halfBase h + lo, min ((c + 1) * q) (b.halfSize h) - lo)

/-- The writer that stands for a bucket; before its descriptor is read it is named by that. -/
def Bucket.writer (b : Bucket) : Writer :=
  if b.fixed then .collective b.step b.bucket else .collective (2 ^ 64 + 2 * b.who.core + b.who.bank) b.descAddr

/-- The bucket at a position replaced. -/
def State.setBucket (s : State) (i : Nat) (b : Bucket) : State := { s with buckets := s.buckets.set i b }
/-- The bucket at a position leaves the engine. -/
def State.dropBucket (s : State) (i : Nat) (b : Bucket) : State :=
  { s.forgetWriter b.writer with buckets := s.buckets.eraseIdx i }

/-- A bucket still waits for the survivors' exchange: no chunk moves (R328). -/
def State.settling (s : State) : Bool := s.buckets.any (·.unsettled)

/-! ## Failure (R326, R329, R485) -/

/-- The norm additions of a bucket withdrawn (R329). -/
def State.withdrawNorm (s : State) (b : Bucket) : State :=
  if b.added.isEmpty then s
  else { s with norms := tset b.norm (b.added.foldl (fun r x => r.withdraw (Fmt.fp32.decode x)) (s.norm b.norm)) s.norms }

/-- A failure mark sent on both ring ports. -/
def State.sendFailure (s : State) (step bucket cause rank : Nat) : State :=
  (s.send (.failure 0 step bucket cause rank)).send (.failure 1 step bucket cause rank)

/-- The bucket of an identity has failed here (R485; log 42). -/
def State.noteFailed (s : State) (id : Nat × Nat) : State := { s with failedBuckets := id :: s.failedBuckets.filter (· ≠ id) }

/-- The bucket at a position stops: it withdraws its norm additions, records its cause and counts its bytes down (R485). -/
def State.endBucket (s : State) (i : Nat) (b : Bucket) (cause : Nat) : State :=
  ((s.withdrawNorm b).dropBucket i b).failDown (clusterOf b.who.core) b.bar 6 cause (if b.fixed then b.left else 1)

/-- The bucket at a position, its descriptor read, fails here. -/
def State.stopBucket (s : State) (i : Nat) (b : Bucket) (cause : Nat) : State := (s.endBucket i b cause).noteFailed (b.step, b.bucket)

/-- The bucket fails here and, where its descriptor has given its identity, at every live member. -/
def State.failBucket (s : State) (i : Nat) (b : Bucket) (cause : Nat) : State :=
  if b.fixed then (s.stopBucket i b cause).sendFailure b.step b.bucket cause s.regs.rank else s.endBucket i b cause

/-- A bucket completes: its last bytes are counted down, its signal word is cleared and its identity is remembered, with the contribution
counts of its chunks (R324 to R327). -/
def State.completeBucket (s : State) (i : Nat) (b : Bucket) : State :=
  let s := (s.dropBucket i b).countDown (clusterOf b.who.core) b.bar b.left
  { s with signal := mwrite s.signal (8 * b.sig) 8 0, remembered := ((b.step, b.bucket) :: s.remembered).take 4096,
           contributions := (((b.step, b.bucket), b.counts) :: s.contributions).take 4096 }

/-! ## The descriptor (R323, R352, R363) -/

/-- The fields of a descriptor. -/
def Bucket.read (b : Bucket) (x : Nat) : Bucket :=
  { b with inAddr := fieldAt x 0 8, outAddr := fieldAt x 8 8, count := fieldAt x 16 4, bucket := fieldAt x 20 4,
           step := fieldAt x 24 8, sig := fieldAt x 32 2, norm := fieldAt x 34 1, normEn := fieldAt x 35 1 % 2 = 1,
           avg := fieldAt x 35 1 / 2 % 2 = 1 }

/-- A descriptor that fails with `CHANNEL` (R326); the top byte of an address takes no part in translation (R234). -/
def Bucket.bad (b : Bucket) (x : Nat) : Bool :=
  fieldAt x 36 28 ≠ 0 || 4 ≤ fieldAt x 35 1 || 512 ≤ b.sig || b.count = 0 || 2 ^ 26 ≤ b.count || b.inAddr % 4 ≠ 0
    || b.outAddr % 4 ≠ 0
    || (decide (b.inAddr % 2 ^ 56 < b.outAddr % 2 ^ 56 + 4 * b.count) && decide (b.outAddr % 2 ^ 56 < b.inAddr % 2 ^ 56 + 4 * b.count))

/-- The descriptor of a bucket is read and its bytes counted. A member that is not live refuses it, whatever its identity (R449). -/
def State.fixBucket (s : State) (i : Nat) : Option State :=
  match s.buckets[i]? with
  | none => none
  | some b =>
    let k := clusterOf b.who.core
    if b.fixed ∨ !s.released b.who then none
    else
      match s.standing b.writer with
      | .waiting => none
      | .failed cause => some (s.endBucket i b cause)
      | .free =>
        match s.engineRead b.writer b.who b.descAddr 64 with
        | .wait s => some s
        | .fail cause => some (s.endBucket i b cause)
        | .value x s =>
          let b' := b.read x
          let refused : State :=
            ((s.endBucket i b 0x19).noteFailed (b'.step, b'.bucket)).sendFailure b'.step b'.bucket 0x19 s.regs.rank
          if !s.regs.live then some refused
          else if s.remembered.contains (b'.step, b'.bucket) then some ((s.dropBucket i b).countDown k b.bar 1)
          else if b'.bad x then some refused
          else if s.buckets.any fun c => c.fixed ∧ c.step = b'.step ∧ c.bucket = b'.bucket then none
          else
            match s.countUp k b.bar (4 * b'.count) with
            | none => some (((s.dropBucket i b).countDown k b.bar 1).postFor b.who 0x1D)
            | some s =>
              let s := { s with failedBuckets := s.failedBuckets.filter (· ≠ (b'.step, b'.bucket)) }
              some ((s.setBucket i { b' with fixed := true, left := 4 * b'.count }).countDown k b.bar 1)

/-- `ENGINE_COUNT_FIX`: the counted bytes of a copy channel's command, of the stash command in turn on a key, of a channel's
packet or of a bucket are fixed (R352). -/
def execEngineCountFix (engine a b : Nat) (s : State) : Result :=
  event s fun s =>
    match engine with
    | 0 => s.fixCopy a b
    | 1 => s.fixStash a b
    | 2 => s.fixPacket a
    | 3 => s.fixBucket a
    | _ => none

/-! ## Chunks (R325) -/

/-- FP32 values of a chunk read from IN. -/
def State.readChunk (s : State) (b : Bucket) (first n : Nat) : Got :=
  s.readBytes b.writer b.who ((b.inAddr + 4 * first) % 2 ^ 64) (4 * n)

/-- A bucket whose OUT is performed sends its marks, and completes once every other member's mark has come (R324, R326,
R327). -/
def State.settleBucket (s : State) (i : Nat) : State :=
  match s.buckets[i]? with
  | none => s
  | some b =>
    if !b.fixed ∨ !b.full then s
    else
      let r := s.regs
      let s := if b.marked then s
        else ((s.setBucket i { b with marked := true }).send (.mark 0 b.step b.bucket r.rank)).send (.mark 1 b.step b.bucket r.rank)
      if b.marks.length + 1 < r.ringSize then s else s.completeBucket i b

/-- Results of a chunk, with its contribution count, written to OUT, added to the norm register and counted down but for the last 4 bytes
(R283, R325, R327). -/
def State.writeChunk (s : State) (i : Nat) (b : Bucket) (c : Chunk) (first : Nat) (values : List Nat) : Got :=
  match s.writeBytes b.writer b.who ((b.outAddr + 4 * first) % 2 ^ 64) (4 * values.length) (packFields 32 values) with
  | .value _ s =>
    let s := if b.normEn then s.addNorm b.norm (values.map Fmt.fp32.decode) else s
    let down := min (4 * values.length) (b.left - 4)
    let b := { b with written := b.written ++ [(first, values.length)], left := b.left - down,
                      counts := b.counts ++ [(c.half, c.chunk, c.count)],
                      added := if b.normEn then b.added ++ values else b.added }
    .value 0 ((s.setBucket i b).countDown (clusterOf b.who.core) b.bar down)
  | o => o

/-- The final value of a sum of `n` ranks (R325). -/
def finalValue (avg : Bool) (n acc : Nat) : Nat :=
  if avg then Fmt.fp32.div (Fmt.fp32.decode acc) (FVal.ofInteger n) else acc

/-- A chunk is taken up: own values are added and the sum sent on, or the results are written and sent on. -/
def State.takeChunk (s : State) (i : Nat) (b : Bucket) (c : Chunk) : Got :=
  let n := s.regs.ringSize
  let me := s.regs.rank
  let (first, len) := b.chunkRange n c.half c.chunk
  let forward (s : State) (d : Chunk) : State := s.send (.chunk c.half b.step b.bucket d)
  -- the rank at which the sum is complete
  let fin := stepRank n c.chunk (1 - c.half)
  if c.final then
    match s.writeChunk i b c first c.values with
    | .value _ s => .value 0 (if stepRank n me c.half = fin then s else forward s c)
    | o => o
  else
    match s.readChunk b first len with
    | .value x s =>
      let own := unpack 32 len x
      let sums :=
        if c.count = 0 then own
        else (c.values.zip own).map fun (p, q) => Fmt.fp32.rne ((Fmt.fp32.decode p).add (Fmt.fp32.decode q))
      if c.count + 1 < n then .value 0 (forward s { c with count := c.count + 1, values := sums })
      else
        let results := sums.map (finalValue b.avg (c.count + 1))
        let d := { c with count := c.count + 1, final := true, values := results }
        match s.writeChunk i b d first results with
        | .value _ s => .value 0 (if n = 1 then s else forward s d)
        | o => o
    | o => o

/-- The first waiting chunk of a started bucket is taken up. -/
def State.runBucket (s : State) (i : Nat) (b : Bucket) : Option State :=
  match b.early with
  | [] => none
  | c :: rest =>
    match s.standing b.writer with
    | .waiting => none
    | .failed cause => some (s.failBucket i b cause)
    | .free =>
      match (s.setBucket i { b with early := rest }).takeChunk i { b with early := rest } c with
      | .value _ s => some (s.settleBucket i)
      | .fail cause => some (s.failBucket i b cause)
      | .wait t => some ((t.setBucket i b).uncounted s)

/-- The chunks a member owns: those of its rank in the two halves, without the empty ones. -/
def Bucket.ownChunks (b : Bucket) (n rank : Nat) : List Chunk :=
  ([0, 1].map fun h => (⟨h, rank, 0, false, []⟩ : Chunk)).filter fun c => (b.chunkRange n c.half c.chunk).2 ≠ 0

/-- `BUCKET_START`: a bucket whose signal word is not zero starts with the chunks its rank owns, or fails by a mark that came
before; a started bucket takes up a waiting chunk (R324, R485). -/
def execBucketStart (position : Nat) (s : State) : Result :=
  event s fun s =>
    match s.buckets[position]? with
    | none => none
    | some b =>
      if !b.fixed ∨ s.settling then none
      else if b.started then s.runBucket position b
      else if mread s.signal (8 * b.sig) 8 = 0 then none
      else
        match s.earlyFailures.find? fun f => f.1 = b.step ∧ f.2.1 = b.bucket with
        | some f => some ({ s with earlyFailures := s.earlyFailures.erase f }.stopBucket position b f.2.2)
        | none =>
          some (s.setBucket position { b with started := true, early := b.ownChunks s.regs.ringSize s.regs.rank ++ b.early })

/-- The held bucket of an identity. -/
def State.bucketOf (s : State) (step bucket : Nat) : Option Nat :=
  s.buckets.findIdx? fun b => b.fixed ∧ b.step = step ∧ b.bucket = bucket

/-- `CHUNK_RECEIVE`: a chunk of a held bucket enters the engine; one of a completed or unknown identity is discarded (R324 to
R326, R449). -/
def execChunkReceive (step bucket half chunk count : Nat) (final : Bool) (values : List Nat) (s : State) : Result :=
  event s fun s =>
    let n := s.regs.ringSize
    match s.bucketOf step bucket with
    | none => none
    | some i =>
      match s.buckets[i]? with
      | none => none
      | some b =>
        let hops := hopsTo n chunk s.regs.rank half
        let fits := half < 2 ∧ chunk < n ∧ values.length = (b.chunkRange n half chunk).2 ∧ values ≠ []
          ∧ (if final then count = n ∧ hops + 1 < n else count = hops ∧ hops ≠ 0) ∧ values.all (· < 2 ^ 32)
        if !s.regs.live ∨ b.unsettled ∨ !fits then none
        else some (s.setBucket i { b with early := b.early ++ [⟨half, chunk, count, final, values⟩] })

/-- `COMPLETION_MARK_RECEIVE`: a mark is relayed in its direction until it is back at its sender, and counted (R327). -/
def execCompletionMarkReceive (step bucket rank port : Nat) (s : State) : Result :=
  event s fun s =>
    if rank = s.regs.rank ∨ !s.regs.live ∨ 2 ≤ port then none
    else
      let s := s.send (.mark port step bucket rank)
      match s.bucketOf step bucket with
      | none => some s
      | some i =>
        match s.buckets[i]? with
        | none => some s
        | some b => some ((s.setBucket i { b with marks := if b.marks.contains rank then b.marks else b.marks ++ [rank] }).settleBucket i)

/-- `FAILURE_MARK_RECEIVE`: a mark is relayed; it stops a bucket that has started, and fails one that has not when it starts. Of the two
copies of a mark the second does nothing more, nor does a mark of a bucket that has failed here and not been accepted again
(R485; log 42). -/
def execFailureMarkReceive (step bucket cause rank port : Nat) (s : State) : Result :=
  event s fun s =>
    if rank = s.regs.rank ∨ !s.regs.live ∨ 2 ≤ port then none
    else
      let s := s.send (.failure port step bucket cause rank)
      let early (s : State) : State :=
        if s.remembered.contains (step, bucket) ∨ s.failedBuckets.contains (step, bucket)
            ∨ s.earlyFailures.any (fun f => f.1 = step ∧ f.2.1 = bucket) then s
        else { s with earlyFailures := s.earlyFailures ++ [(step, bucket, cause)] }
      let copy := (step, bucket, rank, port)
      if s.markCopies.contains copy then some { s with markCopies := s.markCopies.erase copy } else
      let s := { s with markCopies := s.markCopies ++ [(step, bucket, rank, 1 - port)] }
      match s.bucketOf step bucket with
      | none => some (early s)
      | some i =>
        match s.buckets[i]? with
        | none => some (early s)
        | some b => some (if b.started then s.stopBucket i b cause else early s)

/-- `RING_SETTLE`: the reports of all other survivors on a held bucket have come; it completes with what is written where every survivor
has written all, or restarts from its IN with its norm additions withdrawn (R328, R329). -/
def execRingSettle (position : Nat) (reports : List Bool) (s : State) : Result :=
  event s fun s =>
    match s.buckets[position]? with
    | none => none
    | some b =>
      if !b.unsettled ∨ reports.length ≠ s.regs.ringSize - 1 then none
      else
        if reports.all id ∧ b.fixed ∧ b.full then some (s.completeBucket position b)
        else
          some ((s.withdrawNorm b).setBucket position
            { b with unsettled := false, started := false, written := [], added := [], marks := [], marked := false, early := [],
                     counts := [] })

end Sys2Proof.Machine
end

