-- ==== Sys2Proof/Machine/Vector.lean ====
section
/-! DEFINITION. The vector class (R132 to R145, spec/06; R100, R102, spec/04). -/

namespace Sys2Proof.Machine

/-! ## Lanes of the bank at issue -/

/-- Width of a lane in a view of `n` lanes (R13). -/
def laneWidth (n : Nat) : Nat := 4096 / n
/-- Floating-point type of the lanes of a view (R132). -/
def laneFmt (n : Nat) : Fmt := if n = 256 then .bf16 else .fp32
/-- The lanes of a vector register in a view. -/
def Bank.lanes (k : Bank) (n r : Nat) : List Nat := unpack (laneWidth n) n (k.v r).toNat

/-- Lands lanes in a vector register where the bundle's mask is 1, with a zero side word (R134, R135). -/
def State.landV (s : State) (lat n : Nat) (rd : BitVec 7) (l : List Nat) : State :=
  s.land lat (.vrow rd.toNat (rowSelect (laneWidth n) n s.bundleMask) (rowOf (laneWidth n) l) 0)

/-- Lands a mask register in a view: bits where the bundle's mask is 1, and bits 255:128 zero in the 128-lane view (R14,
R135). -/
def State.landK (s : State) (lat n : Nat) (rd : BitVec 4) (v : Mask) : State :=
  s.land lat (.kmask rd.toNat ((s.bundleMask &&& lowMask n) ||| ~~~(lowMask n)) (v &&& lowMask n))

/-- A mask from one truth value a lane. -/
def maskOf (l : List Bool) : Mask := BitVec.ofNat 256 (packFields 1 (l.map Bool.toNat))

/-- A lane-wise operation of two sources; `f` is given the view. -/
def lanes2 (i : Instr) (lat : Nat) (rd ra rb : BitVec 7) (f : Nat → Nat → Nat → Nat) (s : State) : Result :=
  issueSlot i s fun s =>
    let n := s.cur.viewOf rd.toNat
    s.landV lat n rd (List.zipWith (f n) (s.cur.lanes n ra.toNat) (s.cur.lanes n rb.toNat))

/-- A lane-wise operation of one source. -/
def lanes1 (i : Instr) (lat : Nat) (rd ra : BitVec 7) (f : Nat → Nat → Nat) (s : State) : Result :=
  issueSlot i s fun s =>
    let n := s.cur.viewOf rd.toNat
    s.landV lat n rd ((s.cur.lanes n ra.toNat).map (f n))

/-- A lane-wise operation of two sources and the old destination. -/
def lanes3 (i : Instr) (lat : Nat) (rd ra rb : BitVec 7) (f : Nat → Nat → Nat → Nat → Nat) (s : State) : Result :=
  issueSlot i s fun s =>
    let n := s.cur.viewOf rd.toNat
    let ab := (s.cur.lanes n ra.toNat).zip (s.cur.lanes n rb.toNat)
    s.landV lat n rd (List.zipWith (fun p d => f n p.1 p.2 d) ab (s.cur.lanes n rd.toNat))

/-! ## Floating lanes (R137) -/

/-- A floating operation of two lanes, rounded once to the lane type. -/
def float2 (f : FVal → FVal → FVal) (n a b : Nat) : Nat :=
  (laneFmt n).rne (f ((laneFmt n).decode a) ((laneFmt n).decode b))

/-- A floating operation of one lane. -/
def float1 (f : FVal → FVal) (n a : Nat) : Nat := (laneFmt n).rne (f ((laneFmt n).decode a))

def execVadd (rd ra rb : BitVec 7) (s : State) : Result := lanes2 (.vadd rd ra rb) 4 rd ra rb (float2 FVal.add) s
def execVsub (rd ra rb : BitVec 7) (s : State) : Result := lanes2 (.vsub rd ra rb) 4 rd ra rb (float2 fun a b => a.add b.negate) s
def execVmul (rd ra rb : BitVec 7) (s : State) : Result := lanes2 (.vmul rd ra rb) 5 rd ra rb (float2 FVal.mul) s

/-- `VFMA`: a × b + d with one rounding (R137). -/
def execVfma (rd ra rb : BitVec 7) (s : State) : Result :=
  lanes3 (.vfma rd ra rb) 5 rd ra rb (fun n a b d =>
    let f := laneFmt n
    f.rne (((f.decode a).mul (f.decode b)).add (f.decode d))) s

/-- `VFMS`: d − a × b with one rounding (R137). -/
def execVfms (rd ra rb : BitVec 7) (s : State) : Result :=
  lanes3 (.vfms rd ra rb) 5 rd ra rb (fun n a b d =>
    let f := laneFmt n
    f.rne ((f.decode d).add ((f.decode a).mul (f.decode b)).negate)) s

def execVmin (rd ra rb : BitVec 7) (s : State) : Result := lanes2 (.vmin rd ra rb) 4 rd ra rb (float2 FVal.min) s
def execVmax (rd ra rb : BitVec 7) (s : State) : Result := lanes2 (.vmax rd ra rb) 4 rd ra rb (float2 FVal.max) s
def execVabs (rd ra : BitVec 7) (s : State) : Result := lanes1 (.vabs rd ra) 4 rd ra (float1 FVal.abs) s
def execVneg (rd ra : BitVec 7) (s : State) : Result := lanes1 (.vneg rd ra) 4 rd ra (float1 FVal.negate) s

/-! ## Compares (R138) -/

/-- A compare of floating lanes into a mask register. -/
def compareLanes (i : Instr) (rd : BitVec 4) (ra rb : BitVec 7) (f : FVal → FVal → Bool) (s : State) : Result :=
  issueSlot i s fun s =>
    let n := s.cur.viewOf ra.toNat
    let d := (laneFmt n).decode
    s.landK 4 n rd (maskOf (List.zipWith (fun a b => f (d a) (d b)) (s.cur.lanes n ra.toNat) (s.cur.lanes n rb.toNat)))

def execVeq (rd : BitVec 4) (ra rb : BitVec 7) (s : State) : Result := compareLanes (.veq rd ra rb) rd ra rb FVal.eq s
def execVne (rd : BitVec 4) (ra rb : BitVec 7) (s : State) : Result := compareLanes (.vne rd ra rb) rd ra rb (fun a b => !a.eq b) s
def execVlt (rd : BitVec 4) (ra rb : BitVec 7) (s : State) : Result := compareLanes (.vlt rd ra rb) rd ra rb FVal.lt s
def execVle (rd : BitVec 4) (ra rb : BitVec 7) (s : State) : Result := compareLanes (.vle rd ra rb) rd ra rb FVal.le s

/-! ## Special functions (R139) -/

/-- A special function of each lane. -/
def special (f : Fmt → FVal → Nat) (n a : Nat) : Nat := f (laneFmt n) ((laneFmt n).decode a)

def execVrcp (rd ra : BitVec 7) (s : State) : Result := lanes1 (.vrcp rd ra) 10 rd ra (special fun f a => f.div (.fin false 1 0) a) s
def execVrsq (rd ra : BitVec 7) (s : State) : Result := lanes1 (.vrsq rd ra) 10 rd ra (special Fmt.rsqrt) s
def execVsqrt (rd ra : BitVec 7) (s : State) : Result := lanes1 (.vsqrt rd ra) 10 rd ra (special Fmt.sqrt) s
def execVexp2 (rd ra : BitVec 7) (s : State) : Result := lanes1 (.vexp2 rd ra) 10 rd ra (special Fmt.exp2) s
def execVlog2 (rd ra : BitVec 7) (s : State) : Result := lanes1 (.vlog2 rd ra) 10 rd ra (special Fmt.log2) s
def execVtanh (rd ra : BitVec 7) (s : State) : Result := lanes1 (.vtanh rd ra) 10 rd ra (special Fmt.tanh) s
def execVsigm (rd ra : BitVec 7) (s : State) : Result := lanes1 (.vsigm rd ra) 10 rd ra (special Fmt.sigmoid) s

/-! ## Integer and raw lanes (R140, R141) -/

/-- `VSEL`: the bundle's mask selects a or b, and every lane is written (R141). -/
def execVsel (rd ra rb : BitVec 7) (s : State) : Result :=
  issueSlot (.vsel rd ra rb) s fun s =>
    let n := s.cur.viewOf rd.toNat
    let m := s.bundleMask
    let l := List.zipWith (fun a b => (a, b)) (s.cur.lanes n ra.toNat) (s.cur.lanes n rb.toNat)
    let l := l.mapIdx fun i p => if m.getLsbD i then p.1 else p.2
    s.land 4 (.vrow rd.toNat rowAll (rowOf (laneWidth n) l) 0)

/-- An operation on lanes as words of the lane width. -/
def word2 (f : {w : Nat} → BitVec w → BitVec w → BitVec w) (n a b : Nat) : Nat :=
  (f (BitVec.ofNat (laneWidth n) a) (BitVec.ofNat (laneWidth n) b)).toNat

/-- A shift amount of a lane: bits 4:0, or bits 3:0 of a 16-bit lane (R140). -/
def laneAmount {w : Nat} (b : BitVec w) : Nat := b.toNat % w

/-- The smaller of two signed words. -/
def sminWord {w : Nat} (a b : BitVec w) : BitVec w := if b.slt a then b else a
/-- The larger of two signed words. -/
def smaxWord {w : Nat} (a b : BitVec w) : BitVec w := if a.slt b then b else a

def execVand (rd ra rb : BitVec 7) (s : State) : Result := lanes2 (.vand rd ra rb) 4 rd ra rb (word2 fun a b => a &&& b) s
def execVor (rd ra rb : BitVec 7) (s : State) : Result := lanes2 (.vor rd ra rb) 4 rd ra rb (word2 fun a b => a ||| b) s
def execVxor (rd ra rb : BitVec 7) (s : State) : Result := lanes2 (.vxor rd ra rb) 4 rd ra rb (word2 fun a b => a ^^^ b) s
def execViadd (rd ra rb : BitVec 7) (s : State) : Result := lanes2 (.viadd rd ra rb) 4 rd ra rb (word2 fun a b => a + b) s
def execVisub (rd ra rb : BitVec 7) (s : State) : Result := lanes2 (.visub rd ra rb) 4 rd ra rb (word2 fun a b => a - b) s
def execVimul (rd ra rb : BitVec 7) (s : State) : Result := lanes2 (.vimul rd ra rb) 4 rd ra rb (word2 fun a b => a * b) s
def execVimin (rd ra rb : BitVec 7) (s : State) : Result := lanes2 (.vimin rd ra rb) 4 rd ra rb (word2 sminWord) s
def execVimax (rd ra rb : BitVec 7) (s : State) : Result := lanes2 (.vimax rd ra rb) 4 rd ra rb (word2 smaxWord) s
def execVshl (rd ra rb : BitVec 7) (s : State) : Result := lanes2 (.vshl rd ra rb) 4 rd ra rb (word2 fun a b => a <<< laneAmount b) s
def execVshr (rd ra rb : BitVec 7) (s : State) : Result := lanes2 (.vshr rd ra rb) 4 rd ra rb (word2 fun a b => a >>> laneAmount b) s
def execVsar (rd ra rb : BitVec 7) (s : State) : Result := lanes2 (.vsar rd ra rb) 4 rd ra rb (word2 fun a b => a.sshiftRight (laneAmount b)) s

/-! ## Reductions (R100, R143) -/

/-- One level of the fixed tree: neighbours combined. -/
def pairUp (f : FVal → FVal → FVal) : List FVal → List FVal
  | a :: b :: r => f a b :: pairUp f r
  | l => l

/-- The tree of `l` levels. -/
def reduceTree (f : FVal → FVal → FVal) : Nat → List FVal → List FVal
  | 0, xs => xs
  | l + 1, xs => reduceTree f l (pairUp f xs)

/-- A reduction: a masked-off lane contributes `idle`; 8 clk in the 128-lane view, 9 in the 256-lane view (R143). -/
def reduce (i : Instr) (rd : BitVec 6) (ra : BitVec 7) (idle : FVal) (pre : FVal → FVal) (f : FVal → FVal → FVal)
    (s : State) : Result :=
  issueSlot i s fun s =>
    let n := s.cur.viewOf ra.toNat
    let m := s.bundleMask
    let xs := (s.cur.lanes n ra.toNat).mapIdx fun j x => if m.getLsbD j then pre ((laneFmt n).decode x) else idle
    let levels := if n = 256 then 8 else 7
    let r := (reduceTree f levels xs).headD .nan
    s.landS (if n = 256 then 9 else 8) rd (BitVec.ofNat 64 (Fmt.fp32.rne r))

/-- One FP32 addition of the tree, rounded RNE (R100). -/
def addRounded (a b : FVal) : FVal := Fmt.fp32.decode (Fmt.fp32.rne (a.add b))

def execVrsum (rd : BitVec 6) (ra : BitVec 7) (s : State) : Result :=
  reduce (.vrsum rd ra) rd ra (.fin false 0 0) id addRounded s
def execVrmax (rd : BitVec 6) (ra : BitVec 7) (s : State) : Result :=
  reduce (.vrmax rd ra) rd ra (.inf true) id FVal.max s
def execVramax (rd : BitVec 6) (ra : BitVec 7) (s : State) : Result :=
  reduce (.vramax rd ra) rd ra (.fin false 0 0) FVal.abs FVal.max s

/-! ## Moves and lane accesses (R142) -/

/-- A scalar broadcast to every lane (R142). -/
def execVbcast (rd : BitVec 7) (ra : BitVec 6) (s : State) : Result :=
  issueSlot (.vbcast rd ra) s fun s =>
    let n := s.cur.viewOf rd.toNat
    s.landV 4 n rd (List.replicate n (s.sa ra).toNat)

/-- The lane a scalar names: bits 6:0, or bits 7:0 in the 256-lane view (R142). -/
def laneIndex (n : Nat) (v : SReg) : Nat := v.toNat % n

def execVextr (rd : BitVec 6) (ra : BitVec 7) (rb : BitVec 6) (s : State) : Result :=
  issueSlot (.vextr rd ra rb) s fun s =>
    let n := s.cur.viewOf ra.toNat
    s.landS 4 rd (BitVec.ofNat 64 (lane (laneWidth n) (laneIndex n (s.sa rb)) (s.cur.v ra.toNat).toNat))

/-- One lane inserted, if the mask selects it; the side word is written in either case (R134, R142). -/
def execVins (rd : BitVec 7) (ra rb : BitVec 6) (s : State) : Result :=
  issueSlot (.vins rd ra rb) s fun s =>
    let n := s.cur.viewOf rd.toNat
    let j := laneIndex n (s.sa rb)
    let only : Mask := s.bundleMask &&& (1#256 <<< j)
    s.land 4 (.vrow rd.toNat (rowSelect (laneWidth n) n only) (rowOf (laneWidth n) (List.replicate n (s.sa ra).toNat)) 0)

/-- Lane i takes the lane of a that lane i of b names, modulo the lane count (R142). -/
def execVperm (rd ra rb : BitVec 7) (s : State) : Result :=
  issueSlot (.vperm rd ra rb) s fun s =>
    let n := s.cur.viewOf rd.toNat
    let a := (s.cur.v ra.toNat).toNat
    s.landV 6 n rd ((s.cur.lanes n rb.toNat).map fun j => lane (laneWidth n) (j % n) a)

/-- Lane i takes lane i − m of a, zero outside (R142). -/
def execVslide (rd ra : BitVec 7) (rb : BitVec 6) (s : State) : Result :=
  issueSlot (.vslide rd ra rb) s fun s =>
    let n := s.cur.viewOf rd.toNat
    let a := (s.cur.v ra.toNat).toNat
    let m := (s.sa rb).toInt
    s.landV 6 n rd ((List.range n).map fun (i : Nat) =>
      let j : Int := (i : Int) - m
      if 0 ≤ j ∧ j < n then lane (laneWidth n) j.toNat a else 0)

def execVmov (rd ra : BitVec 7) (s : State) : Result := lanes1 (.vmov rd ra) 4 rd ra (fun _ a => a) s

def execViota (rd : BitVec 7) (s : State) : Result :=
  issueSlot (.viota rd) s fun s =>
    let n := s.cur.viewOf rd.toNat
    s.landV 4 n rd (List.range n)

/-- `VRAND`: every lane drawn from the counter as it stands, which advances by the lane count in the issue clk (R102,
R144). -/
def execVrand (rd : BitVec 7) (ra : BitVec 2) (s : State) : Result :=
  issueSlot (.vrand rd ra) s fun s =>
    let n := s.cur.viewOf rd.toNat
    let g := s.cur.gen ra.toNat
    let t := s.landV 6 n rd ((List.range n).map fun i => (mix g.key (g.ctr + BitVec.ofNat 64 i)).toNat)
    t.setCur { t.cur with gens := tset ra.toNat ⟨g.key, g.ctr + BitVec.ofNat 64 n⟩ t.cur.gens }

/-! ## Mask operations (R145) -/

/-- A mask operation in the view of MCFG0. -/
def maskOp (i : Instr) (rd ra rb : BitVec 4) (f : Mask → Mask → Mask) (s : State) : Result :=
  issueSlot i s fun s => s.landK 1 (maskLanes s.cur) rd (f (s.cur.k ra.toNat) (s.cur.k rb.toNat))

def execKand (rd ra rb : BitVec 4) (s : State) : Result := maskOp (.kand rd ra rb) rd ra rb (· &&& ·) s
def execKor (rd ra rb : BitVec 4) (s : State) : Result := maskOp (.kor rd ra rb) rd ra rb (· ||| ·) s
def execKxor (rd ra rb : BitVec 4) (s : State) : Result := maskOp (.kxor rd ra rb) rd ra rb (· ^^^ ·) s
def execKnot (rd ra : BitVec 4) (s : State) : Result := maskOp (.knot rd ra) rd ra ra (fun a _ => ~~~a) s

def execKpop (rd : BitVec 6) (ra : BitVec 4) (s : State) : Result :=
  issueSlot (.kpop rd ra) s fun s =>
    let n := maskLanes s.cur
    let m := s.cur.k ra.toNat &&& s.bundleMask
    s.landS 1 rd (BitVec.ofNat 64 ((List.range n).countP fun i => m.getLsbD i))

end Sys2Proof.Machine
end

