-- ==== Sys2Proof/Machine/Convert.lean ====
section
/-! DEFINITION. The conversion class: narrowing, widening, side words, transposer tiles, FIFO pushes (R146 to R159,
spec/06). -/

namespace Sys2Proof.Machine

/-! ## Narrowing (R146 to R149) -/

/-- Elements with their mask bit 0 as zero (R135). -/
def maskElems (m : Mask) (l : List FVal) : List FVal := l.mapIdx fun i x => if m.getLsbD i then x else .fin false 0 0

/-- The source block of a narrowing: the type the MCFG of the register's half names, masked elements zero (R146). -/
def sourceBlock (s : State) (ra : Nat) : List FVal :=
  let f := sourceType (s.cur.mcfgOf ra)
  maskElems s.bundleMask ((unpack f.width 128 (s.cur.v ra).toNat).map f.decode)

/-- Lands a narrow block whole, with its side word (R91, R147). -/
def State.landBlock (s : State) (lat rd : Nat) (b : NarrowBlock) : State := s.land lat (.vrow rd rowAll b.row b.side)

def execVcvtn (fmt : BitVec 2) (rd ra : BitVec 7) (noRot : BitVec 1) (seed : BitVec 4) (s : State) : Result :=
  issueSlot (.vcvtn fmt rd ra noRot seed) s fun s =>
    s.landBlock 14 rd.toNat (cardBlock (sourceBlock s ra.toNat) (Fmt.ofTarget fmt.toNat) s.mode s.ctx.sat
      (s.cur.seed seed.toNat) 0 (noRot = 1) none)

/-- `VCVTNS`: NOROT, SEED and the given scale from the control word (R51, R148). -/
def execVcvtns (fmt : BitVec 2) (rd ra : BitVec 7) (rb : BitVec 6) (s : State) : Result :=
  issueSlot (.vcvtns fmt rd ra rb) s fun s =>
    let w := s.sa rb
    s.landBlock 14 rd.toNat (cardBlock (sourceBlock s ra.toNat) (Fmt.ofTarget fmt.toNat) s.mode s.ctx.sat
      (s.cur.seed (w.extractLsb' 32 4).toNat) 0 (w.getLsbD 36) (some (w.extractLsb' 0 32)))

/-- `VQSCALE`: the control word with the scale a `VCVTN` would use (R149). -/
def quantScale (i : Instr) (fmt : Fmt) (rd : BitVec 6) (ra : BitVec 7) (noRot : BitVec 1) (seed : BitVec 4) (s : State) :
    Result :=
  issueSlot i s fun s =>
    let scale := cardScale (sourceBlock s ra.toNat) fmt (s.cur.seed seed.toNat) (noRot = 1)
    s.landS 4 rd ((0 : BitVec 27) ++ noRot ++ seed ++ scale)

def execVqscaleE4m3 (rd : BitVec 6) (ra : BitVec 7) (noRot : BitVec 1) (seed : BitVec 4) (s : State) : Result :=
  quantScale (.vqscaleE4m3 rd ra noRot seed) .e4m3 rd ra noRot seed s
def execVqscaleE5m2 (rd : BitVec 6) (ra : BitVec 7) (noRot : BitVec 1) (seed : BitVec 4) (s : State) : Result :=
  quantScale (.vqscaleE5m2 rd ra noRot seed) .e5m2 rd ra noRot seed s
def execVqscaleBf16 (rd : BitVec 6) (ra : BitVec 7) (noRot : BitVec 1) (seed : BitVec 4) (s : State) : Result :=
  quantScale (.vqscaleBf16 rd ra noRot seed) .bf16 rd ra noRot seed s
def execVqscaleInt8 (rd : BitVec 6) (ra : BitVec 7) (noRot : BitVec 1) (seed : BitVec 4) (s : State) : Result :=
  quantScale (.vqscaleInt8 rd ra noRot seed) .int8 rd ra noRot seed s

/-! ## Widening and integer conversion (R150, R151) -/

/-- `VCVTW`: FP32 elements to bytes 4i of the destination, whatever its view (R150). -/
def execVcvtw (rd ra : BitVec 7) (s : State) : Result :=
  issueSlot (.vcvtw rd ra) s fun s =>
    let side := s.cur.side ra.toNat
    let tag := sideTag side
    let f := (narrowFormat (sideFmt side)).getD .e4m3
    let seed := ((s.cur.seedFor (tag.extractLsb' 0 12)).getD ⟨0, 0⟩).value
    let l := widenBlock f (unpack f.width 128 (s.cur.v ra.toNat).toNat) (sideScale side) (tag.getLsbD 15) seed 0
    s.land 12 (.vrow rd.toNat (rowSelect 32 128 s.bundleMask) (rowOf 32 l) 0)

/-- `VCVTI` under the bundle's RM and SAT (R80, R151). -/
def execVcvti (rd ra : BitVec 7) (uns : BitVec 1) (s : State) : Result :=
  issueSlot (.vcvti rd ra uns) s fun s =>
    let n := s.cur.viewOf rd.toNat
    let w := laneWidth n
    s.landV 4 n rd ((s.cur.lanes n ra.toNat).map fun (a : Nat) =>
      (BitVec.ofInt w (((laneFmt n).decode a).toInt s.mode s.ctx.sat w (uns = 1))).toNat)

/-- `VCVTF` under the bundle's RM (R151). -/
def execVcvtf (rd ra : BitVec 7) (uns : BitVec 1) (s : State) : Result :=
  issueSlot (.vcvtf rd ra uns) s fun s =>
    let n := s.cur.viewOf rd.toNat
    s.landV 4 n rd ((s.cur.lanes n ra.toNat).map fun (a : Nat) =>
      (laneFmt n).ofVal s.mode false
        (FVal.ofInteger (if uns = 1 then (a : Int) else (BitVec.ofNat (laneWidth n) a).toInt)))

/-! ## Side words (R152, R153) -/

def execVside (rd : BitVec 6) (ra : BitVec 7) (s : State) : Result :=
  issueSlot (.vside rd ra) s fun s => s.landS 4 rd (s.cur.side ra.toNat)

def execVsidew (rd : BitVec 7) (rb : BitVec 6) (s : State) : Result :=
  issueSlot (.vsidew rd rb) s fun s =>
    let w := s.sa rb
    s.land 4 (.side rd.toNat (if w.getLsbD 63 then sideWord (w.extractLsb' 48 4).toNat (w.extractLsb' 32 16)
      (w.extractLsb' 0 32) else 0))

/-! ## Transposer tiles (R154 to R157) -/

/-- `TTWR`: row r of the tile from the raw bits of vA, where the mask is 1 (R155). -/
def execTtwr (tile : BitVec 1) (ra : BitVec 7) (rb : BitVec 6) (s : State) : Result :=
  issueSlot (.ttwr tile ra rb) s fun s =>
    s.land 4 (.tileRow tile.toNat ((s.sa rb).toNat % 128) (rowSelect 32 128 s.bundleMask) (s.cur.v ra.toNat))

/-- Column c of a tile: cell (i, c) for every row i (R156). -/
def tileColumn (k : Bank) (t c : Nat) : List Nat :=
  (List.range 128).map fun i => lane 32 c (tget 0 (128 * t + i) k.tiles).toNat

def execTtrdc (rd : BitVec 7) (tile : BitVec 1) (ra : BitVec 6) (s : State) : Result :=
  issueSlot (.ttrdc rd tile ra) s fun s =>
    s.land 6 (.vrow rd.toNat (rowSelect 32 128 s.bundleMask)
      (rowOf 32 (tileColumn s.cur tile.toNat ((s.sa ra).toNat % 128))) 0)

/-- `TTRDC` with conversion: the column carded as `VCVTN` cards a block (R157). -/
def columnNarrow (i : Instr) (fmt : Fmt) (rd : BitVec 7) (tile : BitVec 1) (ra : BitVec 6) (noRot : BitVec 1)
    (seed : BitVec 4) (s : State) : Result :=
  issueSlot i s fun s =>
    let f : Fmt := if mcfgAcc (s.cur.mcfgOf rd.toNat) = 7 then .int32 else .fp32
    let x := maskElems s.bundleMask ((tileColumn s.cur tile.toNat ((s.sa ra).toNat % 128)).map f.decode)
    s.landBlock 6 rd.toNat (cardBlock x fmt s.mode s.ctx.sat (s.cur.seed seed.toNat) 0 (noRot = 1) none)

def execTtrdcE4m3 (rd : BitVec 7) (tile : BitVec 1) (ra : BitVec 6) (noRot : BitVec 1) (seed : BitVec 4) (s : State) :
    Result := columnNarrow (.ttrdcE4m3 rd tile ra noRot seed) .e4m3 rd tile ra noRot seed s
def execTtrdcE5m2 (rd : BitVec 7) (tile : BitVec 1) (ra : BitVec 6) (noRot : BitVec 1) (seed : BitVec 4) (s : State) :
    Result := columnNarrow (.ttrdcE5m2 rd tile ra noRot seed) .e5m2 rd tile ra noRot seed s
def execTtrdcBf16 (rd : BitVec 7) (tile : BitVec 1) (ra : BitVec 6) (noRot : BitVec 1) (seed : BitVec 4) (s : State) :
    Result := columnNarrow (.ttrdcBf16 rd tile ra noRot seed) .bf16 rd tile ra noRot seed s
def execTtrdcInt8 (rd : BitVec 7) (tile : BitVec 1) (ra : BitVec 6) (noRot : BitVec 1) (seed : BitVec 4) (s : State) :
    Result := columnNarrow (.ttrdcInt8 rd tile ra noRot seed) .int8 rd tile ra noRot seed s

def execTtclr (tile : BitVec 1) (s : State) : Result :=
  issueSlot (.ttclr tile) s fun s => s.land 4 (.tileClear tile.toNat)

/-! ## FIFO pushes (R158) -/

/-- The bits of a block's elements that the lane mask selects, for an element width. -/
def elemSelect (w : Nat) (m : Mask) : BitVec 2048 :=
  BitVec.ofNat 2048 (packFields w ((List.range 128).map fun i => if m.getLsbD i then 2 ^ w - 1 else 0))

/-- The entry a push makes and the clk until it is ready: a valid block as it stands, a BF16 source for a BF16 operand
unchanged, otherwise the source block carded under MCFG's fields (R158). -/
def pushEntry (s : State) (e : Nat) (isB : Bool) (ra : Nat) : Nat × RegWrite :=
  let m := s.bundleMask
  let lm : BitVec 128 := m.setWidth 128
  let side := s.cur.side ra
  let row := s.cur.v ra
  if sideValid side then
    let sel := elemSelect (8 * codeBytes (sideFmt side)) m
    (2, .push e isB (sideFmt side) (row.setWidth 2048 &&& sel) (sideScale side) (sideTag side) lm)
  else
    let mcfg := (s.cur.eng e).mcfg
    let f := (pushFormat mcfg isB).getD .e4m3
    if f = .bf16 ∧ sourceType (s.cur.mcfgOf ra) = .bf16 then
      (2, .push e isB 4 (row.setWidth 2048 &&& elemSelect 16 m) 0x3F800000 0 lm)
    else
      let seed := (mcfg.extractLsb' (if isB then 24 else 20) 4).toNat
      let noRot := mcfg.getLsbD (if isB then 19 else 18)
      let b := cardBlock (sourceBlock s ra) f s.mode s.ctx.sat (s.cur.seed seed) 0 noRot none
      (14, .push e isB f.code (b.row.setWidth 2048) b.scale b.tag lm)

def execFpusha (fifo : BitVec 1) (ra : BitVec 7) (s : State) : Result :=
  issueSlot (.fpusha fifo ra) s fun s =>
    let (lat, w) := pushEntry s fifo.toNat false ra.toNat
    s.land lat w

def execFpushb (fifo : BitVec 1) (ra : BitVec 7) (s : State) : Result :=
  issueSlot (.fpushb fifo ra) s fun s =>
    let (lat, w) := pushEntry s fifo.toNat true ra.toNat
    s.land lat w

end Sys2Proof.Machine
end

