-- ==== Sys2Proof/Machine/ShadowEvents.lean ====
section
/-! DEFINITION. Shadows and their publishing (R280, spec/13; R315, R316, spec/16; R364, R365, spec/18); the split of a cluster's
SRAM (R237, spec/12; R367); the balloon engine (R250 to R256, spec/12); migration (R397, R398, spec/20; R429, spec/22). -/

namespace Sys2Proof.Machine

/-! ## Lines of a page -/

/-- The lines of a page leave every slice and every remote-data cache, unwritten bytes and all. -/
def State.dropLines (s : State) (d page : Nat) : State :=
  let first := lineKey d (4096 * page)
  let mine (key : Nat) : Bool := decide (first ≤ key) && decide (key < first + 32)
  { s with clusters := s.clusters.map fun e => (e.1, { e.2 with lines := e.2.lines.filter fun l => !mine l.1 }),
           dies := s.dies.map fun e => (e.1, { e.2 with rdc := e.2.rdc.filter fun l => !mine l.1,
                                                        directory := e.2.directory.filter fun l => !mine l.1 }) }

/-- Every dirty byte of a page's lines written back, and the lines out of the slices. -/
def State.flushPage (s : State) (d page : Nat) : State :=
  let first := lineKey d (4096 * page)
  (s.clusters.map (·.1)).foldl (fun s k => (List.range 32).foldl (fun s i => s.evictLine k (first + i)) s) s

/-- Every byte of a page of home memory zero. -/
def Die.clearPage (x : Die) (page : Nat) : Die := { x with home := x.home.filter fun c => c.1 / 4096 ≠ page }

/-- The bytes of a page of home memory by offset within it. -/
def Die.pageCells (x : Die) (page : Nat) : List Host.Cell :=
  (x.home.filter fun c => c.1 / 4096 = page).map fun c => (c.1 % 4096, c.2)

/-- The bytes of a page of home memory replaced. -/
def Die.putCells (x : Die) (page : Nat) (l : List Host.Cell) : Die :=
  let y := x.clearPage page
  { y with home := l.foldl (fun m c => mset (4096 * page + c.1) c.2 m) y.home }

/-! ## Shadows -/

/-- SH of the mapping of a part. -/
def Part.shared (p : Part) : Bool := match p.ext with
  | some e => e.sh
  | none => false

/-- The pages of an extent to be shadowed, as die and page: all of one die's home memory, mapped with SH, RESIDENT, without a
shadow and not migrating (R315). -/
def State.shadowPages (s : State) (l : List Part) : Option (Nat × List Nat) :=
  match l with
  | [] => none
  | p :: _ =>
    match p.loc with
    | .home d _ =>
      let pages := l.mapM fun (q : Part) => match q.loc with
        | .home e off =>
          let r := (s.die e).page (off / 4096)
          if e = d ∧ q.shared ∧ r.state = 0 ∧ !r.shadow ∧ !r.migrating then some (off / 4096) else none
        | _ => none
      pages.map fun l => (d, l)
    | _ => none

/-- The lowest number no entry of a table has. -/
def freeKey {α : Type} (t : Table α) : Nat := ((List.range (t.length + 1)).find? fun i => (tfind i t).isNone).getD t.length

/-- An extent cut at an address, where it covers bytes on both sides. -/
def Extent.cutAt (e : Extent) (va : Nat) : List Extent :=
  if e.vbase < va ∧ va < e.vbase + e.units * e.unit then
    let n := (va - e.vbase) / e.unit
    [{ e with units := n }, { e with vbase := va, units := e.units - n, pbase := if e.p then e.pbase + n * e.unit else 0 }]
  else [e]

/-- SHSEL of the extents of a range set or cleared, the table's entries cut and joined as R383 has them (R384). -/
def markShsel (xt : List Extent) (base bytes : Nat) (v : Option Nat) : List Extent :=
  let cut := (xt.flatMap fun e => e.cutAt base).flatMap fun e => e.cutAt (base + bytes)
  mergeExtents (cut.map fun e => if base ≤ e.vbase ∧ e.vbase < base + bytes then { e with shsel := v } else e)

/-- A shadow opened on pages of a die, whose lines first leave the slices: each page's record is copied and shares its batts, and the
task's extents name the shadow, whose number is that of the command (R270, R315, R364, R384; log 39). -/
def State.openShadow (s : State) (id d base bytes invocation : Nat) (pages : List Nat) : State :=
  let s := pages.foldl (fun (s : State) p => s.flushPage d p) s
  let x := s.die d
  let copies : Table ShadowPage := pages.foldl (fun t p =>
    tset p { record := { x.page p with shadow := false }, bytes := x.pageCells p } t) []
  let x' := pages.foldl (fun y p => y.setPage p { y.page p with shadow := true }) x
  let i := freeKey x.shadows
  let s := s.setDie d { x' with shadows := tset i { id, base, bytes, invocation, first := pages.headD 0, pages := copies } x.shadows }
  { s with extents := tset invocation (markShsel (tget [] invocation s.extents) (base % 2 ^ 56) bytes (some i)) s.extents }

/-- `SHOPEN_EFFECT`: the checks of a store (R285 steps 1, 4 and 5), then those of R315; a refusal is posted (R364). -/
def execShopenEffect (core bank index : Nat) (s : State) : Result :=
  event s fun s =>
    match s.commandAt core bank index with
    | none => none
    | some c =>
      match c.ins with
      | .shopen .. =>
        let w := c.who
        let n := (c.ops.headD 0).toNat
        let done := s.endCommand c
        let l := s.parts (tget [] w.invocation s.extents) (n / 4096 + 1) (c.addr % 2 ^ 56) n
        let denied := firstFailing l fun p => p.ext.bind fun x => if x.p ∧ (!x.w ∨ (!w.priv ∧ !x.u)) then some 0x12 else none
        if c.addr / 2 ^ 56 % 16 ≠ 0 then some (done.postFor w 0x12)
        else if l.any fun p => p.ext.isNone then some (done.postFor w 0x11)
        else if denied.isSome then some (done.postFor w 0x12)
        else
          match s.shadowPages l with
          | some (d, pages) =>
            if 64 ≤ (s.die d).shadows.length then some (done.postFor w 0x1D)
            else some (done.openShadow c.id d c.addr n w.invocation pages)
          | none => some (done.postFor w 0x1D)
      | _ => none

/-! ### The commands that write a shadow (R280, R365) -/

/-- Some page of a range of a task lies in an open shadow. -/
def State.rangeMeets (s : State) (key : Nat × Nat) (invocation a n : Nat) : Bool :=
  match tfind key.2 (s.die key.1).shadows with
  | none => false
  | some h =>
    n ≠ 0 && (tget [] invocation s.extents).any fun e =>
      let lo := max e.vbase (a % 2 ^ 56)
      let hi := min (e.vbase + e.units * e.unit) (a % 2 ^ 56 + n)
      decide (lo < hi) && e.p && !e.hm && h.pages.any fun p =>
        match s.locate false (e.pbase + (lo - e.vbase)) with
        | .home d off => d = key.1 && decide (off / 4096 * 4096 < 4096 * (p.1 + 1)) && decide (4096 * p.1 < off + (hi - lo))
        | _ => false

/-- The header at an address of a task, as memory now holds it. -/
def State.headerAt (s : State) (invocation a : Nat) : Header :=
  Header.ofNat (s.readParts (s.parts (tget [] invocation s.extents) 2 (a % 2 ^ 56) 64))

/-- The global ranges that the payload of a header, with its scales and the header itself, covers. -/
def Header.ranges (h : Header) (a : Nat) : List (Nat × Nat) :=
  [(a, 64), (h.addr, max h.cap ((h.rows - 1) * h.pitch + h.rowLen * codeBytes h.fmt)), (h.scales, if h.scales = 0 then 0 else 4 * h.rows * ((h.rowLen + 127) / 128))]

/-- The global ranges that a block writes. -/
def State.blockWrites (s : State) (w : Captured) (b : CopyBlock) : List (Nat × Nat) :=
  match b.kind with
  | 0 | 5 => if b.to = .global then [(b.dst, (b.rows - 1) * b.dpitch + b.len)] else []
  | 1 => if b.to = .global then [(b.dst, (b.aux / 2 ^ 48 % 256) * b.dpitch + 512)] else []
  | 2 | 3 | 4 => if b.to = .global then (s.headerAt w.invocation b.dst).ranges b.dst else []
  | 6 => if b.from = .global then [(b.src, 64)] else []
  | _ => []

/-- The global ranges that a stash command writes. -/
def State.stashWrites (s : State) (d : Nat) (c : StashCmd) : List (Nat × Nat) :=
  let home := match tfind c.key (s.die d).stash with
    | some e => [(e.header, 64), (e.payload, e.len)]
    | none => []
  let pool := ((s.die d).region 0)
  if c.op = 2 then [] else (s.headerAt c.who.invocation c.header).ranges c.header ++ home ++ (if c.op = 0 then [pool] else [])

/-- The global ranges that a bucket writes: OUT (R324). -/
def State.bucketWrites (s : State) (b : Bucket) : List (Nat × Nat) :=
  if b.fixed then [(b.outAddr, 4 * b.count)]
  else
    let x := s.readParts (s.parts (tget [] b.who.invocation s.extents) 2 (b.descAddr % 2 ^ 56) 64)
    [(fieldAt x 8 8, 4 * fieldAt x 16 4)]

/-- The global ranges that a `CKPT` writes: its die's SNPPOOL (R345). -/
def State.recordWrites (s : State) (c : Command) : List (Nat × Nat) :=
  match c.ins with
  | .ckpt .. => [(s.die (dieOf c.who.core)).region 3]
  | _ => []

/-- The global ranges that a migration writes: STAT, and the trailer (R398, R429). -/
def Migration.writes (m : Migration) : List (Nat × Nat) := [(m.stat, 8), (m.trl, if m.trailer then 64 * m.pages.length else 0)]

/-- Some accepted engine command that writes a shadow has not ended (R280, R365). -/
def State.shadowInUse (s : State) (key : Nat × Nat) : Bool :=
  let id := ((tfind key.2 (s.die key.1).shadows).map (·.id)).getD 0
  let meets (w : Captured) (l : List (Nat × Nat)) : Bool :=
    w.shadows.contains (key.1, id) && l.any fun r => s.rangeMeets key w.invocation r.1 r.2
  (s.cores.any fun e => e.2.channels.any fun h => h.2.queue.any fun c => c.blocks.any fun b => meets c.who (s.blockWrites c.who b))
    || (s.dies.any fun e => e.2.stashRunning.any fun c => meets c.who (s.stashWrites e.1 c))
    || (s.buckets.any fun b => meets b.who (s.bucketWrites b))
    || (s.commands.any fun c => meets c.who (s.recordWrites c))
    || s.migrations.any fun m => meets m.who m.writes

/-- Each shadow page becomes the current copy; batts of the replaced copy that are not shared return to FREE, and SHSEL clears (R316,
R384). -/
def State.publishShadow (s : State) (d i : Nat) : State :=
  match tfind i (s.die d).shadows with
  | none => s
  | some h =>
    let s := h.pages.foldl (fun (s : State) e => s.dropLines d e.1) s
    let x := h.pages.foldl (fun (x : Die) e =>
      let old := x.page e.1
      let gone := old.batts.filter fun b => !e.2.record.batts.contains b
      ((x.putCells e.1 e.2.bytes).give gone).setPage e.1 { e.2.record with shadow := false, access := old.access }) (s.die d)
    let s := s.setDie d { x with shadows := tdel i x.shadows }
    let xt := markShsel (tget [] h.invocation s.extents) (h.base % 2 ^ 56) h.bytes none
    ({ s with extents := if (tfind h.invocation s.extents).isSome then tset h.invocation xt s.extents else s.extents }).balloonSettle d

/-- `PUBLISH_EFFECT`: after the older stores of its sequencer and the commands that write the shadow, in a clk in which no access is
under way, with its release before (R272, R280, R316, R365). -/
def execPublishEffect (core bank index : Nat) (s : State) : Result :=
  event s fun s =>
    match s.commandAt core bank index with
    | none => none
    | some c =>
      match c.ins with
      | .publish _ scope =>
        match s.findShadow c.who.invocation c.addr with
        | none => some ((s.endCommand c).postFor c.who 0x1D)
        | some (d, i) =>
          if !s.commandReady c ∨ s.shadowInUse (d, i) ∨ s.midAccess then none
          else some (((s.endCommand c).release core bank scope.toNat).publishShadow d i)
      | _ => none

/-! ## The split of a cluster's SRAM (R236, R237, R367) -/

/-- The lines of a slice of `n` banks that lie in the banks it gives up for `n'`: those that the slice puts there, at most 65,536 in a
bank, and as many more as the banks it keeps have no room for (R6, R237; log 36). -/
def Cluster.converting (k : Cluster) (n n' : Nat) : List (Nat × Line) :=
  let given (e : Nat × Line) : Bool := decide (Config.lineBank n e.1 % n < n - n')
  let mine := k.lines.filter given
  (mine ++ k.lines.filter fun e => !given e).take
    (max (min mine.length (65536 * (n - n'))) (k.lines.length - 65536 * n'))

/-- `SPLIT_ARRIVE`: at the later of issue + 4 and the clk by which the older accesses to cluster memory are performed (R237, R367). -/
def execSplitArrive (core bank index : Nat) (s : State) : Result :=
  event s fun s =>
    match s.commandAt core bank index with
    | none => none
    | some x =>
      match x.ins with
      | .split _ =>
        if s.clk < x.who.issued + 4 ∨ !s.commandReady x then none
        else
          let c := clusterOf core
          let k := s.cluster c
          let new := (x.ops.headD 0).toNat
          let s := s.endCommand x
          if k.split.isSome then some (s.postFor x.who 0x1D)
          else if new = k.banks then some s
          else if k.banks < new then
            let k := { k with split := some ⟨new, s.clk + 64 + 512 * (new - k.banks)⟩,
                              cmem := k.cmem.filter fun b => b.1 < (8 - new) * 2 ^ 23 }
            some (s.setCluster c k)
          else
            let lines := k.converting k.banks new
            let w := lines.countP fun l => l.2.dirty ≠ 0
            let s := lines.foldl (fun (s : State) l => s.evictLine c l.1) s
            some (s.setCluster c { s.cluster c with split := some ⟨new, s.clk + 64 + 512 * (k.banks - new) + 2 * w⟩ })
      | _ => none

/-- `SPLIT_DRAIN_END`: the new limit applies; bytes of a bank that has become cluster memory read zero (R237). -/
def execSplitDrainEnd (cluster : Nat) (s : State) : Result :=
  event s fun s =>
    let k := s.cluster cluster
    match k.split with
    | none => none
    | some x =>
      if s.clk < x.ends then none
      else
        let kept := (8 - max k.banks x.banks) * 2 ^ 23
        some (s.setCluster cluster { k with banks := x.banks, split := none, cmem := k.cmem.filter fun b => b.1 < kept })

/-! ## The balloon engine (R250 to R256) -/

/-- A 16-bit count of CMPCNT from bit `lo` up, saturating (R249). -/
def Die.count (x : Die) (lo : Nat) : Die :=
  if (x.cmpcnt.extractLsb' lo 16).toNat = 65535 then x else { x with cmpcnt := x.cmpcnt + BitVec.ofNat 64 (2 ^ lo) }

/-- `BALLOON_CLAIM`: the next balloon-list entry is claimed, or skipped (R250, R251). -/
def execBalloonClaim (die : Nat) (s : State) : Result :=
  event s fun s =>
    let x := s.die die
    match x.balloonList with
    | [] => none
    | o :: rest =>
      if x.balloon ≠ 1 then none
      else
        let p := o / 4096
        let r := x.page p
        let skip := decide (x.presented ≤ o) || o % 4096 ≠ 0 || r.state ≠ 0 || r.shadow || r.migrating
        if skip then some ((s.setDie die { x with balloonList := rest }).balloonSettle die)
        else if s.clk < x.lastClaim + 64 ∧ x.lastClaim ≠ 0 then none
        else
          let y := ((x.clearPage p).give r.batts).setPage p { r with blocks := [], batts := [], state := 3 }
          let y := { y.count 0 with balloonList := rest, lastClaim := s.clk }
          some (((s.setDie die y).dropLines die p).balloonSettle die)

/-- Batts of the pages that are being evicted. -/
def Die.leaving (x : Die) : Nat := (x.evictions.map fun e => (x.page e.1).batts.length).sum

/-- `EVICTION_START`: the coldest eligible page and the first target frame of the policy (R251, R253, R256). -/
def execEvictionStart (die : Nat) (s : State) : Result :=
  event s fun s =>
    let x := s.die die
    match x.coldest, x.target with
    | some p, some t =>
      if x.balloon = 2 ∧ x.evictions.length < 4 ∧ x.freeCount + x.leaving < x.high + (x.waiters.map (·.need)).sum then
        some (s.setDie die { x with evictions := x.evictions ++ [(p, t, s.clk)], targetList := x.targetList.erase t })
      else none
    | _, _ => none

/-- A page whose eviction goes on: nothing has claimed, shadowed or begun to migrate it (R256, R316). -/
def Page.leaves (r : Page) : Bool := r.state == 0 && !r.shadow && !r.migrating

/-- `EVICTION_COMPLETE`: the page's bytes are in its target frame, FWD and the state are set, its batts free (R256). An eviction of a
page that has meanwhile become ineligible ends without effect, and its frame is free again. -/
def execEvictionComplete (die page : Nat) (s : State) : Result :=
  event s fun s =>
    let x := s.die die
    match x.evictions.find? fun e => e.1 = page with
    | none => none
    | some (_, t, _) =>
      if !(x.page page).leaves then
        some ((s.setDie die { x with evictions := x.evictions.filter fun e => e.1 ≠ page,
                                     targetList := t :: x.targetList }).balloonSettle die)
      else
      let a := (t.extractLsb' 0 52).toNat
      let cells := x.pageCells page
      let r := x.page page
      let put (m : List Host.Cell) : List Host.Cell :=
        cells.foldl (fun m c => mset (a + c.1) c.2 m) (m.filter fun c => c.1 < a ∨ a + 4096 ≤ c.1)
      let toHost := t.getLsbD 63
      let y := ((x.clearPage page).give r.batts).setPage page
        { r with batts := [], state := if toHost then 2 else 1, fwd := a }
      let y := { y.count 16 with evictions := x.evictions.filter fun e => e.1 ≠ page }
      let s := if toHost then (s.setDie die y : State) else s.setDie die { y with lp := put x.lp }
      let s := if toHost then { s with hostMem := put s.hostMem } else s
      some (s.balloonSettle die)

/-- `PAGE_RECALL`: the newest bytes of the page, which its lines first leave the slices with (R251, R256, R270). -/
def execPageRecall (die : Nat) (s : State) : Result :=
  event s fun s =>
    if (s.die die).balloon ≠ 4 then none
    else
      match s.recallable die with
      | none => none
      | some (p, q) =>
        let s := s.flushPage die p
        let x := s.die die
        let r := x.page p
        let image := s.rawRead (.home die (4096 * p)) 4096
        let (l, free) := takeBatts q.needed x.free
        let frame : SReg := BitVec.ofNat 64 (r.fwd + if r.state = 2 then 2 ^ 63 else 0)
        let x := { x with free, targetList := x.targetList ++ [frame], home := mwrite x.home (4096 * p) 4096 image }
        some ((s.setDie die (x.setPage p { q with batts := l, state := 0, fwd := 0 })).balloonSettle die)

/-- `SPACE_ANSWER`: in EXHAUSTED the oldest waiter whose need exceeds FREE is answered with SPACE (R252). -/
def execSpaceAnswer (die : Nat) (s : State) : Result :=
  event s fun s =>
    let x := s.die die
    match x.waiters with
    | [] => none
    | w :: _ =>
      if x.balloon = 3 ∧ x.freeCount < w.need then
        some (((s.setDie die ((x.count 48).release w false)).answerWriter w.who false).balloonSettle die)
      else none

/-- `ACCESS_COUNT_HALVE` (R256). -/
def execAccessCountHalve (die : Nat) (s : State) : Result :=
  event s fun s =>
    let x := s.die die
    if x.halved < s.clk / 2 ^ 20 then
      some (s.setDie die { x with halved := s.clk / 2 ^ 20, pages := x.pages.map fun e => (e.1, { e.2 with access := e.2.access / 2 }) })
    else none

/-! ## Migration (R397, R398, R429) -/

/-- A migration at its position replaced, or ended. -/
def State.setMigration (s : State) (i : Nat) (m : Migration) : State := { s with migrations := s.migrations.set i m }

/-- The home page of a virtual page of a migration, as die and page. -/
def State.homePage (s : State) (m : Migration) (va : Nat) : Option (Nat × Nat) :=
  match s.sourceLoc m va with
  | .home d off => some (d, off / 4096)
  | _ => none

/-- MIGRATING of the source pages set or cleared. -/
def State.markMigrating (s : State) (m : Migration) (on : Bool) : State :=
  m.pages.foldl (fun (s : State) va =>
    match s.homePage m va with
    | some (d, p) => s.setDie d ((s.die d).setPage p { (s.die d).page p with migrating := on })
    | none => s) s

/-- A migration leaves the machine. -/
def State.dropMigration (s : State) (i : Nat) (m : Migration) : State :=
  { s.forgetWriter (.migration m.who.core m.who.bank) with migrations := s.migrations.eraseIdx i }

/-- The end of a migration: STAT written with a release at `.sys`, once its write can be performed (R429). -/
def State.endMigration (s : State) (i : Nat) (m : Migration) (status : Nat) : State :=
  let s := s.release m.who.core m.who.bank 5
  match s.engineWrite (.migration m.who.core m.who.bank) m.who true m.stat 8 status with
  | .value _ t => t.dropMigration i m
  | .fail cause => (s.postFor m.who cause).dropMigration i m
  | .wait t => t.setMigration i { m with pages := [], frames := [], ended := some status }

/-- The 64 bytes of a command: a malformed one has kind 3. -/
def Migration.read (m : Migration) (x : Nat) : Migration :=
  let n := fieldAt x 2 2
  let bad := 3 ≤ fieldAt x 0 1 ∨ 2 ≤ fieldAt x 1 1 ∨ n = 0 ∨ 512 < n ∨ fieldAt x 4 4 ≠ 0 ∨ fieldAt x 40 24 ≠ 0
  { m with kind := if bad then 3 else fieldAt x 0 1, trailer := fieldAt x 1 1 % 2 = 1, npages := n, list := fieldAt x 8 8,
           dest := fieldAt x 16 8, trl := fieldAt x 24 8, stat := fieldAt x 32 8, known := true }

/-- A command that is known, with its pages and frames; one of which a list cannot be read is refused. -/
def State.readLists (s : State) (m : Migration) : Migration ⊕ State :=
  let who := Writer.migration m.who.core m.who.bank
  if m.kind = 3 then .inl { m with taken := true }
  else
    match s.engineRead who m.who m.list (8 * m.npages) with
    | .wait s => .inr s
    | .fail _ => .inl { m with kind := 3, taken := true }
    | .value l t =>
      let pages := unpack 64 m.npages l
      if m.kind = 0 then
        let member := m.dest % 64
        let die := m.dest / 64 % 4
        let frame (va : Nat) : Nat :=
          match s.homePage m va with
          | some (d, p) => member * 2 ^ 46 + die * 2 ^ 44 + Config.migrationFrame member die d p / 4096 * 4096
          | none => 0
        .inl { m with pages, frames := pages.map frame, taken := true }
      else
        match t.engineRead who m.who m.dest (8 * m.npages) with
        | .wait t => .inr (t.uncounted s)
        | .fail _ => .inl { m with kind := 3, taken := true }
        | .value f _ => .inl { m with pages, frames := unpack 64 m.npages f, taken := true }

/-- The command as read: a migration with its pages and frames, or none where it cannot be read; what is known of it is kept while a list
is waited for (R429). -/
def State.readMigration (s : State) (i : Nat) (m : Migration) : Option Migration ⊕ State :=
  if m.known then
    match s.readLists m with
    | .inl m' => .inl (some m')
    | .inr t => .inr t
  else
    match s.engineRead (.migration m.who.core m.who.bank) m.who m.addr 64 with
    | .wait s => .inr s
    | .fail _ => .inl none
    | .value x t =>
      match t.readLists (m.read x) with
      | .inl m' => .inl (some m')
      | .inr t => .inr (t.setMigration i (m.read x))

/-- A page that a migration refuses: it is shadowed, already migrating or not home memory (R429). -/
def State.migrationRefused (s : State) (m : Migration) : Bool :=
  let bad (p : Option (Nat × Nat)) : Bool := match p with
    | some (d, p) => ((s.die d).page p).shadow || ((s.die d).page p).migrating
    | none => true
  let home (f : Nat) : Option (Nat × Nat) := match s.locate false f with
    | .home d off => some (d, off / 4096)
    | _ => none
  m.kind = 3 || m.pages.any (· % 4096 ≠ 0) || m.frames.any (· % 4096 ≠ 0)
    || (if m.kind = 2 then m.frames.any fun f => bad (home f) else m.pages.any fun va => bad (s.homePage m va))

/-- Some page is mapped with TG = 1 and the command carries no trailer (R398). -/
def State.migrationTagged (s : State) (m : Migration) : Bool :=
  m.kind = 1 && !m.trailer && m.pages.any fun va =>
    (findExtent (tget [] m.who.invocation s.extents) (va % 2 ^ 56)).any fun (e : Extent) => e.tg

/-- Where a page of a migration moves to. -/
def Migration.target (m : Migration) (s : State) (frame : Nat) : Loc :=
  match m.kind with
  | 1 => .host frame
  | _ => s.locate false frame

/-- The 4 KiB of a source page, newest bytes. -/
def State.sourcePage (s : State) (m : Migration) (va : Nat) : Nat × State :=
  let l := s.sourceLoc m va
  let s := match l with
    | .home d off => s.flushPage d (off / 4096)
    | _ => s
  (s.rawRead l 4096, s)

/-- Every block copied to its frame; a copy into home memory takes its batts, or waits for them. -/
def State.copyPages (s : State) (m : Migration) : State ⊕ (Nat × Nat) :=
  (m.pages.zip m.frames).foldl (fun (acc : State ⊕ (Nat × Nat)) (va, f) =>
    match acc with
    | .inr e => .inr e
    | .inl s =>
      let (x, s) := s.sourcePage m va
      let l := m.target s f
      let t := s.rawWrite l 4096 x
      match l with
      | .home d off => account s t (.migration m.who.core m.who.bank) [⟨d, off / 4096, off, 4096, true⟩]
      | _ => .inl t) (.inl s)

/-- Blocks whose source differs from the copy. -/
def State.dirtyBlocks (s : State) (m : Migration) : Nat :=
  ((m.pages.zip m.frames).map fun (va, f) =>
    let x := (s.sourcePage m va).1
    let y := s.rawRead (m.target s f) 4096
    (List.range 16).countP fun b => x / 256 ^ (256 * b) % 256 ^ 256 ≠ y / 256 ^ (256 * b) % 256 ^ 256).sum

/-- The tags of a page as a trailer's 64 bytes, and a page with the tags of one (R398). -/
def Page.trailer (p : Page) : Nat := p.tags.toNat
def Page.withTrailer (p : Page) (x : Nat) : Page := { p with tags := BitVec.ofNat 512 x }

/-- Block maps and tags moved with the pages: to the frames of a peer device, the tags written to the trailer, or taken from it into home
memory (R397, R398). -/
def State.moveTags (s : State) (m : Migration) : Got :=
  let who := Writer.migration m.who.core m.who.bank
  (m.pages.zip m.frames).zipIdx.foldl (fun (acc : Got) (e, i) =>
    match acc with
    | .value _ s =>
      if m.kind = 1 ∧ m.trailer then
        match s.homePage m e.1 with
        | some (d, p) => s.engineWrite who m.who true ((m.trl + 64 * i) % 2 ^ 64) 64 ((s.die d).page p).trailer
        | none => .value 0 s
      else if m.kind = 0 then
        match s.homePage m e.1 with
        | some (d, p) =>
          let s : State := match s.locate false e.2 with
            | .other a => { s with otherMaps := tset a ((s.die d).page p).blocks s.otherMaps }
            | _ => s
          .value 0 ((List.range 128).foldl (fun (s : State) g =>
            s.putTag ((s.locate false e.2).add (32 * g)) (((s.die d).page p).tag g).toNat) s)
        | none => .value 0 s
      else if m.kind = 2 then
        match s.locate false e.2 with
        | .home d off =>
          let put (s : State) (x : Nat) : Got :=
            .value 0 (s.setDie d ((s.die d).setPage (off / 4096) (((s.die d).page (off / 4096)).withTrailer x)))
          if m.trailer then
            match s.engineRead who m.who ((m.trl + 64 * i) % 2 ^ 64) 64 with
            | .value x s => put s x
            | o => o
          else put s 0
        | _ => .value 0 s
      else .value 0 s
    | o => o) (.value 0 s)

/-- The destination of a page becomes current: a table of the partition that still names the source is read as naming it (R397; log 23). -/
def State.makeCurrent (s : State) (m : Migration) (va frame : Nat) : State :=
  let root := s.tableRoot m.who.partition
  let va := va % 2 ^ 56
  match s.walkPage root va with
  | .page e ats _ =>
    if ats ∨ s.locate e.hm e.pbase = s.sourceLoc m va then
      { s with moved := s.moved.filter (fun p => !(p.root = root && p.va = va))
                 ++ [{ root, va, source := e.pbase, hm := decide (m.kind = 1), frame }] }
    else s
  | _ => s

/-- The switch: the destination becomes current, the source's extents are revoked and its pages give their batts back (R397). -/
def State.switchPages (s : State) (m : Migration) : State :=
  let s := (m.pages.zip m.frames).foldl (fun (s : State) e => s.makeCurrent m e.1 e.2) s
  let homes := m.pages.filterMap fun va => s.homePage m va
  let s := m.pages.foldl (fun (s : State) va => s.revokeIn (fun v => v.partition = m.who.partition) (va % 2 ^ 56) 4096) s
  if m.kind = 2 then s
  else
    homes.foldl (fun (s : State) (d, p) =>
      let s := s.dropLines d p
      let x := s.die d
      let r := x.page p
      let x := if r.state = 1 ∨ r.state = 2 then
          { x with targetList := x.targetList ++ [BitVec.ofNat 64 (r.fwd + if r.state = 2 then 2 ^ 63 else 0)] }
        else x
      s.setDie d (((x.clearPage p).give r.batts).setPage p
        { r with blocks := [], batts := [], tags := 0, migrating := false, state := 0, fwd := 0 })) s

/-- `MIGRATION_PASS` (R397, R398, R429); the switch comes while no access of a core is in progress, so that none returns bytes of both
copies. -/
def execMigrationPass (index : Nat) (noSpace : Bool) (s : State) : Result :=
  event s fun s =>
    match s.migrations[index]? with
    | none => none
    | some m =>
      let who := Writer.migration m.who.core m.who.bank
      match s.standing who with
      | .waiting => none
      | .failed cause =>
        if m.ended.isSome then some ((s.postFor m.who cause).dropMigration index m)
        else if !m.known then some ((s.postFor m.who 0x1D).dropMigration index m)
        else if cause = 0x14 then some ((s.markMigrating m false).endMigration index m 2)
        else some ((s.markMigrating m false).endMigration index m 4)
      | .free =>
        if let some status := m.ended then some (s.endMigration index m status)
        else if !m.taken then
          match s.readMigration index m with
          | .inr t => some t
          | .inl none => some { (s.postFor m.who 0x1D) with migrations := s.migrations.eraseIdx index }
          | .inl (some m') =>
            if s.migrationRefused m' then some (s.endMigration index m' 4)
            else if s.migrationTagged m' then some (s.endMigration index m' 3)
            else some ((if m'.kind = 2 then s else s.markMigrating m' true).setMigration index m')
        else if noSpace ∧ m.kind = 0 then some ((s.markMigrating m false).endMigration index m 2)
        else
          let d := s.dirtyBlocks m
          if 1 ≤ m.pass ∧ !m.final ∧ (d < 256 ∨ 8 ≤ m.pass) then some (s.setMigration index { m with final := true })
          else if m.final ∧ s.midAccess then none
          else
            match s.copyPages m with
            | .inr (d, need) => some (s.engineWaitBatts who d need)
            | .inl t =>
              if !m.final then some (t.setMigration index { m with pass := m.pass + 1 })
              else
                match t.moveTags m with
                | .value _ t => some ((t.switchPages m).endMigration index m 1)
                | .wait t => some (t.uncounted s)
                | .fail _ => some ((s.markMigrating m false).endMigration index m 4)

end Sys2Proof.Machine
end

