-- ==== Sys2Proof/Machine/FaultEvents.lean ====
section
/-! DEFINITION. The answers to page faults (R387 to R390, spec/20), ATS invalidations (R391), the teardown of a PASID (R393,
R394), and the stop of the banks and engine commands of tasks (R314, R393, R455). -/

namespace Sys2Proof.Machine

/-! ## Faults that wait for an answer (R387) -/

/-- A fault on a page: who waits, the invocation, the page, the cause, and whether the access writes. -/
structure PendingFault where
  who : Writer
  invocation : Nat
  page : Nat
  cause : Nat
  write : Bool
deriving DecidableEq, Repr

/-- The fault of a bank, unless it waits for batts, has been answered, or a pre-emption has stopped the bank (R407). -/
def State.bankFault (s : State) (c b : Nat) : Option PendingFault :=
  let k := s.bank c b
  match k.fault, k.task with
  | some f, some t =>
    if f.cause = 0x32 ∨ f.answered ∨ k.stopped then none
    else
      some ⟨.bank c b, t.invocation, s.faultPage (tget [] t.invocation s.extents) f.addr f.bytes, f.cause, f.write⟩
  | _, _ => none

/-- The die whose control core sees an engine's fault. -/
def Writer.die : Writer → Nat
  | .bank c _ | .copy c _ | .ckpt c _ | .migration c _ => dieOf c
  | .stash d _ => d
  | .slice k => dieOfCluster k
  | .channel _ | .deposit _ | .host | .collective .. | .walker | .load .. | .fill => 0

/-- Every fault that waits for the driver, the host or a new walk. -/
def State.pendingFaults (s : State) : List PendingFault :=
  (s.cores.flatMap fun e => (s.bankFault e.1 0).toList ++ (s.bankFault e.1 1).toList)
    ++ (s.engineWaits.filter fun w => w.verdict.isNone).map fun w => ⟨w.who, w.invocation, w.page, w.cause, w.write⟩

/-- PASID of an invocation. -/
def State.pasidOf (s : State) (id : Nat) : Nat := ((tfind id s.invocations).map (·.pasid)).getD 0

/-- The cause with which an engine fails whose page request is refused: R313 and R387 name different ones (log 19). -/
def EngineWait.refusal (w : EngineWait) : Nat := if Config.engineNamesPage then w.cause else 0x12

/-- The answer to one fault (R313, R387): on failure a bank takes `PROTECTION`, and an engine fails (log 19). -/
def State.answerFault (s : State) (f : PendingFault) (ok : Bool) : State :=
  match f.who with
  | .bank c b => s.answerBank c b ok 0x12
  | who =>
    if ok then s.clearWait who
    else { s with engineWaits := s.engineWaits.map fun w => if w.who = who then { w with verdict := some w.refusal } else w }

/-- A revoked page that is found absent continues as `NOT_PRESENT` (R387). -/
def State.continueAbsent (s : State) (f : PendingFault) : State :=
  match f.who with
  | .bank c b =>
    let k := s.bank c b
    s.setBank c b { k with fault := k.fault.map fun (x : RestartFault) => { x with cause := 0x30 } }
  | who => { s with engineWaits := s.engineWaits.map fun w => if w.who = who then { w with cause := 0x30 } else w }

/-- Whether the extent of a page is present after a walk. -/
def State.pagePresent (s : State) (id page : Nat) : Bool :=
  (findExtent (tget [] id s.extents) page).any fun e => e.p && !e.rvk

/-- The translation of a host page is asked for, unless that of its PASID is under way (R387, R390). -/
def State.askTranslation (s : State) (f : PendingFault) : State :=
  let pasid := s.pasidOf f.invocation
  if s.faults.any fun r => r.host && r.granted && r.pasid = pasid && r.page = f.page && (r.write || !f.write) then s
  else
    { s with faults := s.faults ++ [{ invocation := f.invocation, pasid, page := f.page, write := f.write, host := true,
                                      group := some s.nextGroup, granted := true }],
             nextGroup := s.nextGroup + 1, sent := s.sent ++ [Flit.atsRequest pasid f.page] }

/-- One fault answered by a new walk of its page with the ATS translations given; where none is given yet and the walk finds a page whose
translation the host gives, it is asked for and the fault waits (R379, R387, R388). -/
def State.walkAnswer (s : State) (f : PendingFault) (ats : Option (List (Nat × Nat × Bool))) : State :=
  match s.rewalk f.invocation f.page (ats.getD []) with
  | none => s.answerFault f false
  | some t =>
    if ats.isNone ∧ t.isHostPage f.invocation f.page then t.askTranslation f
    else if f.cause = 0x31 ∧ !t.pagePresent f.invocation f.page then t.continueAbsent f
    else t.answerFault f true

/-- The faults that a record's answer answers: of its task's page, or of its PASID's host page; a write is not answered by a request
that asked only to read (R387, R389). -/
def State.joined (s : State) (r : FaultRecord) : List PendingFault :=
  s.pendingFaults.filter fun f =>
    f.page = r.page && (if r.host then
        s.pasidOf f.invocation = r.pasid && (r.write || !f.write) && s.isHostPage f.invocation f.page
      else f.invocation = r.invocation)

/-- Records answered with failure. -/
def State.failRecords (s : State) (l : List FaultRecord) : State :=
  let s := { s with faults := s.faults.filter fun r => !l.contains r }
  l.foldl (fun (s : State) r => (s.joined r).foldl (fun (s : State) f => s.answerFault f false) s) s

/-! ## A polling slot (R388 to R390) -/

/-- A record of a host page enters the list; one of its page that has not been requested takes its write (R389). -/
def addRecord (r : FaultRecord) (l : List FaultRecord) : List FaultRecord :=
  let mine (x : FaultRecord) : Bool := x.host && x.pasid = r.pasid && x.page = r.page && x.group.isNone
  if l.any mine then l.map fun x => if mine x then { x with write := x.write || r.write } else x else l ++ [r]

/-- One fault as a polling slot finds it: a revoked page is walked again or its translation asked for; an absent page enters a
record, and that of device memory goes to the driver. -/
def State.noteFault (s : State) (f : PendingFault) : State :=
  let pasid := s.pasidOf f.invocation
  if s.downPasids.contains pasid then s
  else
    let host := s.isHostPage f.invocation f.page
    let known := s.faults.any fun r =>
      r.page = f.page && r.host == host
        && (if host then r.pasid = pasid && (r.write || !f.write) && (r.granted || f.cause = 0x30) else r.invocation = f.invocation)
    if f.cause = 0x31 ∧ !host then s.walkAnswer f none
    else if known then s
    else
      let r : FaultRecord := { invocation := f.invocation, pasid, page := f.page, write := f.write, host }
      if !host then
        let write := s.pendingFaults.any fun g => g.invocation = f.invocation && g.page = f.page && g.write
        { s with faults := s.faults ++ [{ r with write }] }.adminEvent 388 [f.invocation, f.page, write.toNat]
      else if f.cause = 0x31 then s.askTranslation f
      else { s with faults := addRecord r s.faults }

/-- Page requests outstanding, and their groups. -/
def State.requested (s : State) : List FaultRecord := s.faults.filter fun r => r.host && r.group.isSome && !r.granted

/-- A page-request group of a PASID from its waiting records, cut to 32 and to the host's allocation (R389, R390). -/
def State.formGroup (s : State) (pasid : Nat) : State :=
  let out := s.requested
  let waiting := s.faults.filter fun r => r.host && r.group.isNone && r.pasid = pasid
  let l := waiting.take (min 32 (s.priAllocation - out.length))
  if l.isEmpty ∨ !s.priEnabled ∨ s.downPasids.contains pasid ∨ 512 ≤ (out.filterMap (·.group)).eraseDups.length then s
  else
    let g := s.nextGroup
    { s with faults := s.faults.map fun r => if l.contains r then { r with group := some g } else r, nextGroup := g + 1,
             sent := s.sent ++ l.zipIdx.map fun (r, i) => Flit.pageRequest g r.page r.write (i + 1 = l.length) }

/-- The faults of a die in a polling slot of its control core; that of die 0 forms the groups of all four dies. -/
def State.pollFaults (s : State) (d : Nat) : State :=
  let s := (s.pendingFaults.filter fun f => f.who.die = d).foldl (fun (s : State) f => s.noteFault f) s
  if d = 0 then
    ((s.faults.filter fun r => r.host ∧ r.group.isNone).map (·.pasid)).eraseDups.foldl (fun (s : State) p => s.formGroup p) s
  else s

/-! ## Answers from the host and the driver -/

/-- `PRG_RESPONSE`: code 0 Success, 1 Invalid Request, any other Response Failure (R390); one for a PASID torn down is discarded
(R393). -/
def execPrgResponse (group code : Nat) (s : State) : Result :=
  event s fun s =>
    let mine := s.requested.filter fun r => r.group = some group
    match mine with
    | [] => none
    | r :: _ =>
      if s.downPasids.contains r.pasid then some { s with faults := s.faults.filter fun r => !mine.contains r }
      else if code = 0 then
        some { s with faults := s.faults.map fun r => if mine.contains r then { r with granted := true } else r,
                      sent := s.sent ++ mine.map fun r => Flit.atsRequest r.pasid r.page }
      else if code = 1 then some (s.failRecords mine)
      else some { s.failRecords s.requested with priEnabled := false }

/-- `ATS_TRANSLATION_RETURN`: the pages' extents are formed and their faults answered (R387, R390). -/
def execAtsTranslationReturn (group : Nat) (pages : List (Nat × Nat × Bool)) (s : State) : Result :=
  event s fun s =>
    let mine := s.faults.filter fun r => r.host && r.granted && r.group = some group
    if mine.isEmpty then none
    else
      let t := { s with faults := s.faults.filter fun r => !mine.contains r }
      if mine.any fun r => s.downPasids.contains r.pasid then some t
      else some (mine.foldl (fun (t : State) r => (t.joined r).foldl (fun (t : State) f => t.walkAnswer f (some pages)) t) t)

/-- `PRI_REENABLE`: page requests may be sent again, within the allocation (R390). -/
def execPriReenable (allocation : Nat) (s : State) : Result :=
  event s fun s => some { s with priEnabled := true, priAllocation := allocation }

/-- The invalidations whose accesses have ended are completed (R391). -/
def State.settleInvalidations (s : State) : State :=
  let busy := s.underWay
  let (open', done) := s.invalidations.partition fun v => v.2.any busy.contains
  { s with invalidations := open', sent := s.sent ++ done.map fun v => Flit.invalidationDone v.1 }

/-- `ATS_INVALIDATION`: RVK in every overlapping extent of the PASID in this clk, and the completion once no access that has
passed its checks is unfinished (R391). -/
def execAtsInvalidation (pasid base len tag : Nat) (s : State) : Result :=
  event s fun s =>
    let s := s.revokeIn (fun v => v.pasid = pasid) base len
    some { s with invalidations := s.invalidations ++ [(tag, s.underWay)] }.settleInvalidations

/-- A field of a command whose layout the spec does not give (log 22). -/
def State.field (s : State) (e : JournalEntry) (n : Nat) : Nat :=
  (Config.commandField (e.arg 0 1) e.body (s.extended e) n).headD 0

/-- `PAGEANS`: task, page and outcome, fields 0 to 2, the outcome 0 for success (R388; log 22). -/
def execPageans (queue seq : Nat) (s : State) : Result :=
  event s fun s =>
    match s.commandNext 0x09 queue seq with
    | none => none
    | some e =>
      let id := s.field e 0
      let page := s.field e 1 / 4096 * 4096
      let ok := s.field e 2 = 0
      let r : FaultRecord := { invocation := id, pasid := s.pasidOf id, page, write := true, host := false }
      let t := (s.markDispatched queue seq)
      let t := { t with faults := t.faults.filter fun x => !(x.invocation = id && x.page = page && !x.host) }
      let t := (t.joined r).foldl (fun (t : State) f => if ok then t.walkAnswer f none else t.answerFault f false) t
      some (t.complete queue seq 0 0)

/-! ## Stopping work -/

/-- A stash command of a number stops: its phase fails; the entry of one that runs is left as by a failure, that of one that has only
begun as it was; its number leaves the queue of its core (R314, R336). -/
def State.stopStash (s : State) (d id : Nat) : State :=
  match (s.die d).stashRunning.find? fun c => c.id = id with
  | none => s
  | some c =>
    let s := if c.begun then (s.forgetWriter (.stash d c.key)) else s
    let s :=
      if c.running then
        match tfind c.key (s.die d).stash with
        | some e => s.setStash d c.key { e with state := if c.op = 0 then 1 else c.prev, err := 0x1D }
        | none => s
      else if c.begun then s.restoreStash d c
      else s
    let s := s.stashError c 0x1D
    let s := s.setDie d { s.die d with stashRunning := (s.die d).stashRunning.filter fun x => x.id ≠ id }
    { s with cores := s.cores.map fun e => (e.1, { e.2 with stashQueue := e.2.stashQueue.filter (· ≠ id) }) }

/-- The engine commands a test selects stop as under R314. -/
def State.stopEngines (s : State) (which : Captured → Bool) : State :=
  let s := s.cores.foldl (fun (s : State) e =>
    (List.range 4).foldl (fun (s : State) n => s.abortCommands e.1 n which) s) s
  let s := s.dies.foldl (fun (s : State) e =>
    let gone := e.2.stashRunning.filter fun c => which c.who
    let s := gone.foldl (fun (s : State) c => s.stopStash e.1 c.id) s
    ((gone.map (·.key)).eraseDups).foldl (fun (s : State) key => s.settleKey e.1 key ((s.die e.1).stashRunning.length + 1)) s) s
  let s := { s with commands := s.commands.filter fun c => !which c.who }
  let s := s.tensors.foldl (fun (s : State) e =>
    (e.2.sq.filter fun p => which p.who).foldl (fun (s : State) p =>
      match (s.tensor e.1).sq.idxOf? p with
      | some i => s.failPacket e.1 i p 0x1D
      | none => s) s) s
  let s := (s.buckets.filter fun b => which b.who).foldl (fun (s : State) b =>
    match s.buckets.idxOf? b with
    | some i => s.failBucket i b 0x1D
    | none => s) s
  (s.migrations.filter fun m => which m.who).foldl (fun (s : State) m =>
    let t := (s.markMigrating m false).forgetWriter (.migration m.who.core m.who.bank)
    { t with migrations := s.migrations.erase m }) s

/-- A bank is halted at its bundle boundary and discarded, its faults and its place in the queues with it (R393). -/
def State.discardBank (s : State) (c b : Nat) : State :=
  let s := s.forgetWriter (.bank c b)
  let s := { s with queues := s.queues.map fun (q : Nat × WorkQueue) =>
      (q.1, { q.2 with waiters := q.2.waiters.erase (c, b), bound := q.2.bound.filter fun e => !(e.1 = c && e.2.1 = b) }) }
  let x := s.core c
  let y := x.setBank b {}
  let s := s.setCore c { y with drain := x.drain.filter fun d => d.bank ≠ b }
  if x.active = b then s.handOver c b else s

/-- The banks whose task a test selects are discarded, those in shadow storage with them. -/
def State.discardTasks (s : State) (which : Task → Bool) : State :=
  let s := { s with clusters := s.clusters.map fun (e : Nat × Cluster) =>
      (e.1, { e.2 with shadow := e.2.shadow.filter fun x => !x.2.2.task.any which }) }
  s.cores.foldl (fun (s : State) e =>
    [0, 1].foldl (fun (s : State) b => if (s.bank e.1 b).task.any which then s.discardBank e.1 b else s) s) s

/-- Invocations that a test selects have ended, without a completion of their own. -/
def State.endInvocations (s : State) (which : Nat → Bool) : State :=
  { s with invocations := s.invocations.map fun (i, v) =>
      (i, if which i then { (v : Invocation) with workers := [], running := false, walking := false } else v) }

/-- A command's one completion, with a status, on a queue that need not be its own; one that is held gives way (R393, R455). -/
def State.cancelEntry (s : State) (e : JournalEntry) (onQueue status : Nat) : State :=
  let x := s.hostQueue e.queue
  let s := s.setHostQueue e.queue { x with heldCpl := x.heldCpl.filter fun h => h.source ≠ some e.queue || h.seq ≠ e.seq }
  s.postCompletion onQueue ⟨e.arg 8 8, e.seq, status, 0, some e.queue⟩

/-! ## Teardown (R393) -/

/-- `PASIDDOWN`: steps 1 and 2; records of the PASID that have not been requested never are. -/
def execPasiddown (queue seq : Nat) (s : State) : Result :=
  event s fun s =>
    match s.commandNext 0x0A queue seq with
    | none => none
    | some e =>
      let p := e.arg 24 4
      let s := s.markDispatched queue seq
      let t : Teardown := { pasid := p, since := s.clk, queue, seq, cid := e.arg 8 8 }
      let queues : Table HostQueue := s.hostQueues.map fun (e : Nat × HostQueue) =>
        (e.1, if e.1 ≠ 0 ∧ e.2.pasid = p then { e.2 with stopped := true } else e.2)
      let waits (r : FaultRecord) : Bool := r.host && r.pasid = p && r.group.isNone
      let s := { s with hostQueues := queues, downPasids := p :: s.downPasids.filter (· ≠ p), teardowns := s.teardowns ++ [t],
                        faults := s.faults.filter fun r => !waits r }
      some (s.send (.stopMarker p))

/-- Steps 4 and 5, and the report. -/
def State.endTeardown (s : State) (t : Teardown) : State :=
  let ids := (s.invocations.filter fun e => e.2.pasid = t.pasid).map (·.1)
  let s := { s with faults := s.faults.filter fun r => r.pasid ≠ t.pasid }
  let s := s.stopEngines fun w => ids.contains w.invocation
  let s := s.discardTasks fun k => k.pasid = t.pasid
  let s := s.endInvocations ids.contains
  let s := { s with engineWaits := s.engineWaits.filter fun w => !ids.contains w.invocation }
  let s := (s.journal.filter fun e => e.queue ≠ 0 ∧ e.state ≠ 3 ∧ (s.hostQueue e.queue).pasid = t.pasid).foldl
    (fun (s : State) e => s.cancelEntry e 0 4) s
  let s := { s with extents := s.extents.filter fun e => !ids.contains e.1,
                    cores := s.cores.map fun (x : Nat × Core) => (x.1, { x.2 with tlb := x.2.tlb.filter fun e => !ids.contains e.1 }),
                    teardowns := s.teardowns.erase t, downPasids := s.downPasids.filter (· ≠ t.pasid) }
  (s.adminEvent 393 [t.pasid]).complete t.queue t.seq 0 0

/-- A page request or a translation request of a PASID is outstanding (R393). -/
def State.outstanding (s : State) (pasid : Nat) : Bool :=
  (s.faults.any fun r => r.host && r.pasid = pasid && r.group.isSome)
    || s.invocations.any fun e => e.2.pasid = pasid && e.2.walking && !e.2.asked.isEmpty

/-- `TEARDOWN_CANCEL`: every request of the PASID has ended. -/
def execTeardownCancel (pasid : Nat) (s : State) : Result :=
  event s fun s =>
    match s.teardowns.find? fun t => t.pasid = pasid with
    | none => none
    | some t => if s.outstanding pasid then none else some (s.endTeardown t)

/-- `TEARDOWN_TIMEOUT`: what is still outstanding is dropped. -/
def execTeardownTimeout (pasid : Nat) (s : State) : Result :=
  event s fun s =>
    match s.teardowns.find? fun t => t.pasid = pasid with
    | none => none
    | some t => if t.since + s.regs.teardown ≤ s.clk then some (s.endTeardown t) else none

end Sys2Proof.Machine
end

