-- ==== Sys2Proof/Machine/Sha.lean ====
section
/-! DEFINITION. SHA-256, the digest of images, snapshot sets and measurements (R67, spec/03; R454, spec/24; R475, spec/25), as
FIPS 180-4 gives it. -/

namespace Sys2Proof.Machine

/-- The first 32 bits of the fractional parts of the cube roots of the first 64 primes. -/
def shaConstants : List (BitVec 32) :=
  [0x428A2F98, 0x71374491, 0xB5C0FBCF, 0xE9B5DBA5, 0x3956C25B, 0x59F111F1, 0x923F82A4, 0xAB1C5ED5,
   0xD807AA98, 0x12835B01, 0x243185BE, 0x550C7DC3, 0x72BE5D74, 0x80DEB1FE, 0x9BDC06A7, 0xC19BF174,
   0xE49B69C1, 0xEFBE4786, 0x0FC19DC6, 0x240CA1CC, 0x2DE92C6F, 0x4A7484AA, 0x5CB0A9DC, 0x76F988DA,
   0x983E5152, 0xA831C66D, 0xB00327C8, 0xBF597FC7, 0xC6E00BF3, 0xD5A79147, 0x06CA6351, 0x14292967,
   0x27B70A85, 0x2E1B2138, 0x4D2C6DFC, 0x53380D13, 0x650A7354, 0x766A0ABB, 0x81C2C92E, 0x92722C85,
   0xA2BFE8A1, 0xA81A664B, 0xC24B8B70, 0xC76C51A3, 0xD192E819, 0xD6990624, 0xF40E3585, 0x106AA070,
   0x19A4C116, 0x1E376C08, 0x2748774C, 0x34B0BCB5, 0x391C0CB3, 0x4ED8AA4A, 0x5B9CCA4F, 0x682E6FF3,
   0x748F82EE, 0x78A5636F, 0x84C87814, 0x8CC70208, 0x90BEFFFA, 0xA4506CEB, 0xBEF9A3F7, 0xC67178F2]

/-- The first 32 bits of the fractional parts of the square roots of the first eight primes. -/
def shaStart : List (BitVec 32) :=
  [0x6A09E667, 0xBB67AE85, 0x3C6EF372, 0xA54FF53A, 0x510E527F, 0x9B05688C, 0x1F83D9AB, 0x5BE0CD19]

/-- A message padded to a multiple of 64 bytes: 0x80, zeros, the length in bits, most significant byte first. -/
def shaPad (l : List Byte) : List Byte :=
  let zeros := (119 - l.length % 64) % 64
  l ++ [0x80] ++ List.replicate zeros 0 ++ (List.range 8).map fun i => BitVec.ofNat 8 (8 * l.length / 256 ^ (7 - i))

/-- The next word of a message schedule, from the words so far, the latest first. -/
def shaExtend (w : List (BitVec 32)) : BitVec 32 :=
  let at' (i : Nat) : BitVec 32 := (w[i - 1]?).getD 0
  let s0 := (at' 15).rotateRight 7 ^^^ (at' 15).rotateRight 18 ^^^ (at' 15 >>> 3)
  let s1 := (at' 2).rotateRight 17 ^^^ (at' 2).rotateRight 19 ^^^ (at' 2 >>> 10)
  at' 16 + s0 + at' 7 + s1

/-- A schedule with `n` more words, the latest first. -/
def shaSchedule : Nat → List (BitVec 32) → List (BitVec 32)
  | 0, w => w
  | n + 1, w => shaSchedule n (shaExtend w :: w)

/-- One round. -/
def shaRound (h : List (BitVec 32)) (k w : BitVec 32) : List (BitVec 32) :=
  match h with
  | [a, b, c, d, e, f, g, i] =>
    let s1 := e.rotateRight 6 ^^^ e.rotateRight 11 ^^^ e.rotateRight 25
    let ch := (e &&& f) ^^^ (~~~e &&& g)
    let t1 := i + s1 + ch + k + w
    let s0 := a.rotateRight 2 ^^^ a.rotateRight 13 ^^^ a.rotateRight 22
    let maj := (a &&& b) ^^^ (a &&& c) ^^^ (b &&& c)
    [t1 + (s0 + maj), a, b, c, d + t1, e, f, g]
  | _ => h

/-- One block of 64 bytes. -/
def shaBlock (h : List (BitVec 32)) (block : List Byte) : List (BitVec 32) :=
  let word (i : Nat) : BitVec 32 :=
    (List.range 4).foldl (fun (x : BitVec 32) j => x <<< 8 ||| ((block[4 * i + j]?).getD 0).setWidth 32) 0
  let w := (shaSchedule 48 ((List.range 16).map word).reverse).reverse
  let r := (shaConstants.zip w).foldl (fun h (k, x) => shaRound h k x) h
  (h.zip r).map fun (x, y) => x + y

/-- `n` blocks of a padded message. -/
def shaBlocks : Nat → List Byte → List (BitVec 32) → List (BitVec 32)
  | 0, _, h => h
  | n + 1, l, h => shaBlocks n (l.drop 64) (shaBlock h (l.take 64))

/-- The digest as 32 bytes. -/
def sha256 (l : List Byte) : List Byte :=
  let p := shaPad l
  (shaBlocks (p.length / 64) p shaStart).flatMap fun (x : BitVec 32) =>
    (List.range 4).map fun i => (x >>> (8 * (3 - i))).setWidth 8

end Sys2Proof.Machine
end

