-- ==== Sys2Proof/Machine/ImageEvents.lean ====
section
/-! DEFINITION. Program images and resident model slots (R66 to R71, R486, spec/03; R187, R188, R200, R201, R210, spec/09): the
commands `LOAD`, `UNLOAD` and `VERSION` (R467, spec/25). -/

namespace Sys2Proof.Machine

/-- A section of an image: its type, its bytes as a number and their count. -/
structure Section where
  type : Nat
  size : Nat
  body : Nat
deriving DecidableEq, Repr

/-- A section of a type. -/
def sectionOf (l : List Section) (t : Nat) : Option Section := l.find? fun x => x.type = t
/-- Bytes of a section, none where it is absent. -/
def sizeOf' (l : List Section) (t : Nat) : Nat := ((sectionOf l t).map (·.size)).getD 0
/-- Contents of a section. -/
def bodyOf (l : List Section) (t : Nat) : Nat := ((sectionOf l t).map (·.body)).getD 0

/-- The records of `n` bytes of a section; bytes after the last whole record are dropped (log 27). -/
def recordsOf (l : List Section) (t n : Nat) : List Nat := (List.range (sizeOf' l t / n)).map fun i => fieldAt (bodyOf l t) (n * i) n

/-! ## The directory (R67, R68) -/

/-- The sections of an image, or none where a reserved field is set, a section is missing, doubled or outside the image, its type
or its offset is out of range, or the directory is empty, too long or not within the image (log 27). -/
def sectionsOf (x len : Nat) : Option (List Section) :=
  let n := fieldAt x 12 2
  let entries := (List.range n).map fun i => fieldAt x (64 + 16 * i) 16
  let ok (e : Nat) : Bool := fieldAt e 12 4 = 0 && 1 ≤ fieldAt e 0 4 && fieldAt e 0 4 ≤ 10 && fieldAt e 4 4 % 8 = 0
    && decide (fieldAt e 4 4 + fieldAt e 8 4 ≤ len)
  let l := entries.map fun e => (⟨fieldAt e 0 4, fieldAt e 8 4, fieldAt x (fieldAt e 4 4) (fieldAt e 8 4)⟩ : Section)
  let types : List Nat := l.map fun (x : Section) => x.type
  if fieldAt x 14 2 ≠ 0 ∨ fieldAt x 48 16 ≠ 0 ∨ n = 0 ∨ 16 < n ∨ len < 64 + 16 * n ∨ !entries.all ok ∨ types.eraseDups != types
      ∨ !types.contains 1 then none
  else some l

/-! ## Stage descriptors, policies, seeds (R188, R200, R201, R68) -/

/-- A bound of a policy entry is legal: no reserved bit, and at most 256 where it is not relative (R201). -/
def boundOk (v : Nat) : Bool := v / 512 % 64 = 0 && (v / 32768 = 1 || decide (v % 512 ≤ 256))

/-- A policy entry, or none where it holds a reserved field or value (R201). -/
def PolicyEntry.ofNat (x : Nat) : Option PolicyEntry :=
  let f (lo n : Nat) : Nat := fieldAt x lo n
  if 8 ≤ f 0 1 ∨ f 0 1 / 2 = 3 ∨ 16 ≤ f 1 1 ∨ !boundOk (f 2 2) ∨ !boundOk (f 4 2) ∨ 100 < f 6 1 % 128 ∨ f 12 4 ≠ 0 then none
  else
    some { act := f 0 1 / 2, valid := f 0 1 % 2 = 1, kinds := f 1 1, lo := f 2 2, hi := f 4 2, below := f 6 1 / 128 = 1,
           stash := f 6 1 % 128, slmax := f 7 1 / 16, slmin := f 7 1 % 16, age := f 8 4 }

/-- The policy table at an offset of the policy images, as its header and its entries; none where it lies outside the section, or
holds a reserved field or value (R200, R201). -/
def policyTable (l : List Section) (p : Nat) : Option (Nat × List PolicyEntry) :=
  let head := fieldAt (bodyOf l 5) p 16
  if sizeOf' l 5 < p + 272 ∨ 4 ≤ fieldAt head 9 1 ∨ fieldAt head 10 6 ≠ 0 then none
  else
    ((List.range 16).mapM fun i => PolicyEntry.ofNat (fieldAt (bodyOf l 5) (p + 16 + 16 * i) 16)).map fun entries => (head, entries)

/-- Every table of the policy images is legal, whether or not a stage names it (R201); they stand one after another from the start of
the section (log 27). -/
def policiesOk (l : List Section) : Bool := (List.range (sizeOf' l 5 / 272)).all fun i => (policyTable l (272 * i)).isSome

/-- A stage descriptor with its policy table, or none where a field is reserved or out of its range, or no legal table stands at
POLICY (R188, R200; log 27). -/
def StageImage.ofNat (l : List Section) (x : Nat) : Option StageImage :=
  let f (lo n : Nat) : Nat := fieldAt x lo n
  let nq := f 1 1
  let qkinds := (List.range 4).map fun j => f (16 + j) 1
  let bad := 16 ≤ f 0 1 || nq = 0 || 4 < nq || 2 ≤ f 2 1 || f 3 1 ≠ 0 || f 12 4 ≠ 0 || f 22 10 ≠ 0
    || ((List.range 4).any fun j => 16 ≤ f (16 + j) 1 || (decide (nq ≤ j) && f (16 + j) 1 ≠ 0))
  if bad then none
  else
    (policyTable l (f 8 4)).map fun (head, entries) =>
      { stage := f 0 1, nq, bank := f 2 1, entry := f 4 4, qkinds, slotBase := f 20 2, ageLim := fieldAt head 0 4,
        sbudget := fieldAt head 4 4, warmup := fieldAt head 8 1, flags := fieldAt head 9 1, entries }

/-- A seed-list entry: register and seed, or none where a reserved field is set or no register is named (log 27). -/
def seedOf (x : Nat) : Option (Nat × Seed) :=
  if 16 ≤ fieldAt x 0 1 ∨ fieldAt x 1 1 ≠ 0 ∨ 4096 ≤ fieldAt x 2 2 ∨ fieldAt x 4 4 ≠ 0 then none
  else some (fieldAt x 0 1, ⟨BitVec.ofNat 12 (fieldAt x 2 2), BitVec.ofNat 64 (fieldAt x 8 8)⟩)

/-! ## Relocations (R62, R68, R70) -/

/-- A relocation. -/
structure Reloc where
  offset : Nat
  kind : Nat
  target : Nat
  site : Nat
  addend : Nat
deriving DecidableEq, Repr

def Reloc.ofNat (x : Nat) : Reloc := ⟨fieldAt x 0 4, fieldAt x 4 1, fieldAt x 5 1, fieldAt x 6 1, fieldAt x 8 8⟩

/-- Reason 0x06 of R71; also a relocation of another kind, and a kind-1 offset that is no slot's (log 27). -/
def Reloc.bad (r : Reloc) (l : List Section) : Bool :=
  let word (o : Nat) : Nat := fieldAt (bodyOf l 1) o 4
  let isExt (o : Nat) : Bool := word o / 2 ^ 27 % 16 = 11
  let target := (r.target = 1 || r.target = 6 || r.target = 10) && (sectionOf l r.target).isSome
  let site := if r.kind = 1 then r.site = 1 && r.offset % 4 = 0 && decide (r.offset + 4 ≤ sizeOf' l 1)
    else r.kind = 2 && (r.site = 6 || r.site = 10) && (sectionOf l r.site).isSome && decide (r.offset + 8 ≤ sizeOf' l r.site)
  let extended := r.kind ≠ 1 || (decide (8 ≤ r.offset) && isExt (r.offset - 8) && isExt (r.offset - 4))
  !(target && site && extended)

/-- `n` low bits of the 4-byte word at an offset replaced. -/
def patchWord (x off n v : Nat) : Nat :=
  let w := fieldAt x off 4
  x - w * 256 ^ off + (w / 2 ^ n * 2 ^ n + v % 2 ^ n) * 256 ^ off

/-- The 8-byte field at an offset replaced. -/
def patchField (x off v : Nat) : Nat := x - fieldAt x off 8 * 256 ^ off + v % 2 ^ 64 * 256 ^ off

/-- A relocation resolved: the base of its target section and its addend, in its site section. -/
def Reloc.apply (r : Reloc) (base : Nat → Nat) (l : List Section) : List Section :=
  let v := (base r.target + r.addend) % 2 ^ 64
  l.map fun x =>
    if x.type ≠ r.site then x
    else if r.kind = 1 then
      { x with body := patchWord (patchWord (patchWord x.body (r.offset - 8) 25 (v / 2 ^ 39)) (r.offset - 4) 25 (v / 2 ^ 14)) r.offset 14 v }
    else { x with body := patchField x.body r.offset v }

/-! ## Translation (R70) -/

/-- A translated image: sections with relocations resolved, and where the data and header images are placed. -/
structure Translated where
  sections : List Section
  dataBase : Nat
  headBase : Nat
  segments : List (Nat × Nat)
  stages : List StageImage
  seeds : List (Nat × Seed)
deriving DecidableEq, Repr

/-- The segments: the chain, or the whole code as one segment where there is none (log 27). -/
def segmentsOf (l : List Section) : List (Nat × Nat) :=
  match sectionOf l 4 with
  | some _ => (recordsOf l 4 8).map fun e => (fieldAt e 0 4, fieldAt e 4 4)
  | none => [(0, sizeOf' l 1)]

/-- A page the translator may write: present, writable home memory (R486). -/
def State.placeable (s : State) (root va : Nat) : Bool :=
  match s.walkPage root va with
  | .page e false _ => e.w && match s.locate e.hm e.pbase with
    | .home .. => true
    | _ => false
  | _ => false

/-- The pages of a range. -/
def rangePages (base n : Nat) : List Nat :=
  if n = 0 then [] else (List.range ((base % 4096 + n + 4095) / 4096)).map fun i => base / 4096 * 4096 + 4096 * i

/-- The translator, step by step: a reason code of R71, or the translated image. Without a contract section the contract is not
known (log 24); the reasons of defects that R71 does not name are log 27's. -/
def State.translate (s : State) (bytes : List Byte) (partition dbase : Nat) : Nat ⊕ Translated :=
  let x := bytesNat bytes
  let len := fieldAt x 8 4
  if bytes.length < 64 ∨ fieldAt x 0 4 ≠ 0x4B57484C ∨ fieldAt x 4 2 ≠ 1 then .inl 1
  else if bytes.length < len then .inl 3
  else
    match sectionsOf x len with
    | none => .inl 3
    | some l =>
      match (recordsOf l 8 32).mapM (StageImage.ofNat l), (recordsOf l 9 16).mapM seedOf with
      | some stages, some seeds =>
        if !policiesOk l ∨ (recordsOf l 2 16).any fun r => fieldAt r 7 1 ≠ 0 then .inl 3
        else if bytesNat (sha256 ((bytes.drop 64).take (len - 64))) ≠ fieldAt x 16 32 then .inl 2
        else if sizeOf' l 3 < 4 ∨ fieldAt (bodyOf l 3) 0 4 ≠ 1 then .inl 4
        else
          let headBase := (dbase + sizeOf' l 10 + 65535) / 65536 * 65536
          let pages := rangePages dbase (sizeOf' l 10) ++ rangePages headBase (sizeOf' l 6)
          let relocs := (recordsOf l 2 16).map Reloc.ofNat
          let base (t : Nat) : Nat := if t = 10 then dbase else if t = 6 then headBase else 0
          if pages.any fun p => !s.placeable (s.tableRoot partition) p then .inl 7
          else if relocs.any fun r => r.bad l then .inl 6
          else
            let segments := segmentsOf l
            if 2 ^ 23 < sizeOf' l 1 ∨ 1024 < segments.length ∨ segments.any (fun g => 16384 < g.2) then .inl 5
            else .inr ⟨relocs.foldl (fun l r => r.apply base l) l, dbase, headBase, segments, stages, seeds⟩
      | _, _ => .inl 3

/-- The parts of a placed section, page by page, with the bytes of each and the leaf that maps it. -/
def State.placement (s : State) (root base n x : Nat) : List (Part × Nat × Nat) :=
  (rangePages base n).filterMap fun p =>
    match s.walkPage root p with
    | .page e _ entry =>
      let lo := max p base
      let hi := min (p + 4096) (base + n)
      some (⟨lo, hi - lo, some e, s.locate e.hm (e.pbase + lo % 4096)⟩, fieldAt x (lo - base) (hi - lo), entry)
    | _ => none

/-- The placed sections of an image written as one write through a page table, or the die that lacks batts for it and the need (R244,
R486). -/
def State.placeImage (s : State) (who : Writer) (root : Nat) (t : Translated) : State ⊕ (Nat × Nat) :=
  let part (base type : Nat) : List (Part × Nat × Nat) := s.placement root base (sizeOf' t.sections type) (bodyOf t.sections type)
  let l := part t.dataBase 10 ++ part t.headBase 6
  let u := l.foldl (fun (s : State) p => s.rawWrite p.1.loc p.1.n p.2.1) s
  match account s u who (touches (l.map (·.1))) with
  | .inl u => .inl (u.markLeaves (l.filterMap fun p => p.1.ext.map fun e => { ext := e, entry := some p.2.2, dirty := true }))
  | .inr e => .inr e

/-- The slot that a translated image fills (R187): version 0 present, CUR 0; of two seeds for one register the later stands (log 27); the
measurement is of the extended body as supplied (R70; log 28). -/
def Translated.slot (t : Translated) (bytes : List Byte) : ModelSlot :=
  let l := t.sections
  let placed := (if sizeOf' l 10 = 0 then [] else [(t.dataBase, sizeOf' l 10)])
    ++ (if sizeOf' l 6 = 0 then [] else [(t.headBase, sizeOf' l 6)])
  { loaded := true, code := (recordsOf l 1 4).map fun w => BitVec.ofNat 32 w, segments := t.segments,
    seeds := t.seeds.foldl (fun m e => tset e.1 e.2 m) [], relocs := Config.relocTemplates bytes % 13, present := 1,
    stages := t.stages, placed, measure := bytesNat (sha256 bytes) }

/-! ## Stages of a slot (R188, R200) -/

/-- A stage with the descriptor and the policy table of its slot's image. -/
def Stage.withImage (x : Stage) (d : StageImage) : Stage :=
  { x with bank := d.bank, nq := d.nq, qkinds := d.qkinds, slotBase := d.slotBase, entry := d.entry, ageLim := d.ageLim,
           sbudget := d.sbudget, warmup := d.warmup, flags := d.flags, entries := d.entries }

/-- Stage `i` of a slot with what the slot's image says of it; of two descriptors of one stage the first stands (log 27). -/
def ModelSlot.configure (m : ModelSlot) (i : Nat) (x : Stage) : Stage :=
  match m.stages.find? fun d => d.stage = i with
  | some d => x.withImage d
  | none => x

/-- Every configured stage of a slot takes the image's descriptor. -/
def State.configureSlot (s : State) (slot : Nat) : State :=
  let m := tget {} slot s.slots
  { s with stages := s.stages.map fun (i, x) => (i, if x.configured ∧ x.slot = slot then { m.configure i x with invoked := false } else x) }

/-- Some worker of the slot runs, or is about to (R192, R467). -/
def State.slotRuns (s : State) (slot : Nat) : Bool :=
  s.invocations.any fun e => e.2.slot == slot && (e.2.walking || !e.2.workers.isEmpty)

/-! ## The commands -/

/-- `LOAD`: REFUSED while workers of the slot run; LOADFAIL with the reason and an empty slot; or the slot filled (R70, R71, R187, R467,
R486). Three points are the model's choice (log 67): nothing is written on any failure, also where the reason is one found after the
placement; a `LOAD` that lacks batts for its placed sections waits, not yet dispatched, as an engine write does (R244); one answered with
SPACE ends with NOSPACE and an empty slot. -/
def execLoad (queue seq : Nat) (s : State) : Result :=
  event s fun s =>
    match s.commandNext 0x02 queue seq with
    | none => none
    | some e =>
      let slot := e.arg 24 1
      let bytes := s.extended e
      let who : Writer := .load queue seq
      let begun := s.markDispatched queue seq
      if s.slotRuns slot then some (begun.complete queue seq 8 0)
      else
        match s.translate bytes (e.arg 25 1) (e.arg 32 8) with
        | .inl reason => some ({ begun with slots := tset slot {} s.slots }.complete queue seq 9 reason)
        | .inr t =>
          match s.standing who with
          | .waiting => none
          | .failed _ => some (({ begun.forgetWriter who with slots := tset slot {} s.slots }).complete queue seq 0x0B 0)
          | .free =>
            match begun.placeImage who (s.tableRoot (e.arg 25 1)) t with
            | .inl s => some (({ s.forgetWriter who with slots := tset slot (t.slot bytes) s.slots }.configureSlot slot).complete queue seq 0 0)
            | .inr (d, need) => some (s.engineWaitBatts who d need)

/-- `UNLOAD`: REFUSED while workers of the slot run (R467). -/
def execUnload (queue seq : Nat) (s : State) : Result :=
  event s fun s =>
    match s.commandNext 0x03 queue seq with
    | none => none
    | some e =>
      let slot := e.arg 24 1
      let s := s.markDispatched queue seq
      if s.slotRuns slot then some (s.complete queue seq 8 0)
      else some ({ s with slots := tset slot {} s.slots }.complete queue seq 0 0)

/-- `VERSION`: the weights go into an index that is not held, which becomes CUR; a held one is refused (R210). An empty slot is
not resident (log 24). -/
def execVersion (queue seq : Nat) (s : State) : Result :=
  event s fun s =>
    match s.commandNext 0x04 queue seq with
    | none => none
    | some e =>
      let slot := e.arg 24 1
      let v := e.arg 25 1
      let m := tget {} slot s.slots
      let weights := s.extended e
      let s := s.markDispatched queue seq
      if !m.loaded then some (s.complete queue seq 1 0)
      else if s.versionHeld slot v then some (s.complete queue seq 8 0)
      else
        let m := { m with weights := tset v weights m.weights, present := m.present ||| (1#4 <<< v), current := v }
        some ((({ s with slots := tset slot m s.slots }.retire slot).refresh).complete queue seq 0 0)

end Sys2Proof.Machine
end

