-- ==== Sys2Proof/Machine/System.lean ====
section
/-! DEFINITION. The Y class (R415 to R430, spec/22). -/

namespace Sys2Proof.Machine

/-! ## Bank and core registers (R417 to R419) -/

/-- A register that is read at issue: a bank or core register. -/
def csrLocal (n : Nat) : Bool := n ≤ 3 || (8 ≤ n && n < 0x18) || n == 0x30 || n == 0x31 || n == 0x40 || (0x100 ≤ n && n ≤ 0x103)

/-- TNEXT: the address of the bundle that follows the record's BUNDLE. -/
def State.nextOfRecord (s : State) : Nat := addrAfter (s.codeOf s.cur) (s.cur.trecWord 1).toNat

/-- A bank or core register of the bank at issue. -/
def State.readLocal (s : State) (n : Nat) : SReg :=
  let k := s.cur
  let x := s.curCore
  if n = 0 then k.tvec
  else if n = 1 then BitVec.ofNat 64 (x.returnBit.toNat + 2 * x.active)
  else if n = 2 then BitVec.ofNat 64 (k.priv.toNat + 2 * k.inTrap.toNat)
  else if n = 3 then BitVec.ofNat 64 s.nextOfRecord
  else if 8 ≤ n ∧ n < 0x18 then k.trecWord (n - 8)
  else if n = 0x30 then (k.task.map fun t =>
    let h := s.tableHeader t.invocation
    Config.headerWord h.pasid h.count h.base).getD 0
  else if n = 0x31 then (k.task.map fun t => BitVec.ofNat 64 t.pasid).getD 0
  else if 0x100 ≤ n ∧ n ≤ 0x103 then if (x.channel (n - 0x100)).busy then 1#64 <<< 31 else 0
  else 0

/-- RW fields of a bank or core register. -/
def rwLocal (n : Nat) : SReg :=
  if n = 0 then 0xFFFFFFC1 else if n = 1 then 1 else if 8 ≤ n ∧ n < 0x18 then BitVec.allOnes 64 else 0

/-- WO fields of a bank or core register: WAKE and ABORT. -/
def woLocal (n : Nat) : SReg := if n = 0x40 ∨ (0x100 ≤ n ∧ n ≤ 0x103) then 1 else 0

/-- A write to a bank or core register, effective at issue + 1. -/
def State.landCsr (s : State) (n : Nat) (v : SReg) : State := s.land 1 (.csr n v)

def execCsrr (opa : BitVec 6) (csr : BitVec 12) (s : State) : Result :=
  issueSlot (.csrr opa csr) s fun s =>
    if csrLocal csr.toNat then s.landS 2 opa (s.readLocal csr.toNat)
    else (s.markEmpties (dests (.csrr opa csr))).pushEntry (s.entryHere (.csrr opa csr))

def execCsrw (opa : BitVec 6) (csr : BitVec 12) (s : State) : Result :=
  issueSlot (.csrw opa csr) s fun s =>
    let n := csr.toNat
    if csrLocal n then s.landCsr n (s.sa opa &&& (rwLocal n ||| woLocal n))
    else s.pushEntry { s.entryHere (.csrw opa csr) with ops := [s.sa opa] }

def execCsrs (opa : BitVec 6) (csr : BitVec 12) (s : State) : Result :=
  issueSlot (.csrs opa csr) s fun s =>
    let n := csr.toNat
    if csrLocal n then s.landCsr n ((s.readLocal n ||| s.sa opa) &&& rwLocal n)
    else s.pushEntry { s.entryHere (.csrs opa csr) with ops := [s.sa opa] }

def execCsrc (opa : BitVec 6) (csr : BitVec 12) (s : State) : Result :=
  issueSlot (.csrc opa csr) s fun s =>
    let n := csr.toNat
    if csrLocal n then s.landCsr n (s.readLocal n &&& ~~~(s.sa opa) &&& rwLocal n)
    else s.pushEntry { s.entryHere (.csrc opa csr) with ops := [s.sa opa] }

/-! ## Traps, banks and waiting (R421 to R423) -/

/-- `TRET`: the record is read at issue (R421). -/
def execTret (s : State) : Result :=
  issueSlot .tret s fun s => (s.setCur s.cur.returnTrap).transfer (s.cur.trecWord 2).toNat 4

/-- `CTXSW`: a drain of the issuing bank where the other bank may run (R422). -/
def execCtxsw (s : State) : Result :=
  issueSlot .ctxsw s fun s =>
    if (s.curCore.bank (1 - s.ctx.bank)).ready then s.startDrain s.ctx.core s.ctx.bank .ctxsw else s

/-- `IDLE`: its wait is over (R423). -/
def execIdle (s : State) : Result :=
  issueSlot .idle s fun s => s.setCur { s.cur with idle := false, woken := false }

/-! ## Partition swap (R407, R408, R424, R425) -/

/-- The save area of a partition: that of the lowest host queue bound to it (log 17). -/
def State.saveArea (s : State) (p : Nat) : Nat :=
  ((s.hostQueues.find? fun e => e.2.valid ∧ e.2.part = p).map (·.2.save)).getD 0

/-- An extent table of a partition, for its save area. -/
def State.partitionExtents (s : State) (p : Nat) : List Extent :=
  ((s.invocations.find? fun e => e.2.partition = p).map fun e => tget [] e.1 s.extents).getD []

/-- Bytes of the save area, zero where it is not mapped. -/
def State.readSave (s : State) (p a n : Nat) : Nat :=
  ((s.parts (s.partitionExtents p) 64 (a % 2 ^ 56) n).foldr (fun q (acc : Nat) => s.rawRead q.loc q.n + 256 ^ q.n * acc) 0)

/-- Some core of the partition has its shadow slot taken by its other bank (R408). -/
def State.needsAlternate (s : State) (p b : Nat) : Bool :=
  (s.partitionCores p).any fun c => (s.cluster (clusterOf c)).shadow.any fun e => e.1 = c ∧ e.2.1 ≠ b

/-- The save area has an alternate image area: ALTOFF is not 0 (R412). -/
def State.hasAlternate (s : State) (p : Nat) : Bool := s.readSave p (s.saveArea p + 20) 4 ≠ 0

/-- A swap-out may start (R408, R424). -/
def State.swapAllowed (s : State) (p b : Nat) : Bool :=
  s.swapStatus p b = 0 && !(s.needsAlternate p b && !s.hasAlternate p)

/-- `SWPOUT` (R424). -/
def execSwpout (opa : BitVec 6) (s : State) : Result :=
  issueSlot (.swpout opa) s fun s =>
    let a := (s.sa opa).toNat
    let p := a % 16
    let b := a / 16 % 2
    if (s.partitionCores p).contains s.ctx.core ∨ !s.swapAllowed p b then s.postHere 0x1D
    else { s with swaps := s.swaps ++ [{ partition := p, bank := b, inward := false, save := s.saveArea p }] }

/-- `SWPIN`: the named banks are overwritten when the swap ends (R425). -/
def execSwpin (opa : BitVec 6) (s : State) : Result :=
  issueSlot (.swpin opa) s fun s =>
    let a := (s.sa opa).toNat
    let p := a % 16
    let b := a / 16 % 2
    let cores := s.partitionCores p
    let others := cores.filter fun c => c ≠ s.ctx.core
    if !cores.contains s.ctx.core ∨ s.ctx.bank ≠ b ∨ s.swapStatus p b ≠ 2 ∨ others.any (fun c => !(s.bank c b).idle) then
      s.postHere 0x1D
    else
      let s := { s with swaps := s.swaps ++ [{ partition := p, bank := b, inward := true, save := s.saveArea p }] }
      cores.foldl (fun (s : State) c => s.setBank c b { s.bank c b with stopped := true }) s

/-! ## Seeds, generators, services (R426, R427) -/

def execSeedld (opa opb : BitVec 6) (seed : BitVec 4) (s : State) : Result :=
  issueSlot (.seedld opa opb seed) s fun s => s.land 1 (.seed seed.toNat ⟨(s.sa opb).setWidth 12, s.sa opa⟩)

def execGenld (opa opb : BitVec 6) (gen : BitVec 2) (s : State) : Result :=
  issueSlot (.genld opa opb gen) s fun s => s.land 1 (.gen gen.toNat (s.sa opa) (s.sa opb))

/-- `SVC`: the issue trap 0x1B with CODE16 (R427). -/
def execSvc (code : BitVec 15) (s : State) : Result :=
  issueSlot (.svc code) s fun s => s.takeIssueTrap 0x1B s.ctx.pos code.toNat

/-! ## Memory management (R428 to R430) -/

/-- `EXTINV`: a marker that releases and then revokes (R428). -/
def execExtinv (opa opb : BitVec 6) (s : State) : Result :=
  issueSlot (.extinv opa opb) s fun s => s.pushEntry { s.entryHere (.extinv opa opb) with ops := [s.sa opa, s.sa opb] }

/-- `MIGR`: the migration engine takes the command (R429). -/
def execMigr (opa : BitVec 6) (s : State) : Result :=
  issueSlot (.migr opa) s fun s =>
    { s with migrations := s.migrations ++ [{ who := s.capture, addr := (s.sa opa).toNat, trailer := false }] }

/-- `BALLOON`: an entry of the store queue (R430). -/
def balloonCommand (i : Instr) (a : SReg) (s : State) : State := s.pushEntry { s.entryHere i with ops := [a] }

def execBalloonAddb (opa : BitVec 6) (s : State) : Result :=
  issueSlot (.balloonAddb opa) s fun s => balloonCommand (.balloonAddb opa) (s.sa opa) s
def execBalloonAddt (opa : BitVec 6) (s : State) : Result :=
  issueSlot (.balloonAddt opa) s fun s => balloonCommand (.balloonAddt opa) (s.sa opa) s
def execBalloonDeflate (opa : BitVec 6) (s : State) : Result :=
  issueSlot (.balloonDeflate opa) s fun s => balloonCommand (.balloonDeflate opa) (s.sa opa) s
def execBalloonClrb (opa : BitVec 6) (s : State) : Result :=
  issueSlot (.balloonClrb opa) s fun s => balloonCommand (.balloonClrb opa) (s.sa opa) s
def execBalloonClrt (opa : BitVec 6) (s : State) : Result :=
  issueSlot (.balloonClrt opa) s fun s => balloonCommand (.balloonClrt opa) (s.sa opa) s

end Sys2Proof.Machine
end

