-- ==== Sys2Proof/Machine/SwapEvents.lean ====
section
/-! DEFINITION. Reports of halts and the end of an invocation (R126, spec/05; R192, spec/09; R468, spec/25); bank images and
the partition swap (R408 to R412, spec/21). -/

namespace Sys2Proof.Machine

/-! ## Halts -/

/-- Everything a halted bank waits for has ended (R126). -/
def Bank.quiet (k : Bank) : Bool :=
  k.landed && k.queue.isEmpty

/-- Bytes of a trap record (R402). -/
def recordBytes (trec : Table SReg) : List Byte := (List.range 16).flatMap fun i => natBytes 8 (tget 0 i trec).toNat

/-- Of two workers that halted with a record, the first; in one clk the lower core (R468). -/
def earlier (a b : Nat × Nat × Table SReg) : Bool := decide (a.1 < b.1) || (a.1 == b.1 && decide (a.2.1 < b.2.1))

/-- A worker of an invocation has halted (R192, R468). -/
def Invocation.halted (v : Invocation) (c b : Nat) (k : Bank) : Invocation :=
  let mine := (k.haltClk, c, k.trec)
  let faulted := if k.haltFault then
      match v.faulted with
      | some f => if earlier mine f then some mine else some f
      | none => some mine
    else v.faulted
  { v with workers := v.workers.erase (c, b), faulted }

/-- An invocation whose last worker has halted completes: SUCCESS, or FAULT with the core and the record (R192, R468). -/
def State.endInvocation (s : State) (id : Nat) (v : Invocation) : State :=
  let s := { s with invocations := tset id { v with running := false } s.invocations }
  match v.faulted with
  | some (_, c, trec) =>
    let s := if v.recAddr = 0 then s else { s with hostMem := mput s.hostMem v.recAddr (recordBytes trec) }
    s.complete v.queue v.seq 3 c
  | none => s.complete v.queue v.seq 0 0

/-- `HALT_REPORT`: the completion's release at `.sys` of the worker's writes (R192), its share in the invocation, and the other
bank (R406). -/
def execHaltReport (core bank : Nat) (s : State) : Result :=
  event s fun s =>
    let k := s.bank core bank
    if k.state ≠ .halted ∨ k.haltReported ∨ !k.quiet then none
    else
      let s := (s.release core bank 5).setBank core bank { k with haltReported := true }
      let s := if (s.core core).active = bank then s.handOver core bank else s
      match k.task with
      | none => some s
      | some t =>
        match tfind t.invocation s.invocations with
        | none => some s
        | some v =>
          if !v.workers.contains (core, bank) then some s
          else
            let v := v.halted core bank k
            if v.workers.isEmpty then some (s.endInvocation t.invocation v)
            else some { s with invocations := tset t.invocation v s.invocations }

/-! ## Bank images (R410, R411) -/

/-- Fields of an image: offset, bytes and value. -/
abbrev Fields := List (Nat × Nat × Nat)

/-- STATE of an image. -/
def BankState.code : BankState → Nat
  | .runnable => 1
  | .waiting => 2
  | .halted => 3
  | _ => 4

/-- FE: one bit for each register, 1 where it is full. -/
def Bank.fullBits (k : Bank) : Nat :=
  (~~~k.vEmpty).toNat + 2 ^ 128 * (~~~k.sEmpty).toNat + 2 ^ 192 * (~~~k.kEmpty).toNat

/-- ENG of an engine. -/
def MatEngine.word (m : MatEngine) : Nat := m.skip % 512 + 2 ^ 9 * m.wb0.isSome.toNat + 2 ^ 10 * m.wb1.isSome.toNat

/-- The fixed part. -/
def Bank.fixedFields (k : Bank) (b c p size : Nat) : Fields :=
  let flags := k.priv.toNat + 2 * k.inTrap.toNat + 4 * (!k.posted.isEmpty).toNat + 8 * k.fault.isSome.toNat
  let loops := k.loops.zipIdx.flatMap fun (l, i) =>
    [(0x50 + 16 * i, 4, l.start), (0x54 + 16 * i, 4, l.stop), (0x58 + 16 * i, 4, l.remaining.toNat),
     (0x5C + 16 * i, 4, l.index.toNat)]
  let each (base width n : Nat) (f : Nat → Nat) : Fields := (List.range n).map fun i => (base + width * i, width, f i)
  [(0, 4, 0x4B574358), (4, 2, 1), (6, 1, b), (7, 1, k.state.code), (8, 4, size), (0xC, 2, c), (0xE, 1, p), (0xF, 1, flags),
   (0x40, 8, k.pc), (0x48, 1, k.loops.length), (0xB0, 8, k.tvec.toNat), (0xC0, 32, k.fullBits), (0xE0, 8, k.eng0.mcfg.toNat),
   (0xE8, 8, k.eng1.mcfg.toNat), (0xF0, 8, k.eng0.word), (0xF8, 8, k.eng1.word)]
    ++ loops
    ++ each 0x100 8 64 (fun r => (k.s r).toNat) ++ each 0x300 32 16 (fun r => (k.k r).toNat)
    ++ each 0x500 16 4 (fun g => (k.gen g).key.toNat + 2 ^ 64 * (k.gen g).ctr.toNat)
    ++ each 0x540 8 16 (fun n => (k.seed n).value.toNat) ++ each 0x5C0 2 16 (fun n => (k.seed n).ident.toNat)
    ++ each 0x5E0 2 64 (fun i => match tfind i k.arrival with
      | some ph => ph.toNat + 256
      | none => 0)
    ++ each 0x660 8 16 (fun i => (k.trecWord i).toNat) ++ each 0x800 8 128 (fun r => (k.side r).toNat)
    ++ each 0x1000 512 128 (fun r => (k.v r).toNat) ++ each 0x11000 512 256 (fun r => (tget 0 r k.tiles).toNat)

/-- The column metadata of a FIFO entry or a weight buffer: FMT, ROT, SCALE. -/
def FifoEntry.head (x : FifoEntry) : Nat := x.fmt + 2 ^ 16 * x.tag.toNat + 2 ^ 32 * x.scale.toNat
/-- Bytes of the 128 elements of an entry. -/
def FifoEntry.elemBytes (x : FifoEntry) : Nat := 128 * codeBytes x.fmt

/-- A record: TYPE, ENG, LEN, and the payload as fields from its start. -/
structure Record where
  type : Nat
  eng : Nat
  len : Nat
  payload : Fields

/-- Bytes of a record with its header and its padding. -/
def Record.bytes (r : Record) : Nat := 16 + (r.len + 15) / 16 * 16

/-- The record of a FIFO entry. -/
def FifoEntry.record (x : FifoEntry) (type eng : Nat) : Record :=
  ⟨type, eng, 24 + x.elemBytes, [(0, 8, x.head), (8, 16, x.mask.toNat), (24, x.elemBytes, x.elems.toNat)]⟩

/-- The record of a weight buffer. -/
def bufferRecord (eng buf : Nat) (cols : List FifoEntry) : Record :=
  let heads := cols.zipIdx.map fun (x, i) => (8 * i, 8, x.head)
  let n := (cols.head?.map (·.elemBytes)).getD 128
  ⟨3, eng + 2 * buf, 1024 + n * cols.length, heads ++ cols.zipIdx.map fun (x, i) => (1024 + n * i, n, x.elems.toNat)⟩

/-- TYPE of a kept entry: a load, a store, or an `AMO` or marker. -/
def QEntry.type (e : QEntry) : Nat :=
  match e.ins with
  | .ldc .. | .ldcv .. | .ldg .. | .ldgv .. | .ldgx .. | .sprobe .. | .nrmrd .. | .csrr .. => 4
  | .stc .. | .stcv .. | .stg .. | .stgv .. | .stgn .. | .stgx .. | .nrmclr .. | .nrmset .. | .csrw .. | .csrs .. | .csrc ..
  | .balloonAddb .. | .balloonAddt .. | .balloonDeflate .. | .balloonClrb .. | .balloonClrt .. => 5
  | _ => 6

/-- The data of a store entry, as bytes and number: what it stores, a sparse store's row until its block is formed, and the operands of an
entry that writes no memory. -/
def QEntry.storeData (e : QEntry) : Nat × Nat :=
  match e.ins with
  | .stc .. | .stcv .. | .stg .. | .stgv .. | .stgn .. => (e.bytes, e.data)
  | .stgx .. => if e.phase = 0 then (128 * codeBytes ((e.ops.headD 0).toNat), e.row.toNat) else (e.phase, e.data)
  | _ => (8 * e.ops.length, packFields 64 (e.ops.map (·.toNat)))

/-- The record of a kept entry; `word` is its slot as the code holds it. -/
def QEntry.record (e : QEntry) (word : Nat) : Record :=
  let head : Fields := [(0, 4, word), (4, 4, e.bundle), (8, 8, e.addr)]
  match e.ins with
  | .amo .. => ⟨6, 0, 32, head ++ [(16, 8, (e.ops.headD 0).toNat), (24, 8, ((e.ops[1]?).getD 0).toNat)]⟩
  | _ =>
    let (n, x) := e.storeData
    if e.type = 5 then ⟨5, 0, 16 + n, head ++ [(16, n, x)]⟩ else ⟨e.type, 0, 16, head⟩

/-- The records of a bank, without END. -/
def State.records (s : State) (k : Bank) : List Record :=
  let eng (e : Nat) (m : MatEngine) : List Record :=
    m.aFifo.map (fun x => x.record 1 e) ++ m.bFifo.map (fun x => x.record 2 e)
      ++ (m.wb0.toList.map fun l => bufferRecord e 0 l) ++ (m.wb1.toList.map fun l => bufferRecord e 1 l)
  let word (e : QEntry) : Nat := (((s.codeOf k)[(e.bundle + 4 * e.pos) / 4]?).getD 0).toNat
  eng 0 k.eng0 ++ eng 1 k.eng1 ++ k.queue.map fun e => e.record (word e)

/-- Records laid out from an offset on, END last, and where they end. -/
def layRecords (a : Nat) : List Record → Fields × Nat
  | [] => ([], a + 16)
  | r :: t =>
    let (f, n) := layRecords (a + r.bytes) t
    ([(a, 1, r.type), (a + 1, 1, r.eng), (a + 4, 4, r.len)] ++ (r.payload.map fun (o, w, v) => (a + 16 + o, w, v)) ++ f, n)

/-- The image of a bank as memory cells, and its size. -/
def State.imageOf (s : State) (k : Bank) (c b p : Nat) : List Host.Cell × Nat :=
  let (f, n) := layRecords 0x31000 (s.records k)
  ((k.fixedFields b c p n ++ f).foldl (fun m (o, w, v) => mwrite m o w v) [], n)

/-- The image of a bank of a core. -/
def State.image (s : State) (c b p : Nat) : List Host.Cell × Nat := s.imageOf (s.bank c b) c b p

/-! ## An image read back (R408, R410, R411) -/

/-- STATE of an image as a bank's. -/
def BankState.ofCode : Nat → BankState
  | 1 => .runnable
  | 2 => .waiting
  | 3 => .halted
  | _ => .empty

/-- A record of an image: TYPE, ENG, LEN and its payload. -/
structure RawRecord where
  type : Nat
  eng : Nat
  len : Nat
  payload : Nat
deriving DecidableEq, Repr

/-- The records of an image up to END. -/
def recordsFrom (x : Nat) : Nat → Nat → List RawRecord
  | 0, _ => []
  | fuel + 1, a =>
    let r : RawRecord := ⟨fieldAt x a 1, fieldAt x (a + 1) 1, fieldAt x (a + 4) 4, fieldAt x (a + 16) (fieldAt x (a + 4) 4)⟩
    if r.type = 0 then [] else r :: recordsFrom x fuel (a + 16 + (r.len + 15) / 16 * 16)

/-- A FIFO entry or the column of a weight buffer from its 8 bytes of FMT, ROT and SCALE, its mask and its elements. -/
def FifoEntry.ofHead (head mask elems : Nat) : FifoEntry :=
  { fmt := head % 256, elems := BitVec.ofNat 2048 elems, scale := BitVec.ofNat 32 (head / 2 ^ 32),
    tag := BitVec.ofNat 16 (head / 2 ^ 16), mask := BitVec.ofNat 128 mask }

/-- The FIFO entry of a record. -/
def RawRecord.entry (r : RawRecord) : FifoEntry :=
  FifoEntry.ofHead (fieldAt r.payload 0 8) (fieldAt r.payload 8 16) (fieldAt r.payload 24 (r.len - 24))

/-- The weight buffer of a record. -/
def RawRecord.buffer (r : RawRecord) : List FifoEntry :=
  let n := (r.len - 1024) / 128
  (List.range 128).map fun i =>
    FifoEntry.ofHead (fieldAt r.payload (8 * i) 8) (2 ^ 128 - 1) (fieldAt r.payload (1024 + n * i) n)

/-- A kept entry as its record has it: the slot, the addresses, and a store's data or an `AMO`'s operands; what the record does not hold
is as it was. -/
def QEntry.ofRecord (e : QEntry) (r : RawRecord) : QEntry :=
  let ins := match decodeSlot (BitVec.ofNat 32 (fieldAt r.payload 0 4)) with
    | .ok i => i
    | .error _ => e.ins
  let e := { e with ins, bundle := fieldAt r.payload 4 4, addr := fieldAt r.payload 8 8 }
  let data := fieldAt r.payload 16 (r.len - 16)
  let words := (unpack 64 ((r.len - 16) / 8) data).map (BitVec.ofNat 64)
  match ins with
  | .stc .. | .stg .. => { e with ops := [BitVec.ofNat 64 data, BitVec.ofNat 64 (data / 2 ^ 64)] }
  | .stcv .. | .stgv .. | .stgn .. => { e with row := BitVec.ofNat 4096 data }
  | .stgx .. => if e.phase = 0 then { e with row := BitVec.ofNat 4096 data } else { e with got := BitVec.ofNat 4608 data }
  | _ => if r.len = 16 then e else { e with ops := words ++ e.ops.drop words.length }

/-- An engine as the image has it. -/
def MatEngine.ofImage (m : MatEngine) (n : Nat) (mcfg word : Nat) (l : List RawRecord) : MatEngine :=
  let mine (t : Nat) : List RawRecord := l.filter fun r => r.type = t ∧ r.eng = n
  let buffer (b : Nat) : Option (List FifoEntry) := ((l.find? fun r => r.type = 3 ∧ r.eng = n + 2 * b).map (·.buffer))
  { m with aFifo := (mine 1).map (·.entry), bFifo := (mine 2).map (·.entry), wb0 := buffer 0, wb1 := buffer 1, skip := word % 512,
           mcfg := BitVec.ofNat 64 mcfg }

/-- A table of `n` values from an image, `width` bytes each from an offset on. -/
def tableAt (x base width n w : Nat) : Table (BitVec w) :=
  ((List.range n).map fun i => (i, BitVec.ofNat w (fieldAt x (base + width * i) width))).filter fun e => e.2 ≠ 0

/-- A bank as its image has it; what an image does not hold is as it was. -/
def Bank.ofImage (k : Bank) (x : Nat) : Bank :=
  let f (o n : Nat) : Nat := fieldAt x o n
  let l := recordsFrom x 4096 0x31000
  let full := f 0xC0 32
  let bit (n : Nat) : Bool := f 0xF 1 / 2 ^ n % 2 = 1
  let w (a : Nat) : BitVec 32 := BitVec.ofNat 32 (f a 4)
  { k with
    state := BankState.ofCode (f 7 1), priv := bit 0, inTrap := bit 1, posted := if bit 2 then k.posted else [],
    fault := if bit 3 then k.fault else none, pc := f 0x40 8,
    loops := (List.range (min 6 (f 0x48 1))).map fun i =>
      ⟨f (0x50 + 16 * i) 4, f (0x54 + 16 * i) 4, w (0x58 + 16 * i), w (0x5C + 16 * i)⟩,
    tvec := BitVec.ofNat 64 (f 0xB0 8), vEmpty := ~~~(BitVec.ofNat 128 full), sEmpty := ~~~(BitVec.ofNat 64 (full / 2 ^ 128)),
    kEmpty := ~~~(BitVec.ofNat 16 (full / 2 ^ 192)), eng0 := k.eng0.ofImage 0 (f 0xE0 8) (f 0xF0 8) l,
    eng1 := k.eng1.ofImage 1 (f 0xE8 8) (f 0xF8 8) l, sregs := tableAt x 0x100 8 64 64, kregs := tableAt x 0x300 32 16 256,
    gens := (List.range 4).map fun g => (g, ⟨BitVec.ofNat 64 (f (0x500 + 16 * g) 8), BitVec.ofNat 64 (f (0x508 + 16 * g) 8)⟩),
    seeds := (List.range 16).map fun n => (n, ⟨BitVec.ofNat 12 (f (0x5C0 + 2 * n) 2), BitVec.ofNat 64 (f (0x540 + 8 * n) 8)⟩),
    arrival := ((List.range 64).filter fun i => f (0x5E1 + 2 * i) 1 % 2 = 1).map fun i => (i, BitVec.ofNat 8 (f (0x5E0 + 2 * i) 1)),
    trec := tableAt x 0x660 8 16 64, sides := tableAt x 0x800 8 128 64, vregs := tableAt x 0x1000 512 128 4096,
    tiles := tableAt x 0x11000 512 256 4096,
    queue := (k.queue.zip (l.filter fun r => 4 ≤ r.type)).map fun (e, r) => e.ofRecord r }

/-! ## The partition swap (R408, R424, R425) -/

/-- Cores of a partition in ascending order: a core's index within the partition is its place here. -/
def State.coresInOrder (s : State) (p : Nat) : List Nat :=
  let l := s.partitionCores p
  (List.range Config.cores).filter l.contains

/-- Bytes `lo` to `hi - 1` of an image written to a partition's save area; the batts it takes are counted to no writer
(log 17). -/
def State.saveImage (s : State) (p a lo hi : Nat) (m : List Host.Cell) : State :=
  (List.range ((hi - lo + 511) / 512)).foldl (fun (s : State) i =>
    let o := lo + 512 * i
    let l := s.parts (s.partitionExtents p) 2 ((a + o) % 2 ^ 56) (min 512 (hi - o))
    let data := partData l (mread m o (min 512 (hi - o)))
    let t := data.foldl (fun (s : State) e => s.rawWrite e.1.loc e.1.n e.2) s
    match account s t .host (touches l) with
    | .inl t => t
    | .inr _ => t) s

/-- Where core `j`'s bank image slot of a save area lies (R412). -/
def State.imageSlot (s : State) (p j : Nat) : Nat :=
  let a := s.saveArea p
  let ends := 64 + 1088 * (s.readSave p (a + 7) 1)
  a + (ends + 4095) / 4096 * 4096 + (655360 + s.readSave p (a + 16) 4) * j

/-- The bank that a swap-out frees (R408): registers and masks zero and full, S1 and S2, the pre-emption vector, the cause. -/
def freedBank (k : Bank) (task : Option Task) (save index vec now : Nat) : Bank :=
  { state := .runnable, priv := true, pc := vec, task, sregs := [(1, BitVec.ofNat 64 save), (2, BitVec.ofNat 64 index)],
    trec := trapRecord 0x1A (trapFlags false false false k.priv false false) 0 0 0 0 k.pc 0 now }

/-- The task under which a freed bank runs the handler: the bank's own, or that of its stage. -/
def State.handlerTask (s : State) (p c index : Nat) (k : Bank) : Option Task :=
  match k.task with
  | some t => some t
  | none =>
    (s.stages.find? fun e => e.2.configured ∧ e.2.partition = p ∧ e.2.cores.contains c).map fun e =>
      let id := s.invocationOf e.1
      let v := tfind id s.invocations
      { slot := e.2.slot, version := (v.map (·.version)).getD 0, stage := e.1, worker := index, pasid := (v.map (·.pasid)).getD 0,
        partition := p, invocation := id }

/-- One core of a swap-out: its image to the shadow slot, the overflow or the alternate area, and its bank freed. -/
def State.swapOutCore (s : State) (p b j c : Nat) : State :=
  let k := s.bank c b
  let cl := clusterOf c
  let taken := ((s.cluster cl).shadow.any fun e => e.1 = c)
  let (m, n) := s.image c b p
  let lo := if taken then 0 else 327680
  let a := if taken then s.saveArea p + s.readSave p (s.saveArea p + 20) 4 + 655360 * j else s.imageSlot p j
  let s := s.saveImage p a lo n m
  let key := if taken then c + 1024 else c
  let q := s.cluster cl
  let s := s.setCluster cl { q with shadow := tset key (b, k) q.shadow,
                                    saved := if lo < n then tset key (a + lo, n - lo, mread m lo (n - lo)) q.saved else tdel key q.saved }
  let vec := ((tget 0 p s.regs.pvec).toNat % 2 ^ 32) / 64 * 64
  (s.setBank c b (freedBank k (s.handlerTask p c j k) (s.saveArea p) j vec s.clk)).offer c b false

/-- The swap of a bank of a partition in a direction. -/
def State.swapOf (s : State) (p b : Nat) (inward : Bool) : Option Swap :=
  s.swaps.find? fun w => w.partition = p ∧ w.bank = b ∧ w.inward = inward

/-- A swap has ended, with the host command that asked for it. -/
def State.endSwap (s : State) (w : Swap) : State :=
  let s := { s with swaps := s.swaps.erase w }
  match w.command with
  | some (q, seq) => s.complete q seq 0 0
  | none => s

/-- `SWAP_OUT_COMPLETE`: once every core of the partition has stopped (R408). -/
def execSwapOutComplete (partition bank : Nat) (s : State) : Result :=
  event s fun s =>
    match s.swapOf partition bank false with
    | none => none
    | some w =>
      let cores := s.coresInOrder partition
      if cores.any fun c => !(s.bank c bank).stopped then none
      else some ((cores.zipIdx.foldl (fun (s : State) (c, j) => s.swapOutCore partition bank j c) s).endSwap w)

/-- A bank as its image restores it: a WAITING one issues its kept access again, its earlier fault forgotten (R407, R408). -/
def Bank.restored (k : Bank) : Bank :=
  { k with state := if k.state = BankState.waiting then BankState.runnable else k.state, stopped := false, fault := none,
           queue := k.queue.map fun (e : QEntry) => { e with kept := false } }

/-- Bytes of the save area, in pieces. -/
def State.readSaveLong (s : State) (p : Nat) : Nat → Nat → Nat → Nat
  | 0, _, _ => 0
  | fuel + 1, a, n =>
    if n = 0 then 0
    else
      let k := min n 4096
      s.readSave p a k + 256 ^ k * s.readSaveLong p fuel (a + k) (n - k)

/-- A bank of shadow storage as the swap-in finds it: of its image the bytes from `lo` on, where they were written to the save area, are
those that the save area now holds (R408; log 17). -/
def State.recalledBank (s : State) (p b c lo : Nat) (k : Bank) : Option (Nat × Nat × Nat) → Bank
  | none => k
  | some (a, n, x) =>
    let y := s.readSaveLong p (n / 4096 + 1) a n
    if y = x then k else k.ofImage (mread (s.imageOf k c b p).1 0 lo + 256 ^ lo * y)

/-- One core of a swap-in: the image of its bank leaves the shadow slot or the alternate area; a bank without one goes on as it stood. -/
def State.swapInCore (s : State) (p b c : Nat) : State :=
  let cl := clusterOf c
  let q := s.cluster cl
  match q.shadow.find? fun e => e.1 % 1024 = c ∧ e.2.1 = b with
  | none =>
    let k := { s.bank c b with stopped := false }
    let s := s.setBank c b k
    if k.ready ∧ (s.core c).active ≠ b then s.offer c b false else s
  | some (key, _, k) =>
    let k := s.recalledBank p b c (if key = c then 327680 else 0) k (tfind key q.saved)
    let s := (s.setCluster cl { q with shadow := tdel key q.shadow, saved := tdel key q.saved }).setBank c b k.restored
    if k.restored.ready then s.offer c b false
    else if (s.core c).active = b then s.handOver c b else s

/-- `SWAP_IN_COMPLETE` (R408, R425). -/
def execSwapInComplete (partition bank : Nat) (s : State) : Result :=
  event s fun s =>
    match s.swapOf partition bank true with
    | none => none
    | some w =>
      if (s.coresInOrder partition).any fun c => (s.core c).drain.any fun d => d.bank = bank then none
      else some (((s.coresInOrder partition).foldl (fun (s : State) c => s.swapInCore partition bank c) s).endSwap w)

end Sys2Proof.Machine
end

