-- ==== Sys2Proof/Machine/HostEvents.lean ====
section
/-! DEFINITION. The control cores and the host's commands (R462 to R474, spec/25): polls and mapping of queues, host writes and
reads, invocations and the start of workers (R190 to R192, spec/09; R382, R383, spec/20), configuration, snapshots (R454,
spec/24), pre-emption (R407, R408, spec/21), boot and reset. -/

namespace Sys2Proof.Machine

/-! ## The cyclic executive (R471) -/

/-- The die whose control core serves a mapped queue (R465). -/
def State.queueDie (s : State) (q : Nat) : Nat := ((s.hostSlots.find? fun e => e.2 = q).map (·.1 % 4)).getD 0

/-- A fetched entry journalled in both copies; one that is not well formed, or not accepted on its queue, is completed with BADCMD (R467).
-/
def State.journalEntry (s : State) (q : Nat) : State :=
  let x := s.hostQueue q
  let ring := x.ring + 64 * x.head
  let e : JournalEntry := { die := s.queueDie q, seq := x.seq, queue := q, state := 1, ring, body := mread s.hostMem ring 64 }
  let s := s.setHostQueue q { x with head := (x.head + 1) % 2 ^ x.rlog, seq := x.seq + 1 }
  let s := { s with journal := s.journal ++ [e], mirror := s.mirror ++ [e] }
  if e.wellFormed ∧ e.queueOk then s else s.complete q e.seq 7 0

/-- Up to `n` entries of a queue fetched, from HEAD to the TAIL the poll has read. -/
def State.fetchEntries (s : State) (q tail : Nat) : Nat → State
  | 0 => s
  | n + 1 => if (s.hostQueue q).head = tail then s else (s.journalEntry q).fetchEntries q tail n

/-- A poll of a queue (R471): nothing is fetched while its completion ring is full or completions are held (R469) or the queue is stopped
(R393); a pending PNOTIFY clears (R413), and whether the ring is empty is kept (R465). -/
def State.pollQueue (s : State) (q : Nat) : State :=
  let x := s.hostQueue q
  if !x.valid ∨ x.stopped ∨ x.cplFull ∨ !x.heldCpl.isEmpty then s
  else
    (s.setHostQueue q { x with pnotify := false, notified := false, emptied := x.head = x.tail % 2 ^ x.rlog }).fetchEntries q (x.tail % 2 ^ x.rlog) 16

/-- The slots of a die's control core with their queues. -/
def State.slotsOf (s : State) (d : Nat) : List (Nat × Nat) := s.hostSlots.filter fun e => e.1 % 4 = d

/-- Unmapped queues with PNOTIFY, in ascending order after the queue mapped last, wrapping (R465). -/
def State.wantMapping (s : State) : List Nat :=
  let l := (s.hostQueues.filter fun e => e.2.valid ∧ !e.2.mapped ∧ e.2.pnotify ∧ !e.2.stopped).map (·.1)
  l.filter (s.lastMapped < ·) ++ l.filter (· ≤ s.lastMapped)

/-- A slot of a die's control core that is free, or whose queue may be unmapped: its ring empty at its last poll and PNOTIFY clear
(R465). -/
def State.freeSlot (s : State) (d : Nat) : Option Nat :=
  let mine := (List.range 16).map fun i => 4 * i + d
  (mine.find? fun i => (tfind i s.hostSlots).isNone) <|>
    (mine.find? fun i => i ≠ 0 && (tfind i s.hostSlots).any fun q => (s.hostQueue q).emptied && !(s.hostQueue q).pnotify)

/-- A queue takes a slot; the slot's old queue keeps its state in its descriptor, a notify since its last poll as PNOTIFY (R413). -/
def State.mapQueue (s : State) (q slot : Nat) : State :=
  let s := match tfind slot s.hostSlots with
    | some old =>
      let x := s.hostQueue old
      s.setHostQueue old { x with mapped := false, pnotify := x.pnotify || x.notified, notified := false }
    | none => s
  { s.setHostQueue q { s.hostQueue q with mapped := true } with hostSlots := tset slot q s.hostSlots, lastMapped := q }

/-- `EXECUTIVE_FRAME`: the faults of the die, the polls that are due, and the mapping at the end of the frame (R389, R465,
R471). -/
def execExecutiveFrame (die : Nat) (s : State) : Result :=
  event s fun s =>
    let (n, last) := tget (0, 0) die s.frames
    if !s.withies ∨ 4 ≤ die ∨ s.clk < last + s.regs.frame then none
    else
      let s := { s with frames := tset die (n + 1, s.clk) s.frames }
      let s := s.pollFaults die
      let s := (s.slotsOf die).foldl (fun (s : State) e =>
        let x := s.hostQueue e.2
        if n % max 1 x.g = 0 ∨ x.pnotify then s.pollQueue e.2 else s) s
      some (s.wantMapping.foldl (fun (s : State) q =>
        match s.freeSlot die with
        | some i => s.mapQueue q i
        | none => s) s)

/-! ## BAR0 (R462) -/

/-- The host user queue whose notify page an offset of BAR0 lies in. -/
def barQueue (off : Nat) : Option Nat := if 0x400000 ≤ off ∧ off < 0x800000 then some ((off - 0x400000) / 4096) else none

/-- A byte of BAR0 as the host reads it: device status, the recovery mailbox, and bytes that no rule gives (log 24). -/
def State.barRead (s : State) (off : Nat) : Byte :=
  if off < 4 then BitVec.ofNat 8 (s.devStatus.toNat / 256 ^ off)
  else
    match (if 0x10000 ≤ off ∧ off < 0x400000 then s.mailbox[off - 0x10000]? else none) with
    | some v => v
    | none => Config.barByte off s.clk

/-- `QUEUE_NOTIFY` (R464): TAIL; the notify of a mapped queue stands in its slot until its next poll, that of another sets PNOTIFY (R413).
-/
def execQueueNotify (offset width value : Nat) (stored : List (Nat × BitVec 8)) (maps : List (Nat × Nat × Nat)) (taken : Nat) (s : State) :
    Result :=
  event s fun s =>
    (barQueue offset).map fun queue =>
      let s := { s with hostMem := stored.foldl (fun m (c : Nat × Byte) => mset c.1 c.2 m) s.hostMem,
                        hostMaps := maps.map (fun (m : Nat × Nat × Nat) => ((m.1, m.2.1), m.2.2)) ++ s.hostMaps }
      let x := s.hostQueue queue
      let s := (s.setHostQueue queue { x with taken := min x.written (x.taken + taken) }).flushHeld queue x.heldCpl.length
      let x := s.hostQueue queue
      if offset % 4096 ≠ 0 ∨ width < 4 ∨ !x.valid ∨ x.stopped then s
      else s.setHostQueue queue { x with tail := value % 2 ^ x.rlog, pnotify := x.pnotify || !x.mapped, notified := x.notified || x.mapped }

/-! ## The window into device memory (R396, R399) -/

/-- The parts of a host access, cut at 4 KiB boundaries. -/
def State.windowParts (s : State) : Nat → Nat → Nat → List Part
  | 0, _, _ => []
  | fuel + 1, a, n =>
    if n = 0 then []
    else
      let k := min n (4096 - a % 4096)
      ⟨a, k, none, s.locate false a⟩ :: s.windowParts fuel (a + k) (n - k)

/-- A part lies in a CLAIMED page. -/
def State.claimed (s : State) (p : Part) : Bool :=
  match p.loc with
  | .home d off => ((s.die d).page (off / 4096)).state = 3
  | _ => false

/-- A host write is discarded, with a record of its offset and the reason on the admin queue (R396; log 22). -/
def State.discardWrite (s : State) (addr reason : Nat) : State :=
  (s.forgetWriter .host).adminEvent 396 [addr, reason]

/-- The oldest host write leaves the controller. -/
def State.nextHostWrite (s : State) : State := { s with hostWrites := s.hostWrites.drop 1 }

/-- The oldest host write is performed, or waits for batts or for a migration; one that targets a CLAIMED page or is answered with SPACE is
discarded (R282, R396, R397). -/
def State.serveHost (s : State) : State :=
  match s.hostWrites with
  | [] => s
  | (addr, data) :: _ =>
    let l := s.windowParts (data.length / 4096 + 2) addr data.length
    match s.standing .host with
    | .waiting => s
    | .failed cause => (s.discardWrite addr cause).nextHostWrite
    | .free =>
      if l.any s.claimed then (s.discardWrite addr 0).nextHostWrite
      else if s.heldByMigration l then s
      else
        let t := (partData l (bytesNat data)).foldl (fun (s : State) e => s.rawWrite e.1.loc e.1.n e.2) s
        match account s t .host (touches l) with
        | .inl t => t.nextHostWrite
        | .inr (d, need) => s.engineWaitBatts .host d need

/-- `HOST_WINDOW_WRITE`: the write enters the controller, behind those that wait there (R282, R396). -/
def execHostWindowWrite (addr : Nat) (data : List (BitVec 8)) (s : State) : Result :=
  event s fun s => some { s with hostWrites := s.hostWrites ++ [(addr, data)] }.serveHost

/-- `HOST_WINDOW_READ`: device memory through BAR2 (R399), or what stands in BAR0 (R462). -/
def execHostWindowRead (addr : BarAddress) (len : Nat) (s : State) : Result :=
  event s fun s =>
    if addr.bar = 0 then some (s.send (.windowRead ((List.range len).map fun i => s.barRead (addr.offset + i))))
    else if addr.bar = 2 then
      let l := s.windowParts (len / 4096 + 2) addr.offset len
      some (s.send (.windowRead (l.flatMap fun p => natBytes p.n (if s.claimed p then 0 else s.rawRead p.loc p.n))))
    else none

/-! ## Invocations (R190 to R192, R382, R383, R468) -/

/-- The range records of an invocation; none where a reserved bit is set (R468). -/
def rangesOf (naddr nrange : Nat) (ext : Nat) : Option (List (Nat × Nat × Bool)) :=
  (List.range nrange).mapM fun i =>
    let base := fieldAt ext (8 * naddr + 16 * i) 8
    let len := fieldAt ext (8 * naddr + 16 * i + 8) 8
    if len / 2 ^ 56 % 128 ≠ 0 then none else some (base, len % 2 ^ 56, decide (len / 2 ^ 63 = 1))

/-- The stages an invocation starts: those of its mask that are configured for the slot (log 22). -/
def State.maskedStages (s : State) (slot mask : Nat) : List Nat :=
  (List.range 16).filter fun i => mask / 2 ^ i % 2 = 1 && (s.stage i).configured && (s.stage i).slot = slot

/-- `INVOKE`: residency, then the address count, then the walk (R190, R468); held while the slot's workers run (R192). Only a declared
range makes a page writable, and the host is asked for the translations of the set's host pages (R379, R383). -/
def execInvoke (queue seq : Nat) (s : State) : Result :=
  event s fun s =>
    match s.commandNext 0x01 queue seq with
    | none => none
    | some e =>
      let slot := e.arg 24 1
      let version := e.arg 25 1
      let naddr := e.arg 26 1
      let ext := bytesNat (s.extended e)
      let m := tget {} slot s.slots
      if s.slotRuns slot then none
      else
        let s := s.markDispatched queue seq
        if 32 ≤ slot ∨ 4 ≤ version ∨ !m.loaded ∨ !m.present.getLsbD version then some (s.complete queue seq 1 0)
        else if naddr < m.relocs then some (s.complete queue seq 7 1)
        else
          match rangesOf naddr (e.arg 27 1) ext with
          | none => some (s.complete queue seq 7 0)
          | some declared =>
            let x := s.hostQueue queue
            let own := (m.placed ++ tget [] x.part s.deviceRanges).map fun (b, n) => (b, n, false)
            let v : Invocation :=
              { slot, version, queue, seq, cid := e.arg 8 8, stages := s.maskedStages slot (e.arg 28 2), recAddr := e.arg 32 8,
                addrs := unpack 64 naddr ext |>.map (BitVec.ofNat 64), ranges := declared ++ own, pasid := x.pasid,
                partition := x.part, since := s.clk }
            let asked := hostPagesOf (s.walkSet v.partition v.ranges [])
            some { s with invocations := tset s.nextInvocation { v with asked } s.invocations,
                          nextInvocation := s.nextInvocation + 1,
                          sent := s.sent ++ asked.map fun page => Flit.atsRequest v.pasid page }

/-- The bank of a worker before its first bundle (R190, R66). -/
def workerBank (x : Stage) (m : ModelSlot) (addrs : List SReg) (stage n : Nat) (t : Task) : Bank :=
  let regs := addrs.zipIdx.map fun (a, i) => (48 + i, a)
  let all := regs ++ [(60, BitVec.ofNat 64 t.worker), (61, BitVec.ofNat 64 n), (62, BitVec.ofNat 64 stage)]
  { state := .runnable, sregs := all.foldl (fun r e => tset e.1 e.2 r) [], pc := x.entry, seeds := m.seeds, tvec := x.tvec,
    priv := x.fwPriv, task := some t }

/-- The workers of an invocation as core, bank and contents; worker indices rise with the core number (R190). -/
def State.workersOf (s : State) (id : Nat) (v : Invocation) : List (Nat × Nat × Bank) :=
  let m := tget {} v.slot s.slots
  v.stages.flatMap fun i =>
    let x := s.stage i
    let cores := (List.range Config.cores).filter x.cores.contains
    cores.zipIdx.map fun (c, j) =>
      (c, x.bank, workerBank x m v.addrs i cores.length
        { slot := v.slot, version := v.version, stage := i, worker := j, pasid := v.pasid, partition := v.partition, invocation := id })

/-- The closed queues of a stage reopen, empty, as its workers start (R220), and its descriptor can no longer be overwritten (R188). -/
def State.reopen (s : State) (i : Nat) : State :=
  let x := s.stage i
  let s := s.setStage i { x with invoked := true }
  (x.queueNumbers i).foldl (fun (s : State) q =>
    let w := s.wq q
    if w.closed then s.setWq q { w with records := [], closed := false, closer := none } else s) s

/-- The workers start: an acquire over their placement (R192), their banks RUNNABLE, bank 0 of a core first (R191). -/
def State.startWorkers (s : State) (id : Nat) (v : Invocation) : State :=
  let l := s.workersOf id v
  let cores := l.map (·.1)
  let s := l.foldl (fun (s : State) w => s.acquire w.1 w.2.1 (scopeOver w.1 cores)) s
  let s := v.stages.foldl (fun (s : State) i => s.reopen i) s
  let s := [0, 1].foldl (fun (s : State) b =>
    (l.filter fun w => w.2.1 = b).foldl (fun (s : State) w => s.startBank w.1 b w.2.2) s) s
  let v := { v with workers := l.map fun w => (w.1, w.2.1), running := true }
  let s := { s with invocations := tset id v s.invocations }
  if l.isEmpty then s.endInvocation id v else s

/-- A rollback or a fill is under way for a job that one of these stages belongs to: none of its banks issues (R455, R456). -/
def State.jobHeld (s : State) (stages : List Nat) : Bool :=
  s.fill.isSome || s.jobs.any fun e => e.2.rolling && stages.any e.2.stages.contains

/-- `TRANSLATION_WALK_COMPLETE`: every leaf translated is marked, the extents are formed with the host's answers to the requests of the
dispatch, and the workers start, or the command ends with TRANSLATION (R379, R381 to R383, R468); while the job is held none start (R455).
Answers for a PASID that is torn down are discarded, and the dispatch with them (R393). -/
def execTranslationWalkComplete (invocation : Nat) (ats : List (Nat × Nat × Bool)) (s : State) : Result :=
  event s fun s =>
    match tfind invocation s.invocations with
    | none => none
    | some v =>
      if !v.walking ∨ s.jobHeld v.stages then none
      else if s.downPasids.contains v.pasid ∧ v.asked ≠ [] then
        some { s with invocations := tset invocation { v with walking := false, asked := [] } s.invocations }
      else
        let l := s.walkSet v.partition v.ranges (ats.filter fun t => v.asked.contains t.1)
        let v := { v with walking := false, hostPages := hostPagesOf l }
        let s := { s.markLeaves (l.filterMap id) with invocations := tset invocation v s.invocations }
        match tableOf l with
        | none => some (s.complete v.queue v.seq 2 0)
        | some xt => some ({ s with extents := tset invocation xt s.extents }.startWorkers invocation v)

/-- The clk by which a walk without host pages has completed: 2 us and 8 ns for each page after the dispatch (R382). -/
def Invocation.walkDue (v : Invocation) : Nat := v.since + 2500 + 10 * (pagesOf v.ranges).length

/-! ## Configuration (R189, R467) -/

/-- The values of a field of a command whose layout the spec does not give (log 22). -/
def State.fieldList (s : State) (e : JournalEntry) (n : Nat) : List Nat := Config.commandField (e.arg 0 1) e.body (s.extended e) n

/-- Channel bindings in groups of five: channel, sender, peer channel, peer coordinate, stage (R317). -/
def bindChannels (stage : Nat) : List Nat → Table TensorChannel → Table TensorChannel
  | ch :: sender :: peer :: pos :: rest, t =>
    bindChannels stage rest (tset (ch % 64) { bound := true, sender := sender = 1, stage, peer := peer % 64, peerPos := pos % 2 ^ 21 } t)
  | _, t => t

/-- Pairs of a list. -/
def pairsOf : List Nat → List (Nat × Nat)
  | a :: b :: r => (a, b) :: pairsOf r
  | _ => []

/-- A firmware descriptor with a reserved bit set (R189). -/
def firmwareBad (f : Nat) : Bool := f / 2 ^ 33 ≠ 0 || f / 2 % 32 ≠ 0

/-- A placement that would put a cluster in a second partition, or holds one cluster of another (R185; log 35). -/
def State.splitsCluster (s : State) (i part : Nat) (cores : List Nat) : Bool :=
  let mine := cores.map clusterOf
  s.stages.any fun e => e.1 ≠ i && e.2.configured && e.2.partition ≠ part && e.2.cores.any fun c => mine.contains (clusterOf c)

/-- `STAGECFG` (R186, R188, R189, R200, R317; log 22): fields 0 stage, 1 placement, 2 bank, 3 slot, 4 partition, 5 QKINDS,
6 SLOTBASE, 7 AGELIM, 8 SBUDGET, 9 WARMUP, 10 FLAGS, 11 firmware descriptor, 12 channels, 13 device ranges of the partition,
14 job with its class and holders, 15 extents of the job; an empty field leaves what the image gives.
BANK, QKINDS and SLOTBASE are those of the first invocation once there has been one (log 34). -/
def execStagecfg (queue seq : Nat) (s : State) : Result :=
  event s fun s =>
    match s.commandNext 0x05 queue seq with
    | none => none
    | some e =>
      let f := s.field e
      let l := s.fieldList e
      let given (n old : Nat) : Nat := ((l n).head?).getD old
      let i := f 0 % 16
      let s := s.markDispatched queue seq
      if firmwareBad (f 11) then some (s.complete queue seq 7 0)
      else
        let slot := f 3 % 32
        let part := f 4 % 16
        let cores := (l 1).filter (· < Config.cores)
        if s.splitsCluster i part cores then some (s.complete queue seq 7 0) else
        let old := s.stage i
        let x := (tget {} slot s.slots).configure i { old with configured := true, partition := part, slot, cores }
        let x := if old.invoked ∧ old.slot = slot then { x with bank := old.bank, qkinds := old.qkinds, slotBase := old.slotBase }
          else { x with bank := given 2 x.bank % 2, qkinds := if (l 5).isEmpty then x.qkinds else l 5, slotBase := given 6 x.slotBase,
                        invoked := false }
        let x := { x with ageLim := given 7 x.ageLim, sbudget := given 8 x.sbudget, warmup := given 9 x.warmup,
                          flags := given 10 x.flags, tvec := BitVec.ofNat 64 (f 11 % 2 ^ 32), fwPriv := f 11 / 2 ^ 32 % 2 = 1 }
        let s := { s with tensors := bindChannels i (l 12) s.tensors,
                          deviceRanges := if (l 13).isEmpty then s.deviceRanges else tset part (pairsOf (l 13)) s.deviceRanges }
        let s := match l 14 with
          | job :: cls :: holders =>
            let j : Job := (tfind job s.jobs).getD {}
            let j := { j with elastic := cls = 1, holders, stages := (i :: j.stages).eraseDups,
                              extents := if (l 15).isEmpty then j.extents else pairsOf (l 15) }
            { s with jobs := tset job j s.jobs }
          | _ => s
        some (((s.setStage i x).refresh).complete queue seq 0 0)

/-- Register writes in order; the first that is refused ends the command. -/
def State.writePairs (s : State) : List (Nat × Nat) → State × Bool
  | [] => (s, true)
  | (n, v) :: r =>
    let (d, reg) := Config.devcfgRegister n
    let (t, ok) := s.writeRegister (Config.clustersPerDie * (d % 4)) reg (BitVec.ofNat 64 v)
    if ok then t.writePairs r else (t, false)

/-- `DEVCFG` (R467). -/
def execDevcfg (queue seq : Nat) (s : State) : Result :=
  event s fun s =>
    match s.commandNext 0x06 queue seq with
    | none => none
    | some e =>
      let n := e.arg 4 4
      let pairs := pairsOf (unpack 64 (n / 8) (bytesNat (s.extended e)))
      let s := s.markDispatched queue seq
      if n % 16 ≠ 0 then some (s.complete queue seq 7 0)
      else
        let (t, ok) := s.writePairs pairs
        some (t.refresh.complete queue seq (if ok then 0 else 8) 0)

/-- The tags of consecutive granules of home memory, from a number of 4 bits each; none where one is not home memory. -/
def State.tagGranules (s : State) (addr : Nat) : List Nat → Option State
  | [] => some s
  | t :: r =>
    match s.locate false addr with
    | .home d off => (s.putTag (.home d off) t).tagGranules (addr + 32) r
    | _ => none

/-- `TAGSET`: fields 0 and 1 the range, the tags two granules to a byte, the lower one in bits 3:0 (R257, R467; log 22). -/
def execTagset (queue seq : Nat) (s : State) : Result :=
  event s fun s =>
    match s.commandNext 0x07 queue seq with
    | none => none
    | some e =>
      let addr := s.field e 0 / 32 * 32
      let n := s.field e 1 / 32
      let tags := unpack 4 n (bytesNat (s.extended e))
      let s := s.markDispatched queue seq
      match s.tagGranules addr tags with
      | some t => some (t.complete queue seq 0 0)
      | none => some (s.complete queue seq 8 0)

/-! ## Snapshots (R454) -/

/-- `SNAPSHOT`: the request waits for its conditions; field 0 names the job (log 22). -/
def execSnapshot (queue seq : Nat) (s : State) : Result :=
  event s fun s =>
    match s.commandNext 0x08 queue seq with
    | none => none
    | some e =>
      let job := s.field e 0
      let step := e.arg 24 8
      let s := s.markDispatched queue seq
      match tfind job s.jobs with
      | none => some (s.complete queue seq 8 0)
      | some j => some { s with jobs := tset job { j with wanted := j.wanted ++ [(queue, seq, step)] } s.jobs }

/-- The clusters of a job's partitions. -/
def State.jobClusters (s : State) (j : Job) : List Nat :=
  ((j.stages.map fun i => (s.stage i).partition).eraseDups.flatMap fun p => (s.partitionCores p).map clusterOf).eraseDups

/-- A channel has nothing queued, and what a receiver has deposited has been consumed. -/
def TensorChannel.quiet (t : TensorChannel) : Bool := t.sq.isEmpty && (t.sender || t.deposited = t.consumed)

/-- No invocation of the job runs, its channels are quiet and its barriers have nothing pending. -/
def State.quiescent (s : State) (j : Job) : Bool :=
  !(s.invocations.any fun e => (e.2.walking || e.2.running) && e.2.stages.any j.stages.contains)
    && (s.tensors.all fun e => !(e.2.bound && j.stages.contains e.2.stage) || e.2.quiet)
    && (s.jobClusters j).all fun k => (s.cluster k).barriers.all fun b => b.2.pending = 0

/-- Bytes of numbers as cells from address 0. -/
def cellsOf (l : List Nat) : List (Nat × Byte) := ((l.flatMap (natBytes 8)).zipIdx).map fun (b, i) => (i, b)

/-- The slots of a job's stages. -/
def State.jobSlots (s : State) (j : Job) : List Nat := (j.stages.map fun i => (s.stage i).slot).eraseDups

/-- What a slot holds, as numbers: code, segments, seeds, versions with their weights, and placed sections (R187). -/
def ModelSlot.numbers (m : ModelSlot) : List Nat :=
  [m.loaded.toNat, m.relocs, m.present.toNat, m.current, m.measure] ++ m.code.map (·.toNat) ++ m.segments.flatMap (fun e => [e.1, e.2])
    ++ m.seeds.flatMap (fun (i, x) => [i, x.ident.toNat, x.value.toNat]) ++ m.weights.flatMap (fun e => e.1 :: e.2.map (·.toNat))
    ++ m.placed.flatMap fun e => [e.1, e.2]

/-- The pages of the stash and snapshot regions of a die: STPOOL and SNPPOOL where a page table maps them, STLP and STHOST in place
(R332). -/
def State.regionPages (s : State) (root d : Nat) : List Loc :=
  let r (i : Nat) : Nat × Nat := (s.die d).region i
  let mapped (i : Nat) : List Loc := (rangePages (r i).1 (r i).2).filterMap fun va =>
    match s.walkPage root va with
    | .page e _ _ => some (s.locate e.hm e.pbase)
    | _ => none
  let steps (n : Nat) : List Nat := (List.range (n / 4096)).map (4096 * ·)
  mapped 0 ++ mapped 3 ++ (steps (r 1).2).map (fun o => .lp d ((r 1).1 + o)) ++ (steps (r 2).2).map fun o => .host ((r 2).1 + o)

/-- The memory of a snapshot set as location, count and value: the extents of the job, and the regions of every die as the partition of the
job's first stage maps them (log 24). -/
def State.setMemory (s : State) (j : Job) : List (Loc × Nat × Nat) :=
  let root := s.tableRoot (s.stage (j.stages.headD 0)).partition
  let l := (j.extents.flatMap fun (a, n) => (s.windowParts (n / 4096 + 2) a n).map fun p => (p.loc, p.n))
    ++ (List.range 4).flatMap fun d => (s.regionPages root d).map fun l => (l, 4096)
  l.map fun (l, n) => (l, n, s.rawRead l n)

/-- The device's snapshot set of a job (R454). -/
def State.takeSet (s : State) (j : Job) (queue seq step : Nat) : SnapshotSet :=
  { step, queue, mark := seq, digest := 0, memory := s.setMemory j, slots := s.slots.filter fun e => (s.jobSlots j).contains e.1,
    stash := s.dies.map fun e => (e.1, (e.2.stash, e.2.snaps)), tensors := s.tensors.filter fun e => j.stages.contains e.2.stage,
    phase := s.regs.phase }

/-- The contents of a snapshot set in parts: extents and regions, slots, stash entries and records, channels, PHASECNT and the mark. -/
def SnapshotSet.parts (z : SnapshotSet) : List (List (Nat × Byte)) :=
  (z.memory.map fun (_, n, x) => (natBytes n x).zipIdx.map fun (b, i) => (i, b))
    ++ (z.slots.map fun e => cellsOf (e.1 :: e.2.numbers))
    ++ (z.stash.flatMap fun e =>
        (e.2.1.map fun (key, x) => cellsOf ([key, x.state, x.stage, x.mode, x.header, x.len, x.loc, x.checksum.isSome.toNat,
            (x.checksum.map (·.toNat)).getD 0, x.err, x.fmt, x.rows, x.rowLen, x.copyBytes, x.payload] ++ x.granules))
          ++ e.2.2.map fun r => cellsOf ([r.stage, r.tag, r.scope, r.step.toNat] ++ r.granules ++ r.covered))
    ++ (z.tensors.map fun (i, t) => cellsOf [i, t.w, t.sent, t.consumed, t.deposited, t.seq, t.rbase])
    ++ [cellsOf [z.phase.toNat, z.mark]]

/-- The header of a snapshot set. -/
def snapshotHeader (job step pos phase mark len : Nat) (digest : List Byte) : List Byte :=
  natBytes 4 0x4B57534E ++ natBytes 4 job ++ natBytes 8 step ++ natBytes 4 pos ++ natBytes 4 phase ++ natBytes 8 mark
    ++ natBytes 8 len ++ natBytes 24 0 ++ digest

/-- `SNAPSHOT_SEND`: the set of the oldest waiting snapshot goes, header and contents, to two holders once the job is quiescent. -/
def execSnapshotSend (job : Nat) (s : State) : Result :=
  event s fun s =>
    match tfind job s.jobs with
    | none => none
    | some j =>
      match j.wanted, j.sent with
      | (queue, seq, step) :: _, none =>
        if !s.quiescent j then none
        else
          let set := s.takeSet j queue seq step
          let body := Config.snapshotBytes set.parts
          let digest := sha256 body
          let head := snapshotHeader job step (s.regs.tcoord.extractLsb' 0 21).toNat s.regs.phase.toNat seq (96 + body.length) digest
          let s := { s with jobs := tset job { j with sent := some { set with digest := bytesNat digest }, answered := [] } s.jobs }
          some ((j.holders.take 2).foldl (fun (s : State) h => s.send (.snapshotSet h (head ++ body))) s)
      | _, _ => none

/-- `HOLDER_DIGEST_RECEIVE`: the snapshot is complete when both holders have returned the device's own digest. -/
def execHolderDigestReceive (job holder : Nat) (digest : BitVec 256) (s : State) : Result :=
  event s fun s =>
    match tfind job s.jobs with
    | none => none
    | some j =>
      match j.wanted, j.sent with
      | (q, seq, _) :: later, some set =>
        if digest.toNat ≠ set.digest ∨ !(j.holders.take 2).contains holder then none
        else
          let answered := (holder :: j.answered).eraseDups
          if (j.holders.take 2).all answered.contains then
            let j := { j with wanted := later, sent := none, answered := [], kept := set :: j.kept.filter fun z => z.step ≠ set.step }
            some ({ s with jobs := tset job j s.jobs }.complete q seq 0 0)
          else some { s with jobs := tset job { j with answered } s.jobs }
      | _, _ => none

/-! ## Pre-emption (R407, R408, R467): fields 0 and 1 the partition and the bank (log 22) -/

/-- `PREEMPT`. -/
def execPreempt (queue seq : Nat) (s : State) : Result :=
  event s fun s =>
    match s.commandNext 0x0B queue seq with
    | none => none
    | some e =>
      let p := s.field e 0 % 16
      let b := s.field e 1 % 2
      let s := s.markDispatched queue seq
      if !s.swapAllowed p b then some (s.complete queue seq 8 0)
      else some { s with swaps := s.swaps ++ [{ partition := p, bank := b, inward := false, save := s.saveArea p, command := some (queue, seq) }] }

/-- `RESTORE`: the banks that run stop and are overwritten (log 17). -/
def execRestore (queue seq : Nat) (s : State) : Result :=
  event s fun s =>
    match s.commandNext 0x0C queue seq with
    | none => none
    | some e =>
      let p := s.field e 0 % 16
      let b := s.field e 1 % 2
      let s := s.markDispatched queue seq
      if s.swapStatus p b ≠ 2 then some (s.complete queue seq 8 0)
      else
        let w : Swap := { partition := p, bank := b, inward := true, save := s.saveArea p, command := some (queue, seq) }
        let s := { s with swaps := s.swaps ++ [w] }
        some ((s.coresInOrder p).foldl (fun (s : State) c =>
          (s.leaveWaits c b).setBank c b { (s.leaveWaits c b).bank c b with stopped := true }) s)

/-! ## Queues (R463, R467) -/

/-- A queue descriptor; none where a reserved field is set or a field is out of its range (R463). -/
def HostQueue.ofNat (x : Nat) : Option HostQueue :=
  let f (lo n : Nat) : Nat := fieldAt x lo n
  let flags := f 37 1
  let bit (i : Nat) : Bool := flags / 2 ^ i % 2 = 1
  if f 0 8 % 4096 ≠ 0 ∨ f 8 8 % 4096 ≠ 0 ∨ f 16 1 < 6 ∨ 16 < f 16 1 ∨ f 17 1 < 6 ∨ 16 < f 17 1 ∨ 255 < f 18 2 ∨ 2 ^ 20 ≤ f 20 4
      ∨ 2 ≤ f 36 1 ∨ 16 ≤ flags ∨ 1024 ≤ f 38 2 ∨ 16 ≤ f 48 1 ∨ f 49 15 ≠ 0 then none
  else
    some { ring := f 0 8, cpl := f 8 8, rlog := f 16 1, clog := f 17 1, g := f 18 2, pasid := f 20 4, head := f 24 4, tail := f 28 4,
           ctail := f 32 4, cphase := f 36 1 = 1, valid := bit 0, pnotify := bit 1, stopped := bit 3, vec := f 38 2, save := f 40 8,
           part := f 48 1 }

/-- `QCREATE`: field 0 the queue; the descriptor in the extended body (log 22). Whether it is mapped is the device's to say
(R465). -/
def execQcreate (queue seq : Nat) (s : State) : Result :=
  event s fun s =>
    match s.commandNext 0x0D queue seq with
    | none => none
    | some e =>
      let q := s.field e 0 % 1024
      let s' := s.markDispatched queue seq
      match HostQueue.ofNat (bytesNat (s.extended e) % 2 ^ 512) with
      | none => some (s'.complete queue seq 7 0)
      | some x =>
        let old := s.hostQueue q
        some ((s'.setHostQueue q { x with mapped := old.mapped, seq := old.seq, heldCpl := old.heldCpl }).complete queue seq 0 0)

/-- `QDELETE`: field 0 the queue; refused while commands of the queue are outstanding. The series of its sequence numbers goes on with
the next `QCREATE` (R459, R461). -/
def execQdelete (queue seq : Nat) (s : State) : Result :=
  event s fun s =>
    match s.commandNext 0x0E queue seq with
    | none => none
    | some e =>
      let q := s.field e 0 % 1024
      let busy := q = 0 || s.journal.any fun x => x.queue = q && x.state ≠ 3
      let s := s.markDispatched queue seq
      if busy then some (s.complete queue seq 8 0)
      else
        let slots : Table Nat := s.hostSlots.filter fun x => x.2 ≠ q
        some ((State.setHostQueue { s with hostSlots := slots } q { seq := (s.hostQueue q).seq }).complete queue seq 0 0)

/-! ## Boot and reset (R11, R473, R474) -/

/-- The boot ROM's checks of an image: the vendor key is the one whose digest is fused, the signature over the image's digest is that key's,
and the security version is not below the fused minimum (R473). -/
def imageVerified (image : List Byte) : Bool :=
  decide (Config.fusedVersion ≤ Config.imageVersion image) && sha256 (Config.imageKey image) == Config.fusedKeyDigest
    && Config.signatureValid (Config.imageKey image) (sha256 (Config.imageSigned image)) image

/-- The boot ROM verifies the image of the flash: the control cores start, or bit 0 of device status is set. -/
def State.boot (s : State) : State :=
  if imageVerified s.flash then { s with withies := true, firmware := s.flash } else { s with devStatus := s.devStatus ||| 1 }

/-- `RESET`: everything of the device but the flash is as reset leaves it; memory of the host and of other devices is not the
device's. -/
def execReset (s : State) : Result :=
  .next { State.reset with hostMem := s.hostMem, otherMem := s.otherMem, flash := s.flash, draws := s.draws }

/-- `RECOVERY_MAILBOX_WRITE`: the image stands behind the first word of the mailbox, at 0x01_0000 of BAR0, and its length in that word
(R462). An image that the boot ROM waits for runs where it verifies (R474), and bit 0 of device status is then clear; with one that
verifies, a running image rewrites the flash slot (log 24). -/
def execRecoveryMailboxWrite (image : List (BitVec 8)) (len : Nat) (s : State) : Result :=
  event s fun s =>
    let s := { s with mailbox := natBytes 4 len ++ image }
    if !imageVerified (image.take len) then some s
    else if s.withies then some { s with flash := image.take len }
    else if s.devStatus.getLsbD 0 then
      some { s with withies := true, firmware := image.take len, devStatus := s.devStatus &&& ~~~1#32 }
    else some s

/-- One copy of the journals as a single-part reset finds it: that of a die lost as a whole, and the listed entries' CRC wrong (R460). -/
def damaged (copy : List JournalEntry) (lost : Nat → Bool) (bad : List (Nat × Nat)) : List JournalEntry :=
  copy.map fun e => { e with intact := e.intact && !lost e.die && !bad.contains (e.queue, e.seq) }

/-- A copy rebuilt: an entry whose CRC is right in one copy is taken from it (R460). -/
def rebuilt (a b : List JournalEntry) : List JournalEntry := (a.zip b).map fun (x, y) => if x.intact then x else y

/-- `SINGLE_PART_RESET`, of a control core (part 0), the host interface (1), or of die d's journal the copy in home memory (2 + 2 d) or
its mirror (3 + 2 d): the copies are rebuilt from each other, and an entry whose CRC fails in both, and that has no completion yet, is
completed with JOURNAL (R460; log 24). ACCEPTED entries are dispatched, DISPATCHED ones stay with their running work, COMPLETED ones are
skipped: their states say so. -/
def execSinglePartReset (part : Nat) (lostA lostB : List (Nat × Nat)) (s : State) : Result :=
  event s fun s =>
    let copy := rebuilt (damaged s.journal (fun d => part = 2 + 2 * d) lostA) (damaged s.mirror (fun d => part = 3 + 2 * d) lostB)
    let whole := copy.map fun e => { e with intact := true }
    let dead := copy.filter fun e => !e.intact && e.state ≠ 3
    some (dead.foldl (fun (s : State) e => s.complete e.queue e.seq 6 0) { s with journal := whole, mirror := whole })

end Sys2Proof.Machine
end

