-- ==== Sys2Proof/Machine/TorusEvents.lean ====
section
/-! DEFINITION. Ports and time-outs between devices (R445 to R447), phase flits (R451), rollback and the spare's
fill (R455 to R457), all in spec/24; the power arbiter (R476, R477, spec/25). -/

namespace Sys2Proof.Machine

/-! ## Ports (R446) -/

/-- A port changes its state; FAILED of the neighbour entries follows (R451). -/
def State.setPort (s : State) (p state : Nat) : State :=
  let s := { s with ports := tset p (state, s.clk) s.ports, retries := tdel p s.retries }
  { s with regs := { s.regs with nbr := s.regs.nbr.map fun e => (e.1, if nbrPort e.2 = p then s.nbrFailed e.2 else e.2) } }

/-- `PORT_RETRAIN`: loss of signal. -/
def execPortRetrain (port : Nat) (s : State) : Result :=
  event s fun s => if (s.port port).1 = 0 ∧ port < 8 then some (s.setPort port 1) else none

/-- Every unacknowledged packet whose route begins at a port is sent again (R320, R446). -/
def State.replayPackets (s : State) (port : Nat) : State :=
  s.tensors.foldl (fun (s : State) e =>
    if e.2.sender ∧ s.regs.route e.2.peerPos = some port then
      e.2.replay.foldl (fun (s : State) p => s.send (.packet e.1 p.seq)) s
    else s) s

/-- `PORT_UP`: from RETRAIN within 100 us, or from DOWN when a takeover brings the port up (R451, R456). What has waited for the port
leaves, and the packets without an acknowledgement are sent again. -/
def execPortUp (port : Nat) (s : State) : Result :=
  event s fun s =>
    let (state, since) := s.port port
    if state = 0 ∨ (state = 1 ∧ since + 125000 < s.clk) then none else some ((((s.setPort port 0).sendHeld fun e => e.1 == port).replayPackets port).refresh)

/-- `PORT_DOWN`: 100 us after RETRAIN, or 1 us where no training pattern has come; the control core is told. -/
def execPortDown (port : Nat) (pattern : Bool) (s : State) : Result :=
  event s fun s =>
    let (state, since) := s.port port
    if state = 1 ∧ (since + 125000 ≤ s.clk ∨ (!pattern ∧ since + 1250 ≤ s.clk)) then
      some (((s.setPort port 2).send (.portDown port)).refresh)
    else none

/-- `LINK_FLIT_RETRY`: the packet layer never sees it; the 16th in a row puts the port into RETRAIN (log 69). -/
def execLinkFlitRetry (port : Nat) (s : State) : Result :=
  event s fun s =>
    if (s.port port).1 ≠ 0 ∨ 8 ≤ port then none
    else if tget 0 port s.retries = 15 then some (s.setPort port 1)
    else some { s with retries := tset port (tget 0 port s.retries + 1) s.retries }

/-- The coordinate of the neighbour at a torus port; that at a ring port the device does not know (R441, R448). -/
def Regs.portPeer (r : Regs) (p : Nat) : Option Nat :=
  let f (lo : Nat) : Nat := (r.tcoord.extractLsb' lo 7).toNat
  let dim (i : Nat) : Nat :=
    let size := f (24 + 7 * i) + 1
    (if p = 2 * i then (f (7 * i) + 1) % size else if p = 2 * i + 1 then (f (7 * i) + size - 1) % size else f (7 * i)) * 2 ^ (7 * i)
  if p < 6 then some (dim 0 + dim 1 + dim 2) else none

/-- The ports to the device at a port. -/
def Regs.portsTo (r : Regs) (p : Nat) : List Nat :=
  match r.portPeer p with
  | some pos => (List.range 6).filter fun q => r.portPeer q = some pos
  | none => [p]

/-- `DEVICE_FAILURE_DECLARE`: every port to the device at a port DOWN for TFAIL, or a fatal fault that it has reported; the control core
reports the failure to the host (R440, R456). -/
def execDeviceFailureDeclare (sign : FailureSign) (s : State) : Result :=
  event s fun s =>
    let down := (s.regs.portsTo sign.port).all fun p => (s.port p).1 = 2 && decide ((s.port p).2 + s.regs.tfail ≤ s.clk)
    if sign.port < 8 ∧ (sign.fatal ∨ down) then some ((s.send (.failureReport sign.port)).adminEvent 456 [sign.port]) else none

/-- `DIE_FATAL_FAULT` (R440). -/
def execDieFatalFault (_die : Nat) (s : State) : Result := event s fun s => some { s with failed := true }

/-! ## Domain accesses without an answer (R445) -/

/-- The ports through which accesses to a span of addresses leave the device: an extent maps its pages to one run of frames. -/
def State.spanPorts (s : State) (xt : List Extent) (a n : Nat) : List Nat :=
  xt.flatMap fun e =>
    let lo := max e.vbase (a % 2 ^ 56)
    let hi := min (e.vbase + e.units * e.unit) (a % 2 ^ 56 + n)
    if lo < hi then
      [lo, hi - 1].filterMap fun va => s.accessPort (s.locate e.hm (e.pbase + (va - e.vbase)))
    else []

/-- The spans of the tensor, or the buffer header, at an address. -/
def headerSpans (addr : Nat) (h : Option Nat) : List (Nat × Nat) :=
  (addr, 64) :: (h.toList.map fun x => ((Header.ofNat x).addr, max (Header.ofNat x).len (Header.ofNat x).cap))

/-- The global spans of a block of a copy command: its rows by their pitch, its headers and their tensors, its pattern's tensor. -/
def State.blockSpans (s : State) (cmd : CopyCmd) (b : CopyBlock) : List (Nat × Nat) :=
  let p := Pattern.ofBits (tget 0 (b.aux % 64) (s.die (dieOf cmd.who.core)).patterns)
  let rows (a pitch : Nat) : List (Nat × Nat) := [(a, (b.rows - 1) * pitch + b.len)]
  (if b.kind = 1 then [(p.base, p.rows * p.pitch)]
    else if b.from ≠ .global then []
    else if b.isHeader then headerSpans b.src cmd.heads.head? else rows b.src b.spitch)
  ++ (if b.to ≠ .global then []
    else if b.needsDst then headerSpans b.dst (cmd.heads[1]?) else rows b.dst (if b.kind = 1 then 0 else b.dpitch))

/-- The global spans that an engine works at, with what its command has captured; none where it has no work. -/
def State.engineSpans (s : State) : Writer → Option (Captured × List (Nat × Nat))
  | .copy c n => (s.headCmd c n).map fun cmd =>
      (cmd.who, (if cmd.fixed then cmd.blocks.take 1 else cmd.blocks).flatMap (s.blockSpans cmd))
  | .stash d key => ((s.die d).turn key).map fun c =>
      (c.who, (c.header, 64) :: ((tfind key (s.die d).stash).toList.flatMap fun e => [(e.payload, e.len), (e.header, 64)]))
  | .channel n => (s.tensor n).sq.head?.map fun p => (p.who, headerSpans p.headerAddr p.header)
  | .deposit n => (s.tensor n).who.map fun w => (w, [((s.tensor n).rbase, (s.tensor n).w)])
  | .collective step bucket => (s.buckets.find? fun b => b.writer == .collective step bucket).map fun b =>
      (b.who, if b.fixed then [(b.inAddr, 4 * b.count), (b.outAddr, 4 * b.count)] else [(b.descAddr, 64)])
  | .ckpt c b => (s.commands.find? fun q => (match q.ins with
      | .ckpt .. => true
      | _ => false) && q.who.core == c && q.who.bank == b).map fun q => (q.who, [(s.die (dieOf c)).region 3])
  | .migration c b => (s.migrations.find? fun m => m.who.core = c ∧ m.who.bank = b).map fun m =>
      (m.who, [(m.addr, 64), (m.stat, 8), (m.trl, 64 * m.pages.length), (m.dest, 8 * m.pages.length)] ++ m.pages.map fun p => (p, 4096))
  | _ => none

/-- The writer that an engine number of 2 and more names for `DOMAIN_ACCESS_TIMEOUT`: 2 to 5 the copy channels of a core, 6 the stash
command in turn on a key of a die, 7 and 8 the ends of a tensor channel, 9 the bucket at a position, 10 a bank's `CKPT`, 11 its migration.
-/
def State.timedEngine (s : State) (a kind b : Nat) : Option Writer :=
  match kind with
  | 2 | 3 | 4 | 5 => some (.copy a (kind - 2))
  | 6 => some (.stash a b)
  | 7 => some (.channel a)
  | 8 => some (.deposit a)
  | 9 => (s.buckets[a]?).map (·.writer)
  | 10 => some (.ckpt a b)
  | 11 => some (.migration a b)
  | _ => none

/-- The ports through which an engine's accesses leave, and the clk at which its command was issued. -/
def State.enginePorts (s : State) (who : Writer) : Option (List Nat × Captured) :=
  (s.engineSpans who).map fun (w, l) => (l.flatMap fun (a, n) => s.spanPorts (tget [] w.invocation s.extents) a n, w)

/-- `DOMAIN_ACCESS_TIMEOUT`: TLINK after its issue, an access of a core, or of an engine, to another device that has not been acknowledged
fails with `CHANNEL` (log 70). -/
def execDomainAccessTimeout (core bank index : Nat) (s : State) : Result :=
  event s fun s =>
    if bank < 2 then
      match s.ripe core bank index with
      | none => none
      | some e =>
        if e.clk + s.regs.tlink ≤ s.clk ∧ (s.partsOf (s.bank core bank) e).any fun p => (s.accessPort p.loc).isSome then
          some (s.failEntry core bank index e 0x19 e.addr)
        else none
    else
      match s.timedEngine core bank index with
      | none => none
      | some who =>
        match s.enginePorts who with
        | none => none
        | some (ports, w) =>
          if !ports.isEmpty ∧ w.issued + s.regs.tlink ≤ s.clk ∧ s.engineWaits.all (fun x => x.who ≠ who) then
            some { s with engineWaits := s.engineWaits ++
              [{ who, invocation := w.invocation, page := 0, cause := 0x19, write := true, verdict := some 0x19 }] }
          else none

/-- An access that waits for a port which has not been UP for TLINK is never acknowledged in time (log 70). -/
def State.cutOff (s : State) (ports : List Nat) : Bool :=
  ports.any fun p => (s.port p).1 ≠ 0 && decide ((s.port p).2 + s.regs.tlink ≤ s.clk)

/-! ## Phase flits (R451) -/

/-- PHASE on every UP port; for a bypassed ring port by the torus port towards its peer, if that is UP. -/
def State.sendPhase (s : State) : State :=
  let flits := ((List.range 8).map fun p => Flit.phase p s.regs.phase.toNat).filter fun f => (s.outPort f).all fun p => (s.port p).1 = 0
  { flits.foldl State.send s with lastPhase := s.clk }

/-- `PHASE_FLIT_SEND`. -/
def execPhaseFlitSend (s : State) : Result := event s fun s => some s.sendPhase

/-- `PHASE_FLIT_RECEIVE`: LAST of every valid entry with the port, unless it is frozen. -/
def execPhaseFlitReceive (port value : Nat) (s : State) : Result :=
  event s fun s =>
    let nbr := s.regs.nbr.map fun e =>
      (e.1, if e.2.getLsbD 32 ∧ nbrPort e.2 = port ∧ !e.2.getLsbD 39 then (e.2 &&& ~~~(maskBits 0 32)) ||| BitVec.ofNat 64 (value % 2 ^ 32)
        else e.2)
    some ({ s with regs := { s.regs with nbr } }.refresh)

/-! ## Recovery of a job (R343, R453, R455) -/

/-- The stash commands and entries of tags of a stage are gone, with their snapshot records. -/
def State.dropStash (s : State) (i : Nat) (tags : List Nat) : State :=
  let s := s.dies.foldl (fun (s : State) e =>
    (e.2.stashRunning.filter fun c => c.who.stage = i && tags.contains (c.key % 65536)).foldl (fun (s : State) c =>
      let t := s.stopStash e.1 c.id
      t.settleKey e.1 c.key ((t.die e.1).stashRunning.length + 1)) s) s
  { s with dies := s.dies.map fun (d, x) =>
      (d, { x with stash := x.stash.filter fun e => !(e.2.stage = i && tags.contains (e.1 % 65536)),
                   snaps := x.snaps.filter fun r => !(r.stage = i && tags.contains r.tag) }) }

/-- The microbatches of a stage whose step a test selects are dropped: arrivals, tags, items and what the stash engine holds of them. The
control core's recovery ends a tag, abandoned or not, in this way (R343). -/
def State.dropMicrobatches (s : State) (i : Nat) (gone : SReg → Bool) : State :=
  let x := s.stage i
  let drops (r : QRecord) : Bool := r.fromItem && gone ((r.words[1]?).getD 0)
  let s := s.dropStash i ((x.tags.filter fun t => gone t.2.f.step).map (·.1))
  let s := s.setStage i { x with fArr := x.fArr.filter fun a => !gone a.step, bArr := x.bArr.filter fun a => !gone a.step,
                                 tags := x.tags.filter fun t => !gone t.2.f.step }
  ((x.queueNumbers i).foldl (fun (s : State) q =>
    let w := s.wq q
    s.setWq q { w with records := w.records.filter fun r => !drops r, bound := w.bound.filter fun e => !drops e.2.2.1,
                       placed := w.placed.filter fun p => !drops p.2 }) s).retire x.slot

/-- Everything that a stage holds of its microbatches, and what its queues hold, is gone. -/
def State.clearStage (s : State) (i : Nat) : State :=
  let s := s.dropMicrobatches i fun _ => true
  let x := s.stage i
  (x.queueNumbers i).foldl (fun (s : State) q => s.setWq q { s.wq q with records := [], reserved := 0, bound := [], placed := [] })
    (s.setStage i { x with fReserved := 0, bReserved := 0 })

/-- The channel of a flit between channel ends. -/
def Flit.channel : Flit → Option Nat
  | .window c _ | .consumed c _ | .packet c _ | .ack c _ => some c
  | .via _ f => f.channel
  | _ => none

/-- Channels take a saved state, with an empty replay buffer and nothing of theirs on the way (R455). -/
def State.restoreTensors (s : State) (l : Table TensorChannel) : State :=
  let other (f : Flit) : Bool := f.channel.all fun c => (tfind c l).isNone
  { s with tensors := l.foldl (fun m (e : Nat × TensorChannel) => tset e.1 { e.2 with replay := [], sq := [] } m) s.tensors,
           sent := s.sent.filter other, held := s.held.filter fun e => other e.2 }

/-- A channel as reset leaves it, with its binding (R317, R457). -/
def TensorChannel.cleared (t : TensorChannel) : TensorChannel :=
  { bound := t.bound, sender := t.sender, stage := t.stage, peer := t.peer, peerPos := t.peerPos }

/-- The channels of some stages reset to zero (R457). -/
def State.clearTensors (s : State) (which : Nat → Bool) : State :=
  s.restoreTensors ((s.tensors.filter fun e => which e.2.stage).map fun e => (e.1, e.2.cleared))

/-- Bytes written at locations as one write, or the die that lacks batts and the need (R244). -/
def State.writeAll (s : State) (l : List (Loc × Nat × Nat)) : State ⊕ (Nat × Nat) :=
  let t := l.foldl (fun (s : State) (loc, n, x) => s.rawWrite loc n x) s
  account s t .fill (touches (l.map fun (loc, n, _) => ⟨0, n, none, loc⟩))

/-- A command of a job: of one of its invocations or slots, or a snapshot of it (log 24). -/
def State.ofJob (s : State) (job : Nat) (j : Job) (e : JournalEntry) : Bool :=
  (s.invocations.any fun v => v.2.queue = e.queue && v.2.seq = e.seq && v.2.stages.any j.stages.contains)
    || (match e.arg 0 1 with
      | 0x01 | 0x02 | 0x03 | 0x04 => (s.jobSlots j).contains (e.arg 24 1)
      | 0x08 => s.field e 0 = job
      | _ => false)

/-- A journalled command of a job that a rollback ends: without a completion, and above the mark in the snapshot's queue, whose series the
mark is of (R455; log 24). -/
def State.rolledBack (s : State) (job : Nat) (j : Job) (set : SnapshotSet) (e : JournalEntry) : Bool :=
  e.state ≠ 3 && s.ofJob job j e && (e.queue ≠ set.queue || decide (set.mark < e.seq))

/-- Step 1: every bank that runs a task of the job is discarded, and the job's engine commands stop. -/
def State.stopJob (s : State) (j : Job) : State :=
  let s := s.stopEngines fun w => j.stages.contains w.stage
  let s := s.discardTasks fun t => j.stages.contains t.stage
  s.endInvocations ((s.invocations.filter fun e => e.2.stages.any j.stages.contains).map (·.1)).contains

/-- Steps 3 and 4, once the memory of the set has been written: slots, stash tables and records, channels, PHASECNT and the identities of
the collective engine; no bank of the job issues until the whole job has finished. -/
def State.restoreSet (s : State) (job : Nat) (j : Job) (set : SnapshotSet) : State :=
  let s := j.stages.foldl (fun (s : State) i => s.clearStage i) s
  let s := s.restoreTensors set.tensors
  let kept (step : Nat) : Bool := decide (step ≤ set.step)
  let s := { s with slots := set.slots.foldl (fun m (e : Nat × ModelSlot) => tset e.1 e.2 m) s.slots,
                    dies := s.dies.map (fun (e : Nat × Die) =>
                      (e.1, { e.2 with stash := (tget ([], []) e.1 set.stash).1, snaps := (tget ([], []) e.1 set.stash).2 })),
                    remembered := s.remembered.filter fun i => kept i.1,
                    contributions := s.contributions.filter fun i => kept i.1.1,
                    failedBuckets := s.failedBuckets.filter fun i => kept i.1,
                    earlyFailures := s.earlyFailures.filter fun i => kept i.1,
                    markCopies := s.markCopies.filter fun i => kept i.1,
                    fill := none,
                    jobs := tset job { j with wanted := [], sent := none, answered := [], rolling := true,
                                              kept := j.kept.filter fun z => kept z.step } s.jobs }
  (s.writePhase (set.phase.setWidth 64)).1.refresh

/-- `ROLLBACK`: to the device's snapshot of the step that the job's last complete one has, as its holders keep it; `done`, once every
device of the job has finished step 4, lets the job go on (R455). A device whose fill is under way has no set: it stops the job and its
fill starts anew (R458). For a class-E job a step of which there is no snapshot is the one whose microbatches this device's replica drops
(R453), and `done` the step boundary at which the replica's channels are reset (R457). -/
def execRollback (job step : Nat) (done : Bool) (s : State) : Result :=
  event s fun s =>
    match tfind job s.jobs with
    | none => none
    | some j =>
      let mine (i : Nat) : Bool := j.stages.contains i
      if done then
        if j.rolling then some (State.refresh { s with jobs := tset job { j with rolling := false } s.jobs })
        else if j.elastic then some (s.clearTensors mine).refresh
        else none
      else
        match j.kept.find? fun z => z.step = step with
        | none =>
          if s.fill.isSome then some ({ s with fill := some {} }.stopJob j)
          else if j.elastic then
            some (j.stages.foldl (fun (s : State) i => s.dropMicrobatches i fun x => x = BitVec.ofNat 64 step) s).refresh
          else none
        | some set =>
          match s.standing .fill with
          | .waiting => none
          | _ =>
            let gone := s.journal.filter (s.rolledBack job j set)
            let t := gone.foldl (fun (s : State) e => s.cancelEntry e e.queue 5) (s.stopJob j)
            match (t.forgetWriter .fill).writeAll set.memory with
            | .inl t => some (t.restoreSet job j set)
            | .inr (d, need) => some ((s.forgetWriter .fill).engineWaitBatts .fill d need)

/-! ## The fill of a spare (R456 to R458) -/

/-- A model slot of a fill, translated as `LOAD` translates its image; one with a defect stays empty (R70, R71, R457). -/
def State.fillSlot (s : State) (slot partition base : Nat) (image : List Byte) : State :=
  match s.translate image partition base with
  | .inl _ => { s with slots := tset slot {} s.slots }
  | .inr t => { s with slots := tset slot (t.slot image) s.slots }.configureSlot slot

/-- The weights of a version of a slot, which becomes CUR (R187). -/
def State.fillWeights (s : State) (slot v : Nat) (weights : List Byte) : State :=
  let m := tget {} slot s.slots
  { s with slots := tset slot { m with weights := tset v weights m.weights, present := m.present ||| (1#4 <<< v), current := v } s.slots }

/-- The bytes that a chunk moves. -/
def fillSize (p : FillPart) : Nat :=
  (p.bytes.map fun e => e.2.length).sum + (p.slots.map fun e => e.2.2.2.length).sum + (p.weights.map fun e => e.2.2.length).sum

/-- What a chunk of a fill holds, written, or the die that lacks batts for it and the need (R244, R457). -/
def State.fillWith (s : State) (p : FillPart) : State ⊕ (Nat × Nat) :=
  match s.writeAll (p.bytes.flatMap fun (a, l) =>
      (partData (s.windowParts (l.length / 4096 + 2) a l.length) (bytesNat l)).map fun e => (e.1.loc, e.1.n, e.2)) with
  | .inr e => .inr e
  | .inl s =>
    let s := p.slots.foldl (fun (s : State) (slot, partition, base, image) => s.fillSlot slot partition base image) s
    let s := p.weights.foldl (fun (s : State) (slot, v, weights) => s.fillWeights slot v weights) s
    .inl (p.channels.foldl (fun (s : State) (c : FillChannel) =>
      s.setTensor c.chan { s.tensor c.chan with w := c.w, sent := c.sent, consumed := c.consumed, deposited := c.deposited, seq := c.seq,
                                                rbase := c.rbase, replay := [], sq := [] }) s)

/-- A class-E fill leaves no stash, snapshot or channel state (R457). -/
def State.emptied (s : State) : State :=
  let s : State := { s with dies := s.dies.map fun (d, x) => (d, { x with stash := [], snaps := [] }) }
  s.clearTensors fun _ => true

/-- The state after a chunk of a fill has been written; at the end of the fill the digest of the whole is compared, and where it differs the
fill starts at chunk 0 again, from the same source (R457). -/
def Fill.after (f : Fill) (part : FillPart) (last : Bool) (digest : BitVec 256) : Fill :=
  let parts := part :: f.parts
  let g : Fill := { f with next := f.next + 1, source := part.source, parts }
  if !last then g
  else if bytesNat (sha256 (Config.fillBytes parts.reverse)) = digest.toNat then { g with stage := 1 }
  else { source := part.source }

/-- `FILL_CHUNK_ACK`: the next chunk of a spare's fill, of at most 64 MiB, is written and acknowledged, whichever source it comes from
(R457, R458). Where no source is left, the fill fails, the host is told, and nothing more follows. Once the host has written PHASECNT and
the neighbours have replayed, the spare is READY (R456). -/
def execFillChunkAck (chunk : Nat) (part : FillPart) (last : Bool) (digest : BitVec 256) (lost : Bool) (s : State) : Result :=
  event s fun s =>
    let f := s.fill.getD {}
    if chunk ≠ f.next then none
    else if f.stage = 2 then (if last then some ({ s with fill := none }.send .ready) else none)
    else if f.stage ≠ 0 then none
    else if lost then some ({ s with fill := some { f with stage := 3 } }.adminStatus 458 0x0A)
    else if 2 ^ 26 < fillSize part then none
    else
      match s.standing .fill with
      | .waiting => none
      | _ =>
        let s := if chunk = 0 ∧ part.elastic then s.emptied else s
        match (s.forgetWriter .fill).fillWith part with
        | .inr (d, need) => some ((s.forgetWriter .fill).engineWaitBatts .fill d need)
        | .inl t => some ({ t with fill := some (f.after part last digest) }.send (.fillAck chunk))

/-! ## Power (R476 to R478) -/

/-- FLOOR, CEIL and PRIO that apply to an island: those of its register in expert mode, else the reset values. -/
def Regs.shares (r : Regs) (i : Nat) : Nat × Nat × Nat :=
  let v := if r.pwrctl.getLsbD 12 then r.island i else pislReset
  ((v.extractLsb' 0 12).toNat, (v.extractLsb' 12 12).toNat, (v.extractLsb' 24 4).toNat)

/-- Equal shares of `rest` for wants, each at most its want; whole W (log 24). -/
def equalShares : Nat → Nat → List Nat → List Nat
  | 0, _, l => l.map fun _ => 0
  | fuel + 1, rest, l =>
    let n := l.countP (0 < ·)
    if n = 0 ∨ rest < n then l.map fun _ => 0
    else
      let q := rest / n
      let now := l.map (min q)
      let more := equalShares fuel (rest - now.sum) ((l.zip now).map fun e => e.1 - e.2)
      (now.zip more).map fun e => e.1 + e.2

/-- The grants of the 24 islands (R477). -/
def Regs.grants (r : Regs) (demand : List Nat) : List Nat :=
  let floors := (List.range 24).map fun i => (r.shares i).1
  let wants := (List.range 24).map fun i => min ((demand[i]?).getD 0) (r.shares i).2.1 - (r.shares i).1
  let step (acc : List Nat × Nat) (level : Nat) : List Nat × Nat :=
    let l := wants.zipIdx.map fun (w, i) => if (r.shares i).2.2 = level then w else 0
    let given := equalShares 24 acc.2 l
    ((acc.1.zip given).map fun e => e.1 + e.2, acc.2 - given.sum)
  ((List.range 16).reverse.foldl step (floors, (r.pwrctl.extractLsb' 0 12).toNat - floors.sum)).1

/-- The compute island of a core (R476). -/
def islandOf (c : Nat) : Nat := clusterOf c / 3

/-- A core holds issue up to a clk for power. -/
def State.holdPower (s : State) (c upTo : Nat) : State :=
  s.setCore c { s.core c with powerUntil := max (s.core c).powerUntil upTo }

/-- `POWER_ARBITRATION`, every 10 us: DRAW and GRANT of every island; the cores of a compute island over its grant hold issue for one clk
at least, those that are named up to their clk (R477). -/
def execPowerArbitration (draw : List Nat) (demand : List Nat) (hold : List (Nat × Nat)) (s : State) : Result :=
  event s fun s =>
    if s.clk < s.lastArbitration + 12500 then none
    else
      let grants := s.regs.grants demand
      let exceeds (c : Nat) : Bool := decide ((grants[islandOf c]?).getD 0 < (draw[islandOf c]?).getD 0)
      let pgrant : Table SReg := (List.range 24).map fun i =>
        (i, BitVec.ofNat 64 ((grants[i]?).getD 0 % 4096 + 4096 * ((draw[i]?).getD 0 % 4096)))
      let s := { s with regs := { s.regs with pgrant }, lastArbitration := s.clk }
      let s := (s.cores.filter fun e => exceeds e.1).foldl (fun (s : State) e => s.holdPower e.1 (s.clk + 1)) s
      some ((hold.filter fun e => exceeds e.1).foldl (fun (s : State) e => s.holdPower e.1 e.2) s)

/-- The arbitration of this clk, with the draws, demands and holds of the device (log 24). -/
def State.arbitrate (s : State) : Result :=
  execPowerArbitration ((List.range 24).map (Config.islandDraw s.clk)) ((List.range 24).map (Config.islandDemand s.clk))
    (s.cores.map fun e => (e.1, s.clk + Config.powerHold s.clk e.1)) s

end Sys2Proof.Machine
end

