-- ==== Sys2Proof/Machine/SpdmEvents.lean ====
section
/-! DEFINITION. Attestation over SPDM (R475, spec/25): what each answer says; its encoding is that of DMTF SPDM 1.3, which the spec
does not give (log 24). -/

namespace Sys2Proof.Machine

/-- An answer is sent; the request and it join the transcript. -/
def State.spdmAnswer (s : State) (kind : Nat) (request : List Byte) (contents : List (List Byte)) : State :=
  let answer := Config.spdmMessage kind (request :: contents)
  { s with spdm := s.spdm ++ request ++ answer, sent := s.sent ++ [Flit.spdm answer] }

/-- The registers that are measured as the device configuration. -/
def Regs.configuration (r : Regs) : List (BitVec 64) :=
  [r.arbctl, BitVec.ofNat 64 r.lead, r.tcoord, r.domcfg, r.ringcfg, r.pwrctl, BitVec.ofNat 64 r.tlink, BitVec.ofNat 64 r.tfail,
    BitVec.ofNat 64 r.teardown, BitVec.ofNat 64 r.frame]
    ++ r.nbr.map (·.2) ++ r.rport.map (·.2) ++ r.ptroot.map (·.2) ++ r.pvec.map (·.2) ++ r.pisl.map (·.2)

/-- The measurements with their indices. -/
def State.measurements (s : State) : List (Nat × List Byte) :=
  [(1, Config.bootRomVersion), (2, sha256 s.firmware), (3, sha256 (Config.configurationBytes s.regs.configuration))]
    ++ ((List.range 32).map fun i => (16 + i, natBytes 32 (tget {} i s.slots).measure))
    ++ [(48, natBytes 8 s.regs.tcoord.toNat)]

/-- The measurements as contents of a message. -/
def State.measurementContents (s : State) : List (List Byte) := s.measurements.map fun (i, l) => BitVec.ofNat 8 i :: l

/-- `SPDM_GET_VERSION`: version 1.3; a new transcript begins. -/
def execSpdmGetVersion (request : List (BitVec 8)) (s : State) : Result :=
  event s fun s => some ({ s with spdm := [] }.spdmAnswer 1 request [[0x13]])

/-- What is offered beside the version exchange, each one a flag: certificates, CHALLENGE, measurements, and not KEY_EXCHANGE (R475). -/
def capabilities : List (List Byte) := [[1], [1], [1], [0]]

/-- `SPDM_GET_CAPABILITIES`. -/
def execSpdmGetCapabilities (request : List (BitVec 8)) (s : State) : Result :=
  event s fun s => some (s.spdmAnswer 2 request capabilities)

/-- `SPDM_NEGOTIATE_ALGORITHMS`: ECDSA P-256 and SHA-256 only. -/
def execSpdmNegotiateAlgorithms (request : List (BitVec 8)) (s : State) : Result :=
  event s fun s => some (s.spdmAnswer 3 request [natBytes 4 0x10, natBytes 4 1])

/-- `SPDM_GET_DIGESTS`: the digest of the certificate chain. -/
def execSpdmGetDigests (request : List (BitVec 8)) (s : State) : Result :=
  event s fun s => some (s.spdmAnswer 4 request [sha256 Config.certificateChain])

/-- `SPDM_GET_CERTIFICATE`: the certificate chain. -/
def execSpdmGetCertificate (request : List (BitVec 8)) (s : State) : Result :=
  event s fun s => some (s.spdmAnswer 5 request [Config.certificateChain])

/-- `SPDM_CHALLENGE`: signed with the identity key over the transcript. -/
def execSpdmChallenge (request : List (BitVec 8)) (s : State) : Result :=
  event s fun s =>
    some (s.spdmAnswer 6 request [sha256 Config.certificateChain, sha256 s.measurementContents.flatten, Config.signature (s.spdm ++ request)])

/-- `SPDM_GET_MEASUREMENTS`: the measurements by index. -/
def execSpdmGetMeasurements (request : List (BitVec 8)) (s : State) : Result :=
  event s fun s => some (s.spdmAnswer 7 request s.measurementContents)

end Sys2Proof.Machine
end

