-- ==== Sys2Proof/Machine/RegEvents.lean ====
section
/-! DEFINITION. Writes of registers as the device configuration or a queued CSR write brings them (R247 to R249, spec/12; R330,
spec/16; R332, spec/17; R417, R420, R423, spec/22; R441, R449, R451, spec/24; R478, spec/25), and words that are no
instruction (R39, R40, spec/02). A refused write leaves the register as it was. -/

namespace Sys2Proof.Machine

/-- `CMPCTL_WRITE` (R247). -/
def execCmpctlWrite (die : Nat) (value : BitVec 64) (s : State) : Result := event s fun s => some (s.writeCmpctl die value).1

/-- `CMPWM_WRITE` (R248). -/
def execCmpwmWrite (die : Nat) (value : BitVec 64) (s : State) : Result := event s fun s => some (s.writeCmpwm die value).1

/-- `CMPSTAT_REFUSED_CLEAR` (R249). -/
def execCmpstatRefusedClear (die : Nat) (s : State) : Result :=
  event s fun s => some (s.setDie die { s.die die with refused := false })

/-- `STASH_REGION_WRITE` (R332): registers 0 to 3 the regions, from 4 on the policies. -/
def execStashRegionWrite (die reg : Nat) (value : BitVec 64) (s : State) : Result :=
  event s fun s =>
    if reg < 4 then some (s.writeRegion die reg value).1
    else if reg < 20 then some (s.writePolicy die (reg - 4) value).1
    else none

/-- A wake of a core (R423): it ends a held `IDLE`, or sets the wake-pending flag. -/
def State.wakeWrite (s : State) (c : Nat) : State :=
  let x := s.core c
  if x.bank0.idle ∨ x.bank1.idle then s.wakeCore c else s.setCore c { x with wakePending := true }

/-- `WAKE_WRITE` (R423). -/
def execWakeWrite (core : Nat) (s : State) : Result := event s fun s => some (s.wakeWrite core)

/-- `BARW_WRITE` (R420). -/
def execBarwWrite (cluster reg : Nat) (value : BitVec 64) (s : State) : Result :=
  event s fun s => if reg < 128 then some (s.writeBarw cluster reg value).1 else none

/-- `RINGCFG_WRITE` (R449). -/
def execRingcfgWrite (value : BitVec 64) (s : State) : Result := event s fun s => some (s.writeRingcfg value).1

/-- `RPORT_WRITE` (R451). -/
def execRportWrite (port : Nat) (value : BitVec 64) (s : State) : Result :=
  event s fun s => if port < 2 then some (s.writeRport port value).1.refresh else none

/-- `ARBCTL_WRITE` (R330). -/
def execArbctlWrite (value : BitVec 64) (s : State) : Result := event s fun s => some (s.writeArbctl value).1

/-- `PWRCTL_WRITE` (R478): register 0 is PWRCTL, n + 1 is PISL n. -/
def execPwrctlWrite (reg : Nat) (value : BitVec 64) (s : State) : Result :=
  event s fun s => if reg < 25 then some (s.writePower reg value).1 else none

/-- `TCOORD_WRITE` (R441). -/
def execTcoordWrite (value : BitVec 64) (s : State) : Result := event s fun s => some (s.writeTcoord value).1

/-- `REGISTER_WRITE`: a register by its number in the CSR map, or by the model's own from 0x1000 on (R417; log 16). -/
def execRegisterWrite (die reg : Nat) (value : BitVec 64) (s : State) : Result :=
  event s fun s => some (s.writeRegister (Config.clustersPerDie * (die % 4)) reg value).1.refresh

/-- `NON_INSTRUCTION_ENCODING`: the issue trap of a bundle that breaks R39 or holds a slot with no instruction (R40). -/
def execNonInstructionEncoding (cause pos : Nat) (s : State) : Result :=
  event s fun s => if (cause = 1 ∨ cause = 2 ∨ cause = 4) ∧ pos < 8 then some (s.takeIssueTrap cause pos 0) else none

end Sys2Proof.Machine
end

