-- ==== Sys2Proof/Machine/Scalar.lean ====
section
/-! DEFINITION. The prefix, the extension and the scalar class (R24, R43, R103 to R112, spec/01, 02 and 05). -/

namespace Sys2Proof.Machine

/-! ## Prefix and extension -/

/-- `PFX`: the modes of its own bundle (R24, R104). -/
def execPfx (rm : BitVec 3) (sat : BitVec 1) (mask : BitVec 4) (strict : BitVec 16) (s : State) : Result :=
  issueSlot (.pfx rm sat mask strict) s fun s =>
    { s with ctx := { s.ctx with rm := rm.toNat, sat := sat = 1, maskReg := mask.toNat, strict } }

/-- `EXT`: its payload joins the immediate of the slot that follows (R43, R104). -/
def execExt (pay : BitVec 25) (s : State) : Result :=
  issueSlot (.ext pay) s fun s => { s with ctx := { s.ctx with ext := s.ctx.ext ++ [pay] } }

/-! ## Integer arithmetic -/

/-- A result computed in the working width: 64 bits, or 32 bits sign-extended with MOD = 1 (R47, R106). -/
def wide (mod : BitVec 1) (f64 : SReg → SReg → SReg) (f32 : Word → Word → Word) (a b : SReg) : SReg :=
  if mod = 1 then (f32 (a.setWidth 32) (b.setWidth 32)).signExtend 64 else f64 a b

/-- A two-source operation with a 32-bit form. -/
def alu2 (i : Instr) (lat : Nat) (rd ra rb : BitVec 6) (mod : BitVec 1) (f64 : SReg → SReg → SReg)
    (f32 : Word → Word → Word) (s : State) : Result :=
  issueSlot i s fun s => s.landS lat rd (wide mod f64 f32 (s.sa ra) (s.sa rb))

/-- A two-source operation of 64 bits. -/
def alu (i : Instr) (lat : Nat) (rd ra rb : BitVec 6) (f : SReg → SReg → SReg) (s : State) : Result :=
  issueSlot i s fun s => s.landS lat rd (f (s.sa ra) (s.sa rb))

/-- A one-source operation of 64 bits. -/
def alu1 (i : Instr) (lat : Nat) (rd ra : BitVec 6) (f : SReg → SReg) (s : State) : Result :=
  issueSlot i s fun s => s.landS lat rd (f (s.sa ra))

def execAdd (rd ra rb : BitVec 6) (mod : BitVec 1) (s : State) : Result :=
  alu2 (.add rd ra rb mod) 1 rd ra rb mod (· + ·) (· + ·) s

def execSub (rd ra rb : BitVec 6) (mod : BitVec 1) (s : State) : Result :=
  alu2 (.sub rd ra rb mod) 1 rd ra rb mod (· - ·) (· - ·) s

/-- `ADDI` (R106, R109). -/
def execAddi (rd ra : BitVec 6) (imm : BitVec 8) (s : State) : Result :=
  issueSlot (.addi rd ra imm) s fun s => s.landS 1 rd (s.sa ra + BitVec.ofInt 64 (immSigned s.ctx.ext 8 imm))

/-- `ADDSH`: b shifted left by 3, or by 9 with MOD = 1 (R47, R106). -/
def execAddsh (rd ra rb : BitVec 6) (mod : BitVec 1) (s : State) : Result :=
  alu (.addsh rd ra rb mod) 1 rd ra rb (fun a b => a + (b <<< (if mod = 1 then 9 else 3))) s

def execMul (rd ra rb : BitVec 6) (mod : BitVec 1) (s : State) : Result :=
  alu2 (.mul rd ra rb mod) 3 rd ra rb mod (· * ·) (· * ·) s

/-- `MULH`: bits 127:64 of the signed, or with MOD = 1 unsigned, product (R106). -/
def execMulh (rd ra rb : BitVec 6) (mod : BitVec 1) (s : State) : Result :=
  alu (.mulh rd ra rb mod) 3 rd ra rb (fun a b =>
    if mod = 1 then BitVec.ofNat 64 (a.toNat * b.toNat / 2 ^ 64) else BitVec.ofInt 64 (a.toInt * b.toInt / 2 ^ 64)) s

/-- Signed division truncating toward zero; by zero all ones, the overflow wraps to a (R107). -/
def divSigned {w : Nat} (a b : BitVec w) : BitVec w := if b = 0 then BitVec.allOnes w else BitVec.ofInt w (a.toInt.tdiv b.toInt)
/-- Unsigned division; by zero all ones (R107). -/
def divUnsigned {w : Nat} (a b : BitVec w) : BitVec w := if b = 0 then BitVec.allOnes w else a / b
/-- Remainder with the sign of the dividend; by zero a (R107). -/
def remSigned {w : Nat} (a b : BitVec w) : BitVec w := if b = 0 then a else BitVec.ofInt w (a.toInt.tmod b.toInt)

def execDiv (rd ra rb : BitVec 6) (mod : BitVec 1) (s : State) : Result :=
  alu2 (.div rd ra rb mod) 18 rd ra rb mod divSigned divSigned s

def execDivu (rd ra rb : BitVec 6) (mod : BitVec 1) (s : State) : Result :=
  alu2 (.divu rd ra rb mod) 18 rd ra rb mod divUnsigned divUnsigned s

def execRem (rd ra rb : BitVec 6) (mod : BitVec 1) (s : State) : Result :=
  alu2 (.rem rd ra rb mod) 18 rd ra rb mod remSigned remSigned s

def execAnd (rd ra rb : BitVec 6) (s : State) : Result := alu (.and rd ra rb) 1 rd ra rb (· &&& ·) s
def execOr (rd ra rb : BitVec 6) (s : State) : Result := alu (.or rd ra rb) 1 rd ra rb (· ||| ·) s
def execXor (rd ra rb : BitVec 6) (s : State) : Result := alu (.xor rd ra rb) 1 rd ra rb (· ^^^ ·) s
def execAndn (rd ra rb : BitVec 6) (s : State) : Result := alu (.andn rd ra rb) 1 rd ra rb (fun a b => a &&& ~~~b) s

/-- A shift amount: the low bits of b, six of them, or five in the 32-bit form (R106). -/
def amount {w : Nat} (n : Nat) (b : BitVec w) : Nat := b.toNat % 2 ^ n

def execShl (rd ra rb : BitVec 6) (mod : BitVec 1) (s : State) : Result :=
  alu2 (.shl rd ra rb mod) 1 rd ra rb mod (fun a b => a <<< amount 6 b) (fun a b => a <<< amount 5 b) s

def execShr (rd ra rb : BitVec 6) (mod : BitVec 1) (s : State) : Result :=
  alu2 (.shr rd ra rb mod) 1 rd ra rb mod (fun a b => a >>> amount 6 b) (fun a b => a >>> amount 5 b) s

def execSar (rd ra rb : BitVec 6) (mod : BitVec 1) (s : State) : Result :=
  alu2 (.sar rd ra rb mod) 1 rd ra rb mod (fun a b => a.sshiftRight (amount 6 b))
    (fun a b => a.sshiftRight (amount 5 b)) s

def execShli (rd ra imm : BitVec 6) (s : State) : Result :=
  alu1 (.shli rd ra imm) 1 rd ra (· <<< imm.toNat) s

def execShri (rd ra imm : BitVec 6) (s : State) : Result :=
  alu1 (.shri rd ra imm) 1 rd ra (· >>> imm.toNat) s

def execSari (rd ra imm : BitVec 6) (s : State) : Result :=
  alu1 (.sari rd ra imm) 1 rd ra (fun a => a.sshiftRight imm.toNat) s

/-- Leading zero bits: the width less the bits of the number (R106). -/
def leadingZeros {w : Nat} (a : BitVec w) : Nat := if a = 0 then w else w - 1 - Nat.log2 a.toNat

/-- Number of one bits. -/
def ones {w : Nat} (a : BitVec w) : Nat := (List.range w).countP fun i => a.getLsbD i

/-- A bit count over the working width (R106). -/
def countBits (mod : BitVec 1) (f64 : SReg → Nat) (f32 : Word → Nat) (a : SReg) : SReg :=
  BitVec.ofNat 64 (if mod = 1 then f32 (a.setWidth 32) else f64 a)

def execClz (rd ra : BitVec 6) (mod : BitVec 1) (s : State) : Result :=
  alu1 (.clz rd ra mod) 1 rd ra (countBits mod leadingZeros leadingZeros) s

def execPopc (rd ra : BitVec 6) (mod : BitVec 1) (s : State) : Result :=
  alu1 (.popc rd ra mod) 1 rd ra (countBits mod ones ones) s

/-- Position and mask of a bit field described by b (R108). -/
def fieldMask (b : SReg) : Nat × SReg :=
  let p := (b.extractLsb' 0 6).toNat
  let w := min (b.extractLsb' 8 7).toNat (64 - p)
  (p, if w = 64 then BitVec.allOnes 64 else BitVec.ofNat 64 (2 ^ w - 1) <<< p)

def execBext (rd ra rb : BitVec 6) (s : State) : Result :=
  alu (.bext rd ra rb) 1 rd ra rb (fun a b => (a &&& (fieldMask b).2) >>> (fieldMask b).1) s

/-- `BINS`: d is the old contents of the destination, the third source (R108). -/
def execBins (rd ra rb : BitVec 6) (s : State) : Result :=
  issueSlot (.bins rd ra rb) s fun s =>
    let (p, m) := fieldMask (s.sa rb)
    s.landS 1 rd ((s.sa rd &&& ~~~m) ||| ((s.sa ra <<< p) &&& m))

/-- The smaller of two words in an order. -/
def pick {w : Nat} (lt : BitVec w → BitVec w → Bool) (a b : BitVec w) : BitVec w := if lt b a then b else a
/-- The larger of two words in an order. -/
def pickMax {w : Nat} (lt : BitVec w → BitVec w → Bool) (a b : BitVec w) : BitVec w := if lt a b then b else a

def execMin (rd ra rb : BitVec 6) (mod : BitVec 1) (s : State) : Result :=
  alu2 (.min rd ra rb mod) 1 rd ra rb mod (pick BitVec.slt) (pick BitVec.slt) s

def execMax (rd ra rb : BitVec 6) (mod : BitVec 1) (s : State) : Result :=
  alu2 (.max rd ra rb mod) 1 rd ra rb mod (pickMax BitVec.slt) (pickMax BitVec.slt) s

def execMinu (rd ra rb : BitVec 6) (mod : BitVec 1) (s : State) : Result :=
  alu2 (.minu rd ra rb mod) 1 rd ra rb mod (pick BitVec.ult) (pick BitVec.ult) s

def execMaxu (rd ra rb : BitVec 6) (mod : BitVec 1) (s : State) : Result :=
  alu2 (.maxu rd ra rb mod) 1 rd ra rb mod (pickMax BitVec.ult) (pickMax BitVec.ult) s

/-! ## Compares and selects (R110) -/

/-- A truth value as a scalar result. -/
def flag (b : Bool) : SReg := if b then 1 else 0

/-- A compare over the working width (R110). -/
def compare2 (i : Instr) (rd ra rb : BitVec 6) (mod : BitVec 1) (f64 : SReg → SReg → Bool) (f32 : Word → Word → Bool)
    (s : State) : Result :=
  issueSlot i s fun s =>
    s.landS 1 rd (flag (if mod = 1 then f32 ((s.sa ra).setWidth 32) ((s.sa rb).setWidth 32) else f64 (s.sa ra) (s.sa rb)))

def execSeq (rd ra rb : BitVec 6) (mod : BitVec 1) (s : State) : Result :=
  compare2 (.seq rd ra rb mod) rd ra rb mod (· == ·) (· == ·) s
def execSne (rd ra rb : BitVec 6) (mod : BitVec 1) (s : State) : Result :=
  compare2 (.sne rd ra rb mod) rd ra rb mod (· != ·) (· != ·) s
def execSlt (rd ra rb : BitVec 6) (mod : BitVec 1) (s : State) : Result :=
  compare2 (.slt rd ra rb mod) rd ra rb mod BitVec.slt BitVec.slt s
def execSltu (rd ra rb : BitVec 6) (mod : BitVec 1) (s : State) : Result :=
  compare2 (.sltu rd ra rb mod) rd ra rb mod BitVec.ult BitVec.ult s
def execSle (rd ra rb : BitVec 6) (mod : BitVec 1) (s : State) : Result :=
  compare2 (.sle rd ra rb mod) rd ra rb mod BitVec.sle BitVec.sle s
def execSleu (rd ra rb : BitVec 6) (mod : BitVec 1) (s : State) : Result :=
  compare2 (.sleu rd ra rb mod) rd ra rb mod BitVec.ule BitVec.ule s

/-- `SEL`: a if the old destination is not zero, b otherwise (R110). -/
def execSel (rd ra rb : BitVec 6) (s : State) : Result :=
  issueSlot (.sel rd ra rb) s fun s => s.landS 1 rd (if s.sa rd = 0 then s.sa rb else s.sa ra)

/-- `MOVI` (R109). -/
def execMovi (rd : BitVec 6) (imm : BitVec 14) (s : State) : Result :=
  issueSlot (.movi rd imm) s fun s => s.landS 1 rd (BitVec.ofInt 64 (immSigned s.ctx.ext 14 imm))

/-- `MOVHI`: IMM14 into bits 63:50, bits 49:0 kept (R109). -/
def execMovhi (rd : BitVec 6) (imm : BitVec 14) (s : State) : Result :=
  issueSlot (.movhi rd imm) s fun s => s.landS 1 rd (imm ++ (s.sa rd).extractLsb' 0 50)

/-! ## Scalar FP32 (R111, R112) -/

/-- The FP32 datum of bits 31:0. -/
def f32 (v : SReg) : FVal := Fmt.fp32.decode (v.toNat % 2 ^ 32)
/-- An FP32 result in bits 31:0, bits 63:32 zero. -/
def f32Result (n : Nat) : SReg := BitVec.ofNat 64 n

/-- A two-source FP32 operation. -/
def fpu (i : Instr) (lat : Nat) (rd ra rb : BitVec 6) (f : FVal → FVal → Nat) (s : State) : Result :=
  issueSlot i s fun s => s.landS lat rd (f32Result (f (f32 (s.sa ra)) (f32 (s.sa rb))))

def execFadd (rd ra rb : BitVec 6) (s : State) : Result :=
  fpu (.fadd rd ra rb) 4 rd ra rb (fun a b => Fmt.fp32.rne (a.add b)) s
def execFsub (rd ra rb : BitVec 6) (s : State) : Result :=
  fpu (.fsub rd ra rb) 4 rd ra rb (fun a b => Fmt.fp32.rne (a.add b.negate)) s
def execFmul (rd ra rb : BitVec 6) (s : State) : Result :=
  fpu (.fmul rd ra rb) 4 rd ra rb (fun a b => Fmt.fp32.rne (a.mul b)) s

/-- `FFMA`: a × b + d with one rounding (R111). -/
def execFfma (rd ra rb : BitVec 6) (s : State) : Result :=
  issueSlot (.ffma rd ra rb) s fun s =>
    s.landS 4 rd (f32Result (Fmt.fp32.rne (((f32 (s.sa ra)).mul (f32 (s.sa rb))).add (f32 (s.sa rd)))))

def execFdiv (rd ra rb : BitVec 6) (s : State) : Result := fpu (.fdiv rd ra rb) 12 rd ra rb Fmt.fp32.div s

def execFsqrt (rd ra : BitVec 6) (s : State) : Result :=
  issueSlot (.fsqrt rd ra) s fun s => s.landS 12 rd (f32Result (Fmt.fp32.sqrt (f32 (s.sa ra))))

def execFmin (rd ra rb : BitVec 6) (s : State) : Result :=
  fpu (.fmin rd ra rb) 4 rd ra rb (fun a b => Fmt.fp32.rne (a.min b)) s
def execFmax (rd ra rb : BitVec 6) (s : State) : Result :=
  fpu (.fmax rd ra rb) 4 rd ra rb (fun a b => Fmt.fp32.rne (a.max b)) s
def execFeq (rd ra rb : BitVec 6) (s : State) : Result :=
  fpu (.feq rd ra rb) 4 rd ra rb (fun a b => (a.eq b).toNat) s
def execFlt (rd ra rb : BitVec 6) (s : State) : Result :=
  fpu (.flt rd ra rb) 4 rd ra rb (fun a b => (a.lt b).toNat) s
def execFle (rd ra rb : BitVec 6) (s : State) : Result :=
  fpu (.fle rd ra rb) 4 rd ra rb (fun a b => (a.le b).toNat) s

/-- `FCVTI` under the bundle's RM and SAT (R80, R112). -/
def execFcvti (rd ra : BitVec 6) (mod : BitVec 1) (s : State) : Result :=
  issueSlot (.fcvti rd ra mod) s fun s =>
    s.landS 4 rd (BitVec.ofInt 64 ((f32 (s.sa ra)).toInt s.mode s.ctx.sat 64 (mod = 1)))

/-- `FCVTF` under the bundle's RM (R80, R112). -/
def execFcvtf (rd ra : BitVec 6) (mod : BitVec 1) (s : State) : Result :=
  issueSlot (.fcvtf rd ra mod) s fun s =>
    let v : Int := if mod = 1 then (s.sa ra).toNat else (s.sa ra).toInt
    s.landS 4 rd (f32Result (Fmt.fp32.ofVal s.mode false (FVal.ofInteger v)))

end Sys2Proof.Machine
end

