-- ==== Sys2Proof/Machine/Scratch.lean ====
section
/-! DEFINITION. Scratchpad loads and stores (R31, R32, R127 to R131, spec/05; `LDSX`, `STSX`: R291 to R293, spec/14). -/

namespace Sys2Proof.Machine

/-- The scratchpad of the core at issue. -/
def State.pad (s : State) : List Host.Cell := s.curCore.pad
/-- Bytes stored in the scratchpad of the core at issue, in the issue clk (R32). -/
def State.storePad (s : State) (a : Nat) (l : List Byte) : State :=
  s.setCurCore { s.curCore with pad := mput s.curCore.pad a l }

/-- The value a load size code makes of the bytes read: sign- or zero-extended (R54, R128). -/
def extendLoad (size : BitVec 3) (x : Nat) : SReg :=
  match size.toNat with
  | 0 => (BitVec.ofNat 8 x).signExtend 64
  | 2 => (BitVec.ofNat 16 x).signExtend 64
  | 4 => (BitVec.ofNat 32 x).signExtend 64
  | _ => BitVec.ofNat 64 x

/-- `LDS`: reads in the issue clk and lands 6 clk later; `.q` writes the pair (R127, R128). -/
def execLds (size : BitVec 3) (rd base : BitVec 6) (off : BitVec 8) (s : State) : Result :=
  issueSlot (.lds size rd base off) s fun s =>
    let a := slotAddr (.lds size rd base off) s
    let x := mread s.pad a (loadBytes size)
    if size = 7 then
      (s.land 6 (.sreg rd.toNat (BitVec.ofNat 64 x))).land 6 (.sreg (rd.toNat + 1) (BitVec.ofNat 64 (x / 2 ^ 64)))
    else s.landS 6 rd (extendLoad size x)

/-- `LDSV`: 512 bytes, the side word zero (R129). -/
def execLdsv (rd : BitVec 7) (base : BitVec 6) (off : BitVec 8) (s : State) : Result :=
  issueSlot (.ldsv rd base off) s fun s =>
    s.land 6 (.vrow rd.toNat rowAll (BitVec.ofNat 4096 (mread s.pad (slotAddr (.ldsv rd base off) s) 512)) 0)

/-- The half of a mask register an access names (R130). -/
def maskHalf (hi : BitVec 1) : Mask := BitVec.ofNat 256 ((2 ^ 128 - 1) * 2 ^ (128 * hi.toNat))

/-- `LDSK`: 16 bytes into one half, the other unchanged (R14, R130). -/
def execLdsk (hi : BitVec 1) (rk : BitVec 4) (base : BitVec 6) (off : BitVec 8) (s : State) : Result :=
  issueSlot (.ldsk hi rk base off) s fun s =>
    let x := mread s.pad (slotAddr (.ldsk hi rk base off) s) 16
    s.land 6 (.kmask rk.toNat (maskHalf hi) (BitVec.ofNat 256 (x * 2 ^ (128 * hi.toNat))))

/-- A sparse access of the core at issue has moved `n` bytes: those beyond 512 take port bandwidth of the copy channels in this clk
(R31; log 32). -/
def State.usePorts (s : State) (n : Nat) : State :=
  let x := s.curCore
  s.setCurCore { x with sparseClk := s.clk, sparseBytes := (if x.sparseClk = s.clk then x.sparseBytes else 0) + (n - 512) }

/-- `LDSX`: one sparse block expanded, landing at issue + 8 (R291). -/
def execLdsx (rd : BitVec 7) (base : BitVec 6) (off : BitVec 8) (s : State) : Result :=
  issueSlot (.ldsx rd base off) s fun s =>
    let a := slotAddr (.ldsx rd base off) s
    match sparseBlock (mread s.pad a 32) with
    | some b => (s.usePorts b.bytes).land 8 (.vrow rd.toNat rowAll (b.row (mread s.pad a b.bytes)) 0)
    | none => s

/-- The bytes a scalar store writes: the low bytes, or the pair for 16 (R128, R288). -/
def storeData (k : Bank) (size : BitVec 3) (rd : Nat) : List Byte :=
  if size = 4 then natBytes 8 (k.s rd).toNat ++ natBytes 8 (k.s (rd + 1)).toNat
  else natBytes (storeBytes size) (k.s rd).toNat

def execSts (size : BitVec 3) (rd base : BitVec 6) (off : BitVec 8) (s : State) : Result :=
  issueSlot (.sts size rd base off) s fun s =>
    s.storePad (slotAddr (.sts size rd base off) s) (storeData s.cur size rd.toNat)

def execStsv (rd : BitVec 7) (base : BitVec 6) (off : BitVec 8) (s : State) : Result :=
  issueSlot (.stsv rd base off) s fun s =>
    s.storePad (slotAddr (.stsv rd base off) s) (natBytes 512 (s.cur.v rd.toNat).toNat)

def execStsk (hi : BitVec 1) (rk : BitVec 4) (base : BitVec 6) (off : BitVec 8) (s : State) : Result :=
  issueSlot (.stsk hi rk base off) s fun s =>
    s.storePad (slotAddr (.stsk hi rk base off) s) (natBytes 16 ((s.cur.k rk.toNat).toNat / 2 ^ (128 * hi.toNat)))

/-- `STSX`: one block appended under a header in the scratchpad; past CAP nothing is written and `SPARSE_OVERRUN` is posted
(R263, R292, R293). -/
def execStsx (rd : BitVec 7) (base : BitVec 6) (off : BitVec 8) (s : State) : Result :=
  issueSlot (.stsx rd base off) s fun s =>
    let a := slotAddr (.stsx rd base off) s
    let h := Header.ofNat (mread s.pad a 64)
    let block := sparseStored (sparseSource s.cur rd.toNat) h.point
    if h.cap < h.len + block.length then s.postHere 0x15
    else ((s.usePorts (128 + block.length)).storePad (a + 12) (natBytes 4 (h.len + block.length))).storePad (h.addr + h.len) block

end Sys2Proof.Machine
end

