-- ==== Sys2Proof/Machine/Dispatch.lean ====
section
/-! DEFINITION. The meaning of every instruction, one arm each. -/

namespace Sys2Proof.Machine

def exec (i : Instr) (s : State) : Host.Outcome State Fault Refusal :=
  match i with
  | .pfx rm sat mask strict => Sys2Proof.Machine.execPfx rm sat mask strict s
  | .ext pay => Sys2Proof.Machine.execExt pay s
  | .add rd ra rb mod => Sys2Proof.Machine.execAdd rd ra rb mod s
  | .sub rd ra rb mod => Sys2Proof.Machine.execSub rd ra rb mod s
  | .addi rd ra imm => Sys2Proof.Machine.execAddi rd ra imm s
  | .addsh rd ra rb mod => Sys2Proof.Machine.execAddsh rd ra rb mod s
  | .mul rd ra rb mod => Sys2Proof.Machine.execMul rd ra rb mod s
  | .mulh rd ra rb mod => Sys2Proof.Machine.execMulh rd ra rb mod s
  | .div rd ra rb mod => Sys2Proof.Machine.execDiv rd ra rb mod s
  | .divu rd ra rb mod => Sys2Proof.Machine.execDivu rd ra rb mod s
  | .rem rd ra rb mod => Sys2Proof.Machine.execRem rd ra rb mod s
  | .and rd ra rb => Sys2Proof.Machine.execAnd rd ra rb s
  | .or rd ra rb => Sys2Proof.Machine.execOr rd ra rb s
  | .xor rd ra rb => Sys2Proof.Machine.execXor rd ra rb s
  | .andn rd ra rb => Sys2Proof.Machine.execAndn rd ra rb s
  | .shl rd ra rb mod => Sys2Proof.Machine.execShl rd ra rb mod s
  | .shr rd ra rb mod => Sys2Proof.Machine.execShr rd ra rb mod s
  | .sar rd ra rb mod => Sys2Proof.Machine.execSar rd ra rb mod s
  | .shli rd ra imm => Sys2Proof.Machine.execShli rd ra imm s
  | .shri rd ra imm => Sys2Proof.Machine.execShri rd ra imm s
  | .sari rd ra imm => Sys2Proof.Machine.execSari rd ra imm s
  | .clz rd ra mod => Sys2Proof.Machine.execClz rd ra mod s
  | .popc rd ra mod => Sys2Proof.Machine.execPopc rd ra mod s
  | .bext rd ra rb => Sys2Proof.Machine.execBext rd ra rb s
  | .bins rd ra rb => Sys2Proof.Machine.execBins rd ra rb s
  | .min rd ra rb mod => Sys2Proof.Machine.execMin rd ra rb mod s
  | .max rd ra rb mod => Sys2Proof.Machine.execMax rd ra rb mod s
  | .minu rd ra rb mod => Sys2Proof.Machine.execMinu rd ra rb mod s
  | .maxu rd ra rb mod => Sys2Proof.Machine.execMaxu rd ra rb mod s
  | .seq rd ra rb mod => Sys2Proof.Machine.execSeq rd ra rb mod s
  | .sne rd ra rb mod => Sys2Proof.Machine.execSne rd ra rb mod s
  | .slt rd ra rb mod => Sys2Proof.Machine.execSlt rd ra rb mod s
  | .sltu rd ra rb mod => Sys2Proof.Machine.execSltu rd ra rb mod s
  | .sle rd ra rb mod => Sys2Proof.Machine.execSle rd ra rb mod s
  | .sleu rd ra rb mod => Sys2Proof.Machine.execSleu rd ra rb mod s
  | .sel rd ra rb => Sys2Proof.Machine.execSel rd ra rb s
  | .movi rd imm => Sys2Proof.Machine.execMovi rd imm s
  | .movhi rd imm => Sys2Proof.Machine.execMovhi rd imm s
  | .fadd rd ra rb => Sys2Proof.Machine.execFadd rd ra rb s
  | .fsub rd ra rb => Sys2Proof.Machine.execFsub rd ra rb s
  | .fmul rd ra rb => Sys2Proof.Machine.execFmul rd ra rb s
  | .ffma rd ra rb => Sys2Proof.Machine.execFfma rd ra rb s
  | .fdiv rd ra rb => Sys2Proof.Machine.execFdiv rd ra rb s
  | .fsqrt rd ra => Sys2Proof.Machine.execFsqrt rd ra s
  | .fmin rd ra rb => Sys2Proof.Machine.execFmin rd ra rb s
  | .fmax rd ra rb => Sys2Proof.Machine.execFmax rd ra rb s
  | .feq rd ra rb => Sys2Proof.Machine.execFeq rd ra rb s
  | .flt rd ra rb => Sys2Proof.Machine.execFlt rd ra rb s
  | .fle rd ra rb => Sys2Proof.Machine.execFle rd ra rb s
  | .fcvti rd ra mod => Sys2Proof.Machine.execFcvti rd ra mod s
  | .fcvtf rd ra mod => Sys2Proof.Machine.execFcvtf rd ra mod s
  | .brz hint ra off => Sys2Proof.Machine.execBrz hint ra off s
  | .brnz hint ra off => Sys2Proof.Machine.execBrnz hint ra off s
  | .brkt hint rk off => Sys2Proof.Machine.execBrkt hint rk off s
  | .brkf hint rk off => Sys2Proof.Machine.execBrkf hint rk off s
  | .jmp off => Sys2Proof.Machine.execJmp off s
  | .jmpi ra => Sys2Proof.Machine.execJmpi ra s
  | .call rd off => Sys2Proof.Machine.execCall rd off s
  | .ret ra => Sys2Proof.Machine.execRet ra s
  | .loop ra endw => Sys2Proof.Machine.execLoop ra endw s
  | .loopi cnt endw => Sys2Proof.Machine.execLoopi cnt endw s
  | .lset lvl fld ra => Sys2Proof.Machine.execLset lvl fld ra s
  | .lidx rd lvl => Sys2Proof.Machine.execLidx rd lvl s
  | .lbrk lvl => Sys2Proof.Machine.execLbrk lvl s
  | .waitc cnt => Sys2Proof.Machine.execWaitc cnt s
  | .trap code => Sys2Proof.Machine.execTrap code s
  | .halt => Sys2Proof.Machine.execHalt s
  | .vadd rd ra rb => Sys2Proof.Machine.execVadd rd ra rb s
  | .vsub rd ra rb => Sys2Proof.Machine.execVsub rd ra rb s
  | .vmul rd ra rb => Sys2Proof.Machine.execVmul rd ra rb s
  | .vfma rd ra rb => Sys2Proof.Machine.execVfma rd ra rb s
  | .vfms rd ra rb => Sys2Proof.Machine.execVfms rd ra rb s
  | .vmin rd ra rb => Sys2Proof.Machine.execVmin rd ra rb s
  | .vmax rd ra rb => Sys2Proof.Machine.execVmax rd ra rb s
  | .vabs rd ra => Sys2Proof.Machine.execVabs rd ra s
  | .vneg rd ra => Sys2Proof.Machine.execVneg rd ra s
  | .veq rd ra rb => Sys2Proof.Machine.execVeq rd ra rb s
  | .vne rd ra rb => Sys2Proof.Machine.execVne rd ra rb s
  | .vlt rd ra rb => Sys2Proof.Machine.execVlt rd ra rb s
  | .vle rd ra rb => Sys2Proof.Machine.execVle rd ra rb s
  | .vsel rd ra rb => Sys2Proof.Machine.execVsel rd ra rb s
  | .vand rd ra rb => Sys2Proof.Machine.execVand rd ra rb s
  | .vor rd ra rb => Sys2Proof.Machine.execVor rd ra rb s
  | .vxor rd ra rb => Sys2Proof.Machine.execVxor rd ra rb s
  | .viadd rd ra rb => Sys2Proof.Machine.execViadd rd ra rb s
  | .visub rd ra rb => Sys2Proof.Machine.execVisub rd ra rb s
  | .vimul rd ra rb => Sys2Proof.Machine.execVimul rd ra rb s
  | .vimin rd ra rb => Sys2Proof.Machine.execVimin rd ra rb s
  | .vimax rd ra rb => Sys2Proof.Machine.execVimax rd ra rb s
  | .vshl rd ra rb => Sys2Proof.Machine.execVshl rd ra rb s
  | .vshr rd ra rb => Sys2Proof.Machine.execVshr rd ra rb s
  | .vsar rd ra rb => Sys2Proof.Machine.execVsar rd ra rb s
  | .vrcp rd ra => Sys2Proof.Machine.execVrcp rd ra s
  | .vrsq rd ra => Sys2Proof.Machine.execVrsq rd ra s
  | .vsqrt rd ra => Sys2Proof.Machine.execVsqrt rd ra s
  | .vexp2 rd ra => Sys2Proof.Machine.execVexp2 rd ra s
  | .vlog2 rd ra => Sys2Proof.Machine.execVlog2 rd ra s
  | .vtanh rd ra => Sys2Proof.Machine.execVtanh rd ra s
  | .vsigm rd ra => Sys2Proof.Machine.execVsigm rd ra s
  | .vrsum rd ra => Sys2Proof.Machine.execVrsum rd ra s
  | .vrmax rd ra => Sys2Proof.Machine.execVrmax rd ra s
  | .vramax rd ra => Sys2Proof.Machine.execVramax rd ra s
  | .vbcast rd ra => Sys2Proof.Machine.execVbcast rd ra s
  | .vextr rd ra rb => Sys2Proof.Machine.execVextr rd ra rb s
  | .vins rd ra rb => Sys2Proof.Machine.execVins rd ra rb s
  | .vperm rd ra rb => Sys2Proof.Machine.execVperm rd ra rb s
  | .vslide rd ra rb => Sys2Proof.Machine.execVslide rd ra rb s
  | .vmov rd ra => Sys2Proof.Machine.execVmov rd ra s
  | .viota rd => Sys2Proof.Machine.execViota rd s
  | .vrand rd ra => Sys2Proof.Machine.execVrand rd ra s
  | .kand rd ra rb => Sys2Proof.Machine.execKand rd ra rb s
  | .kor rd ra rb => Sys2Proof.Machine.execKor rd ra rb s
  | .kxor rd ra rb => Sys2Proof.Machine.execKxor rd ra rb s
  | .knot rd ra => Sys2Proof.Machine.execKnot rd ra s
  | .kpop rd ra => Sys2Proof.Machine.execKpop rd ra s
  | .vcvtn fmt rd ra noRot seed => Sys2Proof.Machine.execVcvtn fmt rd ra noRot seed s
  | .vcvtns fmt rd ra rb => Sys2Proof.Machine.execVcvtns fmt rd ra rb s
  | .vcvtw rd ra => Sys2Proof.Machine.execVcvtw rd ra s
  | .vcvti rd ra uns => Sys2Proof.Machine.execVcvti rd ra uns s
  | .vcvtf rd ra uns => Sys2Proof.Machine.execVcvtf rd ra uns s
  | .vqscaleE4m3 rd ra noRot seed => Sys2Proof.Machine.execVqscaleE4m3 rd ra noRot seed s
  | .vqscaleE5m2 rd ra noRot seed => Sys2Proof.Machine.execVqscaleE5m2 rd ra noRot seed s
  | .vqscaleBf16 rd ra noRot seed => Sys2Proof.Machine.execVqscaleBf16 rd ra noRot seed s
  | .vqscaleInt8 rd ra noRot seed => Sys2Proof.Machine.execVqscaleInt8 rd ra noRot seed s
  | .vside rd ra => Sys2Proof.Machine.execVside rd ra s
  | .vsidew rd rb => Sys2Proof.Machine.execVsidew rd rb s
  | .ttwr tile ra rb => Sys2Proof.Machine.execTtwr tile ra rb s
  | .ttrdc rd tile ra => Sys2Proof.Machine.execTtrdc rd tile ra s
  | .ttrdcE4m3 rd tile ra noRot seed => Sys2Proof.Machine.execTtrdcE4m3 rd tile ra noRot seed s
  | .ttrdcE5m2 rd tile ra noRot seed => Sys2Proof.Machine.execTtrdcE5m2 rd tile ra noRot seed s
  | .ttrdcBf16 rd tile ra noRot seed => Sys2Proof.Machine.execTtrdcBf16 rd tile ra noRot seed s
  | .ttrdcInt8 rd tile ra noRot seed => Sys2Proof.Machine.execTtrdcInt8 rd tile ra noRot seed s
  | .ttclr tile => Sys2Proof.Machine.execTtclr tile s
  | .fpusha fifo ra => Sys2Proof.Machine.execFpusha fifo ra s
  | .fpushb fifo ra => Sys2Proof.Machine.execFpushb fifo ra s
  | .mcfg0 ra => Sys2Proof.Machine.execMcfg0 ra s
  | .mcfg1 ra => Sys2Proof.Machine.execMcfg1 ra s
  | .mdrain0 => Sys2Proof.Machine.execMdrain0 s
  | .mdrain1 => Sys2Proof.Machine.execMdrain1 s
  | .mldb0 wb => Sys2Proof.Machine.execMldb0 wb s
  | .mldb1 wb => Sys2Proof.Machine.execMldb1 wb s
  | .mma0 nm1 row0 ovw scl wb => Sys2Proof.Machine.execMma0 nm1 row0 ovw scl wb s
  | .mma1 nm1 row0 ovw scl wb => Sys2Proof.Machine.execMma1 nm1 row0 ovw scl wb s
  | .mzero0 nm1 row0 => Sys2Proof.Machine.execMzero0 nm1 row0 s
  | .mzero1 nm1 row0 => Sys2Proof.Machine.execMzero1 nm1 row0 s
  | .mskipa0 nm1 => Sys2Proof.Machine.execMskipa0 nm1 s
  | .mskipa1 nm1 => Sys2Proof.Machine.execMskipa1 nm1 s
  | .mstat0 rd => Sys2Proof.Machine.execMstat0 rd s
  | .mstat1 rd => Sys2Proof.Machine.execMstat1 rd s
  | .lds size rd base off => Sys2Proof.Machine.execLds size rd base off s
  | .ldsv rd base off => Sys2Proof.Machine.execLdsv rd base off s
  | .ldsk hi rk base off => Sys2Proof.Machine.execLdsk hi rk base off s
  | .ldsx rd base off => Sys2Proof.Machine.execLdsx rd base off s
  | .ldc size rd base off => Sys2Proof.Machine.execLdc size rd base off s
  | .ldcv rd base off => Sys2Proof.Machine.execLdcv rd base off s
  | .ldg size rd base off => Sys2Proof.Machine.execLdg size rd base off s
  | .ldgv rd base off => Sys2Proof.Machine.execLdgv rd base off s
  | .ldgx rd base off => Sys2Proof.Machine.execLdgx rd base off s
  | .pref base off => Sys2Proof.Machine.execPref base off s
  | .sts size rd base off => Sys2Proof.Machine.execSts size rd base off s
  | .stsv rd base off => Sys2Proof.Machine.execStsv rd base off s
  | .stsk hi rk base off => Sys2Proof.Machine.execStsk hi rk base off s
  | .stsx rd base off => Sys2Proof.Machine.execStsx rd base off s
  | .stc size rd base off => Sys2Proof.Machine.execStc size rd base off s
  | .stcv rd base off => Sys2Proof.Machine.execStcv rd base off s
  | .stg size rd base off => Sys2Proof.Machine.execStg size rd base off s
  | .stgv rd base off => Sys2Proof.Machine.execStgv rd base off s
  | .stgn rd base norm => Sys2Proof.Machine.execStgn rd base norm s
  | .stgx rd base off => Sys2Proof.Machine.execStgx rd base off s
  | .cpy opa inCluster chan => Sys2Proof.Machine.execCpy opa inCluster chan s
  | .gath opa inCluster chan => Sys2Proof.Machine.execGath opa inCluster chan s
  | .stash opa opb bar mode => Sys2Proof.Machine.execStash opa opb bar mode s
  | .sfetch opa opb bar => Sys2Proof.Machine.execSfetch opa opb bar s
  | .sprobe opa opb => Sys2Proof.Machine.execSprobe opa opb s
  | .sfree opb => Sys2Proof.Machine.execSfree opb s
  | .chsend opa opb chan => Sys2Proof.Machine.execChsend opa opb chan s
  | .chpost opa chan => Sys2Proof.Machine.execChpost opa chan s
  | .chack opb chan => Sys2Proof.Machine.execChack opb chan s
  | .coll opa bar => Sys2Proof.Machine.execColl opa bar s
  | .shopen opa opb => Sys2Proof.Machine.execShopen opa opb s
  | .publish opa scope => Sys2Proof.Machine.execPublish opa scope s
  | .ckpt opb scope => Sys2Proof.Machine.execCkpt opb scope s
  | .replay opb => Sys2Proof.Machine.execReplay opb s
  | .split opa => Sys2Proof.Machine.execSplit opa s
  | .wpwait opa chan => Sys2Proof.Machine.execWpwait opa chan s
  | .nrmrd opa wantE norm => Sys2Proof.Machine.execNrmrd opa wantE norm s
  | .nrmclr norm => Sys2Proof.Machine.execNrmclr norm s
  | .nrmset opa norm => Sys2Proof.Machine.execNrmset opa norm s
  | .deq grp wq => Sys2Proof.Machine.execDeq grp wq s
  | .deqt grp wq => Sys2Proof.Machine.execDeqt grp wq s
  | .enq grp wq => Sys2Proof.Machine.execEnq grp wq s
  | .qclose wq => Sys2Proof.Machine.execQclose wq s
  | .binit opa bar => Sys2Proof.Machine.execBinit opa bar s
  | .barr bar => Sys2Proof.Machine.execBarr bar s
  | .bexp opa bar => Sys2Proof.Machine.execBexp opa bar s
  | .bwait opa te bar => Sys2Proof.Machine.execBwait opa te bar s
  | .bpoll opa bar => Sys2Proof.Machine.execBpoll opa bar s
  | .fence order scope => Sys2Proof.Machine.execFence order scope s
  | .qalign => Sys2Proof.Machine.execQalign s
  | .amo order opa opb nr scope size fn => Sys2Proof.Machine.execAmo order opa opb nr scope size fn s
  | .phadv => Sys2Proof.Machine.execPhadv s
  | .csrr opa csr => Sys2Proof.Machine.execCsrr opa csr s
  | .csrw opa csr => Sys2Proof.Machine.execCsrw opa csr s
  | .csrs opa csr => Sys2Proof.Machine.execCsrs opa csr s
  | .csrc opa csr => Sys2Proof.Machine.execCsrc opa csr s
  | .tret => Sys2Proof.Machine.execTret s
  | .ctxsw => Sys2Proof.Machine.execCtxsw s
  | .swpout opa => Sys2Proof.Machine.execSwpout opa s
  | .swpin opa => Sys2Proof.Machine.execSwpin opa s
  | .seedld opa opb seed => Sys2Proof.Machine.execSeedld opa opb seed s
  | .genld opa opb gen => Sys2Proof.Machine.execGenld opa opb gen s
  | .svc code => Sys2Proof.Machine.execSvc code s
  | .extinv opa opb => Sys2Proof.Machine.execExtinv opa opb s
  | .migr opa => Sys2Proof.Machine.execMigr opa s
  | .balloonAddb opa => Sys2Proof.Machine.execBalloonAddb opa s
  | .balloonAddt opa => Sys2Proof.Machine.execBalloonAddt opa s
  | .balloonDeflate opa => Sys2Proof.Machine.execBalloonDeflate opa s
  | .balloonClrb opa => Sys2Proof.Machine.execBalloonClrb opa s
  | .balloonClrt opa => Sys2Proof.Machine.execBalloonClrt opa s
  | .idle => Sys2Proof.Machine.execIdle s
  | .runAheadPreissue core addr size => Sys2Proof.Machine.execRunAheadPreissue core addr size s
  | .segmentExpand core segment => Sys2Proof.Machine.execSegmentExpand core segment s
  | .postedTrapTake core bank => Sys2Proof.Machine.execPostedTrapTake core bank s
  | .loadPerform core bank index piece outside => Sys2Proof.Machine.execLoadPerform core bank index piece outside s
  | .storePerform core bank index piece => Sys2Proof.Machine.execStorePerform core bank index piece s
  | .amoPerform core bank index outside => Sys2Proof.Machine.execAmoPerform core bank index outside s
  | .markerEffect core bank index => Sys2Proof.Machine.execMarkerEffect core bank index s
  | .l2LineEvict cluster line => Sys2Proof.Machine.execL2LineEvict cluster line s
  | .drainComplete core => Sys2Proof.Machine.execDrainComplete core s
  | .haltReport core bank => Sys2Proof.Machine.execHaltReport core bank s
  | .preemptArrive core bank => Sys2Proof.Machine.execPreemptArrive core bank s
  | .swapOutComplete partition bank => Sys2Proof.Machine.execSwapOutComplete partition bank s
  | .swapInComplete partition bank => Sys2Proof.Machine.execSwapInComplete partition bank s
  | .schedulerRound stage => Sys2Proof.Machine.execSchedulerRound stage s
  | .enqRecordEnter core bank index => Sys2Proof.Machine.execEnqRecordEnter core bank index s
  | .barrArrive core bank index => Sys2Proof.Machine.execBarrArrive core bank index s
  | .copyBlockProgress core chan units outside => Sys2Proof.Machine.execCopyBlockProgress core chan units outside s
  | .chainBlockEnd core chan => Sys2Proof.Machine.execChainBlockEnd core chan s
  | .fifoDelivery core chan => Sys2Proof.Machine.execFifoDelivery core chan s
  | .engineCountFix engine a b => Sys2Proof.Machine.execEngineCountFix engine a b s
  | .ccctlAbort core chan => Sys2Proof.Machine.execCcctlAbort core chan s
  | .stashCmdTake core => Sys2Proof.Machine.execStashCmdTake core s
  | .stashOffloadComplete die key => Sys2Proof.Machine.execStashOffloadComplete die key s
  | .stashDropComplete die key => Sys2Proof.Machine.execStashDropComplete die key s
  | .stashKeepComplete die key => Sys2Proof.Machine.execStashKeepComplete die key s
  | .stashFetchComplete die key => Sys2Proof.Machine.execStashFetchComplete die key s
  | .spillLinkAbort die key => Sys2Proof.Machine.execSpillLinkAbort die key s
  | .sfreeComplete die key => Sys2Proof.Machine.execSfreeComplete die key s
  | .ckptRecordComplete core bank => Sys2Proof.Machine.execCkptRecordComplete core bank s
  | .replayRemoteRestore core bank => Sys2Proof.Machine.execReplayRemoteRestore core bank s
  | .packetDepart chan => Sys2Proof.Machine.execPacketDepart chan s
  | .packetDeposit chan seq step tag kind offset pad data => Sys2Proof.Machine.execPacketDeposit chan seq step tag kind offset pad data s
  | .windowFlitReceive chan isWindow value => Sys2Proof.Machine.execWindowFlitReceive chan isWindow value s
  | .packetAckReceive chan seq => Sys2Proof.Machine.execPacketAckReceive chan seq s
  | .chackEffect core bank index => Sys2Proof.Machine.execChackEffect core bank index s
  | .bucketStart position => Sys2Proof.Machine.execBucketStart position s
  | .chunkReceive step bucket half chunk count final values => Sys2Proof.Machine.execChunkReceive step bucket half chunk count final values s
  | .completionMarkReceive step bucket rank port => Sys2Proof.Machine.execCompletionMarkReceive step bucket rank port s
  | .failureMarkReceive step bucket cause rank port => Sys2Proof.Machine.execFailureMarkReceive step bucket cause rank port s
  | .ringSettle position reports => Sys2Proof.Machine.execRingSettle position reports s
  | .shopenEffect core bank index => Sys2Proof.Machine.execShopenEffect core bank index s
  | .publishEffect core bank index => Sys2Proof.Machine.execPublishEffect core bank index s
  | .splitArrive core bank index => Sys2Proof.Machine.execSplitArrive core bank index s
  | .splitDrainEnd cluster => Sys2Proof.Machine.execSplitDrainEnd cluster s
  | .balloonClaim die => Sys2Proof.Machine.execBalloonClaim die s
  | .evictionStart die => Sys2Proof.Machine.execEvictionStart die s
  | .evictionComplete die page => Sys2Proof.Machine.execEvictionComplete die page s
  | .pageRecall die => Sys2Proof.Machine.execPageRecall die s
  | .spaceAnswer die => Sys2Proof.Machine.execSpaceAnswer die s
  | .accessCountHalve die => Sys2Proof.Machine.execAccessCountHalve die s
  | .migrationPass index noSpace => Sys2Proof.Machine.execMigrationPass index noSpace s
  | .executiveFrame die => Sys2Proof.Machine.execExecutiveFrame die s
  | .queueNotify offset width value stored maps taken => Sys2Proof.Machine.execQueueNotify offset width value stored maps taken s
  | .prgResponse group code => Sys2Proof.Machine.execPrgResponse group code s
  | .atsTranslationReturn group pages => Sys2Proof.Machine.execAtsTranslationReturn group pages s
  | .atsInvalidation pasid base len tag => Sys2Proof.Machine.execAtsInvalidation pasid base len tag s
  | .hostWindowWrite addr data => Sys2Proof.Machine.execHostWindowWrite addr data s
  | .hostWindowRead addr len => Sys2Proof.Machine.execHostWindowRead addr len s
  | .invoke queue seq => Sys2Proof.Machine.execInvoke queue seq s
  | .load queue seq => Sys2Proof.Machine.execLoad queue seq s
  | .unload queue seq => Sys2Proof.Machine.execUnload queue seq s
  | .version queue seq => Sys2Proof.Machine.execVersion queue seq s
  | .stagecfg queue seq => Sys2Proof.Machine.execStagecfg queue seq s
  | .devcfg queue seq => Sys2Proof.Machine.execDevcfg queue seq s
  | .tagset queue seq => Sys2Proof.Machine.execTagset queue seq s
  | .snapshot queue seq => Sys2Proof.Machine.execSnapshot queue seq s
  | .snapshotSend job => Sys2Proof.Machine.execSnapshotSend job s
  | .holderDigestReceive job holder digest => Sys2Proof.Machine.execHolderDigestReceive job holder digest s
  | .pageans queue seq => Sys2Proof.Machine.execPageans queue seq s
  | .pasiddown queue seq => Sys2Proof.Machine.execPasiddown queue seq s
  | .teardownCancel pasid => Sys2Proof.Machine.execTeardownCancel pasid s
  | .teardownTimeout pasid => Sys2Proof.Machine.execTeardownTimeout pasid s
  | .preempt queue seq => Sys2Proof.Machine.execPreempt queue seq s
  | .restore queue seq => Sys2Proof.Machine.execRestore queue seq s
  | .qcreate queue seq => Sys2Proof.Machine.execQcreate queue seq s
  | .qdelete queue seq => Sys2Proof.Machine.execQdelete queue seq s
  | .reset => Sys2Proof.Machine.execReset s
  | .recoveryMailboxWrite image len => Sys2Proof.Machine.execRecoveryMailboxWrite image len s
  | .singlePartReset part lostA lostB => Sys2Proof.Machine.execSinglePartReset part lostA lostB s
  | .dieFatalFault die => Sys2Proof.Machine.execDieFatalFault die s
  | .portRetrain port => Sys2Proof.Machine.execPortRetrain port s
  | .portUp port => Sys2Proof.Machine.execPortUp port s
  | .portDown port pattern => Sys2Proof.Machine.execPortDown port pattern s
  | .linkFlitRetry port => Sys2Proof.Machine.execLinkFlitRetry port s
  | .deviceFailureDeclare sign => Sys2Proof.Machine.execDeviceFailureDeclare sign s
  | .domainAccessTimeout core bank index => Sys2Proof.Machine.execDomainAccessTimeout core bank index s
  | .rollback job step done => Sys2Proof.Machine.execRollback job step done s
  | .fillChunkAck chunk part last digest lost => Sys2Proof.Machine.execFillChunkAck chunk part last digest lost s
  | .phaseFlitSend => Sys2Proof.Machine.execPhaseFlitSend s
  | .phaseFlitReceive port value => Sys2Proof.Machine.execPhaseFlitReceive port value s
  | .powerArbitration draw demand hold => Sys2Proof.Machine.execPowerArbitration draw demand hold s
  | .spdmGetVersion request => Sys2Proof.Machine.execSpdmGetVersion request s
  | .spdmGetCapabilities request => Sys2Proof.Machine.execSpdmGetCapabilities request s
  | .spdmNegotiateAlgorithms request => Sys2Proof.Machine.execSpdmNegotiateAlgorithms request s
  | .spdmGetDigests request => Sys2Proof.Machine.execSpdmGetDigests request s
  | .spdmGetCertificate request => Sys2Proof.Machine.execSpdmGetCertificate request s
  | .spdmChallenge request => Sys2Proof.Machine.execSpdmChallenge request s
  | .spdmGetMeasurements request => Sys2Proof.Machine.execSpdmGetMeasurements request s
  | .cmpctlWrite die value => Sys2Proof.Machine.execCmpctlWrite die value s
  | .cmpwmWrite die value => Sys2Proof.Machine.execCmpwmWrite die value s
  | .cmpstatRefusedClear die => Sys2Proof.Machine.execCmpstatRefusedClear die s
  | .stashRegionWrite die reg value => Sys2Proof.Machine.execStashRegionWrite die reg value s
  | .wakeWrite core => Sys2Proof.Machine.execWakeWrite core s
  | .barwWrite cluster reg value => Sys2Proof.Machine.execBarwWrite cluster reg value s
  | .ringcfgWrite value => Sys2Proof.Machine.execRingcfgWrite value s
  | .rportWrite port value => Sys2Proof.Machine.execRportWrite port value s
  | .arbctlWrite value => Sys2Proof.Machine.execArbctlWrite value s
  | .pwrctlWrite reg value => Sys2Proof.Machine.execPwrctlWrite reg value s
  | .tcoordWrite value => Sys2Proof.Machine.execTcoordWrite value s
  | .registerWrite die reg value => Sys2Proof.Machine.execRegisterWrite die reg value s
  | .nonInstructionEncoding cause pos => Sys2Proof.Machine.execNonInstructionEncoding cause pos s
  | .translationWalkComplete invocation ats => Sys2Proof.Machine.execTranslationWalkComplete invocation ats s
  | .priReenable allocation => Sys2Proof.Machine.execPriReenable allocation s

end Sys2Proof.Machine
end

