-- ==== Sys2Proof/Machine/Bundle.lean ====
section
/-! DEFINITION. A bundle at issue as a whole (R7 to R10, R24, R25, R34, spec/01; R39, R40, R43, spec/02; R113, R118, spec/05):
its composition, its modes, its traps and holds, and the effects of its slots in class order (log 7). -/

namespace Sys2Proof.Machine

/-! ## Composition (R39) -/

/-- The class code of a word. -/
def slotClass (w : Slot) : Nat := (bits 27 4 w).toNat

/-- A word whose class and operation have an extendable field: of the L and T slots every one but `STGN`, an operation with no entry
included (R44); its other bits are not examined. -/
def extendableSlot (w : Slot) : Bool :=
  match slotClass w with
  | 1 => (bits 20 7 w).toNat == 0x02 || (bits 20 7 w).toNat == 0x22
  | 2 => [0x00, 0x01, 0x02, 0x03, 0x04, 0x06, 0x09, 0x0D].contains (bits 22 5 w).toNat
  | 7 => true
  | 8 => (bits 21 6 w).toNat != 0x29
  | _ => false

/-- The Extension rule; `n` E slots stand directly before. -/
def extensionOk : Nat → List Slot → Bool
  | n, [] => n == 0
  | n, w :: r =>
    if slotClass w = 11 then decide (n < 2) && extensionOk (n + 1) r
    else (n == 0 || extendableSlot w) && extensionOk 0 r

/-- The rules of R39 on the words of a bundle that has a STOP. -/
def composed (ws : List Slot) : Bool :=
  let cs := ws.map slotClass
  !(cs.drop 1).contains 0
    && (List.range 16).all (fun c => c == 11 || decide (cs.count c ≤ if c = 1 then 2 else 1))
    && extensionOk 0 ws

/-! ## The slots of a bundle -/

/-- A slot with its position, its word and the extension payloads before it. -/
structure Placed where
  pos : Nat
  word : Slot
  ext : List (BitVec 25)
  slot : Except DecodeError Instr

/-- The slots of a bundle (R7, R43). -/
def placeSlots : Nat → List (BitVec 25) → List Slot → List Placed
  | _, _, [] => []
  | p, ext, w :: r =>
    let d := decodeSlot w
    let ext' := match d with
      | .ok (.ext pay) => ext ++ [pay]
      | _ => []
    ⟨p, w, ext, d⟩ :: placeSlots (p + 1) ext' r

/-- The class and the operation of a word with operands of no account: zero, and register group 1 in class Q, where group 0 is
reserved (R213). -/
def operationOf (w : Slot) : Slot :=
  match slotClass w with
  | 0 | 11 => w &&& 0x78000000
  | 1 => w &&& 0x7FF00000
  | 2 | 5 | 6 => w &&& 0x7FC00000
  | 10 => (w &&& 0x7FE00000) ||| (if (bits 21 6 w).toNat ≤ 2 then 0x20000 else 0)
  | _ => w &&& 0x7FE00000

/-- The sources that the form of a word has, a in bit 0 and b in bit 1; its operation decides them, whatever its fields hold. -/
def sourceBits (w : Slot) : Nat :=
  match decodeSlot (operationOf w) with
  | .ok i => (srcA i).isSome.toNat + 2 * (srcB i).isSome.toNat
  | .error _ => 0

/-- The STRICT bits that name a source (R25). -/
def namedBits (l : List Placed) : BitVec 16 :=
  l.foldl (fun m p => m ||| (BitVec.ofNat 16 (sourceBits p.word) <<< (2 * p.pos))) 0

/-- The cause a decoding error raises (R40). -/
def errorCause : DecodeError → Nat
  | .illegalClass => 0x01
  | .illegalOp => 0x02
  | .reservedField => 0x03

/-- The modes the P slot sets (R24). -/
def Ctx.withPrefix (x : Ctx) (l : List Placed) : Ctx :=
  match l with
  | ⟨_, _, _, .ok (.pfx rm sat mask strict)⟩ :: _ =>
    { x with rm := rm.toNat, sat := sat = 1, maskReg := mask.toNat, strict, named := namedBits l }
  | _ => x

/-- The context of slot `p`. -/
def State.atSlot (s : State) (p : Placed) : State := { s with ctx := { s.ctx with pos := p.pos, ext := p.ext } }

/-! ## Traps and holds of the whole bundle -/

/-- The trap of the first slot, by position, that raises one: position, cause and CODE16 (R34). -/
def bundleTrap (s : State) : List Placed → Option (Nat × Nat × Nat)
  | [] => none
  | p :: r =>
    match p.slot with
    | .error e => some (p.pos, errorCause e, 0)
    | .ok i =>
      match slotTrap i (s.atSlot p) with
      | some c => some (p.pos, c, trapCode i)
      | none => bundleTrap s r

/-- A slot whose access enters the load or the store queue at issue. -/
def Placed.accesses (p : Placed) : Bool :=
  match p.slot with
  | .ok i => let k := entryKinds { ins := i, bundle := 0, pos := 0, clk := 0 }; classRank ((classOf i).getD 0) < classRank 10 && (k.loads || k.stores)
  | .error _ => false

/-- The completion release that the bundle has just made waits for the bundle's own accesses, which are older than it (R266). -/
def State.deferRelease (s : State) : State :=
  s.setCur { s.cur with queue := s.cur.queue.map fun e =>
    match e.ins with
    | .deq .. | .deqt .. => if e.phase = 0 ∧ e.bundle = s.ctx.addr ∧ e.clk = s.clk then { e with phase := 2 } else e
    | _ => e }

/-- What every slot does when the bundle reaches issue. -/
def reachAll (s : State) (l : List Placed) : State :=
  let t := l.foldl (fun s p =>
    match p.slot with
    | .ok i => (s.atSlot p).reach i
    | .error _ => s) s
  if l.any Placed.accesses then t.deferRelease else t

/-- Some slot cannot issue (R8). -/
def bundleHold (s : State) (l : List Placed) : Bool :=
  l.any fun p =>
    match p.slot with
    | .ok i => slotHold i (s.atSlot p)
    | .error _ => false

/-- Inserts a slot in class order; slots of one class keep their positions. -/
def insertByClass (p : Placed) : List (Nat × Placed) → List (Nat × Placed)
  | [] => [(classRank (match p.slot with
      | .ok i => (classOf i).getD 0
      | .error _ => 0), p)]
  | (c, q) :: r =>
    let d := classRank (match p.slot with
      | .ok i => (classOf i).getD 0
      | .error _ => 0)
    if c ≤ d then (c, q) :: insertByClass p r else (d, p) :: (c, q) :: r

/-- The slots in the order in which they take effect (log 7). -/
def byClass (l : List Placed) : List Placed := (l.foldl (fun acc p => insertByClass p acc) []).map (·.2)

/-- The effects of slots, one after another. -/
def runSlots : List Placed → State → Result
  | [], s => .next s
  | p :: r, s =>
    match p.slot with
    | .error _ => runSlots r s
    | .ok i =>
      match exec i (s.atSlot p) with
      | .next t => runSlots r t
      | o => o

/-- Every register source of the control slot of the bundle is full, so that its outcome can be examined (R8). -/
def controlReady (s : State) (l : List Placed) : Bool :=
  l.all fun p =>
    match p.slot with
    | .ok i => if classOf i = some 2 ∨ classOf i = some 12 then allFull s.cur (srcA i) else true
    | .error _ => true

/-- The bundle would fall through past the end of the code, or its loop would branch back to a refused target (R113). -/
def fallsThrough (s : State) (l : List Placed) : Bool :=
  controlReady s l &&
    match runSlots (byClass l) { s with ctx := { s.ctx with checked := true } } with
    | .next t => fallsOff t
    | _ => false

/-! ## From one bundle to the next -/

/-- The context is closed once the bundle has been dealt with. -/
def State.close (s : State) : State := { s with ctx := {} }

/-- The end of a bundle: a trap has set its own course; a held bundle is examined again in the next clk; an issued one moves
the sequencer (R8 to R10, R118). -/
def State.finish (s : State) : State :=
  match s.ctx.status with
  | .trapped => (s.abandonReplay s.ctx.core s.ctx.bank).close
  | .held => (s.setCurCore { s.curCore with nextIssue := s.clk + 1 }).close
  | .open =>
    let (pc, loops) := nextPosition s
    let s := s.setCur { s.cur with pc, loops, waiting := none, reached := none, idle := false, woken := false }
    (s.setCurCore { s.curCore with nextIssue := max s.curCore.nextIssue (s.clk + s.ctx.gap) }).close

/-- The outcome of a bundle. -/
def finishBundle : Result → Result
  | .next t => .next t.finish
  | o => o

/-- The state with the bundle at the program counter of core `c` at issue. -/
def State.begin (s : State) (c : Nat) : State :=
  let x := s.core c
  { s.setCore c { x with examined := s.clk + 1 } with ctx := { core := c, bank := x.active, addr := (x.bank x.active).pc } }

/-- The state with the words of the bundle read and its modes set. -/
def State.withBundle (s : State) (n : Nat) (l : List Placed) : State :=
  { s with ctx := { s.ctx.withPrefix l with len := 4 * n } }

/-- A bundle of slots that satisfies R39: traps, the fall-through (after the slots' own traps, log 30), holds, effects. A bundle of one
slot is that slot's own issue. -/
def issueSlots (s : State) (l : List Placed) : Result :=
  match bundleTrap s l with
  | some (pos, cause, code) => .next (s.takeIssueTrap cause pos code)
  | none =>
    if fallsThrough s l then .next (s.takeIssueTrap 0x0C 0 0)
    else
      match l with
      | [⟨_, _, _, .ok i⟩] => exec i s
      | _ =>
        let t := reachAll s l
        if bundleHold t l then .next t.hold
        else runSlots (byClass l) { t with ctx := { t.ctx with checked := true } }

/-- The bundle at the program counter of core `c`. -/
def State.issueBundle (s : State) (c : Nat) : Result :=
  let s := s.begin c
  match bundleAt (s.codeOf s.cur) s.ctx.addr with
  | none => finishBundle (.next (s.takeIssueTrap 0x04 0 0))
  | some ws =>
    let l := placeSlots 0 [] ws
    let s := s.withBundle ws.length l
    if composed ws then finishBundle (issueSlots s l) else finishBundle (.next (s.takeIssueTrap 0x04 0 0))

end Sys2Proof.Machine
end

