-- ==== Sys2Proof/Machine/Eager.lean ====
section
/-! DEFINITION. The order of the steps (log 5): what the engines, the queues and the hardware scheduler do of themselves, before
the cores issue and the clk advances. -/

namespace Sys2Proof.Machine

/-- The core that issues next. -/
def State.nextIssuer (s : State) : Option Nat := (s.cores.find? fun e => s.atBoundary e.1).map (·.1)

/-- A step that changes the state. -/
def progress (s : State) : Result → Option Result
  | .next t => if t = s then none else some (.next t)
  | o => some o

/-- The first of a list of steps that changes the state. -/
def firstProgress (s : State) : List (State → Result) → Option Result
  | [] => none
  | f :: r =>
    match progress s (f s) with
    | some o => some o
    | none => firstProgress s r

/-- The piece of an entry that is performed next. -/
def QEntry.nextPiece (e : QEntry) : Nat := ((List.range e.pieces.length).find? fun j => !e.done.contains j).getD 0

/-- The step of entry `i` of a bank's queue. -/
def entryStep (c b i : Nat) (e : QEntry) (s : State) : Result :=
  match e.ins with
  | .ldc .. | .ldcv .. | .ldg .. | .ldgv .. | .ldgx .. | .sprobe .. | .nrmrd .. | .csrr .. => execLoadPerform c b i e.nextPiece [] s
  | .amo .. => execAmoPerform c b i [] s
  | .enq .. => execEnqRecordEnter c b i s
  | .binit .. | .barr .. | .bexp .. => execBarrArrive c b i s
  | .fence .. | .qalign | .deq .. | .deqt .. | .extinv .. => execMarkerEffect c b i s
  | .stc .. | .stcv .. | .stg .. | .stgv .. | .stgn .. | .stgx .. | .nrmclr .. | .nrmset .. | .csrw .. | .csrs .. | .csrc ..
  | .balloonAddb .. | .balloonAddt .. | .balloonDeflate .. | .balloonClrb .. | .balloonClrt .. => execStorePerform c b i e.nextPiece s
  | _ => .next s

/-- The effect of the command at a place of the list. -/
def commandEffect (c : Command) (i : Nat) (s : State) : Result :=
  match c.ins with
  | .chack .. | .chpost .. => execChackEffect c.who.core c.who.bank i s
  | .shopen .. => execShopenEffect c.who.core c.who.bank i s
  | .publish .. => execPublishEffect c.who.core c.who.bank i s
  | .split .. => execSplitArrive c.who.core c.who.bank i s
  | .ckpt .. => execCkptRecordComplete c.who.core c.who.bank s
  | _ => .next s

/-- The clk at which a command's effect is due at the latest: a `SPLIT` comes as soon as it can, an open within 64 clk and 64 for each
64 KiB, a record within 192 (R364, R366, R367). -/
def Command.dueBy (c : Command) : Option Nat :=
  match c.ins with
  | .split _ => some 0
  | .shopen .. => some (c.who.issued + 64 + 64 * ((c.ops.headD 0).toNat / 65536))
  | .ckpt .. => some (c.who.issued + 192)
  | _ => none

/-- An access whose point of time the spec leaves to memory (R268, R287). -/
def openTime (e : QEntry) : Bool :=
  match e.ins with
  | .ldc .. | .ldcv .. | .ldg .. | .ldgv .. | .ldgx .. | .stc .. | .stcv .. | .stg .. | .stgv .. | .stgn .. | .stgx .. | .amo .. => true
  | _ => false

/-- The steps of a bank's queue, oldest entry first, and the report of its halt; in a paced run the accesses wait for the script. -/
def bankSteps (paced : Bool) (c b : Nat) (k : Bank) : List (State → Result) :=
  (((k.queue.zipIdx).filter fun p => !(paced && openTime p.1)).map fun (e, i) => entryStep c b i e)
    ++ (if k.state = .halted ∧ !k.haltReported then [execHaltReport c b] else [])

/-- The steps of a core that wait on no engine. -/
def coreSteps (s : State) (c : Nat) (x : Core) : List (State → Result) :=
  bankSteps s.paced c 0 x.bank0 ++ bankSteps s.paced c 1 x.bank1
    ++ (if x.stashQueue.isEmpty then [] else [execStashCmdTake c])
    ++ ([0, 1].filterMap fun b => if (x.bank b).state = .halted ∧ (x.bank b).item.isSome then
        some fun (s : State) => Host.Outcome.next (s.settleHalt c b) else none)
    ++ (if x.drain.isSome then [execDrainComplete c] else [])

/-- The entries of a bank whose access waits for a port that has not been UP for TLINK (R445). -/
def cutEntries (s : State) (c b : Nat) : List (State → Result) :=
  ((s.bank c b).queue.zipIdx).filterMap fun (e, i) =>
    if s.cutOff ((s.partsOf (s.bank c b) e).filterMap fun p => s.accessPort p.loc) then some (execDomainAccessTimeout c b i) else none

/-- The time-outs of accesses to other devices whose port has not been UP for TLINK, and the ports whose retraining has failed (R445,
R446). -/
def linkSteps (s : State) : List (State → Result) :=
  let engine (a kind b : Nat) : List (State → Result) :=
    match (s.timedEngine a kind b).bind s.enginePorts with
    | some (ports, _) => if s.cutOff ports then [execDomainAccessTimeout a kind b] else []
    | none => []
  if s.ports.all fun e => e.2.1 = 0 then []
  else
    (s.ports.filter fun e => e.2.1 = 1).map (fun e => execPortDown e.1 true)
      ++ (s.cores.flatMap fun e => cutEntries s e.1 0 ++ cutEntries s e.1 1
          ++ (List.range 4).flatMap (fun n => engine e.1 (2 + n) 0) ++ [0, 1].flatMap fun b => engine e.1 10 b ++ engine e.1 11 b)
      ++ (s.dies.flatMap fun e => ((e.2.stashRunning.map (·.key)).eraseDups.flatMap fun key => engine e.1 6 key))
      ++ (s.tensors.flatMap fun e => engine e.1 7 0 ++ engine e.1 8 0)
      ++ ((List.range s.buckets.length).flatMap fun i => engine i 9 0)

/-- The copy channels of a core with a command. -/
def Core.busyChannels (x : Core) : List Nat := (x.channels.filter fun h => !h.2.queue.isEmpty).map (·.1)

/-- What the copy channels of a core do before its bundle of the clk, in ascending number (R308). -/
def deliverySteps (c : Nat) (x : Core) : List (State → Result) :=
  x.busyChannels.flatMap fun n => [execEngineCountFix 0 c n, execFifoDelivery c n]

/-- What the copy channels and the prefetch engine of a core do after its bundle of the clk (R30, R32). -/
def trailingSteps (s : State) (c : Nat) (x : Core) : List (State → Result) :=
  (x.busyChannels.flatMap fun n => [execCopyBlockProgress c n 1 [], execChainBlockEnd c n])
    ++ ((s.segmentWanted c).toList.map fun g => execSegmentExpand c g)

/-- The steps of the stash engine and of the balloon engine of a die. -/
def dieSteps (d : Nat) (x : Die) : List (State → Result) :=
  ((x.stashRunning.map (·.key)).eraseDups.flatMap fun key =>
    [execEngineCountFix 1 d key, execStashOffloadComplete d key, execStashDropComplete d key, execStashKeepComplete d key,
     execStashFetchComplete d key, execSfreeComplete d key])
    ++ (if x.balloon = 1 ∧ !x.balloonList.isEmpty then [execBalloonClaim d] else [])
    ++ (x.evictions.map fun e => execEvictionComplete d e.1)
    ++ (if x.balloon = 2 then [execEvictionStart d] else [])
    ++ (if x.balloon = 3 ∧ !x.waiters.isEmpty then [execSpaceAnswer d] else [])
    ++ (if x.balloon = 4 then [execPageRecall d] else [])

/-- What the device has sent from one channel end to another of its own. -/
def flitStep (s : State) (f : Flit) : Option (State → Result) :=
  let here (chan : Nat) : Bool := (s.tensor chan).bound && s.peerHere (s.tensor chan)
  match f with
  | .window chan w => if here chan then some (execWindowFlitReceive (s.tensor chan).peer true w) else none
  | .consumed chan v => if here chan then some (execWindowFlitReceive (s.tensor chan).peer false v) else none
  | .ack chan seq => if here chan then some (execPacketAckReceive (s.tensor chan).peer seq) else none
  | _ => none

/-- The steps of a tensor channel: its sender's, and the deposit of the packet that is next at a receiver whose peer is on this
device. -/
def tensorSteps (s : State) (n : Nat) (t : TensorChannel) : List (State → Result) :=
  (if t.sq.isEmpty then [] else [execEngineCountFix 2 n 0, execPacketDepart n])
    ++ (if t.bound ∧ !t.sender ∧ s.peerHere t then
        ((s.tensor t.peer).replay.filter fun p => p.seq = t.seq).map fun p =>
          execPacketDeposit n p.seq p.step p.tag p.kind p.offset p.pad (natBytes 64 (p.header.getD 0) ++ p.payload)
      else [])

/-- The step of the command that a host queue dispatches next (R461). -/
def commandStep (e : JournalEntry) : Option (State → Result) :=
  match e.arg 0 1 with
  | 0x01 => some (execInvoke e.queue e.seq)
  | 0x02 => some (execLoad e.queue e.seq)
  | 0x03 => some (execUnload e.queue e.seq)
  | 0x04 => some (execVersion e.queue e.seq)
  | 0x05 => some (execStagecfg e.queue e.seq)
  | 0x06 => some (execDevcfg e.queue e.seq)
  | 0x07 => some (execTagset e.queue e.seq)
  | 0x08 => some (execSnapshot e.queue e.seq)
  | 0x09 => some (execPageans e.queue e.seq)
  | 0x0A => some (execPasiddown e.queue e.seq)
  | 0x0B => some (execPreempt e.queue e.seq)
  | 0x0C => some (execRestore e.queue e.seq)
  | 0x0D => some (execQcreate e.queue e.seq)
  | 0x0E => some (execQdelete e.queue e.seq)
  | _ => none

/-- The steps of the control cores: commands, invocations, swaps, snapshots, teardowns. -/
def controlSteps (s : State) : List (State → Result) :=
  ((s.journal.filter s.undispatched).filterMap commandStep)
    ++ ((s.invocations.filter fun e => e.2.walking ∧ e.2.asked = []).map fun e => execTranslationWalkComplete e.1 [])
    ++ (s.swaps.flatMap fun w =>
        if w.inward then [execSwapInComplete w.partition w.bank]
        else ((s.coresInOrder w.partition).map fun c => execPreemptArrive c w.bank) ++ [execSwapOutComplete w.partition w.bank])
    ++ ((s.jobs.filter fun e => !e.2.wanted.isEmpty).map fun e => execSnapshotSend e.1)
    ++ (s.teardowns.flatMap fun t => [execTeardownCancel t.pasid, execTeardownTimeout t.pasid])

/-- The steps that a bound of the spec makes due in this clk: effects of commands, the end of an `SFREE` 256 clk after its turn came, and
the walk of a dispatch (R359, R382). -/
def State.dueSteps (s : State) : List (State → Result) :=
  ((s.commands.zipIdx).filterMap fun (c, i) => if c.dueBy.any fun t => t ≤ s.clk then some (commandEffect c i) else none)
    ++ (s.dies.flatMap fun e => (e.2.stashRunning.filter fun c => c.op = 2 ∧ c.begun ∧ c.since + 256 ≤ s.clk).map fun c =>
        execSfreeComplete e.1 c.key)
    ++ ((s.invocations.filter fun e => e.2.walking ∧ e.2.asked = [] ∧ e.2.walkDue ≤ s.clk).map fun e =>
        execTranslationWalkComplete e.1 [])

/-- The steps of this clk whose time the spec states. -/
def State.timedSteps (s : State) : List (State → Result) :=
  (s.cores.flatMap fun e => coreSteps s e.1 e.2)
    ++ s.dueSteps
    ++ (s.dies.filterMap fun e => if e.2.halved < s.clk / 2 ^ 20 then some (execAccessCountHalve e.1) else none)
    ++ (if s.withies then (List.range 4).map execExecutiveFrame else [])
    ++ (if s.lastPhase + 12500 ≤ s.clk then [execPhaseFlitSend] else [])
    ++ (if s.lastArbitration + 12500 ≤ s.clk then [State.arbitrate] else [])
    ++ linkSteps s
    ++ (if s.hostWrites.isEmpty then [] else [fun s => .next s.serveHost])

/-- The steps of the engines and the control cores before the bundles of the clk, taken as soon as they can be. -/
def State.engineSteps (s : State) : List (State → Result) :=
  (s.cores.flatMap fun e => deliverySteps e.1 e.2)
    ++ ((s.commands.zipIdx).map fun (c, i) => commandEffect c i)
    ++ (s.dies.flatMap fun e => dieSteps e.1 e.2)
    ++ (s.sent.filterMap fun f => flitStep s f)
    ++ (s.tensors.flatMap fun e => tensorSteps s e.1 e.2)
    ++ ((List.range s.buckets.length).flatMap fun i =>
        [execEngineCountFix 3 i 0, execBucketStart i] ++ (if s.regs.ringSize ≤ 1 then [execRingSettle i []] else []))
    ++ ((List.range s.migrations.length).map fun i => execMigrationPass i false)
    ++ ((s.clusters.filter fun e => e.2.split.isSome).map fun e => execSplitDrainEnd e.1)
    ++ controlSteps s

/-- What follows every other step before the bundles of the clk: the items placed enter their queues behind the records pushed in the clk,
the rounds start, and the posted traps of the clk are taken (R34, R194, R203; log 65). -/
def State.closingSteps (s : State) : List (State → Result) :=
  ((s.queues.filter fun e => e.2.placed.any fun p => p.1 ≤ s.clk).map fun e (s : State) => .next (s.enterPlaced e.1))
    ++ ((s.stages.filter fun e => e.2.round.any fun t => t ≤ s.clk).map fun e => execSchedulerRound e.1)
    ++ (s.cores.filterMap fun e =>
        if s.atBoundary e.1 ∧ !(e.2.bank e.2.active).posted.isEmpty then some (execPostedTrapTake e.1 e.2.active) else none)

/-- The steps the machine takes of itself before the bundles of this clk, in their order; in a paced run only those whose time the
spec states (log 5). Of two records that cores push into one queue in one clk that of the lower core number enters first (log 65). -/
def State.ownSteps (s : State) : List (State → Result) :=
  s.timedSteps ++ (if s.paced then [] else s.engineSteps) ++ s.closingSteps

/-- The steps it takes after the bundles of this clk. -/
def State.lateSteps (s : State) : List (State → Result) :=
  if s.paced then [] else s.cores.flatMap fun e => trailingSteps s e.1 e.2

/-- A step whose clk the spec fixes, once that clk has come. -/
def runDue (d : Due) (s : State) : Result :=
  match d with
  | .replayRestore c b stage tag gens seeds => .next (s.restoreRegs c b stage tag gens seeds)
  | .snapCapture id => .next (s.captureSnap id)
  | .phaseFlit => .next s.sendPhase

/-- The first calendar entry whose clk has come, with the calendar without it. -/
def takeDue (now : Nat) : List (Nat × Due) → Option (Due × List (Nat × Due))
  | [] => none
  | (t, d) :: r => if t ≤ now then some (d, r) else (takeDue now r).map fun (x, l) => (x, (t, d) :: l)

/-! ## The clk -/

/-- A `BPOLL` reads its barrier at the end of issue + 2 and writes at issue + 8 (R226). -/
def State.pollBarriers (s : State) (c b : Nat) : State :=
  (((s.bank c b).queue).filter fun e => match e.ins with
    | .bpoll .. => decide (e.clk + 2 ≤ s.clk)
    | _ => false).foldl (fun s e =>
      match e.ins with
      | .bpoll opa bar =>
        let k := s.bank c b
        let v := bpollWord (s.barrier (clusterOf c) bar.toNat)
        let f : InFlight := { due := e.clk + 8, issued := e.clk, pos := e.pos, bundle := e.bundle, write := .sreg opa.toNat v }
        s.setBank c b { k with queue := k.queue.erase e, inFlight := k.inFlight ++ [f] }
      | _ => s) s

/-- Writes to the registers of a core, which take effect as they land: RETURN (R405), WAKE (R423), ABORT (R314). -/
def State.landCoreCsr (s : State) (c b : Nat) : State :=
  ((s.bank c b).inFlight.filter fun f => f.due ≤ s.clk + 1).foldl (fun s f =>
    match f.write with
    | .csr n v =>
      if n = 1 then s.setCore c { s.core c with returnBit := v.getLsbD 0 }
      else if n = 0x40 ∧ v.getLsbD 0 then s.wakeWrite c
      else if 0x100 ≤ n ∧ n ≤ 0x103 ∧ v.getLsbD 0 then s.abortChannel c (n - 0x100)
      else s
    | _ => s) s

/-- One bank goes to the next clk; a trap posted during its drain is marked for MORE (R403). -/
def State.tickBank (s : State) (c b : Nat) : State :=
  let s := (s.pollBarriers c b).landCoreCsr c b
  let k := s.bank c b
  let t := k.tick s.clk
  let new := t.posted.drop k.posted.length
  s.setBank c b (if (s.core c).drain.any fun d => d.bank = b then
      { t with posted := t.posted.take k.posted.length ++ new.map fun p => { p with more := true } }
    else t)

/-- The clk advances: barrier phases complete, results land, rows are computed, the scheduler sees the phase counter; balloon engines,
the walker's marks, invalidations and readiness are brought up to date. -/
def State.tick (s : State) : State :=
  let s := s.settleBarriers
  let s := s.cores.foldl (fun s e => (s.tickBank e.1 0).tickBank e.1 1) s
  let s := { s with clk := s.clk + 1, regs := { s.regs with seen := s.regs.phase } }
  let s := s.balloonSettles (s.dies.map (·.1))
  (s.payMarks s.owedMarks.length).settleInvalidations.refresh

/-- The bundle of a core, or the fetch delay while its segment is not expanded (R8, R30). -/
def State.issueAt (s : State) (c : Nat) : Result :=
  if (s.segmentMissing c).isSome then .next (s.setCore c { s.core c with nextIssue := s.clk + 1 }) else s.issueBundle c

/-- What follows the bundles of a clk: the late steps, the boot ROM (R473), or the next clk. -/
def State.endClk (s : State) : Result :=
  match firstProgress s s.lateSteps with
  | some o => o
  | none => if s.withies ∨ s.devStatus.getLsbD 0 then .next s.tick else .next s.boot

/-- One step without a script: what the calendar holds for this clk, what the machine does of itself, a bundle, and what follows the
bundles. -/
def State.advance (s : State) : Result :=
  match takeDue s.clk s.calendar with
  | some (d, l) => runDue d { s with calendar := l }
  | none =>
    match firstProgress s s.ownSteps with
    | some o => o
    | none =>
      match s.nextIssuer with
      | some c => s.issueAt c
      | none => s.endClk

/-- The entry of a script stamped `t` happens: an even stamp names a clk, an odd one the part of a clk after its bundles (log 5). -/
def State.scriptDue (s : State) (t : Nat) : Bool := decide (t ≤ 2 * s.clk) || (decide (t ≤ 2 * s.clk + 1) && s.nextIssuer.isNone)

/-! ## Placing a program's first word -/

/-- The task under which a placed word runs. -/
def placedTask : Task := { slot := 0, version := 0, stage := 0, worker := 0, pasid := 0, partition := 0, invocation := 0 }

/-- The words that run one instruction as a bundle of its own: STOP set, and for an E slot an `ADDI` that it extends; a `HALT`
follows, so that the code does not end there (R113). -/
def placedWords (w : Slot) : List Slot :=
  if slotClass w = 11 then [w &&& 0x7FFFFFFF, 0x88200000, 0x93C00000] else [w ||| 0x80000000, 0x93C00000]

/-- The bank that will fetch a placed word. -/
def Bank.place (k : Bank) : Bank := { k with state := .runnable, stopped := false, task := some placedTask, pc := 0, posted := [] }

/-- A word placed where core 0 fetches next (log 4). -/
def State.placeWord (s : State) (w : Slot) : State :=
  let m := tget {} 0 s.slots
  let words := placedWords w
  let x := s.core 0
  let x := { x.setBank x.active (x.bank x.active).place with nextIssue := 0, drain := none, segments := [0] }
  { s with slots := tset 0 { m with loaded := true, code := words, segments := [(0, 4 * words.length)] } s.slots,
           cores := tset 0 x s.cores, script := [], calendar := [], paced := false }

end Sys2Proof.Machine
end

