-- ==== Sys2Proof/Machine/Step.lean ====
section
/-! DEFINITION. One step of the machine (log 5) and the place where a program's first word is put. -/

namespace Sys2Proof.Machine

/-- One step: the head of the script once it is due, or what the machine does next of itself; nothing runs once the device has failed. -/
def step (s : State) : Host.Outcome State Fault Refusal :=
  if s.failed then .fault .deviceFailed
  else
    match s.script with
    | (t, i) :: r => if s.scriptDue t then exec i { s with script := r } else s.advance
    | [] => s.advance

/-- The state with a table word stored where the next bundle is fetched (log 4). -/
def State.withFetchWord (s : State) (nbits w : Nat) : State := s.placeWord (BitVec.ofNat 32 (w % 2 ^ nbits))

end Sys2Proof.Machine
end

