-- ==== Sys2Proof/Laws/Layouts.lean ====
section
/-! SUPPORT. Fields of a word that is made of fields: what the decoder reads from a word of the encoder, layout by layout. -/

namespace Sys2Proof.Laws

open Sys2Proof

/-- A field that lies above the lower part of a word. -/
theorem bits_above {v w : Nat} (lo n : Nat) (x : BitVec v) (y : BitVec w) (h : w ≤ lo) :
    bits lo n (x ++ y) = bits (lo - w) n x := by
  apply BitVec.eq_of_getLsbD_eq
  intro i hi
  have hw : ¬ lo + i < w := by omega
  have he : lo + i - w = lo - w + i := by omega
  simp [bits, BitVec.getLsbD_append, hi, hw, he]

/-- A field that lies in the lower part of a word. -/
theorem bits_below {v w : Nat} (lo n : Nat) (x : BitVec v) (y : BitVec w) (h : lo + n ≤ w) :
    bits lo n (x ++ y) = bits lo n y := by
  apply BitVec.eq_of_getLsbD_eq
  intro i hi
  have hw : lo + i < w := by omega
  simp [bits, BitVec.getLsbD_append, hi, hw]

/-- The field that is the whole word. -/
theorem bits_all {w : Nat} (x : BitVec w) : bits 0 w x = x := by
  apply BitVec.eq_of_getLsbD_eq
  intro i hi
  simp [bits, hi]

/-- Reserved bits of two parts, examined part by part. -/
theorem and_split {v w : Nat} (x : BitVec v) (y : BitVec w) (m : BitVec (v + w)) (hx : x &&& bits w v m = 0)
    (hy : y &&& bits 0 w m = 0) : (x ++ y) &&& m = 0 := by
  apply BitVec.eq_of_getLsbD_eq
  intro i hi
  rw [BitVec.getLsbD_and, BitVec.getLsbD_append]
  by_cases hw : i < w
  · simpa [hw, bits] using congrArg (·.getLsbD i) hy
  · have he : w + (i - w) = i := by omega
    have hl : i - w < v := by omega
    simpa [hw, bits, he, hl] using congrArg (·.getLsbD (i - w)) hx

theorem and_of_zero {w : Nat} (x : BitVec w) {m : BitVec w} (h : m = 0) : x &&& m = 0 := by rw [h]; exact BitVec.and_zero

theorem zero_and_any {w : Nat} (m : BitVec w) : (0 : BitVec w) &&& m = 0 := BitVec.zero_and

/-- A body whose reserved bits are zero is the instruction its fields name. -/
theorem fixed_eq {w : Nat} {b m : BitVec w} {i j : Instr} (hm : b &&& m = 0) (hj : j = i) (hw : i.wf = true) :
    fixed b m j = .ok i := by
  rw [hj, fixed, if_pos ⟨hm, hw⟩]

/-! ## Class and operation -/

theorem packBare_fields (c : BitVec 4) (b : BitVec 27) :
    bits 27 4 (packBare c b) = c ∧ bits 0 27 (packBare c b) = b :=
  ⟨(bits_above 27 4 _ b (by decide)).trans ((bits_below 0 4 _ c (by decide)).trans (bits_all c)),
   (bits_below 0 27 _ b (by decide)).trans (bits_all b)⟩

/-- A field of a bare slot lies in its body. -/
theorem packBare_bits (lo n : Nat) (c : BitVec 4) (b : BitVec 27) (h : lo + n ≤ 27) :
    bits lo n (packBare c b) = bits lo n b := bits_below lo n _ b h

theorem decode_bare0 (b : BitVec 27) :
    decodeSlot (packBare 0 b) = fixed b 0x7000000 (.pfx (bits 21 3 b) (bits 20 1 b) (bits 16 4 b) (bits 0 16 b)) := by
  obtain ⟨hc, hb⟩ := packBare_fields 0 b
  unfold decodeSlot
  rw [hc]
  simp only [packBare_bits 21 3 0 b (by decide), packBare_bits 20 1 0 b (by decide), packBare_bits 16 4 0 b (by decide),
    packBare_bits 0 16 0 b (by decide), hb]
  rfl

theorem decode_bare11 (b : BitVec 27) : decodeSlot (packBare 11 b) = fixed b 0x6000000 (.ext (bits 0 25 b)) := by
  obtain ⟨hc, hb⟩ := packBare_fields 11 b
  unfold decodeSlot
  rw [hc]
  simp only [packBare_bits 0 25 11 b (by decide), hb]
  rfl

theorem pack7_fields (c : BitVec 4) (op : BitVec 7) (b : BitVec 20) :
    bits 27 4 (pack7 c op b) = c ∧ bits 20 7 (pack7 c op b) = op ∧ bits 0 20 (pack7 c op b) = b :=
  ⟨(bits_above 27 4 _ b (by decide)).trans ((bits_above 7 4 _ op (by decide)).trans ((bits_below 0 4 _ c (by decide)).trans (bits_all c))),
   (bits_above 20 7 _ b (by decide)).trans ((bits_below 0 7 _ op (by decide)).trans (bits_all op)),
   (bits_below 0 20 _ b (by decide)).trans (bits_all b)⟩

theorem pack6_fields (c : BitVec 4) (op : BitVec 6) (b : BitVec 21) :
    bits 27 4 (pack6 c op b) = c ∧ bits 21 6 (pack6 c op b) = op ∧ bits 0 21 (pack6 c op b) = b :=
  ⟨(bits_above 27 4 _ b (by decide)).trans ((bits_above 6 4 _ op (by decide)).trans ((bits_below 0 4 _ c (by decide)).trans (bits_all c))),
   (bits_above 21 6 _ b (by decide)).trans ((bits_below 0 6 _ op (by decide)).trans (bits_all op)),
   (bits_below 0 21 _ b (by decide)).trans (bits_all b)⟩

theorem pack5_fields (c : BitVec 4) (op : BitVec 5) (b : BitVec 22) :
    bits 27 4 (pack5 c op b) = c ∧ bits 22 5 (pack5 c op b) = op ∧ bits 0 22 (pack5 c op b) = b :=
  ⟨(bits_above 27 4 _ b (by decide)).trans ((bits_above 5 4 _ op (by decide)).trans ((bits_below 0 4 _ c (by decide)).trans (bits_all c))),
   (bits_above 22 5 _ b (by decide)).trans ((bits_below 0 5 _ op (by decide)).trans (bits_all op)),
   (bits_below 0 22 _ b (by decide)).trans (bits_all b)⟩

theorem decode_pack7_1 (op : BitVec 7) (b : BitVec 20) : decodeSlot (pack7 1 op b) = decodeS op.toNat b := by
  obtain ⟨hc, ho, hb⟩ := pack7_fields 1 op b
  unfold decodeSlot
  rw [hc, ho, hb]
  rfl

theorem decode_pack5_2 (op : BitVec 5) (b : BitVec 22) : decodeSlot (pack5 2 op b) = decodeB op.toNat b := by
  obtain ⟨hc, ho, hb⟩ := pack5_fields 2 op b
  unfold decodeSlot
  rw [hc, ho, hb]
  rfl

theorem decode_pack5_5 (op : BitVec 5) (b : BitVec 22) : decodeSlot (pack5 5 op b) = decodeM0 op.toNat b := by
  obtain ⟨hc, ho, hb⟩ := pack5_fields 5 op b
  unfold decodeSlot
  rw [hc, ho, hb]
  rfl

theorem decode_pack5_6 (op : BitVec 5) (b : BitVec 22) : decodeSlot (pack5 6 op b) = decodeM1 op.toNat b := by
  obtain ⟨hc, ho, hb⟩ := pack5_fields 6 op b
  unfold decodeSlot
  rw [hc, ho, hb]
  rfl

theorem decode_pack6_3 (op : BitVec 6) (b : BitVec 21) : decodeSlot (pack6 3 op b) = decodeV op.toNat b := by
  obtain ⟨hc, ho, hb⟩ := pack6_fields 3 op b
  unfold decodeSlot
  rw [hc, ho, hb]
  rfl

theorem decode_pack6_4 (op : BitVec 6) (b : BitVec 21) : decodeSlot (pack6 4 op b) = decodeVX op.toNat b := by
  obtain ⟨hc, ho, hb⟩ := pack6_fields 4 op b
  unfold decodeSlot
  rw [hc, ho, hb]
  rfl

theorem decode_pack6_7 (op : BitVec 6) (b : BitVec 21) : decodeSlot (pack6 7 op b) = decodeL op.toNat b := by
  obtain ⟨hc, ho, hb⟩ := pack6_fields 7 op b
  unfold decodeSlot
  rw [hc, ho, hb]
  rfl

theorem decode_pack6_8 (op : BitVec 6) (b : BitVec 21) : decodeSlot (pack6 8 op b) = decodeT op.toNat b := by
  obtain ⟨hc, ho, hb⟩ := pack6_fields 8 op b
  unfold decodeSlot
  rw [hc, ho, hb]
  rfl

theorem decode_pack6_9 (op : BitVec 6) (b : BitVec 21) : decodeSlot (pack6 9 op b) = decodeA op.toNat b := by
  obtain ⟨hc, ho, hb⟩ := pack6_fields 9 op b
  unfold decodeSlot
  rw [hc, ho, hb]
  rfl

theorem decode_pack6_10 (op : BitVec 6) (b : BitVec 21) : decodeSlot (pack6 10 op b) = decodeQ op.toNat b := by
  obtain ⟨hc, ho, hb⟩ := pack6_fields 10 op b
  unfold decodeSlot
  rw [hc, ho, hb]
  rfl

theorem decode_pack6_12 (op : BitVec 6) (b : BitVec 21) : decodeSlot (pack6 12 op b) = decodeY op.toNat b := by
  obtain ⟨hc, ho, hb⟩ := pack6_fields 12 op b
  unfold decodeSlot
  rw [hc, ho, hb]
  rfl

/-! ## The fields of each body layout -/

theorem layout_1_4_z2_15 (x0 : BitVec 1) (x1 : BitVec 4) (x3 : BitVec 15) :
    bits 21 1 (x0 ++ x1 ++ (0 : BitVec 2) ++ x3 : BitVec 22) = x0
      ∧ bits 17 4 (x0 ++ x1 ++ (0 : BitVec 2) ++ x3 : BitVec 22) = x1
      ∧ bits 0 15 (x0 ++ x1 ++ (0 : BitVec 2) ++ x3 : BitVec 22) = x3
      ∧ (x0 ++ x1 ++ (0 : BitVec 2) ++ x3 : BitVec 22) &&& 0x18000 = 0 :=
  ⟨(bits_above 21 1 _ _ (by decide)).trans ((bits_above 6 1 _ _ (by decide)).trans ((bits_above 4 1 _ _ (by decide)).trans (bits_all _))),
   (bits_above 17 4 _ _ (by decide)).trans ((bits_above 2 4 _ _ (by decide)).trans ((bits_below 0 4 _ _ (by decide)).trans (bits_all _))),
   (bits_below 0 15 _ _ (by decide)).trans (bits_all _),
   and_split _ _ _ (and_split _ _ _ (and_split _ _ _ (and_of_zero _ rfl) (and_of_zero _ rfl)) (zero_and_any _)) (and_of_zero _ rfl)⟩

theorem layout_1_6_15 (x0 : BitVec 1) (x1 : BitVec 6) (x2 : BitVec 15) :
    bits 21 1 (x0 ++ x1 ++ x2 : BitVec 22) = x0
      ∧ bits 15 6 (x0 ++ x1 ++ x2 : BitVec 22) = x1
      ∧ bits 0 15 (x0 ++ x1 ++ x2 : BitVec 22) = x2
      ∧ (x0 ++ x1 ++ x2 : BitVec 22) &&& 0x0 = 0 :=
  ⟨(bits_above 21 1 _ _ (by decide)).trans ((bits_above 6 1 _ _ (by decide)).trans (bits_all _)),
   (bits_above 15 6 _ _ (by decide)).trans ((bits_below 0 6 _ _ (by decide)).trans (bits_all _)),
   (bits_below 0 15 _ _ (by decide)).trans (bits_all _),
   and_split _ _ _ (and_split _ _ _ (and_of_zero _ rfl) (and_of_zero _ rfl)) (and_of_zero _ rfl)⟩

theorem layout_4_z11_6 (x0 : BitVec 4) (x2 : BitVec 6) :
    bits 17 4 (x0 ++ (0 : BitVec 11) ++ x2 : BitVec 21) = x0
      ∧ bits 0 6 (x0 ++ (0 : BitVec 11) ++ x2 : BitVec 21) = x2
      ∧ (x0 ++ (0 : BitVec 11) ++ x2 : BitVec 21) &&& 0x1ffc0 = 0 :=
  ⟨(bits_above 17 4 _ _ (by decide)).trans ((bits_above 11 4 _ _ (by decide)).trans (bits_all _)),
   (bits_below 0 6 _ _ (by decide)).trans (bits_all _),
   and_split _ _ _ (and_split _ _ _ (and_of_zero _ rfl) (zero_and_any _)) (and_of_zero _ rfl)⟩

theorem layout_6_14 (x0 : BitVec 6) (x1 : BitVec 14) :
    bits 14 6 (x0 ++ x1 : BitVec 20) = x0
      ∧ bits 0 14 (x0 ++ x1 : BitVec 20) = x1
      ∧ (x0 ++ x1 : BitVec 20) &&& 0x0 = 0 :=
  ⟨(bits_above 14 6 _ _ (by decide)).trans (bits_all _),
   (bits_below 0 14 _ _ (by decide)).trans (bits_all _),
   and_split _ _ _ (and_of_zero _ rfl) (and_of_zero _ rfl)⟩

theorem layout_6_15 (x0 : BitVec 6) (x1 : BitVec 15) :
    bits 15 6 (x0 ++ x1 : BitVec 21) = x0
      ∧ bits 0 15 (x0 ++ x1 : BitVec 21) = x1 :=
  ⟨(bits_above 15 6 _ _ (by decide)).trans (bits_all _),
   (bits_below 0 15 _ _ (by decide)).trans (bits_all _)⟩

theorem layout_6_6_1_1_1_z7 (x0 : BitVec 6) (x1 : BitVec 6) (x2 : BitVec 1) (x3 : BitVec 1) (x4 : BitVec 1) :
    bits 16 6 (x0 ++ x1 ++ x2 ++ x3 ++ x4 ++ (0 : BitVec 7) : BitVec 22) = x0
      ∧ bits 10 6 (x0 ++ x1 ++ x2 ++ x3 ++ x4 ++ (0 : BitVec 7) : BitVec 22) = x1
      ∧ bits 9 1 (x0 ++ x1 ++ x2 ++ x3 ++ x4 ++ (0 : BitVec 7) : BitVec 22) = x2
      ∧ bits 8 1 (x0 ++ x1 ++ x2 ++ x3 ++ x4 ++ (0 : BitVec 7) : BitVec 22) = x3
      ∧ bits 7 1 (x0 ++ x1 ++ x2 ++ x3 ++ x4 ++ (0 : BitVec 7) : BitVec 22) = x4
      ∧ (x0 ++ x1 ++ x2 ++ x3 ++ x4 ++ (0 : BitVec 7) : BitVec 22) &&& 0x7f = 0 :=
  ⟨(bits_above 16 6 _ _ (by decide)).trans ((bits_above 9 6 _ _ (by decide)).trans ((bits_above 8 6 _ _ (by decide)).trans ((bits_above 7 6 _ _ (by decide)).trans ((bits_above 6 6 _ _ (by decide)).trans (bits_all _))))),
   (bits_above 10 6 _ _ (by decide)).trans ((bits_above 3 6 _ _ (by decide)).trans ((bits_above 2 6 _ _ (by decide)).trans ((bits_above 1 6 _ _ (by decide)).trans ((bits_below 0 6 _ _ (by decide)).trans (bits_all _))))),
   (bits_above 9 1 _ _ (by decide)).trans ((bits_above 2 1 _ _ (by decide)).trans ((bits_above 1 1 _ _ (by decide)).trans ((bits_below 0 1 _ _ (by decide)).trans (bits_all _)))),
   (bits_above 8 1 _ _ (by decide)).trans ((bits_above 1 1 _ _ (by decide)).trans ((bits_below 0 1 _ _ (by decide)).trans (bits_all _))),
   (bits_above 7 1 _ _ (by decide)).trans ((bits_below 0 1 _ _ (by decide)).trans (bits_all _)),
   and_split _ _ _ (and_split _ _ _ (and_split _ _ _ (and_split _ _ _ (and_split _ _ _ (and_of_zero _ rfl) (and_of_zero _ rfl)) (and_of_zero _ rfl)) (and_of_zero _ rfl)) (and_of_zero _ rfl)) (zero_and_any _)⟩

theorem layout_6_6_1_3_1_4 (x0 : BitVec 6) (x1 : BitVec 6) (x2 : BitVec 1) (x3 : BitVec 3) (x4 : BitVec 1) (x5 : BitVec 4) :
    bits 15 6 (x0 ++ x1 ++ x2 ++ x3 ++ x4 ++ x5 : BitVec 21) = x0
      ∧ bits 9 6 (x0 ++ x1 ++ x2 ++ x3 ++ x4 ++ x5 : BitVec 21) = x1
      ∧ bits 8 1 (x0 ++ x1 ++ x2 ++ x3 ++ x4 ++ x5 : BitVec 21) = x2
      ∧ bits 5 3 (x0 ++ x1 ++ x2 ++ x3 ++ x4 ++ x5 : BitVec 21) = x3
      ∧ bits 4 1 (x0 ++ x1 ++ x2 ++ x3 ++ x4 ++ x5 : BitVec 21) = x4
      ∧ bits 0 4 (x0 ++ x1 ++ x2 ++ x3 ++ x4 ++ x5 : BitVec 21) = x5
      ∧ (x0 ++ x1 ++ x2 ++ x3 ++ x4 ++ x5 : BitVec 21) &&& 0x0 = 0 :=
  ⟨(bits_above 15 6 _ _ (by decide)).trans ((bits_above 11 6 _ _ (by decide)).trans ((bits_above 10 6 _ _ (by decide)).trans ((bits_above 7 6 _ _ (by decide)).trans ((bits_above 6 6 _ _ (by decide)).trans (bits_all _))))),
   (bits_above 9 6 _ _ (by decide)).trans ((bits_above 5 6 _ _ (by decide)).trans ((bits_above 4 6 _ _ (by decide)).trans ((bits_above 1 6 _ _ (by decide)).trans ((bits_below 0 6 _ _ (by decide)).trans (bits_all _))))),
   (bits_above 8 1 _ _ (by decide)).trans ((bits_above 4 1 _ _ (by decide)).trans ((bits_above 3 1 _ _ (by decide)).trans ((bits_below 0 1 _ _ (by decide)).trans (bits_all _)))),
   (bits_above 5 3 _ _ (by decide)).trans ((bits_above 1 3 _ _ (by decide)).trans ((bits_below 0 3 _ _ (by decide)).trans (bits_all _))),
   (bits_above 4 1 _ _ (by decide)).trans ((bits_below 0 1 _ _ (by decide)).trans (bits_all _)),
   (bits_below 0 4 _ _ (by decide)).trans (bits_all _),
   and_split _ _ _ (and_split _ _ _ (and_split _ _ _ (and_split _ _ _ (and_split _ _ _ (and_of_zero _ rfl) (and_of_zero _ rfl)) (and_of_zero _ rfl)) (and_of_zero _ rfl)) (and_of_zero _ rfl)) (and_of_zero _ rfl)⟩

theorem layout_6_6_6_1_z1 (x0 : BitVec 6) (x1 : BitVec 6) (x2 : BitVec 6) (x3 : BitVec 1) :
    bits 14 6 (x0 ++ x1 ++ x2 ++ x3 ++ (0 : BitVec 1) : BitVec 20) = x0
      ∧ bits 8 6 (x0 ++ x1 ++ x2 ++ x3 ++ (0 : BitVec 1) : BitVec 20) = x1
      ∧ bits 2 6 (x0 ++ x1 ++ x2 ++ x3 ++ (0 : BitVec 1) : BitVec 20) = x2
      ∧ bits 1 1 (x0 ++ x1 ++ x2 ++ x3 ++ (0 : BitVec 1) : BitVec 20) = x3
      ∧ (x0 ++ x1 ++ x2 ++ x3 ++ (0 : BitVec 1) : BitVec 20) &&& 0x1 = 0 :=
  ⟨(bits_above 14 6 _ _ (by decide)).trans ((bits_above 13 6 _ _ (by decide)).trans ((bits_above 12 6 _ _ (by decide)).trans ((bits_above 6 6 _ _ (by decide)).trans (bits_all _)))),
   (bits_above 8 6 _ _ (by decide)).trans ((bits_above 7 6 _ _ (by decide)).trans ((bits_above 6 6 _ _ (by decide)).trans ((bits_below 0 6 _ _ (by decide)).trans (bits_all _)))),
   (bits_above 2 6 _ _ (by decide)).trans ((bits_above 1 6 _ _ (by decide)).trans ((bits_below 0 6 _ _ (by decide)).trans (bits_all _))),
   (bits_above 1 1 _ _ (by decide)).trans ((bits_below 0 1 _ _ (by decide)).trans (bits_all _)),
   and_split _ _ _ (and_split _ _ _ (and_split _ _ _ (and_split _ _ _ (and_of_zero _ rfl) (and_of_zero _ rfl)) (and_of_zero _ rfl)) (and_of_zero _ rfl)) (zero_and_any _)⟩

theorem layout_6_6_6_3 (x0 : BitVec 6) (x1 : BitVec 6) (x2 : BitVec 6) (x3 : BitVec 3) :
    bits 15 6 (x0 ++ x1 ++ x2 ++ x3 : BitVec 21) = x0
      ∧ bits 9 6 (x0 ++ x1 ++ x2 ++ x3 : BitVec 21) = x1
      ∧ bits 3 6 (x0 ++ x1 ++ x2 ++ x3 : BitVec 21) = x2
      ∧ bits 0 3 (x0 ++ x1 ++ x2 ++ x3 : BitVec 21) = x3
      ∧ (x0 ++ x1 ++ x2 ++ x3 : BitVec 21) &&& 0x0 = 0 :=
  ⟨(bits_above 15 6 _ _ (by decide)).trans ((bits_above 12 6 _ _ (by decide)).trans ((bits_above 6 6 _ _ (by decide)).trans (bits_all _))),
   (bits_above 9 6 _ _ (by decide)).trans ((bits_above 6 6 _ _ (by decide)).trans ((bits_below 0 6 _ _ (by decide)).trans (bits_all _))),
   (bits_above 3 6 _ _ (by decide)).trans ((bits_below 0 6 _ _ (by decide)).trans (bits_all _)),
   (bits_below 0 3 _ _ (by decide)).trans (bits_all _),
   and_split _ _ _ (and_split _ _ _ (and_split _ _ _ (and_of_zero _ rfl) (and_of_zero _ rfl)) (and_of_zero _ rfl)) (and_of_zero _ rfl)⟩

theorem layout_6_6_6_z2 (x0 : BitVec 6) (x1 : BitVec 6) (x2 : BitVec 6) :
    bits 14 6 (x0 ++ x1 ++ x2 ++ (0 : BitVec 2) : BitVec 20) = x0
      ∧ bits 8 6 (x0 ++ x1 ++ x2 ++ (0 : BitVec 2) : BitVec 20) = x1
      ∧ bits 2 6 (x0 ++ x1 ++ x2 ++ (0 : BitVec 2) : BitVec 20) = x2
      ∧ (x0 ++ x1 ++ x2 ++ (0 : BitVec 2) : BitVec 20) &&& 0x3 = 0 :=
  ⟨(bits_above 14 6 _ _ (by decide)).trans ((bits_above 12 6 _ _ (by decide)).trans ((bits_above 6 6 _ _ (by decide)).trans (bits_all _))),
   (bits_above 8 6 _ _ (by decide)).trans ((bits_above 6 6 _ _ (by decide)).trans ((bits_below 0 6 _ _ (by decide)).trans (bits_all _))),
   (bits_above 2 6 _ _ (by decide)).trans ((bits_below 0 6 _ _ (by decide)).trans (bits_all _)),
   and_split _ _ _ (and_split _ _ _ (and_split _ _ _ (and_of_zero _ rfl) (and_of_zero _ rfl)) (and_of_zero _ rfl)) (zero_and_any _)⟩

theorem layout_6_6_6_z3 (x0 : BitVec 6) (x1 : BitVec 6) (x2 : BitVec 6) :
    bits 15 6 (x0 ++ x1 ++ x2 ++ (0 : BitVec 3) : BitVec 21) = x0
      ∧ bits 9 6 (x0 ++ x1 ++ x2 ++ (0 : BitVec 3) : BitVec 21) = x1
      ∧ bits 3 6 (x0 ++ x1 ++ x2 ++ (0 : BitVec 3) : BitVec 21) = x2
      ∧ (x0 ++ x1 ++ x2 ++ (0 : BitVec 3) : BitVec 21) &&& 0x7 = 0 :=
  ⟨(bits_above 15 6 _ _ (by decide)).trans ((bits_above 12 6 _ _ (by decide)).trans ((bits_above 6 6 _ _ (by decide)).trans (bits_all _))),
   (bits_above 9 6 _ _ (by decide)).trans ((bits_above 6 6 _ _ (by decide)).trans ((bits_below 0 6 _ _ (by decide)).trans (bits_all _))),
   (bits_above 3 6 _ _ (by decide)).trans ((bits_below 0 6 _ _ (by decide)).trans (bits_all _)),
   and_split _ _ _ (and_split _ _ _ (and_split _ _ _ (and_of_zero _ rfl) (and_of_zero _ rfl)) (and_of_zero _ rfl)) (zero_and_any _)⟩

theorem layout_6_6_8 (x0 : BitVec 6) (x1 : BitVec 6) (x2 : BitVec 8) :
    bits 14 6 (x0 ++ x1 ++ x2 : BitVec 20) = x0
      ∧ bits 8 6 (x0 ++ x1 ++ x2 : BitVec 20) = x1
      ∧ bits 0 8 (x0 ++ x1 ++ x2 : BitVec 20) = x2
      ∧ (x0 ++ x1 ++ x2 : BitVec 20) &&& 0x0 = 0 :=
  ⟨(bits_above 14 6 _ _ (by decide)).trans ((bits_above 6 6 _ _ (by decide)).trans (bits_all _)),
   (bits_above 8 6 _ _ (by decide)).trans ((bits_below 0 6 _ _ (by decide)).trans (bits_all _)),
   (bits_below 0 8 _ _ (by decide)).trans (bits_all _),
   and_split _ _ _ (and_split _ _ _ (and_of_zero _ rfl) (and_of_zero _ rfl)) (and_of_zero _ rfl)⟩

theorem layout_6_6_z10 (x0 : BitVec 6) (x1 : BitVec 6) :
    bits 16 6 (x0 ++ x1 ++ (0 : BitVec 10) : BitVec 22) = x0
      ∧ bits 10 6 (x0 ++ x1 ++ (0 : BitVec 10) : BitVec 22) = x1
      ∧ (x0 ++ x1 ++ (0 : BitVec 10) : BitVec 22) &&& 0x3ff = 0 :=
  ⟨(bits_above 16 6 _ _ (by decide)).trans ((bits_above 6 6 _ _ (by decide)).trans (bits_all _)),
   (bits_above 10 6 _ _ (by decide)).trans ((bits_below 0 6 _ _ (by decide)).trans (bits_all _)),
   and_split _ _ _ (and_split _ _ _ (and_of_zero _ rfl) (and_of_zero _ rfl)) (zero_and_any _)⟩

theorem layout_6_6_z2_6 (x0 : BitVec 6) (x1 : BitVec 6) (x3 : BitVec 6) :
    bits 14 6 (x0 ++ x1 ++ (0 : BitVec 2) ++ x3 : BitVec 20) = x0
      ∧ bits 8 6 (x0 ++ x1 ++ (0 : BitVec 2) ++ x3 : BitVec 20) = x1
      ∧ bits 0 6 (x0 ++ x1 ++ (0 : BitVec 2) ++ x3 : BitVec 20) = x3
      ∧ (x0 ++ x1 ++ (0 : BitVec 2) ++ x3 : BitVec 20) &&& 0xc0 = 0 :=
  ⟨(bits_above 14 6 _ _ (by decide)).trans ((bits_above 8 6 _ _ (by decide)).trans ((bits_above 6 6 _ _ (by decide)).trans (bits_all _))),
   (bits_above 8 6 _ _ (by decide)).trans ((bits_above 2 6 _ _ (by decide)).trans ((bits_below 0 6 _ _ (by decide)).trans (bits_all _))),
   (bits_below 0 6 _ _ (by decide)).trans (bits_all _),
   and_split _ _ _ (and_split _ _ _ (and_split _ _ _ (and_of_zero _ rfl) (and_of_zero _ rfl)) (zero_and_any _)) (and_of_zero _ rfl)⟩

theorem layout_6_6_z3_6 (x0 : BitVec 6) (x1 : BitVec 6) (x3 : BitVec 6) :
    bits 15 6 (x0 ++ x1 ++ (0 : BitVec 3) ++ x3 : BitVec 21) = x0
      ∧ bits 9 6 (x0 ++ x1 ++ (0 : BitVec 3) ++ x3 : BitVec 21) = x1
      ∧ bits 0 6 (x0 ++ x1 ++ (0 : BitVec 3) ++ x3 : BitVec 21) = x3
      ∧ (x0 ++ x1 ++ (0 : BitVec 3) ++ x3 : BitVec 21) &&& 0x1c0 = 0 :=
  ⟨(bits_above 15 6 _ _ (by decide)).trans ((bits_above 9 6 _ _ (by decide)).trans ((bits_above 6 6 _ _ (by decide)).trans (bits_all _))),
   (bits_above 9 6 _ _ (by decide)).trans ((bits_above 3 6 _ _ (by decide)).trans ((bits_below 0 6 _ _ (by decide)).trans (bits_all _))),
   (bits_below 0 6 _ _ (by decide)).trans (bits_all _),
   and_split _ _ _ (and_split _ _ _ (and_split _ _ _ (and_of_zero _ rfl) (and_of_zero _ rfl)) (zero_and_any _)) (and_of_zero _ rfl)⟩

theorem layout_6_6_z5_4 (x0 : BitVec 6) (x1 : BitVec 6) (x3 : BitVec 4) :
    bits 15 6 (x0 ++ x1 ++ (0 : BitVec 5) ++ x3 : BitVec 21) = x0
      ∧ bits 9 6 (x0 ++ x1 ++ (0 : BitVec 5) ++ x3 : BitVec 21) = x1
      ∧ bits 0 4 (x0 ++ x1 ++ (0 : BitVec 5) ++ x3 : BitVec 21) = x3
      ∧ (x0 ++ x1 ++ (0 : BitVec 5) ++ x3 : BitVec 21) &&& 0x1f0 = 0 :=
  ⟨(bits_above 15 6 _ _ (by decide)).trans ((bits_above 11 6 _ _ (by decide)).trans ((bits_above 6 6 _ _ (by decide)).trans (bits_all _))),
   (bits_above 9 6 _ _ (by decide)).trans ((bits_above 5 6 _ _ (by decide)).trans ((bits_below 0 6 _ _ (by decide)).trans (bits_all _))),
   (bits_below 0 4 _ _ (by decide)).trans (bits_all _),
   and_split _ _ _ (and_split _ _ _ (and_split _ _ _ (and_of_zero _ rfl) (and_of_zero _ rfl)) (zero_and_any _)) (and_of_zero _ rfl)⟩

theorem layout_6_6_z6_1_z1 (x0 : BitVec 6) (x1 : BitVec 6) (x3 : BitVec 1) :
    bits 14 6 (x0 ++ x1 ++ (0 : BitVec 6) ++ x3 ++ (0 : BitVec 1) : BitVec 20) = x0
      ∧ bits 8 6 (x0 ++ x1 ++ (0 : BitVec 6) ++ x3 ++ (0 : BitVec 1) : BitVec 20) = x1
      ∧ bits 1 1 (x0 ++ x1 ++ (0 : BitVec 6) ++ x3 ++ (0 : BitVec 1) : BitVec 20) = x3
      ∧ (x0 ++ x1 ++ (0 : BitVec 6) ++ x3 ++ (0 : BitVec 1) : BitVec 20) &&& 0xfd = 0 :=
  ⟨(bits_above 14 6 _ _ (by decide)).trans ((bits_above 13 6 _ _ (by decide)).trans ((bits_above 12 6 _ _ (by decide)).trans ((bits_above 6 6 _ _ (by decide)).trans (bits_all _)))),
   (bits_above 8 6 _ _ (by decide)).trans ((bits_above 7 6 _ _ (by decide)).trans ((bits_above 6 6 _ _ (by decide)).trans ((bits_below 0 6 _ _ (by decide)).trans (bits_all _)))),
   (bits_above 1 1 _ _ (by decide)).trans ((bits_below 0 1 _ _ (by decide)).trans (bits_all _)),
   and_split _ _ _ (and_split _ _ _ (and_split _ _ _ (and_split _ _ _ (and_of_zero _ rfl) (and_of_zero _ rfl)) (zero_and_any _)) (and_of_zero _ rfl)) (zero_and_any _)⟩

theorem layout_6_6_z7_2 (x0 : BitVec 6) (x1 : BitVec 6) (x3 : BitVec 2) :
    bits 15 6 (x0 ++ x1 ++ (0 : BitVec 7) ++ x3 : BitVec 21) = x0
      ∧ bits 9 6 (x0 ++ x1 ++ (0 : BitVec 7) ++ x3 : BitVec 21) = x1
      ∧ bits 0 2 (x0 ++ x1 ++ (0 : BitVec 7) ++ x3 : BitVec 21) = x3
      ∧ (x0 ++ x1 ++ (0 : BitVec 7) ++ x3 : BitVec 21) &&& 0x1fc = 0 :=
  ⟨(bits_above 15 6 _ _ (by decide)).trans ((bits_above 13 6 _ _ (by decide)).trans ((bits_above 6 6 _ _ (by decide)).trans (bits_all _))),
   (bits_above 9 6 _ _ (by decide)).trans ((bits_above 7 6 _ _ (by decide)).trans ((bits_below 0 6 _ _ (by decide)).trans (bits_all _))),
   (bits_below 0 2 _ _ (by decide)).trans (bits_all _),
   and_split _ _ _ (and_split _ _ _ (and_split _ _ _ (and_of_zero _ rfl) (and_of_zero _ rfl)) (zero_and_any _)) (and_of_zero _ rfl)⟩

theorem layout_6_6_z8 (x0 : BitVec 6) (x1 : BitVec 6) :
    bits 14 6 (x0 ++ x1 ++ (0 : BitVec 8) : BitVec 20) = x0
      ∧ bits 8 6 (x0 ++ x1 ++ (0 : BitVec 8) : BitVec 20) = x1
      ∧ (x0 ++ x1 ++ (0 : BitVec 8) : BitVec 20) &&& 0xff = 0 :=
  ⟨(bits_above 14 6 _ _ (by decide)).trans ((bits_above 6 6 _ _ (by decide)).trans (bits_all _)),
   (bits_above 8 6 _ _ (by decide)).trans ((bits_below 0 6 _ _ (by decide)).trans (bits_all _)),
   and_split _ _ _ (and_split _ _ _ (and_of_zero _ rfl) (and_of_zero _ rfl)) (zero_and_any _)⟩

theorem layout_6_6_z9 (x0 : BitVec 6) (x1 : BitVec 6) :
    bits 15 6 (x0 ++ x1 ++ (0 : BitVec 9) : BitVec 21) = x0
      ∧ bits 9 6 (x0 ++ x1 ++ (0 : BitVec 9) : BitVec 21) = x1
      ∧ (x0 ++ x1 ++ (0 : BitVec 9) : BitVec 21) &&& 0x1ff = 0 :=
  ⟨(bits_above 15 6 _ _ (by decide)).trans ((bits_above 6 6 _ _ (by decide)).trans (bits_all _)),
   (bits_above 9 6 _ _ (by decide)).trans ((bits_below 0 6 _ _ (by decide)).trans (bits_all _)),
   and_split _ _ _ (and_split _ _ _ (and_of_zero _ rfl) (and_of_zero _ rfl)) (zero_and_any _)⟩

theorem layout_6_z12_1_2 (x0 : BitVec 6) (x2 : BitVec 1) (x3 : BitVec 2) :
    bits 15 6 (x0 ++ (0 : BitVec 12) ++ x2 ++ x3 : BitVec 21) = x0
      ∧ bits 2 1 (x0 ++ (0 : BitVec 12) ++ x2 ++ x3 : BitVec 21) = x2
      ∧ bits 0 2 (x0 ++ (0 : BitVec 12) ++ x2 ++ x3 : BitVec 21) = x3
      ∧ (x0 ++ (0 : BitVec 12) ++ x2 ++ x3 : BitVec 21) &&& 0x7ff8 = 0 :=
  ⟨(bits_above 15 6 _ _ (by decide)).trans ((bits_above 13 6 _ _ (by decide)).trans ((bits_above 12 6 _ _ (by decide)).trans (bits_all _))),
   (bits_above 2 1 _ _ (by decide)).trans ((bits_below 0 1 _ _ (by decide)).trans (bits_all _)),
   (bits_below 0 2 _ _ (by decide)).trans (bits_all _),
   and_split _ _ _ (and_split _ _ _ (and_split _ _ _ (and_of_zero _ rfl) (zero_and_any _)) (and_of_zero _ rfl)) (and_of_zero _ rfl)⟩

theorem layout_6_z12_3 (x0 : BitVec 6) (x2 : BitVec 3) :
    bits 15 6 (x0 ++ (0 : BitVec 12) ++ x2 : BitVec 21) = x0
      ∧ bits 0 3 (x0 ++ (0 : BitVec 12) ++ x2 : BitVec 21) = x2
      ∧ (x0 ++ (0 : BitVec 12) ++ x2 : BitVec 21) &&& 0x7ff8 = 0 :=
  ⟨(bits_above 15 6 _ _ (by decide)).trans ((bits_above 12 6 _ _ (by decide)).trans (bits_all _)),
   (bits_below 0 3 _ _ (by decide)).trans (bits_all _),
   and_split _ _ _ (and_split _ _ _ (and_of_zero _ rfl) (zero_and_any _)) (and_of_zero _ rfl)⟩

theorem layout_6_z13_2 (x0 : BitVec 6) (x2 : BitVec 2) :
    bits 15 6 (x0 ++ (0 : BitVec 13) ++ x2 : BitVec 21) = x0
      ∧ bits 0 2 (x0 ++ (0 : BitVec 13) ++ x2 : BitVec 21) = x2
      ∧ (x0 ++ (0 : BitVec 13) ++ x2 : BitVec 21) &&& 0x7ffc = 0 :=
  ⟨(bits_above 15 6 _ _ (by decide)).trans ((bits_above 13 6 _ _ (by decide)).trans (bits_all _)),
   (bits_below 0 2 _ _ (by decide)).trans (bits_all _),
   and_split _ _ _ (and_split _ _ _ (and_of_zero _ rfl) (zero_and_any _)) (and_of_zero _ rfl)⟩

theorem layout_6_z15 (x0 : BitVec 6) :
    bits 15 6 (x0 ++ (0 : BitVec 15) : BitVec 21) = x0
      ∧ (x0 ++ (0 : BitVec 15) : BitVec 21) &&& 0x7fff = 0 :=
  ⟨(bits_above 15 6 _ _ (by decide)).trans (bits_all _),
   and_split _ _ _ (and_of_zero _ rfl) (zero_and_any _)⟩

theorem layout_6_z16 (x0 : BitVec 6) :
    bits 16 6 (x0 ++ (0 : BitVec 16) : BitVec 22) = x0
      ∧ (x0 ++ (0 : BitVec 16) : BitVec 22) &&& 0xffff = 0 :=
  ⟨(bits_above 16 6 _ _ (by decide)).trans (bits_all _),
   and_split _ _ _ (and_of_zero _ rfl) (zero_and_any _)⟩

theorem layout_6_z3_12 (x0 : BitVec 6) (x2 : BitVec 12) :
    bits 15 6 (x0 ++ (0 : BitVec 3) ++ x2 : BitVec 21) = x0
      ∧ bits 0 12 (x0 ++ (0 : BitVec 3) ++ x2 : BitVec 21) = x2
      ∧ (x0 ++ (0 : BitVec 3) ++ x2 : BitVec 21) &&& 0x7000 = 0 :=
  ⟨(bits_above 15 6 _ _ (by decide)).trans ((bits_above 3 6 _ _ (by decide)).trans (bits_all _)),
   (bits_below 0 12 _ _ (by decide)).trans (bits_all _),
   and_split _ _ _ (and_split _ _ _ (and_of_zero _ rfl) (zero_and_any _)) (and_of_zero _ rfl)⟩

theorem layout_6_z6_1_8 (x0 : BitVec 6) (x2 : BitVec 1) (x3 : BitVec 8) :
    bits 15 6 (x0 ++ (0 : BitVec 6) ++ x2 ++ x3 : BitVec 21) = x0
      ∧ bits 8 1 (x0 ++ (0 : BitVec 6) ++ x2 ++ x3 : BitVec 21) = x2
      ∧ bits 0 8 (x0 ++ (0 : BitVec 6) ++ x2 ++ x3 : BitVec 21) = x3
      ∧ (x0 ++ (0 : BitVec 6) ++ x2 ++ x3 : BitVec 21) &&& 0x7e00 = 0 :=
  ⟨(bits_above 15 6 _ _ (by decide)).trans ((bits_above 7 6 _ _ (by decide)).trans ((bits_above 6 6 _ _ (by decide)).trans (bits_all _))),
   (bits_above 8 1 _ _ (by decide)).trans ((bits_below 0 1 _ _ (by decide)).trans (bits_all _)),
   (bits_below 0 8 _ _ (by decide)).trans (bits_all _),
   and_split _ _ _ (and_split _ _ _ (and_split _ _ _ (and_of_zero _ rfl) (zero_and_any _)) (and_of_zero _ rfl)) (and_of_zero _ rfl)⟩

theorem layout_6_z6_6_z3 (x0 : BitVec 6) (x2 : BitVec 6) :
    bits 15 6 (x0 ++ (0 : BitVec 6) ++ x2 ++ (0 : BitVec 3) : BitVec 21) = x0
      ∧ bits 3 6 (x0 ++ (0 : BitVec 6) ++ x2 ++ (0 : BitVec 3) : BitVec 21) = x2
      ∧ (x0 ++ (0 : BitVec 6) ++ x2 ++ (0 : BitVec 3) : BitVec 21) &&& 0x7e07 = 0 :=
  ⟨(bits_above 15 6 _ _ (by decide)).trans ((bits_above 12 6 _ _ (by decide)).trans ((bits_above 6 6 _ _ (by decide)).trans (bits_all _))),
   (bits_above 3 6 _ _ (by decide)).trans ((bits_below 0 6 _ _ (by decide)).trans (bits_all _)),
   and_split _ _ _ (and_split _ _ _ (and_split _ _ _ (and_of_zero _ rfl) (zero_and_any _)) (and_of_zero _ rfl)) (zero_and_any _)⟩

theorem layout_6_z7_8 (x0 : BitVec 6) (x2 : BitVec 8) :
    bits 15 6 (x0 ++ (0 : BitVec 7) ++ x2 : BitVec 21) = x0
      ∧ bits 0 8 (x0 ++ (0 : BitVec 7) ++ x2 : BitVec 21) = x2
      ∧ (x0 ++ (0 : BitVec 7) ++ x2 : BitVec 21) &&& 0x7f00 = 0 :=
  ⟨(bits_above 15 6 _ _ (by decide)).trans ((bits_above 7 6 _ _ (by decide)).trans (bits_all _)),
   (bits_below 0 8 _ _ (by decide)).trans (bits_all _),
   and_split _ _ _ (and_split _ _ _ (and_of_zero _ rfl) (zero_and_any _)) (and_of_zero _ rfl)⟩

theorem layout_6_z8_1_6 (x0 : BitVec 6) (x2 : BitVec 1) (x3 : BitVec 6) :
    bits 15 6 (x0 ++ (0 : BitVec 8) ++ x2 ++ x3 : BitVec 21) = x0
      ∧ bits 6 1 (x0 ++ (0 : BitVec 8) ++ x2 ++ x3 : BitVec 21) = x2
      ∧ bits 0 6 (x0 ++ (0 : BitVec 8) ++ x2 ++ x3 : BitVec 21) = x3
      ∧ (x0 ++ (0 : BitVec 8) ++ x2 ++ x3 : BitVec 21) &&& 0x7f80 = 0 :=
  ⟨(bits_above 15 6 _ _ (by decide)).trans ((bits_above 9 6 _ _ (by decide)).trans ((bits_above 8 6 _ _ (by decide)).trans (bits_all _))),
   (bits_above 6 1 _ _ (by decide)).trans ((bits_below 0 1 _ _ (by decide)).trans (bits_all _)),
   (bits_below 0 6 _ _ (by decide)).trans (bits_all _),
   and_split _ _ _ (and_split _ _ _ (and_split _ _ _ (and_of_zero _ rfl) (zero_and_any _)) (and_of_zero _ rfl)) (and_of_zero _ rfl)⟩

theorem layout_6_z9_6 (x0 : BitVec 6) (x2 : BitVec 6) :
    bits 15 6 (x0 ++ (0 : BitVec 9) ++ x2 : BitVec 21) = x0
      ∧ bits 0 6 (x0 ++ (0 : BitVec 9) ++ x2 : BitVec 21) = x2
      ∧ (x0 ++ (0 : BitVec 9) ++ x2 : BitVec 21) &&& 0x7fc0 = 0 :=
  ⟨(bits_above 15 6 _ _ (by decide)).trans ((bits_above 9 6 _ _ (by decide)).trans (bits_all _)),
   (bits_below 0 6 _ _ (by decide)).trans (bits_all _),
   and_split _ _ _ (and_split _ _ _ (and_of_zero _ rfl) (zero_and_any _)) (and_of_zero _ rfl)⟩

theorem layout_7_1_6_z2_1_4 (x0 : BitVec 7) (x1 : BitVec 1) (x2 : BitVec 6) (x4 : BitVec 1) (x5 : BitVec 4) :
    bits 14 7 (x0 ++ x1 ++ x2 ++ (0 : BitVec 2) ++ x4 ++ x5 : BitVec 21) = x0
      ∧ bits 13 1 (x0 ++ x1 ++ x2 ++ (0 : BitVec 2) ++ x4 ++ x5 : BitVec 21) = x1
      ∧ bits 7 6 (x0 ++ x1 ++ x2 ++ (0 : BitVec 2) ++ x4 ++ x5 : BitVec 21) = x2
      ∧ bits 4 1 (x0 ++ x1 ++ x2 ++ (0 : BitVec 2) ++ x4 ++ x5 : BitVec 21) = x4
      ∧ bits 0 4 (x0 ++ x1 ++ x2 ++ (0 : BitVec 2) ++ x4 ++ x5 : BitVec 21) = x5
      ∧ (x0 ++ x1 ++ x2 ++ (0 : BitVec 2) ++ x4 ++ x5 : BitVec 21) &&& 0x60 = 0 :=
  ⟨(bits_above 14 7 _ _ (by decide)).trans ((bits_above 10 7 _ _ (by decide)).trans ((bits_above 9 7 _ _ (by decide)).trans ((bits_above 7 7 _ _ (by decide)).trans ((bits_above 1 7 _ _ (by decide)).trans (bits_all _))))),
   (bits_above 13 1 _ _ (by decide)).trans ((bits_above 9 1 _ _ (by decide)).trans ((bits_above 8 1 _ _ (by decide)).trans ((bits_above 6 1 _ _ (by decide)).trans ((bits_below 0 1 _ _ (by decide)).trans (bits_all _))))),
   (bits_above 7 6 _ _ (by decide)).trans ((bits_above 3 6 _ _ (by decide)).trans ((bits_above 2 6 _ _ (by decide)).trans ((bits_below 0 6 _ _ (by decide)).trans (bits_all _)))),
   (bits_above 4 1 _ _ (by decide)).trans ((bits_below 0 1 _ _ (by decide)).trans (bits_all _)),
   (bits_below 0 4 _ _ (by decide)).trans (bits_all _),
   and_split _ _ _ (and_split _ _ _ (and_split _ _ _ (and_split _ _ _ (and_split _ _ _ (and_of_zero _ rfl) (and_of_zero _ rfl)) (and_of_zero _ rfl)) (zero_and_any _)) (and_of_zero _ rfl)) (and_of_zero _ rfl)⟩

theorem layout_7_1_6_z7 (x0 : BitVec 7) (x1 : BitVec 1) (x2 : BitVec 6) :
    bits 14 7 (x0 ++ x1 ++ x2 ++ (0 : BitVec 7) : BitVec 21) = x0
      ∧ bits 13 1 (x0 ++ x1 ++ x2 ++ (0 : BitVec 7) : BitVec 21) = x1
      ∧ bits 7 6 (x0 ++ x1 ++ x2 ++ (0 : BitVec 7) : BitVec 21) = x2
      ∧ (x0 ++ x1 ++ x2 ++ (0 : BitVec 7) : BitVec 21) &&& 0x7f = 0 :=
  ⟨(bits_above 14 7 _ _ (by decide)).trans ((bits_above 7 7 _ _ (by decide)).trans ((bits_above 1 7 _ _ (by decide)).trans (bits_all _))),
   (bits_above 13 1 _ _ (by decide)).trans ((bits_above 6 1 _ _ (by decide)).trans ((bits_below 0 1 _ _ (by decide)).trans (bits_all _))),
   (bits_above 7 6 _ _ (by decide)).trans ((bits_below 0 6 _ _ (by decide)).trans (bits_all _)),
   and_split _ _ _ (and_split _ _ _ (and_split _ _ _ (and_of_zero _ rfl) (and_of_zero _ rfl)) (and_of_zero _ rfl)) (zero_and_any _)⟩

theorem layout_7_6_8 (x0 : BitVec 7) (x1 : BitVec 6) (x2 : BitVec 8) :
    bits 14 7 (x0 ++ x1 ++ x2 : BitVec 21) = x0
      ∧ bits 8 6 (x0 ++ x1 ++ x2 : BitVec 21) = x1
      ∧ bits 0 8 (x0 ++ x1 ++ x2 : BitVec 21) = x2
      ∧ (x0 ++ x1 ++ x2 : BitVec 21) &&& 0x0 = 0 :=
  ⟨(bits_above 14 7 _ _ (by decide)).trans ((bits_above 6 7 _ _ (by decide)).trans (bits_all _)),
   (bits_above 8 6 _ _ (by decide)).trans ((bits_below 0 6 _ _ (by decide)).trans (bits_all _)),
   (bits_below 0 8 _ _ (by decide)).trans (bits_all _),
   and_split _ _ _ (and_split _ _ _ (and_of_zero _ rfl) (and_of_zero _ rfl)) (and_of_zero _ rfl)⟩

theorem layout_7_7_7 (x0 : BitVec 7) (x1 : BitVec 7) (x2 : BitVec 7) :
    bits 14 7 (x0 ++ x1 ++ x2 : BitVec 21) = x0
      ∧ bits 7 7 (x0 ++ x1 ++ x2 : BitVec 21) = x1
      ∧ bits 0 7 (x0 ++ x1 ++ x2 : BitVec 21) = x2
      ∧ (x0 ++ x1 ++ x2 : BitVec 21) &&& 0x0 = 0 :=
  ⟨(bits_above 14 7 _ _ (by decide)).trans ((bits_above 7 7 _ _ (by decide)).trans (bits_all _)),
   (bits_above 7 7 _ _ (by decide)).trans ((bits_below 0 7 _ _ (by decide)).trans (bits_all _)),
   (bits_below 0 7 _ _ (by decide)).trans (bits_all _),
   and_split _ _ _ (and_split _ _ _ (and_of_zero _ rfl) (and_of_zero _ rfl)) (and_of_zero _ rfl)⟩

theorem layout_7_7_z1_6 (x0 : BitVec 7) (x1 : BitVec 7) (x3 : BitVec 6) :
    bits 14 7 (x0 ++ x1 ++ (0 : BitVec 1) ++ x3 : BitVec 21) = x0
      ∧ bits 7 7 (x0 ++ x1 ++ (0 : BitVec 1) ++ x3 : BitVec 21) = x1
      ∧ bits 0 6 (x0 ++ x1 ++ (0 : BitVec 1) ++ x3 : BitVec 21) = x3
      ∧ (x0 ++ x1 ++ (0 : BitVec 1) ++ x3 : BitVec 21) &&& 0x40 = 0 :=
  ⟨(bits_above 14 7 _ _ (by decide)).trans ((bits_above 8 7 _ _ (by decide)).trans ((bits_above 7 7 _ _ (by decide)).trans (bits_all _))),
   (bits_above 7 7 _ _ (by decide)).trans ((bits_above 1 7 _ _ (by decide)).trans ((bits_below 0 7 _ _ (by decide)).trans (bits_all _))),
   (bits_below 0 6 _ _ (by decide)).trans (bits_all _),
   and_split _ _ _ (and_split _ _ _ (and_split _ _ _ (and_of_zero _ rfl) (and_of_zero _ rfl)) (zero_and_any _)) (and_of_zero _ rfl)⟩

theorem layout_7_7_z2_1_4 (x0 : BitVec 7) (x1 : BitVec 7) (x3 : BitVec 1) (x4 : BitVec 4) :
    bits 14 7 (x0 ++ x1 ++ (0 : BitVec 2) ++ x3 ++ x4 : BitVec 21) = x0
      ∧ bits 7 7 (x0 ++ x1 ++ (0 : BitVec 2) ++ x3 ++ x4 : BitVec 21) = x1
      ∧ bits 4 1 (x0 ++ x1 ++ (0 : BitVec 2) ++ x3 ++ x4 : BitVec 21) = x3
      ∧ bits 0 4 (x0 ++ x1 ++ (0 : BitVec 2) ++ x3 ++ x4 : BitVec 21) = x4
      ∧ (x0 ++ x1 ++ (0 : BitVec 2) ++ x3 ++ x4 : BitVec 21) &&& 0x60 = 0 :=
  ⟨(bits_above 14 7 _ _ (by decide)).trans ((bits_above 10 7 _ _ (by decide)).trans ((bits_above 9 7 _ _ (by decide)).trans ((bits_above 7 7 _ _ (by decide)).trans (bits_all _)))),
   (bits_above 7 7 _ _ (by decide)).trans ((bits_above 3 7 _ _ (by decide)).trans ((bits_above 2 7 _ _ (by decide)).trans ((bits_below 0 7 _ _ (by decide)).trans (bits_all _)))),
   (bits_above 4 1 _ _ (by decide)).trans ((bits_below 0 1 _ _ (by decide)).trans (bits_all _)),
   (bits_below 0 4 _ _ (by decide)).trans (bits_all _),
   and_split _ _ _ (and_split _ _ _ (and_split _ _ _ (and_split _ _ _ (and_of_zero _ rfl) (and_of_zero _ rfl)) (zero_and_any _)) (and_of_zero _ rfl)) (and_of_zero _ rfl)⟩

theorem layout_7_7_z6_1 (x0 : BitVec 7) (x1 : BitVec 7) (x3 : BitVec 1) :
    bits 14 7 (x0 ++ x1 ++ (0 : BitVec 6) ++ x3 : BitVec 21) = x0
      ∧ bits 7 7 (x0 ++ x1 ++ (0 : BitVec 6) ++ x3 : BitVec 21) = x1
      ∧ bits 0 1 (x0 ++ x1 ++ (0 : BitVec 6) ++ x3 : BitVec 21) = x3
      ∧ (x0 ++ x1 ++ (0 : BitVec 6) ++ x3 : BitVec 21) &&& 0x7e = 0 :=
  ⟨(bits_above 14 7 _ _ (by decide)).trans ((bits_above 13 7 _ _ (by decide)).trans ((bits_above 7 7 _ _ (by decide)).trans (bits_all _))),
   (bits_above 7 7 _ _ (by decide)).trans ((bits_above 6 7 _ _ (by decide)).trans ((bits_below 0 7 _ _ (by decide)).trans (bits_all _))),
   (bits_below 0 1 _ _ (by decide)).trans (bits_all _),
   and_split _ _ _ (and_split _ _ _ (and_split _ _ _ (and_of_zero _ rfl) (and_of_zero _ rfl)) (zero_and_any _)) (and_of_zero _ rfl)⟩

theorem layout_7_7_z7 (x0 : BitVec 7) (x1 : BitVec 7) :
    bits 14 7 (x0 ++ x1 ++ (0 : BitVec 7) : BitVec 21) = x0
      ∧ bits 7 7 (x0 ++ x1 ++ (0 : BitVec 7) : BitVec 21) = x1
      ∧ (x0 ++ x1 ++ (0 : BitVec 7) : BitVec 21) &&& 0x7f = 0 :=
  ⟨(bits_above 14 7 _ _ (by decide)).trans ((bits_above 7 7 _ _ (by decide)).trans (bits_all _)),
   (bits_above 7 7 _ _ (by decide)).trans ((bits_below 0 7 _ _ (by decide)).trans (bits_all _)),
   and_split _ _ _ (and_split _ _ _ (and_of_zero _ rfl) (and_of_zero _ rfl)) (zero_and_any _)⟩

theorem layout_7_z14 (x0 : BitVec 7) :
    bits 14 7 (x0 ++ (0 : BitVec 14) : BitVec 21) = x0
      ∧ (x0 ++ (0 : BitVec 14) : BitVec 21) &&& 0x3fff = 0 :=
  ⟨(bits_above 14 7 _ _ (by decide)).trans (bits_all _),
   and_split _ _ _ (and_of_zero _ rfl) (zero_and_any _)⟩

theorem layout_7_z1_6_z1_6 (x0 : BitVec 7) (x2 : BitVec 6) (x4 : BitVec 6) :
    bits 14 7 (x0 ++ (0 : BitVec 1) ++ x2 ++ (0 : BitVec 1) ++ x4 : BitVec 21) = x0
      ∧ bits 7 6 (x0 ++ (0 : BitVec 1) ++ x2 ++ (0 : BitVec 1) ++ x4 : BitVec 21) = x2
      ∧ bits 0 6 (x0 ++ (0 : BitVec 1) ++ x2 ++ (0 : BitVec 1) ++ x4 : BitVec 21) = x4
      ∧ (x0 ++ (0 : BitVec 1) ++ x2 ++ (0 : BitVec 1) ++ x4 : BitVec 21) &&& 0x2040 = 0 :=
  ⟨(bits_above 14 7 _ _ (by decide)).trans ((bits_above 8 7 _ _ (by decide)).trans ((bits_above 7 7 _ _ (by decide)).trans ((bits_above 1 7 _ _ (by decide)).trans (bits_all _)))),
   (bits_above 7 6 _ _ (by decide)).trans ((bits_above 1 6 _ _ (by decide)).trans ((bits_below 0 6 _ _ (by decide)).trans (bits_all _))),
   (bits_below 0 6 _ _ (by decide)).trans (bits_all _),
   and_split _ _ _ (and_split _ _ _ (and_split _ _ _ (and_split _ _ _ (and_of_zero _ rfl) (zero_and_any _)) (and_of_zero _ rfl)) (zero_and_any _)) (and_of_zero _ rfl)⟩

theorem layout_7_z1_6_z7 (x0 : BitVec 7) (x2 : BitVec 6) :
    bits 14 7 (x0 ++ (0 : BitVec 1) ++ x2 ++ (0 : BitVec 7) : BitVec 21) = x0
      ∧ bits 7 6 (x0 ++ (0 : BitVec 1) ++ x2 ++ (0 : BitVec 7) : BitVec 21) = x2
      ∧ (x0 ++ (0 : BitVec 1) ++ x2 ++ (0 : BitVec 7) : BitVec 21) &&& 0x207f = 0 :=
  ⟨(bits_above 14 7 _ _ (by decide)).trans ((bits_above 7 7 _ _ (by decide)).trans ((bits_above 1 7 _ _ (by decide)).trans (bits_all _))),
   (bits_above 7 6 _ _ (by decide)).trans ((bits_below 0 6 _ _ (by decide)).trans (bits_all _)),
   and_split _ _ _ (and_split _ _ _ (and_split _ _ _ (and_of_zero _ rfl) (zero_and_any _)) (and_of_zero _ rfl)) (zero_and_any _)⟩

theorem layout_7_z5_2_z7 (x0 : BitVec 7) (x2 : BitVec 2) :
    bits 14 7 (x0 ++ (0 : BitVec 5) ++ x2 ++ (0 : BitVec 7) : BitVec 21) = x0
      ∧ bits 7 2 (x0 ++ (0 : BitVec 5) ++ x2 ++ (0 : BitVec 7) : BitVec 21) = x2
      ∧ (x0 ++ (0 : BitVec 5) ++ x2 ++ (0 : BitVec 7) : BitVec 21) &&& 0x3e7f = 0 :=
  ⟨(bits_above 14 7 _ _ (by decide)).trans ((bits_above 7 7 _ _ (by decide)).trans ((bits_above 5 7 _ _ (by decide)).trans (bits_all _))),
   (bits_above 7 2 _ _ (by decide)).trans ((bits_below 0 2 _ _ (by decide)).trans (bits_all _)),
   and_split _ _ _ (and_split _ _ _ (and_split _ _ _ (and_of_zero _ rfl) (zero_and_any _)) (and_of_zero _ rfl)) (zero_and_any _)⟩

theorem layout_7_z8_6 (x0 : BitVec 7) (x2 : BitVec 6) :
    bits 14 7 (x0 ++ (0 : BitVec 8) ++ x2 : BitVec 21) = x0
      ∧ bits 0 6 (x0 ++ (0 : BitVec 8) ++ x2 : BitVec 21) = x2
      ∧ (x0 ++ (0 : BitVec 8) ++ x2 : BitVec 21) &&& 0x3fc0 = 0 :=
  ⟨(bits_above 14 7 _ _ (by decide)).trans ((bits_above 8 7 _ _ (by decide)).trans (bits_all _)),
   (bits_below 0 6 _ _ (by decide)).trans (bits_all _),
   and_split _ _ _ (and_split _ _ _ (and_of_zero _ rfl) (zero_and_any _)) (and_of_zero _ rfl)⟩

theorem layout_9_13 (x0 : BitVec 9) (x1 : BitVec 13) :
    bits 13 9 (x0 ++ x1 : BitVec 22) = x0
      ∧ bits 0 13 (x0 ++ x1 : BitVec 22) = x1
      ∧ (x0 ++ x1 : BitVec 22) &&& 0x0 = 0 :=
  ⟨(bits_above 13 9 _ _ (by decide)).trans (bits_all _),
   (bits_below 0 13 _ _ (by decide)).trans (bits_all _),
   and_split _ _ _ (and_of_zero _ rfl) (and_of_zero _ rfl)⟩

theorem layout_z13_8 (x1 : BitVec 8) :
    bits 0 8 ((0 : BitVec 13) ++ x1 : BitVec 21) = x1
      ∧ ((0 : BitVec 13) ++ x1 : BitVec 21) &&& 0x1fff00 = 0 :=
  ⟨(bits_below 0 8 _ _ (by decide)).trans (bits_all _),
   and_split _ _ _ (zero_and_any _) (and_of_zero _ rfl)⟩

theorem layout_z14_1_z7 (x1 : BitVec 1) :
    bits 7 1 ((0 : BitVec 14) ++ x1 ++ (0 : BitVec 7) : BitVec 22) = x1
      ∧ ((0 : BitVec 14) ++ x1 ++ (0 : BitVec 7) : BitVec 22) &&& 0x3fff7f = 0 :=
  ⟨(bits_above 7 1 _ _ (by decide)).trans ((bits_below 0 1 _ _ (by decide)).trans (bits_all _)),
   and_split _ _ _ (and_split _ _ _ (zero_and_any _) (and_of_zero _ rfl)) (zero_and_any _)⟩

theorem layout_z15_6 (x1 : BitVec 6) :
    bits 0 6 ((0 : BitVec 15) ++ x1 : BitVec 21) = x1
      ∧ ((0 : BitVec 15) ++ x1 : BitVec 21) &&& 0x1fffc0 = 0 :=
  ⟨(bits_below 0 6 _ _ (by decide)).trans (bits_all _),
   and_split _ _ _ (zero_and_any _) (and_of_zero _ rfl)⟩

theorem layout_z16_2_3 (x1 : BitVec 2) (x2 : BitVec 3) :
    bits 3 2 ((0 : BitVec 16) ++ x1 ++ x2 : BitVec 21) = x1
      ∧ bits 0 3 ((0 : BitVec 16) ++ x1 ++ x2 : BitVec 21) = x2
      ∧ ((0 : BitVec 16) ++ x1 ++ x2 : BitVec 21) &&& 0x1fffe0 = 0 :=
  ⟨(bits_above 3 2 _ _ (by decide)).trans ((bits_below 0 2 _ _ (by decide)).trans (bits_all _)),
   (bits_below 0 3 _ _ (by decide)).trans (bits_all _),
   and_split _ _ _ (and_split _ _ _ (zero_and_any _) (and_of_zero _ rfl)) (and_of_zero _ rfl)⟩

theorem layout_z1_21 (x1 : BitVec 21) :
    bits 0 21 ((0 : BitVec 1) ++ x1 : BitVec 22) = x1
      ∧ ((0 : BitVec 1) ++ x1 : BitVec 22) &&& 0x200000 = 0 :=
  ⟨(bits_below 0 21 _ _ (by decide)).trans (bits_all _),
   and_split _ _ _ (zero_and_any _) (and_of_zero _ rfl)⟩

theorem layout_z1_3_2_6_z10 (x1 : BitVec 3) (x2 : BitVec 2) (x3 : BitVec 6) :
    bits 18 3 ((0 : BitVec 1) ++ x1 ++ x2 ++ x3 ++ (0 : BitVec 10) : BitVec 22) = x1
      ∧ bits 16 2 ((0 : BitVec 1) ++ x1 ++ x2 ++ x3 ++ (0 : BitVec 10) : BitVec 22) = x2
      ∧ bits 10 6 ((0 : BitVec 1) ++ x1 ++ x2 ++ x3 ++ (0 : BitVec 10) : BitVec 22) = x3
      ∧ ((0 : BitVec 1) ++ x1 ++ x2 ++ x3 ++ (0 : BitVec 10) : BitVec 22) &&& 0x2003ff = 0 :=
  ⟨(bits_above 18 3 _ _ (by decide)).trans ((bits_above 8 3 _ _ (by decide)).trans ((bits_above 2 3 _ _ (by decide)).trans ((bits_below 0 3 _ _ (by decide)).trans (bits_all _)))),
   (bits_above 16 2 _ _ (by decide)).trans ((bits_above 6 2 _ _ (by decide)).trans ((bits_below 0 2 _ _ (by decide)).trans (bits_all _))),
   (bits_above 10 6 _ _ (by decide)).trans ((bits_below 0 6 _ _ (by decide)).trans (bits_all _)),
   and_split _ _ _ (and_split _ _ _ (and_split _ _ _ (and_split _ _ _ (zero_and_any _) (and_of_zero _ rfl)) (and_of_zero _ rfl)) (and_of_zero _ rfl)) (zero_and_any _)⟩

theorem layout_z1_3_z18 (x1 : BitVec 3) :
    bits 18 3 ((0 : BitVec 1) ++ x1 ++ (0 : BitVec 18) : BitVec 22) = x1
      ∧ ((0 : BitVec 1) ++ x1 ++ (0 : BitVec 18) : BitVec 22) &&& 0x23ffff = 0 :=
  ⟨(bits_above 18 3 _ _ (by decide)).trans ((bits_below 0 3 _ _ (by decide)).trans (bits_all _)),
   and_split _ _ _ (and_split _ _ _ (zero_and_any _) (and_of_zero _ rfl)) (zero_and_any _)⟩

theorem layout_z1_6_15 (x1 : BitVec 6) (x2 : BitVec 15) :
    bits 15 6 ((0 : BitVec 1) ++ x1 ++ x2 : BitVec 22) = x1
      ∧ bits 0 15 ((0 : BitVec 1) ++ x1 ++ x2 : BitVec 22) = x2
      ∧ ((0 : BitVec 1) ++ x1 ++ x2 : BitVec 22) &&& 0x200000 = 0 :=
  ⟨(bits_above 15 6 _ _ (by decide)).trans ((bits_below 0 6 _ _ (by decide)).trans (bits_all _)),
   (bits_below 0 15 _ _ (by decide)).trans (bits_all _),
   and_split _ _ _ (and_split _ _ _ (zero_and_any _) (and_of_zero _ rfl)) (and_of_zero _ rfl)⟩

theorem layout_z1_6_3_z12 (x1 : BitVec 6) (x2 : BitVec 3) :
    bits 15 6 ((0 : BitVec 1) ++ x1 ++ x2 ++ (0 : BitVec 12) : BitVec 22) = x1
      ∧ bits 12 3 ((0 : BitVec 1) ++ x1 ++ x2 ++ (0 : BitVec 12) : BitVec 22) = x2
      ∧ ((0 : BitVec 1) ++ x1 ++ x2 ++ (0 : BitVec 12) : BitVec 22) &&& 0x200fff = 0 :=
  ⟨(bits_above 15 6 _ _ (by decide)).trans ((bits_above 3 6 _ _ (by decide)).trans ((bits_below 0 6 _ _ (by decide)).trans (bits_all _))),
   (bits_above 12 3 _ _ (by decide)).trans ((bits_below 0 3 _ _ (by decide)).trans (bits_all _)),
   and_split _ _ _ (and_split _ _ _ (and_split _ _ _ (zero_and_any _) (and_of_zero _ rfl)) (and_of_zero _ rfl)) (zero_and_any _)⟩

theorem layout_z1_6_6_8 (x1 : BitVec 6) (x2 : BitVec 6) (x3 : BitVec 8) :
    bits 14 6 ((0 : BitVec 1) ++ x1 ++ x2 ++ x3 : BitVec 21) = x1
      ∧ bits 8 6 ((0 : BitVec 1) ++ x1 ++ x2 ++ x3 : BitVec 21) = x2
      ∧ bits 0 8 ((0 : BitVec 1) ++ x1 ++ x2 ++ x3 : BitVec 21) = x3
      ∧ ((0 : BitVec 1) ++ x1 ++ x2 ++ x3 : BitVec 21) &&& 0x100000 = 0 :=
  ⟨(bits_above 14 6 _ _ (by decide)).trans ((bits_above 6 6 _ _ (by decide)).trans ((bits_below 0 6 _ _ (by decide)).trans (bits_all _))),
   (bits_above 8 6 _ _ (by decide)).trans ((bits_below 0 6 _ _ (by decide)).trans (bits_all _)),
   (bits_below 0 8 _ _ (by decide)).trans (bits_all _),
   and_split _ _ _ (and_split _ _ _ (and_split _ _ _ (zero_and_any _) (and_of_zero _ rfl)) (and_of_zero _ rfl)) (and_of_zero _ rfl)⟩

theorem layout_z1_6_7_z1_6 (x1 : BitVec 6) (x2 : BitVec 7) (x4 : BitVec 6) :
    bits 14 6 ((0 : BitVec 1) ++ x1 ++ x2 ++ (0 : BitVec 1) ++ x4 : BitVec 21) = x1
      ∧ bits 7 7 ((0 : BitVec 1) ++ x1 ++ x2 ++ (0 : BitVec 1) ++ x4 : BitVec 21) = x2
      ∧ bits 0 6 ((0 : BitVec 1) ++ x1 ++ x2 ++ (0 : BitVec 1) ++ x4 : BitVec 21) = x4
      ∧ ((0 : BitVec 1) ++ x1 ++ x2 ++ (0 : BitVec 1) ++ x4 : BitVec 21) &&& 0x100040 = 0 :=
  ⟨(bits_above 14 6 _ _ (by decide)).trans ((bits_above 8 6 _ _ (by decide)).trans ((bits_above 7 6 _ _ (by decide)).trans ((bits_below 0 6 _ _ (by decide)).trans (bits_all _)))),
   (bits_above 7 7 _ _ (by decide)).trans ((bits_above 1 7 _ _ (by decide)).trans ((bits_below 0 7 _ _ (by decide)).trans (bits_all _))),
   (bits_below 0 6 _ _ (by decide)).trans (bits_all _),
   and_split _ _ _ (and_split _ _ _ (and_split _ _ _ (and_split _ _ _ (zero_and_any _) (and_of_zero _ rfl)) (and_of_zero _ rfl)) (zero_and_any _)) (and_of_zero _ rfl)⟩

theorem layout_z1_6_7_z2_1_4 (x1 : BitVec 6) (x2 : BitVec 7) (x4 : BitVec 1) (x5 : BitVec 4) :
    bits 14 6 ((0 : BitVec 1) ++ x1 ++ x2 ++ (0 : BitVec 2) ++ x4 ++ x5 : BitVec 21) = x1
      ∧ bits 7 7 ((0 : BitVec 1) ++ x1 ++ x2 ++ (0 : BitVec 2) ++ x4 ++ x5 : BitVec 21) = x2
      ∧ bits 4 1 ((0 : BitVec 1) ++ x1 ++ x2 ++ (0 : BitVec 2) ++ x4 ++ x5 : BitVec 21) = x4
      ∧ bits 0 4 ((0 : BitVec 1) ++ x1 ++ x2 ++ (0 : BitVec 2) ++ x4 ++ x5 : BitVec 21) = x5
      ∧ ((0 : BitVec 1) ++ x1 ++ x2 ++ (0 : BitVec 2) ++ x4 ++ x5 : BitVec 21) &&& 0x100060 = 0 :=
  ⟨(bits_above 14 6 _ _ (by decide)).trans ((bits_above 10 6 _ _ (by decide)).trans ((bits_above 9 6 _ _ (by decide)).trans ((bits_above 7 6 _ _ (by decide)).trans ((bits_below 0 6 _ _ (by decide)).trans (bits_all _))))),
   (bits_above 7 7 _ _ (by decide)).trans ((bits_above 3 7 _ _ (by decide)).trans ((bits_above 2 7 _ _ (by decide)).trans ((bits_below 0 7 _ _ (by decide)).trans (bits_all _)))),
   (bits_above 4 1 _ _ (by decide)).trans ((bits_below 0 1 _ _ (by decide)).trans (bits_all _)),
   (bits_below 0 4 _ _ (by decide)).trans (bits_all _),
   and_split _ _ _ (and_split _ _ _ (and_split _ _ _ (and_split _ _ _ (and_split _ _ _ (zero_and_any _) (and_of_zero _ rfl)) (and_of_zero _ rfl)) (zero_and_any _)) (and_of_zero _ rfl)) (and_of_zero _ rfl)⟩

theorem layout_z1_6_7_z7 (x1 : BitVec 6) (x2 : BitVec 7) :
    bits 14 6 ((0 : BitVec 1) ++ x1 ++ x2 ++ (0 : BitVec 7) : BitVec 21) = x1
      ∧ bits 7 7 ((0 : BitVec 1) ++ x1 ++ x2 ++ (0 : BitVec 7) : BitVec 21) = x2
      ∧ ((0 : BitVec 1) ++ x1 ++ x2 ++ (0 : BitVec 7) : BitVec 21) &&& 0x10007f = 0 :=
  ⟨(bits_above 14 6 _ _ (by decide)).trans ((bits_above 7 6 _ _ (by decide)).trans ((bits_below 0 6 _ _ (by decide)).trans (bits_all _))),
   (bits_above 7 7 _ _ (by decide)).trans ((bits_below 0 7 _ _ (by decide)).trans (bits_all _)),
   and_split _ _ _ (and_split _ _ _ (and_split _ _ _ (zero_and_any _) (and_of_zero _ rfl)) (and_of_zero _ rfl)) (zero_and_any _)⟩

theorem layout_z1_6_z15 (x1 : BitVec 6) :
    bits 15 6 ((0 : BitVec 1) ++ x1 ++ (0 : BitVec 15) : BitVec 22) = x1
      ∧ ((0 : BitVec 1) ++ x1 ++ (0 : BitVec 15) : BitVec 22) &&& 0x207fff = 0 :=
  ⟨(bits_above 15 6 _ _ (by decide)).trans ((bits_below 0 6 _ _ (by decide)).trans (bits_all _)),
   and_split _ _ _ (and_split _ _ _ (zero_and_any _) (and_of_zero _ rfl)) (zero_and_any _)⟩

theorem layout_z1_6_z2_13 (x1 : BitVec 6) (x3 : BitVec 13) :
    bits 15 6 ((0 : BitVec 1) ++ x1 ++ (0 : BitVec 2) ++ x3 : BitVec 22) = x1
      ∧ bits 0 13 ((0 : BitVec 1) ++ x1 ++ (0 : BitVec 2) ++ x3 : BitVec 22) = x3
      ∧ ((0 : BitVec 1) ++ x1 ++ (0 : BitVec 2) ++ x3 : BitVec 22) &&& 0x206000 = 0 :=
  ⟨(bits_above 15 6 _ _ (by decide)).trans ((bits_above 2 6 _ _ (by decide)).trans ((bits_below 0 6 _ _ (by decide)).trans (bits_all _))),
   (bits_below 0 13 _ _ (by decide)).trans (bits_all _),
   and_split _ _ _ (and_split _ _ _ (and_split _ _ _ (zero_and_any _) (and_of_zero _ rfl)) (zero_and_any _)) (and_of_zero _ rfl)⟩

theorem layout_z1_6_z3_4_z7 (x1 : BitVec 6) (x3 : BitVec 4) :
    bits 14 6 ((0 : BitVec 1) ++ x1 ++ (0 : BitVec 3) ++ x3 ++ (0 : BitVec 7) : BitVec 21) = x1
      ∧ bits 7 4 ((0 : BitVec 1) ++ x1 ++ (0 : BitVec 3) ++ x3 ++ (0 : BitVec 7) : BitVec 21) = x3
      ∧ ((0 : BitVec 1) ++ x1 ++ (0 : BitVec 3) ++ x3 ++ (0 : BitVec 7) : BitVec 21) &&& 0x10387f = 0 :=
  ⟨(bits_above 14 6 _ _ (by decide)).trans ((bits_above 7 6 _ _ (by decide)).trans ((bits_above 3 6 _ _ (by decide)).trans ((bits_below 0 6 _ _ (by decide)).trans (bits_all _)))),
   (bits_above 7 4 _ _ (by decide)).trans ((bits_below 0 4 _ _ (by decide)).trans (bits_all _)),
   and_split _ _ _ (and_split _ _ _ (and_split _ _ _ (and_split _ _ _ (zero_and_any _) (and_of_zero _ rfl)) (zero_and_any _)) (and_of_zero _ rfl)) (zero_and_any _)⟩

theorem layout_z2_1_4_6_8 (x1 : BitVec 1) (x2 : BitVec 4) (x3 : BitVec 6) (x4 : BitVec 8) :
    bits 18 1 ((0 : BitVec 2) ++ x1 ++ x2 ++ x3 ++ x4 : BitVec 21) = x1
      ∧ bits 14 4 ((0 : BitVec 2) ++ x1 ++ x2 ++ x3 ++ x4 : BitVec 21) = x2
      ∧ bits 8 6 ((0 : BitVec 2) ++ x1 ++ x2 ++ x3 ++ x4 : BitVec 21) = x3
      ∧ bits 0 8 ((0 : BitVec 2) ++ x1 ++ x2 ++ x3 ++ x4 : BitVec 21) = x4
      ∧ ((0 : BitVec 2) ++ x1 ++ x2 ++ x3 ++ x4 : BitVec 21) &&& 0x180000 = 0 :=
  ⟨(bits_above 18 1 _ _ (by decide)).trans ((bits_above 10 1 _ _ (by decide)).trans ((bits_above 4 1 _ _ (by decide)).trans ((bits_below 0 1 _ _ (by decide)).trans (bits_all _)))),
   (bits_above 14 4 _ _ (by decide)).trans ((bits_above 6 4 _ _ (by decide)).trans ((bits_below 0 4 _ _ (by decide)).trans (bits_all _))),
   (bits_above 8 6 _ _ (by decide)).trans ((bits_below 0 6 _ _ (by decide)).trans (bits_all _)),
   (bits_below 0 8 _ _ (by decide)).trans (bits_all _),
   and_split _ _ _ (and_split _ _ _ (and_split _ _ _ (and_split _ _ _ (zero_and_any _) (and_of_zero _ rfl)) (and_of_zero _ rfl)) (and_of_zero _ rfl)) (and_of_zero _ rfl)⟩

theorem layout_z2_25 (x1 : BitVec 25) :
    bits 0 25 ((0 : BitVec 2) ++ x1 : BitVec 27) = x1
      ∧ ((0 : BitVec 2) ++ x1 : BitVec 27) &&& 0x6000000 = 0 :=
  ⟨(bits_below 0 25 _ _ (by decide)).trans (bits_all _),
   and_split _ _ _ (zero_and_any _) (and_of_zero _ rfl)⟩

theorem layout_z3_3_1_4_16 (x1 : BitVec 3) (x2 : BitVec 1) (x3 : BitVec 4) (x4 : BitVec 16) :
    bits 21 3 ((0 : BitVec 3) ++ x1 ++ x2 ++ x3 ++ x4 : BitVec 27) = x1
      ∧ bits 20 1 ((0 : BitVec 3) ++ x1 ++ x2 ++ x3 ++ x4 : BitVec 27) = x2
      ∧ bits 16 4 ((0 : BitVec 3) ++ x1 ++ x2 ++ x3 ++ x4 : BitVec 27) = x3
      ∧ bits 0 16 ((0 : BitVec 3) ++ x1 ++ x2 ++ x3 ++ x4 : BitVec 27) = x4
      ∧ ((0 : BitVec 3) ++ x1 ++ x2 ++ x3 ++ x4 : BitVec 27) &&& 0x7000000 = 0 :=
  ⟨(bits_above 21 3 _ _ (by decide)).trans ((bits_above 5 3 _ _ (by decide)).trans ((bits_above 1 3 _ _ (by decide)).trans ((bits_below 0 3 _ _ (by decide)).trans (bits_all _)))),
   (bits_above 20 1 _ _ (by decide)).trans ((bits_above 4 1 _ _ (by decide)).trans ((bits_below 0 1 _ _ (by decide)).trans (bits_all _))),
   (bits_above 16 4 _ _ (by decide)).trans ((bits_below 0 4 _ _ (by decide)).trans (bits_all _)),
   (bits_below 0 16 _ _ (by decide)).trans (bits_all _),
   and_split _ _ _ (and_split _ _ _ (and_split _ _ _ (and_split _ _ _ (zero_and_any _) (and_of_zero _ rfl)) (and_of_zero _ rfl)) (and_of_zero _ rfl)) (and_of_zero _ rfl)⟩

theorem layout_z3_4_7_7 (x1 : BitVec 4) (x2 : BitVec 7) (x3 : BitVec 7) :
    bits 14 4 ((0 : BitVec 3) ++ x1 ++ x2 ++ x3 : BitVec 21) = x1
      ∧ bits 7 7 ((0 : BitVec 3) ++ x1 ++ x2 ++ x3 : BitVec 21) = x2
      ∧ bits 0 7 ((0 : BitVec 3) ++ x1 ++ x2 ++ x3 : BitVec 21) = x3
      ∧ ((0 : BitVec 3) ++ x1 ++ x2 ++ x3 : BitVec 21) &&& 0x1c0000 = 0 :=
  ⟨(bits_above 14 4 _ _ (by decide)).trans ((bits_above 7 4 _ _ (by decide)).trans ((bits_below 0 4 _ _ (by decide)).trans (bits_all _))),
   (bits_above 7 7 _ _ (by decide)).trans ((bits_below 0 7 _ _ (by decide)).trans (bits_all _)),
   (bits_below 0 7 _ _ (by decide)).trans (bits_all _),
   and_split _ _ _ (and_split _ _ _ (and_split _ _ _ (zero_and_any _) (and_of_zero _ rfl)) (and_of_zero _ rfl)) (and_of_zero _ rfl)⟩

theorem layout_z3_4_z3_4_z3_4 (x1 : BitVec 4) (x3 : BitVec 4) (x5 : BitVec 4) :
    bits 14 4 ((0 : BitVec 3) ++ x1 ++ (0 : BitVec 3) ++ x3 ++ (0 : BitVec 3) ++ x5 : BitVec 21) = x1
      ∧ bits 7 4 ((0 : BitVec 3) ++ x1 ++ (0 : BitVec 3) ++ x3 ++ (0 : BitVec 3) ++ x5 : BitVec 21) = x3
      ∧ bits 0 4 ((0 : BitVec 3) ++ x1 ++ (0 : BitVec 3) ++ x3 ++ (0 : BitVec 3) ++ x5 : BitVec 21) = x5
      ∧ ((0 : BitVec 3) ++ x1 ++ (0 : BitVec 3) ++ x3 ++ (0 : BitVec 3) ++ x5 : BitVec 21) &&& 0x1c3870 = 0 :=
  ⟨(bits_above 14 4 _ _ (by decide)).trans ((bits_above 10 4 _ _ (by decide)).trans ((bits_above 7 4 _ _ (by decide)).trans ((bits_above 3 4 _ _ (by decide)).trans ((bits_below 0 4 _ _ (by decide)).trans (bits_all _))))),
   (bits_above 7 4 _ _ (by decide)).trans ((bits_above 3 4 _ _ (by decide)).trans ((bits_below 0 4 _ _ (by decide)).trans (bits_all _))),
   (bits_below 0 4 _ _ (by decide)).trans (bits_all _),
   and_split _ _ _ (and_split _ _ _ (and_split _ _ _ (and_split _ _ _ (and_split _ _ _ (zero_and_any _) (and_of_zero _ rfl)) (zero_and_any _)) (and_of_zero _ rfl)) (zero_and_any _)) (and_of_zero _ rfl)⟩

theorem layout_z3_4_z3_4_z7 (x1 : BitVec 4) (x3 : BitVec 4) :
    bits 14 4 ((0 : BitVec 3) ++ x1 ++ (0 : BitVec 3) ++ x3 ++ (0 : BitVec 7) : BitVec 21) = x1
      ∧ bits 7 4 ((0 : BitVec 3) ++ x1 ++ (0 : BitVec 3) ++ x3 ++ (0 : BitVec 7) : BitVec 21) = x3
      ∧ ((0 : BitVec 3) ++ x1 ++ (0 : BitVec 3) ++ x3 ++ (0 : BitVec 7) : BitVec 21) &&& 0x1c387f = 0 :=
  ⟨(bits_above 14 4 _ _ (by decide)).trans ((bits_above 7 4 _ _ (by decide)).trans ((bits_above 3 4 _ _ (by decide)).trans ((bits_below 0 4 _ _ (by decide)).trans (bits_all _)))),
   (bits_above 7 4 _ _ (by decide)).trans ((bits_below 0 4 _ _ (by decide)).trans (bits_all _)),
   and_split _ _ _ (and_split _ _ _ (and_split _ _ _ (and_split _ _ _ (zero_and_any _) (and_of_zero _ rfl)) (zero_and_any _)) (and_of_zero _ rfl)) (zero_and_any _)⟩

theorem layout_z6_15 (x1 : BitVec 15) :
    bits 0 15 ((0 : BitVec 6) ++ x1 : BitVec 21) = x1
      ∧ ((0 : BitVec 6) ++ x1 : BitVec 21) &&& 0x1f8000 = 0 :=
  ⟨(bits_below 0 15 _ _ (by decide)).trans (bits_all _),
   and_split _ _ _ (zero_and_any _) (and_of_zero _ rfl)⟩

theorem layout_z6_16 (x1 : BitVec 16) :
    bits 0 16 ((0 : BitVec 6) ++ x1 : BitVec 22) = x1
      ∧ ((0 : BitVec 6) ++ x1 : BitVec 22) &&& 0x3f0000 = 0 :=
  ⟨(bits_below 0 16 _ _ (by decide)).trans (bits_all _),
   and_split _ _ _ (zero_and_any _) (and_of_zero _ rfl)⟩

theorem layout_z6_1_7_z1_6 (x1 : BitVec 1) (x2 : BitVec 7) (x4 : BitVec 6) :
    bits 14 1 ((0 : BitVec 6) ++ x1 ++ x2 ++ (0 : BitVec 1) ++ x4 : BitVec 21) = x1
      ∧ bits 7 7 ((0 : BitVec 6) ++ x1 ++ x2 ++ (0 : BitVec 1) ++ x4 : BitVec 21) = x2
      ∧ bits 0 6 ((0 : BitVec 6) ++ x1 ++ x2 ++ (0 : BitVec 1) ++ x4 : BitVec 21) = x4
      ∧ ((0 : BitVec 6) ++ x1 ++ x2 ++ (0 : BitVec 1) ++ x4 : BitVec 21) &&& 0x1f8040 = 0 :=
  ⟨(bits_above 14 1 _ _ (by decide)).trans ((bits_above 8 1 _ _ (by decide)).trans ((bits_above 7 1 _ _ (by decide)).trans ((bits_below 0 1 _ _ (by decide)).trans (bits_all _)))),
   (bits_above 7 7 _ _ (by decide)).trans ((bits_above 1 7 _ _ (by decide)).trans ((bits_below 0 7 _ _ (by decide)).trans (bits_all _))),
   (bits_below 0 6 _ _ (by decide)).trans (bits_all _),
   and_split _ _ _ (and_split _ _ _ (and_split _ _ _ (and_split _ _ _ (zero_and_any _) (and_of_zero _ rfl)) (and_of_zero _ rfl)) (zero_and_any _)) (and_of_zero _ rfl)⟩

theorem layout_z6_1_7_z7 (x1 : BitVec 1) (x2 : BitVec 7) :
    bits 14 1 ((0 : BitVec 6) ++ x1 ++ x2 ++ (0 : BitVec 7) : BitVec 21) = x1
      ∧ bits 7 7 ((0 : BitVec 6) ++ x1 ++ x2 ++ (0 : BitVec 7) : BitVec 21) = x2
      ∧ ((0 : BitVec 6) ++ x1 ++ x2 ++ (0 : BitVec 7) : BitVec 21) &&& 0x1f807f = 0 :=
  ⟨(bits_above 14 1 _ _ (by decide)).trans ((bits_above 7 1 _ _ (by decide)).trans ((bits_below 0 1 _ _ (by decide)).trans (bits_all _))),
   (bits_above 7 7 _ _ (by decide)).trans ((bits_below 0 7 _ _ (by decide)).trans (bits_all _)),
   and_split _ _ _ (and_split _ _ _ (and_split _ _ _ (zero_and_any _) (and_of_zero _ rfl)) (and_of_zero _ rfl)) (zero_and_any _)⟩

theorem layout_z6_1_z14 (x1 : BitVec 1) :
    bits 14 1 ((0 : BitVec 6) ++ x1 ++ (0 : BitVec 14) : BitVec 21) = x1
      ∧ ((0 : BitVec 6) ++ x1 ++ (0 : BitVec 14) : BitVec 21) &&& 0x1fbfff = 0 :=
  ⟨(bits_above 14 1 _ _ (by decide)).trans ((bits_below 0 1 _ _ (by decide)).trans (bits_all _)),
   and_split _ _ _ (and_split _ _ _ (zero_and_any _) (and_of_zero _ rfl)) (zero_and_any _)⟩

theorem layout_z6_6_z10 (x1 : BitVec 6) :
    bits 10 6 ((0 : BitVec 6) ++ x1 ++ (0 : BitVec 10) : BitVec 22) = x1
      ∧ ((0 : BitVec 6) ++ x1 ++ (0 : BitVec 10) : BitVec 22) &&& 0x3f03ff = 0 :=
  ⟨(bits_above 10 6 _ _ (by decide)).trans ((bits_below 0 6 _ _ (by decide)).trans (bits_all _)),
   and_split _ _ _ (and_split _ _ _ (zero_and_any _) (and_of_zero _ rfl)) (zero_and_any _)⟩

theorem layout_z6_6_z3_6 (x1 : BitVec 6) (x3 : BitVec 6) :
    bits 9 6 ((0 : BitVec 6) ++ x1 ++ (0 : BitVec 3) ++ x3 : BitVec 21) = x1
      ∧ bits 0 6 ((0 : BitVec 6) ++ x1 ++ (0 : BitVec 3) ++ x3 : BitVec 21) = x3
      ∧ ((0 : BitVec 6) ++ x1 ++ (0 : BitVec 3) ++ x3 : BitVec 21) &&& 0x1f81c0 = 0 :=
  ⟨(bits_above 9 6 _ _ (by decide)).trans ((bits_above 3 6 _ _ (by decide)).trans ((bits_below 0 6 _ _ (by decide)).trans (bits_all _))),
   (bits_below 0 6 _ _ (by decide)).trans (bits_all _),
   and_split _ _ _ (and_split _ _ _ (and_split _ _ _ (zero_and_any _) (and_of_zero _ rfl)) (zero_and_any _)) (and_of_zero _ rfl)⟩

theorem layout_z6_6_z6_3 (x1 : BitVec 6) (x3 : BitVec 3) :
    bits 9 6 ((0 : BitVec 6) ++ x1 ++ (0 : BitVec 6) ++ x3 : BitVec 21) = x1
      ∧ bits 0 3 ((0 : BitVec 6) ++ x1 ++ (0 : BitVec 6) ++ x3 : BitVec 21) = x3
      ∧ ((0 : BitVec 6) ++ x1 ++ (0 : BitVec 6) ++ x3 : BitVec 21) &&& 0x1f81f8 = 0 :=
  ⟨(bits_above 9 6 _ _ (by decide)).trans ((bits_above 6 6 _ _ (by decide)).trans ((bits_below 0 6 _ _ (by decide)).trans (bits_all _))),
   (bits_below 0 3 _ _ (by decide)).trans (bits_all _),
   and_split _ _ _ (and_split _ _ _ (and_split _ _ _ (zero_and_any _) (and_of_zero _ rfl)) (zero_and_any _)) (and_of_zero _ rfl)⟩

theorem layout_z6_6_z9 (x1 : BitVec 6) :
    bits 9 6 ((0 : BitVec 6) ++ x1 ++ (0 : BitVec 9) : BitVec 21) = x1
      ∧ ((0 : BitVec 6) ++ x1 ++ (0 : BitVec 9) : BitVec 21) &&& 0x1f81ff = 0 :=
  ⟨(bits_above 9 6 _ _ (by decide)).trans ((bits_below 0 6 _ _ (by decide)).trans (bits_all _)),
   and_split _ _ _ (and_split _ _ _ (zero_and_any _) (and_of_zero _ rfl)) (zero_and_any _)⟩

theorem layout_z7_6_8 (x1 : BitVec 6) (x2 : BitVec 8) :
    bits 8 6 ((0 : BitVec 7) ++ x1 ++ x2 : BitVec 21) = x1
      ∧ bits 0 8 ((0 : BitVec 7) ++ x1 ++ x2 : BitVec 21) = x2
      ∧ ((0 : BitVec 7) ++ x1 ++ x2 : BitVec 21) &&& 0x1fc000 = 0 :=
  ⟨(bits_above 8 6 _ _ (by decide)).trans ((bits_below 0 6 _ _ (by decide)).trans (bits_all _)),
   (bits_below 0 8 _ _ (by decide)).trans (bits_all _),
   and_split _ _ _ (and_split _ _ _ (zero_and_any _) (and_of_zero _ rfl)) (and_of_zero _ rfl)⟩

end Sys2Proof.Laws
end

