-- ==== Sys2Proof/Laws/PerInstr.lean ====
section
/-! SUPPORT. Instruction by instruction: the decoder reads from the word of a well-formed instruction that instruction, every operand
as it was (R36 to R59). -/

namespace Sys2Proof.Laws

open Sys2Proof

/-- The decoder reads the instruction back from its word. -/
def Encoding.Statement (i : Instr) : Prop := i.wf = true → ∀ w, encode i = some w → decodeSlot w = .ok i

theorem Encoding.pfx (rm : BitVec 3) (sat : BitVec 1) (mask : BitVec 4) (strict : BitVec 16) : Encoding.Statement (.pfx rm sat mask strict) := by
  intro hwf w hw
  obtain rfl := Option.some.inj hw
  rw [decode_bare0]
  obtain ⟨h0, h1, h2, h3, hm⟩ := layout_z3_3_1_4_16 rm sat mask strict
  exact fixed_eq hm (by rw [h0, h1, h2, h3]) hwf

theorem Encoding.ext (pay : BitVec 25) : Encoding.Statement (.ext pay) := by
  intro hwf w hw
  obtain rfl := Option.some.inj hw
  rw [decode_bare11]
  obtain ⟨h0, hm⟩ := layout_z2_25 pay
  exact fixed_eq hm (by rw [h0]) hwf

theorem Encoding.add (rd ra rb : BitVec 6) (mod : BitVec 1) : Encoding.Statement (.add rd ra rb mod) := by
  intro hwf w hw
  obtain rfl := Option.some.inj hw
  rw [decode_pack7_1]
  obtain ⟨h0, h1, h2, h3, hm⟩ := layout_6_6_6_1_z1 rd ra rb mod
  exact fixed_eq hm (by rw [h0, h1, h2, h3]) hwf

theorem Encoding.sub (rd ra rb : BitVec 6) (mod : BitVec 1) : Encoding.Statement (.sub rd ra rb mod) := by
  intro hwf w hw
  obtain rfl := Option.some.inj hw
  rw [decode_pack7_1]
  obtain ⟨h0, h1, h2, h3, hm⟩ := layout_6_6_6_1_z1 rd ra rb mod
  exact fixed_eq hm (by rw [h0, h1, h2, h3]) hwf

theorem Encoding.addi (rd ra : BitVec 6) (imm : BitVec 8) : Encoding.Statement (.addi rd ra imm) := by
  intro hwf w hw
  obtain rfl := Option.some.inj hw
  rw [decode_pack7_1]
  obtain ⟨h0, h1, h2, hm⟩ := layout_6_6_8 rd ra imm
  exact fixed_eq hm (by rw [h0, h1, h2]) hwf

theorem Encoding.addsh (rd ra rb : BitVec 6) (mod : BitVec 1) : Encoding.Statement (.addsh rd ra rb mod) := by
  intro hwf w hw
  obtain rfl := Option.some.inj hw
  rw [decode_pack7_1]
  obtain ⟨h0, h1, h2, h3, hm⟩ := layout_6_6_6_1_z1 rd ra rb mod
  exact fixed_eq hm (by rw [h0, h1, h2, h3]) hwf

theorem Encoding.mul (rd ra rb : BitVec 6) (mod : BitVec 1) : Encoding.Statement (.mul rd ra rb mod) := by
  intro hwf w hw
  obtain rfl := Option.some.inj hw
  rw [decode_pack7_1]
  obtain ⟨h0, h1, h2, h3, hm⟩ := layout_6_6_6_1_z1 rd ra rb mod
  exact fixed_eq hm (by rw [h0, h1, h2, h3]) hwf

theorem Encoding.mulh (rd ra rb : BitVec 6) (mod : BitVec 1) : Encoding.Statement (.mulh rd ra rb mod) := by
  intro hwf w hw
  obtain rfl := Option.some.inj hw
  rw [decode_pack7_1]
  obtain ⟨h0, h1, h2, h3, hm⟩ := layout_6_6_6_1_z1 rd ra rb mod
  exact fixed_eq hm (by rw [h0, h1, h2, h3]) hwf

theorem Encoding.div (rd ra rb : BitVec 6) (mod : BitVec 1) : Encoding.Statement (.div rd ra rb mod) := by
  intro hwf w hw
  obtain rfl := Option.some.inj hw
  rw [decode_pack7_1]
  obtain ⟨h0, h1, h2, h3, hm⟩ := layout_6_6_6_1_z1 rd ra rb mod
  exact fixed_eq hm (by rw [h0, h1, h2, h3]) hwf

theorem Encoding.divu (rd ra rb : BitVec 6) (mod : BitVec 1) : Encoding.Statement (.divu rd ra rb mod) := by
  intro hwf w hw
  obtain rfl := Option.some.inj hw
  rw [decode_pack7_1]
  obtain ⟨h0, h1, h2, h3, hm⟩ := layout_6_6_6_1_z1 rd ra rb mod
  exact fixed_eq hm (by rw [h0, h1, h2, h3]) hwf

theorem Encoding.rem (rd ra rb : BitVec 6) (mod : BitVec 1) : Encoding.Statement (.rem rd ra rb mod) := by
  intro hwf w hw
  obtain rfl := Option.some.inj hw
  rw [decode_pack7_1]
  obtain ⟨h0, h1, h2, h3, hm⟩ := layout_6_6_6_1_z1 rd ra rb mod
  exact fixed_eq hm (by rw [h0, h1, h2, h3]) hwf

theorem Encoding.and (rd ra rb : BitVec 6) : Encoding.Statement (.and rd ra rb) := by
  intro hwf w hw
  obtain rfl := Option.some.inj hw
  rw [decode_pack7_1]
  obtain ⟨h0, h1, h2, hm⟩ := layout_6_6_6_z2 rd ra rb
  exact fixed_eq hm (by rw [h0, h1, h2]) hwf

theorem Encoding.or (rd ra rb : BitVec 6) : Encoding.Statement (.or rd ra rb) := by
  intro hwf w hw
  obtain rfl := Option.some.inj hw
  rw [decode_pack7_1]
  obtain ⟨h0, h1, h2, hm⟩ := layout_6_6_6_z2 rd ra rb
  exact fixed_eq hm (by rw [h0, h1, h2]) hwf

theorem Encoding.xor (rd ra rb : BitVec 6) : Encoding.Statement (.xor rd ra rb) := by
  intro hwf w hw
  obtain rfl := Option.some.inj hw
  rw [decode_pack7_1]
  obtain ⟨h0, h1, h2, hm⟩ := layout_6_6_6_z2 rd ra rb
  exact fixed_eq hm (by rw [h0, h1, h2]) hwf

theorem Encoding.andn (rd ra rb : BitVec 6) : Encoding.Statement (.andn rd ra rb) := by
  intro hwf w hw
  obtain rfl := Option.some.inj hw
  rw [decode_pack7_1]
  obtain ⟨h0, h1, h2, hm⟩ := layout_6_6_6_z2 rd ra rb
  exact fixed_eq hm (by rw [h0, h1, h2]) hwf

theorem Encoding.shl (rd ra rb : BitVec 6) (mod : BitVec 1) : Encoding.Statement (.shl rd ra rb mod) := by
  intro hwf w hw
  obtain rfl := Option.some.inj hw
  rw [decode_pack7_1]
  obtain ⟨h0, h1, h2, h3, hm⟩ := layout_6_6_6_1_z1 rd ra rb mod
  exact fixed_eq hm (by rw [h0, h1, h2, h3]) hwf

theorem Encoding.shr (rd ra rb : BitVec 6) (mod : BitVec 1) : Encoding.Statement (.shr rd ra rb mod) := by
  intro hwf w hw
  obtain rfl := Option.some.inj hw
  rw [decode_pack7_1]
  obtain ⟨h0, h1, h2, h3, hm⟩ := layout_6_6_6_1_z1 rd ra rb mod
  exact fixed_eq hm (by rw [h0, h1, h2, h3]) hwf

theorem Encoding.sar (rd ra rb : BitVec 6) (mod : BitVec 1) : Encoding.Statement (.sar rd ra rb mod) := by
  intro hwf w hw
  obtain rfl := Option.some.inj hw
  rw [decode_pack7_1]
  obtain ⟨h0, h1, h2, h3, hm⟩ := layout_6_6_6_1_z1 rd ra rb mod
  exact fixed_eq hm (by rw [h0, h1, h2, h3]) hwf

theorem Encoding.shli (rd ra imm : BitVec 6) : Encoding.Statement (.shli rd ra imm) := by
  intro hwf w hw
  obtain rfl := Option.some.inj hw
  rw [decode_pack7_1]
  obtain ⟨h0, h1, h2, hm⟩ := layout_6_6_z2_6 rd ra imm
  exact fixed_eq hm (by rw [h0, h1, h2]) hwf

theorem Encoding.shri (rd ra imm : BitVec 6) : Encoding.Statement (.shri rd ra imm) := by
  intro hwf w hw
  obtain rfl := Option.some.inj hw
  rw [decode_pack7_1]
  obtain ⟨h0, h1, h2, hm⟩ := layout_6_6_z2_6 rd ra imm
  exact fixed_eq hm (by rw [h0, h1, h2]) hwf

theorem Encoding.sari (rd ra imm : BitVec 6) : Encoding.Statement (.sari rd ra imm) := by
  intro hwf w hw
  obtain rfl := Option.some.inj hw
  rw [decode_pack7_1]
  obtain ⟨h0, h1, h2, hm⟩ := layout_6_6_z2_6 rd ra imm
  exact fixed_eq hm (by rw [h0, h1, h2]) hwf

theorem Encoding.clz (rd ra : BitVec 6) (mod : BitVec 1) : Encoding.Statement (.clz rd ra mod) := by
  intro hwf w hw
  obtain rfl := Option.some.inj hw
  rw [decode_pack7_1]
  obtain ⟨h0, h1, h2, hm⟩ := layout_6_6_z6_1_z1 rd ra mod
  exact fixed_eq hm (by rw [h0, h1, h2]) hwf

theorem Encoding.popc (rd ra : BitVec 6) (mod : BitVec 1) : Encoding.Statement (.popc rd ra mod) := by
  intro hwf w hw
  obtain rfl := Option.some.inj hw
  rw [decode_pack7_1]
  obtain ⟨h0, h1, h2, hm⟩ := layout_6_6_z6_1_z1 rd ra mod
  exact fixed_eq hm (by rw [h0, h1, h2]) hwf

theorem Encoding.bext (rd ra rb : BitVec 6) : Encoding.Statement (.bext rd ra rb) := by
  intro hwf w hw
  obtain rfl := Option.some.inj hw
  rw [decode_pack7_1]
  obtain ⟨h0, h1, h2, hm⟩ := layout_6_6_6_z2 rd ra rb
  exact fixed_eq hm (by rw [h0, h1, h2]) hwf

theorem Encoding.bins (rd ra rb : BitVec 6) : Encoding.Statement (.bins rd ra rb) := by
  intro hwf w hw
  obtain rfl := Option.some.inj hw
  rw [decode_pack7_1]
  obtain ⟨h0, h1, h2, hm⟩ := layout_6_6_6_z2 rd ra rb
  exact fixed_eq hm (by rw [h0, h1, h2]) hwf

theorem Encoding.min (rd ra rb : BitVec 6) (mod : BitVec 1) : Encoding.Statement (.min rd ra rb mod) := by
  intro hwf w hw
  obtain rfl := Option.some.inj hw
  rw [decode_pack7_1]
  obtain ⟨h0, h1, h2, h3, hm⟩ := layout_6_6_6_1_z1 rd ra rb mod
  exact fixed_eq hm (by rw [h0, h1, h2, h3]) hwf

theorem Encoding.max (rd ra rb : BitVec 6) (mod : BitVec 1) : Encoding.Statement (.max rd ra rb mod) := by
  intro hwf w hw
  obtain rfl := Option.some.inj hw
  rw [decode_pack7_1]
  obtain ⟨h0, h1, h2, h3, hm⟩ := layout_6_6_6_1_z1 rd ra rb mod
  exact fixed_eq hm (by rw [h0, h1, h2, h3]) hwf

theorem Encoding.minu (rd ra rb : BitVec 6) (mod : BitVec 1) : Encoding.Statement (.minu rd ra rb mod) := by
  intro hwf w hw
  obtain rfl := Option.some.inj hw
  rw [decode_pack7_1]
  obtain ⟨h0, h1, h2, h3, hm⟩ := layout_6_6_6_1_z1 rd ra rb mod
  exact fixed_eq hm (by rw [h0, h1, h2, h3]) hwf

theorem Encoding.maxu (rd ra rb : BitVec 6) (mod : BitVec 1) : Encoding.Statement (.maxu rd ra rb mod) := by
  intro hwf w hw
  obtain rfl := Option.some.inj hw
  rw [decode_pack7_1]
  obtain ⟨h0, h1, h2, h3, hm⟩ := layout_6_6_6_1_z1 rd ra rb mod
  exact fixed_eq hm (by rw [h0, h1, h2, h3]) hwf

theorem Encoding.seq (rd ra rb : BitVec 6) (mod : BitVec 1) : Encoding.Statement (.seq rd ra rb mod) := by
  intro hwf w hw
  obtain rfl := Option.some.inj hw
  rw [decode_pack7_1]
  obtain ⟨h0, h1, h2, h3, hm⟩ := layout_6_6_6_1_z1 rd ra rb mod
  exact fixed_eq hm (by rw [h0, h1, h2, h3]) hwf

theorem Encoding.sne (rd ra rb : BitVec 6) (mod : BitVec 1) : Encoding.Statement (.sne rd ra rb mod) := by
  intro hwf w hw
  obtain rfl := Option.some.inj hw
  rw [decode_pack7_1]
  obtain ⟨h0, h1, h2, h3, hm⟩ := layout_6_6_6_1_z1 rd ra rb mod
  exact fixed_eq hm (by rw [h0, h1, h2, h3]) hwf

theorem Encoding.slt (rd ra rb : BitVec 6) (mod : BitVec 1) : Encoding.Statement (.slt rd ra rb mod) := by
  intro hwf w hw
  obtain rfl := Option.some.inj hw
  rw [decode_pack7_1]
  obtain ⟨h0, h1, h2, h3, hm⟩ := layout_6_6_6_1_z1 rd ra rb mod
  exact fixed_eq hm (by rw [h0, h1, h2, h3]) hwf

theorem Encoding.sltu (rd ra rb : BitVec 6) (mod : BitVec 1) : Encoding.Statement (.sltu rd ra rb mod) := by
  intro hwf w hw
  obtain rfl := Option.some.inj hw
  rw [decode_pack7_1]
  obtain ⟨h0, h1, h2, h3, hm⟩ := layout_6_6_6_1_z1 rd ra rb mod
  exact fixed_eq hm (by rw [h0, h1, h2, h3]) hwf

theorem Encoding.sle (rd ra rb : BitVec 6) (mod : BitVec 1) : Encoding.Statement (.sle rd ra rb mod) := by
  intro hwf w hw
  obtain rfl := Option.some.inj hw
  rw [decode_pack7_1]
  obtain ⟨h0, h1, h2, h3, hm⟩ := layout_6_6_6_1_z1 rd ra rb mod
  exact fixed_eq hm (by rw [h0, h1, h2, h3]) hwf

theorem Encoding.sleu (rd ra rb : BitVec 6) (mod : BitVec 1) : Encoding.Statement (.sleu rd ra rb mod) := by
  intro hwf w hw
  obtain rfl := Option.some.inj hw
  rw [decode_pack7_1]
  obtain ⟨h0, h1, h2, h3, hm⟩ := layout_6_6_6_1_z1 rd ra rb mod
  exact fixed_eq hm (by rw [h0, h1, h2, h3]) hwf

theorem Encoding.sel (rd ra rb : BitVec 6) : Encoding.Statement (.sel rd ra rb) := by
  intro hwf w hw
  obtain rfl := Option.some.inj hw
  rw [decode_pack7_1]
  obtain ⟨h0, h1, h2, hm⟩ := layout_6_6_6_z2 rd ra rb
  exact fixed_eq hm (by rw [h0, h1, h2]) hwf

theorem Encoding.movi (rd : BitVec 6) (imm : BitVec 14) : Encoding.Statement (.movi rd imm) := by
  intro hwf w hw
  obtain rfl := Option.some.inj hw
  rw [decode_pack7_1]
  obtain ⟨h0, h1, hm⟩ := layout_6_14 rd imm
  exact fixed_eq hm (by rw [h0, h1]) hwf

theorem Encoding.movhi (rd : BitVec 6) (imm : BitVec 14) : Encoding.Statement (.movhi rd imm) := by
  intro hwf w hw
  obtain rfl := Option.some.inj hw
  rw [decode_pack7_1]
  obtain ⟨h0, h1, hm⟩ := layout_6_14 rd imm
  exact fixed_eq hm (by rw [h0, h1]) hwf

theorem Encoding.fadd (rd ra rb : BitVec 6) : Encoding.Statement (.fadd rd ra rb) := by
  intro hwf w hw
  obtain rfl := Option.some.inj hw
  rw [decode_pack7_1]
  obtain ⟨h0, h1, h2, hm⟩ := layout_6_6_6_z2 rd ra rb
  exact fixed_eq hm (by rw [h0, h1, h2]) hwf

theorem Encoding.fsub (rd ra rb : BitVec 6) : Encoding.Statement (.fsub rd ra rb) := by
  intro hwf w hw
  obtain rfl := Option.some.inj hw
  rw [decode_pack7_1]
  obtain ⟨h0, h1, h2, hm⟩ := layout_6_6_6_z2 rd ra rb
  exact fixed_eq hm (by rw [h0, h1, h2]) hwf

theorem Encoding.fmul (rd ra rb : BitVec 6) : Encoding.Statement (.fmul rd ra rb) := by
  intro hwf w hw
  obtain rfl := Option.some.inj hw
  rw [decode_pack7_1]
  obtain ⟨h0, h1, h2, hm⟩ := layout_6_6_6_z2 rd ra rb
  exact fixed_eq hm (by rw [h0, h1, h2]) hwf

theorem Encoding.ffma (rd ra rb : BitVec 6) : Encoding.Statement (.ffma rd ra rb) := by
  intro hwf w hw
  obtain rfl := Option.some.inj hw
  rw [decode_pack7_1]
  obtain ⟨h0, h1, h2, hm⟩ := layout_6_6_6_z2 rd ra rb
  exact fixed_eq hm (by rw [h0, h1, h2]) hwf

theorem Encoding.fdiv (rd ra rb : BitVec 6) : Encoding.Statement (.fdiv rd ra rb) := by
  intro hwf w hw
  obtain rfl := Option.some.inj hw
  rw [decode_pack7_1]
  obtain ⟨h0, h1, h2, hm⟩ := layout_6_6_6_z2 rd ra rb
  exact fixed_eq hm (by rw [h0, h1, h2]) hwf

theorem Encoding.fsqrt (rd ra : BitVec 6) : Encoding.Statement (.fsqrt rd ra) := by
  intro hwf w hw
  obtain rfl := Option.some.inj hw
  rw [decode_pack7_1]
  obtain ⟨h0, h1, hm⟩ := layout_6_6_z8 rd ra
  exact fixed_eq hm (by rw [h0, h1]) hwf

theorem Encoding.fmin (rd ra rb : BitVec 6) : Encoding.Statement (.fmin rd ra rb) := by
  intro hwf w hw
  obtain rfl := Option.some.inj hw
  rw [decode_pack7_1]
  obtain ⟨h0, h1, h2, hm⟩ := layout_6_6_6_z2 rd ra rb
  exact fixed_eq hm (by rw [h0, h1, h2]) hwf

theorem Encoding.fmax (rd ra rb : BitVec 6) : Encoding.Statement (.fmax rd ra rb) := by
  intro hwf w hw
  obtain rfl := Option.some.inj hw
  rw [decode_pack7_1]
  obtain ⟨h0, h1, h2, hm⟩ := layout_6_6_6_z2 rd ra rb
  exact fixed_eq hm (by rw [h0, h1, h2]) hwf

theorem Encoding.feq (rd ra rb : BitVec 6) : Encoding.Statement (.feq rd ra rb) := by
  intro hwf w hw
  obtain rfl := Option.some.inj hw
  rw [decode_pack7_1]
  obtain ⟨h0, h1, h2, hm⟩ := layout_6_6_6_z2 rd ra rb
  exact fixed_eq hm (by rw [h0, h1, h2]) hwf

theorem Encoding.flt (rd ra rb : BitVec 6) : Encoding.Statement (.flt rd ra rb) := by
  intro hwf w hw
  obtain rfl := Option.some.inj hw
  rw [decode_pack7_1]
  obtain ⟨h0, h1, h2, hm⟩ := layout_6_6_6_z2 rd ra rb
  exact fixed_eq hm (by rw [h0, h1, h2]) hwf

theorem Encoding.fle (rd ra rb : BitVec 6) : Encoding.Statement (.fle rd ra rb) := by
  intro hwf w hw
  obtain rfl := Option.some.inj hw
  rw [decode_pack7_1]
  obtain ⟨h0, h1, h2, hm⟩ := layout_6_6_6_z2 rd ra rb
  exact fixed_eq hm (by rw [h0, h1, h2]) hwf

theorem Encoding.fcvti (rd ra : BitVec 6) (mod : BitVec 1) : Encoding.Statement (.fcvti rd ra mod) := by
  intro hwf w hw
  obtain rfl := Option.some.inj hw
  rw [decode_pack7_1]
  obtain ⟨h0, h1, h2, hm⟩ := layout_6_6_z6_1_z1 rd ra mod
  exact fixed_eq hm (by rw [h0, h1, h2]) hwf

theorem Encoding.fcvtf (rd ra : BitVec 6) (mod : BitVec 1) : Encoding.Statement (.fcvtf rd ra mod) := by
  intro hwf w hw
  obtain rfl := Option.some.inj hw
  rw [decode_pack7_1]
  obtain ⟨h0, h1, h2, hm⟩ := layout_6_6_z6_1_z1 rd ra mod
  exact fixed_eq hm (by rw [h0, h1, h2]) hwf

theorem Encoding.brz (hint : BitVec 1) (ra : BitVec 6) (off : BitVec 15) : Encoding.Statement (.brz hint ra off) := by
  intro hwf w hw
  obtain rfl := Option.some.inj hw
  rw [decode_pack5_2]
  obtain ⟨h0, h1, h2, hm⟩ := layout_1_6_15 hint ra off
  exact fixed_eq hm (by rw [h0, h1, h2]) hwf

theorem Encoding.brnz (hint : BitVec 1) (ra : BitVec 6) (off : BitVec 15) : Encoding.Statement (.brnz hint ra off) := by
  intro hwf w hw
  obtain rfl := Option.some.inj hw
  rw [decode_pack5_2]
  obtain ⟨h0, h1, h2, hm⟩ := layout_1_6_15 hint ra off
  exact fixed_eq hm (by rw [h0, h1, h2]) hwf

theorem Encoding.brkt (hint : BitVec 1) (rk : BitVec 4) (off : BitVec 15) : Encoding.Statement (.brkt hint rk off) := by
  intro hwf w hw
  obtain rfl := Option.some.inj hw
  rw [decode_pack5_2]
  obtain ⟨h0, h1, h2, hm⟩ := layout_1_4_z2_15 hint rk off
  exact fixed_eq hm (by rw [h0, h1, h2]) hwf

theorem Encoding.brkf (hint : BitVec 1) (rk : BitVec 4) (off : BitVec 15) : Encoding.Statement (.brkf hint rk off) := by
  intro hwf w hw
  obtain rfl := Option.some.inj hw
  rw [decode_pack5_2]
  obtain ⟨h0, h1, h2, hm⟩ := layout_1_4_z2_15 hint rk off
  exact fixed_eq hm (by rw [h0, h1, h2]) hwf

theorem Encoding.jmp (off : BitVec 21) : Encoding.Statement (.jmp off) := by
  intro hwf w hw
  obtain rfl := Option.some.inj hw
  rw [decode_pack5_2]
  obtain ⟨h0, hm⟩ := layout_z1_21 off
  exact fixed_eq hm (by rw [h0]) hwf

theorem Encoding.jmpi (ra : BitVec 6) : Encoding.Statement (.jmpi ra) := by
  intro hwf w hw
  obtain rfl := Option.some.inj hw
  rw [decode_pack5_2]
  obtain ⟨h0, hm⟩ := layout_z1_6_z15 ra
  exact fixed_eq hm (by rw [h0]) hwf

theorem Encoding.call (rd : BitVec 6) (off : BitVec 15) : Encoding.Statement (.call rd off) := by
  intro hwf w hw
  obtain rfl := Option.some.inj hw
  rw [decode_pack5_2]
  obtain ⟨h0, h1, hm⟩ := layout_z1_6_15 rd off
  exact fixed_eq hm (by rw [h0, h1]) hwf

theorem Encoding.ret (ra : BitVec 6) : Encoding.Statement (.ret ra) := by
  intro hwf w hw
  obtain rfl := Option.some.inj hw
  rw [decode_pack5_2]
  obtain ⟨h0, hm⟩ := layout_z1_6_z15 ra
  exact fixed_eq hm (by rw [h0]) hwf

theorem Encoding.loop (ra : BitVec 6) (endw : BitVec 13) : Encoding.Statement (.loop ra endw) := by
  intro hwf w hw
  obtain rfl := Option.some.inj hw
  rw [decode_pack5_2]
  obtain ⟨h0, h1, hm⟩ := layout_z1_6_z2_13 ra endw
  exact fixed_eq hm (by rw [h0, h1]) hwf

theorem Encoding.loopi (cnt : BitVec 9) (endw : BitVec 13) : Encoding.Statement (.loopi cnt endw) := by
  intro hwf w hw
  obtain rfl := Option.some.inj hw
  rw [decode_pack5_2]
  obtain ⟨h0, h1, hm⟩ := layout_9_13 cnt endw
  exact fixed_eq hm (by rw [h0, h1]) hwf

theorem Encoding.lset (lvl : BitVec 3) (fld : BitVec 2) (ra : BitVec 6) : Encoding.Statement (.lset lvl fld ra) := by
  intro hwf w hw
  obtain rfl := Option.some.inj hw
  rw [decode_pack5_2]
  obtain ⟨h0, h1, h2, hm⟩ := layout_z1_3_2_6_z10 lvl fld ra
  exact fixed_eq hm (by rw [h0, h1, h2]) hwf

theorem Encoding.lidx (rd : BitVec 6) (lvl : BitVec 3) : Encoding.Statement (.lidx rd lvl) := by
  intro hwf w hw
  obtain rfl := Option.some.inj hw
  rw [decode_pack5_2]
  obtain ⟨h0, h1, hm⟩ := layout_z1_6_3_z12 rd lvl
  exact fixed_eq hm (by rw [h0, h1]) hwf

theorem Encoding.lbrk (lvl : BitVec 3) : Encoding.Statement (.lbrk lvl) := by
  intro hwf w hw
  obtain rfl := Option.some.inj hw
  rw [decode_pack5_2]
  obtain ⟨h0, hm⟩ := layout_z1_3_z18 lvl
  exact fixed_eq hm (by rw [h0]) hwf

theorem Encoding.waitc (cnt : BitVec 21) : Encoding.Statement (.waitc cnt) := by
  intro hwf w hw
  obtain rfl := Option.some.inj hw
  rw [decode_pack5_2]
  obtain ⟨h0, hm⟩ := layout_z1_21 cnt
  exact fixed_eq hm (by rw [h0]) hwf

theorem Encoding.trap (code : BitVec 16) : Encoding.Statement (.trap code) := by
  intro hwf w hw
  obtain rfl := Option.some.inj hw
  rw [decode_pack5_2]
  obtain ⟨h0, hm⟩ := layout_z6_16 code
  exact fixed_eq hm (by rw [h0]) hwf

theorem Encoding.halt : Encoding.Statement .halt := by
  intro hwf w hw
  obtain rfl := Option.some.inj hw
  rw [decode_pack5_2]
  exact fixed_eq (by decide) rfl hwf

theorem Encoding.vadd (rd ra rb : BitVec 7) : Encoding.Statement (.vadd rd ra rb) := by
  intro hwf w hw
  obtain rfl := Option.some.inj hw
  rw [decode_pack6_3]
  obtain ⟨h0, h1, h2, hm⟩ := layout_7_7_7 rd ra rb
  exact fixed_eq hm (by rw [h0, h1, h2]) hwf

theorem Encoding.vsub (rd ra rb : BitVec 7) : Encoding.Statement (.vsub rd ra rb) := by
  intro hwf w hw
  obtain rfl := Option.some.inj hw
  rw [decode_pack6_3]
  obtain ⟨h0, h1, h2, hm⟩ := layout_7_7_7 rd ra rb
  exact fixed_eq hm (by rw [h0, h1, h2]) hwf

theorem Encoding.vmul (rd ra rb : BitVec 7) : Encoding.Statement (.vmul rd ra rb) := by
  intro hwf w hw
  obtain rfl := Option.some.inj hw
  rw [decode_pack6_3]
  obtain ⟨h0, h1, h2, hm⟩ := layout_7_7_7 rd ra rb
  exact fixed_eq hm (by rw [h0, h1, h2]) hwf

theorem Encoding.vfma (rd ra rb : BitVec 7) : Encoding.Statement (.vfma rd ra rb) := by
  intro hwf w hw
  obtain rfl := Option.some.inj hw
  rw [decode_pack6_3]
  obtain ⟨h0, h1, h2, hm⟩ := layout_7_7_7 rd ra rb
  exact fixed_eq hm (by rw [h0, h1, h2]) hwf

theorem Encoding.vfms (rd ra rb : BitVec 7) : Encoding.Statement (.vfms rd ra rb) := by
  intro hwf w hw
  obtain rfl := Option.some.inj hw
  rw [decode_pack6_3]
  obtain ⟨h0, h1, h2, hm⟩ := layout_7_7_7 rd ra rb
  exact fixed_eq hm (by rw [h0, h1, h2]) hwf

theorem Encoding.vmin (rd ra rb : BitVec 7) : Encoding.Statement (.vmin rd ra rb) := by
  intro hwf w hw
  obtain rfl := Option.some.inj hw
  rw [decode_pack6_3]
  obtain ⟨h0, h1, h2, hm⟩ := layout_7_7_7 rd ra rb
  exact fixed_eq hm (by rw [h0, h1, h2]) hwf

theorem Encoding.vmax (rd ra rb : BitVec 7) : Encoding.Statement (.vmax rd ra rb) := by
  intro hwf w hw
  obtain rfl := Option.some.inj hw
  rw [decode_pack6_3]
  obtain ⟨h0, h1, h2, hm⟩ := layout_7_7_7 rd ra rb
  exact fixed_eq hm (by rw [h0, h1, h2]) hwf

theorem Encoding.vabs (rd ra : BitVec 7) : Encoding.Statement (.vabs rd ra) := by
  intro hwf w hw
  obtain rfl := Option.some.inj hw
  rw [decode_pack6_3]
  obtain ⟨h0, h1, hm⟩ := layout_7_7_z7 rd ra
  exact fixed_eq hm (by rw [h0, h1]) hwf

theorem Encoding.vneg (rd ra : BitVec 7) : Encoding.Statement (.vneg rd ra) := by
  intro hwf w hw
  obtain rfl := Option.some.inj hw
  rw [decode_pack6_3]
  obtain ⟨h0, h1, hm⟩ := layout_7_7_z7 rd ra
  exact fixed_eq hm (by rw [h0, h1]) hwf

theorem Encoding.veq (rd : BitVec 4) (ra rb : BitVec 7) : Encoding.Statement (.veq rd ra rb) := by
  intro hwf w hw
  obtain rfl := Option.some.inj hw
  rw [decode_pack6_3]
  obtain ⟨h0, h1, h2, hm⟩ := layout_z3_4_7_7 rd ra rb
  exact fixed_eq hm (by rw [h0, h1, h2]) hwf

theorem Encoding.vne (rd : BitVec 4) (ra rb : BitVec 7) : Encoding.Statement (.vne rd ra rb) := by
  intro hwf w hw
  obtain rfl := Option.some.inj hw
  rw [decode_pack6_3]
  obtain ⟨h0, h1, h2, hm⟩ := layout_z3_4_7_7 rd ra rb
  exact fixed_eq hm (by rw [h0, h1, h2]) hwf

theorem Encoding.vlt (rd : BitVec 4) (ra rb : BitVec 7) : Encoding.Statement (.vlt rd ra rb) := by
  intro hwf w hw
  obtain rfl := Option.some.inj hw
  rw [decode_pack6_3]
  obtain ⟨h0, h1, h2, hm⟩ := layout_z3_4_7_7 rd ra rb
  exact fixed_eq hm (by rw [h0, h1, h2]) hwf

theorem Encoding.vle (rd : BitVec 4) (ra rb : BitVec 7) : Encoding.Statement (.vle rd ra rb) := by
  intro hwf w hw
  obtain rfl := Option.some.inj hw
  rw [decode_pack6_3]
  obtain ⟨h0, h1, h2, hm⟩ := layout_z3_4_7_7 rd ra rb
  exact fixed_eq hm (by rw [h0, h1, h2]) hwf

theorem Encoding.vsel (rd ra rb : BitVec 7) : Encoding.Statement (.vsel rd ra rb) := by
  intro hwf w hw
  obtain rfl := Option.some.inj hw
  rw [decode_pack6_3]
  obtain ⟨h0, h1, h2, hm⟩ := layout_7_7_7 rd ra rb
  exact fixed_eq hm (by rw [h0, h1, h2]) hwf

theorem Encoding.vand (rd ra rb : BitVec 7) : Encoding.Statement (.vand rd ra rb) := by
  intro hwf w hw
  obtain rfl := Option.some.inj hw
  rw [decode_pack6_3]
  obtain ⟨h0, h1, h2, hm⟩ := layout_7_7_7 rd ra rb
  exact fixed_eq hm (by rw [h0, h1, h2]) hwf

theorem Encoding.vor (rd ra rb : BitVec 7) : Encoding.Statement (.vor rd ra rb) := by
  intro hwf w hw
  obtain rfl := Option.some.inj hw
  rw [decode_pack6_3]
  obtain ⟨h0, h1, h2, hm⟩ := layout_7_7_7 rd ra rb
  exact fixed_eq hm (by rw [h0, h1, h2]) hwf

theorem Encoding.vxor (rd ra rb : BitVec 7) : Encoding.Statement (.vxor rd ra rb) := by
  intro hwf w hw
  obtain rfl := Option.some.inj hw
  rw [decode_pack6_3]
  obtain ⟨h0, h1, h2, hm⟩ := layout_7_7_7 rd ra rb
  exact fixed_eq hm (by rw [h0, h1, h2]) hwf

theorem Encoding.viadd (rd ra rb : BitVec 7) : Encoding.Statement (.viadd rd ra rb) := by
  intro hwf w hw
  obtain rfl := Option.some.inj hw
  rw [decode_pack6_3]
  obtain ⟨h0, h1, h2, hm⟩ := layout_7_7_7 rd ra rb
  exact fixed_eq hm (by rw [h0, h1, h2]) hwf

theorem Encoding.visub (rd ra rb : BitVec 7) : Encoding.Statement (.visub rd ra rb) := by
  intro hwf w hw
  obtain rfl := Option.some.inj hw
  rw [decode_pack6_3]
  obtain ⟨h0, h1, h2, hm⟩ := layout_7_7_7 rd ra rb
  exact fixed_eq hm (by rw [h0, h1, h2]) hwf

theorem Encoding.vimul (rd ra rb : BitVec 7) : Encoding.Statement (.vimul rd ra rb) := by
  intro hwf w hw
  obtain rfl := Option.some.inj hw
  rw [decode_pack6_3]
  obtain ⟨h0, h1, h2, hm⟩ := layout_7_7_7 rd ra rb
  exact fixed_eq hm (by rw [h0, h1, h2]) hwf

theorem Encoding.vimin (rd ra rb : BitVec 7) : Encoding.Statement (.vimin rd ra rb) := by
  intro hwf w hw
  obtain rfl := Option.some.inj hw
  rw [decode_pack6_3]
  obtain ⟨h0, h1, h2, hm⟩ := layout_7_7_7 rd ra rb
  exact fixed_eq hm (by rw [h0, h1, h2]) hwf

theorem Encoding.vimax (rd ra rb : BitVec 7) : Encoding.Statement (.vimax rd ra rb) := by
  intro hwf w hw
  obtain rfl := Option.some.inj hw
  rw [decode_pack6_3]
  obtain ⟨h0, h1, h2, hm⟩ := layout_7_7_7 rd ra rb
  exact fixed_eq hm (by rw [h0, h1, h2]) hwf

theorem Encoding.vshl (rd ra rb : BitVec 7) : Encoding.Statement (.vshl rd ra rb) := by
  intro hwf w hw
  obtain rfl := Option.some.inj hw
  rw [decode_pack6_3]
  obtain ⟨h0, h1, h2, hm⟩ := layout_7_7_7 rd ra rb
  exact fixed_eq hm (by rw [h0, h1, h2]) hwf

theorem Encoding.vshr (rd ra rb : BitVec 7) : Encoding.Statement (.vshr rd ra rb) := by
  intro hwf w hw
  obtain rfl := Option.some.inj hw
  rw [decode_pack6_3]
  obtain ⟨h0, h1, h2, hm⟩ := layout_7_7_7 rd ra rb
  exact fixed_eq hm (by rw [h0, h1, h2]) hwf

theorem Encoding.vsar (rd ra rb : BitVec 7) : Encoding.Statement (.vsar rd ra rb) := by
  intro hwf w hw
  obtain rfl := Option.some.inj hw
  rw [decode_pack6_3]
  obtain ⟨h0, h1, h2, hm⟩ := layout_7_7_7 rd ra rb
  exact fixed_eq hm (by rw [h0, h1, h2]) hwf

theorem Encoding.vrcp (rd ra : BitVec 7) : Encoding.Statement (.vrcp rd ra) := by
  intro hwf w hw
  obtain rfl := Option.some.inj hw
  rw [decode_pack6_3]
  obtain ⟨h0, h1, hm⟩ := layout_7_7_z7 rd ra
  exact fixed_eq hm (by rw [h0, h1]) hwf

theorem Encoding.vrsq (rd ra : BitVec 7) : Encoding.Statement (.vrsq rd ra) := by
  intro hwf w hw
  obtain rfl := Option.some.inj hw
  rw [decode_pack6_3]
  obtain ⟨h0, h1, hm⟩ := layout_7_7_z7 rd ra
  exact fixed_eq hm (by rw [h0, h1]) hwf

theorem Encoding.vsqrt (rd ra : BitVec 7) : Encoding.Statement (.vsqrt rd ra) := by
  intro hwf w hw
  obtain rfl := Option.some.inj hw
  rw [decode_pack6_3]
  obtain ⟨h0, h1, hm⟩ := layout_7_7_z7 rd ra
  exact fixed_eq hm (by rw [h0, h1]) hwf

theorem Encoding.vexp2 (rd ra : BitVec 7) : Encoding.Statement (.vexp2 rd ra) := by
  intro hwf w hw
  obtain rfl := Option.some.inj hw
  rw [decode_pack6_3]
  obtain ⟨h0, h1, hm⟩ := layout_7_7_z7 rd ra
  exact fixed_eq hm (by rw [h0, h1]) hwf

theorem Encoding.vlog2 (rd ra : BitVec 7) : Encoding.Statement (.vlog2 rd ra) := by
  intro hwf w hw
  obtain rfl := Option.some.inj hw
  rw [decode_pack6_3]
  obtain ⟨h0, h1, hm⟩ := layout_7_7_z7 rd ra
  exact fixed_eq hm (by rw [h0, h1]) hwf

theorem Encoding.vtanh (rd ra : BitVec 7) : Encoding.Statement (.vtanh rd ra) := by
  intro hwf w hw
  obtain rfl := Option.some.inj hw
  rw [decode_pack6_3]
  obtain ⟨h0, h1, hm⟩ := layout_7_7_z7 rd ra
  exact fixed_eq hm (by rw [h0, h1]) hwf

theorem Encoding.vsigm (rd ra : BitVec 7) : Encoding.Statement (.vsigm rd ra) := by
  intro hwf w hw
  obtain rfl := Option.some.inj hw
  rw [decode_pack6_3]
  obtain ⟨h0, h1, hm⟩ := layout_7_7_z7 rd ra
  exact fixed_eq hm (by rw [h0, h1]) hwf

theorem Encoding.vrsum (rd : BitVec 6) (ra : BitVec 7) : Encoding.Statement (.vrsum rd ra) := by
  intro hwf w hw
  obtain rfl := Option.some.inj hw
  rw [decode_pack6_3]
  obtain ⟨h0, h1, hm⟩ := layout_z1_6_7_z7 rd ra
  exact fixed_eq hm (by rw [h0, h1]) hwf

theorem Encoding.vrmax (rd : BitVec 6) (ra : BitVec 7) : Encoding.Statement (.vrmax rd ra) := by
  intro hwf w hw
  obtain rfl := Option.some.inj hw
  rw [decode_pack6_3]
  obtain ⟨h0, h1, hm⟩ := layout_z1_6_7_z7 rd ra
  exact fixed_eq hm (by rw [h0, h1]) hwf

theorem Encoding.vramax (rd : BitVec 6) (ra : BitVec 7) : Encoding.Statement (.vramax rd ra) := by
  intro hwf w hw
  obtain rfl := Option.some.inj hw
  rw [decode_pack6_3]
  obtain ⟨h0, h1, hm⟩ := layout_z1_6_7_z7 rd ra
  exact fixed_eq hm (by rw [h0, h1]) hwf

theorem Encoding.vbcast (rd : BitVec 7) (ra : BitVec 6) : Encoding.Statement (.vbcast rd ra) := by
  intro hwf w hw
  obtain rfl := Option.some.inj hw
  rw [decode_pack6_3]
  obtain ⟨h0, h1, hm⟩ := layout_7_z1_6_z7 rd ra
  exact fixed_eq hm (by rw [h0, h1]) hwf

theorem Encoding.vextr (rd : BitVec 6) (ra : BitVec 7) (rb : BitVec 6) : Encoding.Statement (.vextr rd ra rb) := by
  intro hwf w hw
  obtain rfl := Option.some.inj hw
  rw [decode_pack6_3]
  obtain ⟨h0, h1, h2, hm⟩ := layout_z1_6_7_z1_6 rd ra rb
  exact fixed_eq hm (by rw [h0, h1, h2]) hwf

theorem Encoding.vins (rd : BitVec 7) (ra rb : BitVec 6) : Encoding.Statement (.vins rd ra rb) := by
  intro hwf w hw
  obtain rfl := Option.some.inj hw
  rw [decode_pack6_3]
  obtain ⟨h0, h1, h2, hm⟩ := layout_7_z1_6_z1_6 rd ra rb
  exact fixed_eq hm (by rw [h0, h1, h2]) hwf

theorem Encoding.vperm (rd ra rb : BitVec 7) : Encoding.Statement (.vperm rd ra rb) := by
  intro hwf w hw
  obtain rfl := Option.some.inj hw
  rw [decode_pack6_3]
  obtain ⟨h0, h1, h2, hm⟩ := layout_7_7_7 rd ra rb
  exact fixed_eq hm (by rw [h0, h1, h2]) hwf

theorem Encoding.vslide (rd ra : BitVec 7) (rb : BitVec 6) : Encoding.Statement (.vslide rd ra rb) := by
  intro hwf w hw
  obtain rfl := Option.some.inj hw
  rw [decode_pack6_3]
  obtain ⟨h0, h1, h2, hm⟩ := layout_7_7_z1_6 rd ra rb
  exact fixed_eq hm (by rw [h0, h1, h2]) hwf

theorem Encoding.vmov (rd ra : BitVec 7) : Encoding.Statement (.vmov rd ra) := by
  intro hwf w hw
  obtain rfl := Option.some.inj hw
  rw [decode_pack6_3]
  obtain ⟨h0, h1, hm⟩ := layout_7_7_z7 rd ra
  exact fixed_eq hm (by rw [h0, h1]) hwf

theorem Encoding.viota (rd : BitVec 7) : Encoding.Statement (.viota rd) := by
  intro hwf w hw
  obtain rfl := Option.some.inj hw
  rw [decode_pack6_3]
  obtain ⟨h0, hm⟩ := layout_7_z14 rd
  exact fixed_eq hm (by rw [h0]) hwf

theorem Encoding.vrand (rd : BitVec 7) (ra : BitVec 2) : Encoding.Statement (.vrand rd ra) := by
  intro hwf w hw
  obtain rfl := Option.some.inj hw
  rw [decode_pack6_3]
  obtain ⟨h0, h1, hm⟩ := layout_7_z5_2_z7 rd ra
  exact fixed_eq hm (by rw [h0, h1]) hwf

theorem Encoding.kand (rd ra rb : BitVec 4) : Encoding.Statement (.kand rd ra rb) := by
  intro hwf w hw
  obtain rfl := Option.some.inj hw
  rw [decode_pack6_3]
  obtain ⟨h0, h1, h2, hm⟩ := layout_z3_4_z3_4_z3_4 rd ra rb
  exact fixed_eq hm (by rw [h0, h1, h2]) hwf

theorem Encoding.kor (rd ra rb : BitVec 4) : Encoding.Statement (.kor rd ra rb) := by
  intro hwf w hw
  obtain rfl := Option.some.inj hw
  rw [decode_pack6_3]
  obtain ⟨h0, h1, h2, hm⟩ := layout_z3_4_z3_4_z3_4 rd ra rb
  exact fixed_eq hm (by rw [h0, h1, h2]) hwf

theorem Encoding.kxor (rd ra rb : BitVec 4) : Encoding.Statement (.kxor rd ra rb) := by
  intro hwf w hw
  obtain rfl := Option.some.inj hw
  rw [decode_pack6_3]
  obtain ⟨h0, h1, h2, hm⟩ := layout_z3_4_z3_4_z3_4 rd ra rb
  exact fixed_eq hm (by rw [h0, h1, h2]) hwf

theorem Encoding.knot (rd ra : BitVec 4) : Encoding.Statement (.knot rd ra) := by
  intro hwf w hw
  obtain rfl := Option.some.inj hw
  rw [decode_pack6_3]
  obtain ⟨h0, h1, hm⟩ := layout_z3_4_z3_4_z7 rd ra
  exact fixed_eq hm (by rw [h0, h1]) hwf

theorem Encoding.kpop (rd : BitVec 6) (ra : BitVec 4) : Encoding.Statement (.kpop rd ra) := by
  intro hwf w hw
  obtain rfl := Option.some.inj hw
  rw [decode_pack6_3]
  obtain ⟨h0, h1, hm⟩ := layout_z1_6_z3_4_z7 rd ra
  exact fixed_eq hm (by rw [h0, h1]) hwf

theorem Encoding.vcvtn (fmt : BitVec 2) (rd ra : BitVec 7) (noRot : BitVec 1) (seed : BitVec 4) : Encoding.Statement (.vcvtn fmt rd ra noRot seed) := by
  intro hwf w hw
  obtain rfl := Option.some.inj hw
  clear hw
  rw [decode_pack6_4]
  obtain ⟨h0, h1, h2, h3, hm⟩ := layout_7_7_z2_1_4 rd ra noRot seed
  have hv : fmt = 0 ∨ fmt = 1 ∨ fmt = 2 ∨ fmt = 3 := by clear hwf; revert fmt; decide
  rcases hv with rfl | rfl | rfl | rfl <;> exact fixed_eq hm (by rw [h0, h1, h2, h3]; rfl) hwf

theorem Encoding.vcvtns (fmt : BitVec 2) (rd ra : BitVec 7) (rb : BitVec 6) : Encoding.Statement (.vcvtns fmt rd ra rb) := by
  intro hwf w hw
  obtain rfl := Option.some.inj hw
  clear hw
  rw [decode_pack6_4]
  obtain ⟨h0, h1, h2, hm⟩ := layout_7_7_z1_6 rd ra rb
  have hv : fmt = 0 ∨ fmt = 1 ∨ fmt = 2 ∨ fmt = 3 := by clear hwf; revert fmt; decide
  rcases hv with rfl | rfl | rfl | rfl <;> exact fixed_eq hm (by rw [h0, h1, h2]; rfl) hwf

theorem Encoding.vcvtw (rd ra : BitVec 7) : Encoding.Statement (.vcvtw rd ra) := by
  intro hwf w hw
  obtain rfl := Option.some.inj hw
  rw [decode_pack6_4]
  obtain ⟨h0, h1, hm⟩ := layout_7_7_z7 rd ra
  exact fixed_eq hm (by rw [h0, h1]) hwf

theorem Encoding.vcvti (rd ra : BitVec 7) (uns : BitVec 1) : Encoding.Statement (.vcvti rd ra uns) := by
  intro hwf w hw
  obtain rfl := Option.some.inj hw
  rw [decode_pack6_4]
  obtain ⟨h0, h1, h2, hm⟩ := layout_7_7_z6_1 rd ra uns
  exact fixed_eq hm (by rw [h0, h1, h2]) hwf

theorem Encoding.vcvtf (rd ra : BitVec 7) (uns : BitVec 1) : Encoding.Statement (.vcvtf rd ra uns) := by
  intro hwf w hw
  obtain rfl := Option.some.inj hw
  rw [decode_pack6_4]
  obtain ⟨h0, h1, h2, hm⟩ := layout_7_7_z6_1 rd ra uns
  exact fixed_eq hm (by rw [h0, h1, h2]) hwf

theorem Encoding.vqscaleE4m3 (rd : BitVec 6) (ra : BitVec 7) (noRot : BitVec 1) (seed : BitVec 4) : Encoding.Statement (.vqscaleE4m3 rd ra noRot seed) := by
  intro hwf w hw
  obtain rfl := Option.some.inj hw
  rw [decode_pack6_4]
  obtain ⟨h0, h1, h2, h3, hm⟩ := layout_z1_6_7_z2_1_4 rd ra noRot seed
  exact fixed_eq hm (by rw [h0, h1, h2, h3]) hwf

theorem Encoding.vqscaleE5m2 (rd : BitVec 6) (ra : BitVec 7) (noRot : BitVec 1) (seed : BitVec 4) : Encoding.Statement (.vqscaleE5m2 rd ra noRot seed) := by
  intro hwf w hw
  obtain rfl := Option.some.inj hw
  rw [decode_pack6_4]
  obtain ⟨h0, h1, h2, h3, hm⟩ := layout_z1_6_7_z2_1_4 rd ra noRot seed
  exact fixed_eq hm (by rw [h0, h1, h2, h3]) hwf

theorem Encoding.vqscaleBf16 (rd : BitVec 6) (ra : BitVec 7) (noRot : BitVec 1) (seed : BitVec 4) : Encoding.Statement (.vqscaleBf16 rd ra noRot seed) := by
  intro hwf w hw
  obtain rfl := Option.some.inj hw
  rw [decode_pack6_4]
  obtain ⟨h0, h1, h2, h3, hm⟩ := layout_z1_6_7_z2_1_4 rd ra noRot seed
  exact fixed_eq hm (by rw [h0, h1, h2, h3]) hwf

theorem Encoding.vqscaleInt8 (rd : BitVec 6) (ra : BitVec 7) (noRot : BitVec 1) (seed : BitVec 4) : Encoding.Statement (.vqscaleInt8 rd ra noRot seed) := by
  intro hwf w hw
  obtain rfl := Option.some.inj hw
  rw [decode_pack6_4]
  obtain ⟨h0, h1, h2, h3, hm⟩ := layout_z1_6_7_z2_1_4 rd ra noRot seed
  exact fixed_eq hm (by rw [h0, h1, h2, h3]) hwf

theorem Encoding.vside (rd : BitVec 6) (ra : BitVec 7) : Encoding.Statement (.vside rd ra) := by
  intro hwf w hw
  obtain rfl := Option.some.inj hw
  rw [decode_pack6_4]
  obtain ⟨h0, h1, hm⟩ := layout_z1_6_7_z7 rd ra
  exact fixed_eq hm (by rw [h0, h1]) hwf

theorem Encoding.vsidew (rd : BitVec 7) (rb : BitVec 6) : Encoding.Statement (.vsidew rd rb) := by
  intro hwf w hw
  obtain rfl := Option.some.inj hw
  rw [decode_pack6_4]
  obtain ⟨h0, h1, hm⟩ := layout_7_z8_6 rd rb
  exact fixed_eq hm (by rw [h0, h1]) hwf

theorem Encoding.ttwr (tile : BitVec 1) (ra : BitVec 7) (rb : BitVec 6) : Encoding.Statement (.ttwr tile ra rb) := by
  intro hwf w hw
  obtain rfl := Option.some.inj hw
  rw [decode_pack6_4]
  obtain ⟨h0, h1, h2, hm⟩ := layout_z6_1_7_z1_6 tile ra rb
  exact fixed_eq hm (by rw [h0, h1, h2]) hwf

theorem Encoding.ttrdc (rd : BitVec 7) (tile : BitVec 1) (ra : BitVec 6) : Encoding.Statement (.ttrdc rd tile ra) := by
  intro hwf w hw
  obtain rfl := Option.some.inj hw
  rw [decode_pack6_4]
  obtain ⟨h0, h1, h2, hm⟩ := layout_7_1_6_z7 rd tile ra
  exact fixed_eq hm (by rw [h0, h1, h2]) hwf

theorem Encoding.ttrdcE4m3 (rd : BitVec 7) (tile : BitVec 1) (ra : BitVec 6) (noRot : BitVec 1) (seed : BitVec 4) : Encoding.Statement (.ttrdcE4m3 rd tile ra noRot seed) := by
  intro hwf w hw
  obtain rfl := Option.some.inj hw
  rw [decode_pack6_4]
  obtain ⟨h0, h1, h2, h3, h4, hm⟩ := layout_7_1_6_z2_1_4 rd tile ra noRot seed
  exact fixed_eq hm (by rw [h0, h1, h2, h3, h4]) hwf

theorem Encoding.ttrdcE5m2 (rd : BitVec 7) (tile : BitVec 1) (ra : BitVec 6) (noRot : BitVec 1) (seed : BitVec 4) : Encoding.Statement (.ttrdcE5m2 rd tile ra noRot seed) := by
  intro hwf w hw
  obtain rfl := Option.some.inj hw
  rw [decode_pack6_4]
  obtain ⟨h0, h1, h2, h3, h4, hm⟩ := layout_7_1_6_z2_1_4 rd tile ra noRot seed
  exact fixed_eq hm (by rw [h0, h1, h2, h3, h4]) hwf

theorem Encoding.ttrdcBf16 (rd : BitVec 7) (tile : BitVec 1) (ra : BitVec 6) (noRot : BitVec 1) (seed : BitVec 4) : Encoding.Statement (.ttrdcBf16 rd tile ra noRot seed) := by
  intro hwf w hw
  obtain rfl := Option.some.inj hw
  rw [decode_pack6_4]
  obtain ⟨h0, h1, h2, h3, h4, hm⟩ := layout_7_1_6_z2_1_4 rd tile ra noRot seed
  exact fixed_eq hm (by rw [h0, h1, h2, h3, h4]) hwf

theorem Encoding.ttrdcInt8 (rd : BitVec 7) (tile : BitVec 1) (ra : BitVec 6) (noRot : BitVec 1) (seed : BitVec 4) : Encoding.Statement (.ttrdcInt8 rd tile ra noRot seed) := by
  intro hwf w hw
  obtain rfl := Option.some.inj hw
  rw [decode_pack6_4]
  obtain ⟨h0, h1, h2, h3, h4, hm⟩ := layout_7_1_6_z2_1_4 rd tile ra noRot seed
  exact fixed_eq hm (by rw [h0, h1, h2, h3, h4]) hwf

theorem Encoding.ttclr (tile : BitVec 1) : Encoding.Statement (.ttclr tile) := by
  intro hwf w hw
  obtain rfl := Option.some.inj hw
  rw [decode_pack6_4]
  obtain ⟨h0, hm⟩ := layout_z6_1_z14 tile
  exact fixed_eq hm (by rw [h0]) hwf

theorem Encoding.fpusha (fifo : BitVec 1) (ra : BitVec 7) : Encoding.Statement (.fpusha fifo ra) := by
  intro hwf w hw
  obtain rfl := Option.some.inj hw
  rw [decode_pack6_4]
  obtain ⟨h0, h1, hm⟩ := layout_z6_1_7_z7 fifo ra
  exact fixed_eq hm (by rw [h0, h1]) hwf

theorem Encoding.fpushb (fifo : BitVec 1) (ra : BitVec 7) : Encoding.Statement (.fpushb fifo ra) := by
  intro hwf w hw
  obtain rfl := Option.some.inj hw
  rw [decode_pack6_4]
  obtain ⟨h0, h1, hm⟩ := layout_z6_1_7_z7 fifo ra
  exact fixed_eq hm (by rw [h0, h1]) hwf

theorem Encoding.mcfg0 (ra : BitVec 6) : Encoding.Statement (.mcfg0 ra) := by
  intro hwf w hw
  obtain rfl := Option.some.inj hw
  rw [decode_pack5_5]
  obtain ⟨h0, hm⟩ := layout_z6_6_z10 ra
  exact fixed_eq hm (by rw [h0]) hwf

theorem Encoding.mcfg1 (ra : BitVec 6) : Encoding.Statement (.mcfg1 ra) := by
  intro hwf w hw
  obtain rfl := Option.some.inj hw
  rw [decode_pack5_6]
  obtain ⟨h0, hm⟩ := layout_z6_6_z10 ra
  exact fixed_eq hm (by rw [h0]) hwf

theorem Encoding.mdrain0 : Encoding.Statement .mdrain0 := by
  intro hwf w hw
  obtain rfl := Option.some.inj hw
  rw [decode_pack5_5]
  exact fixed_eq (by decide) rfl hwf

theorem Encoding.mdrain1 : Encoding.Statement .mdrain1 := by
  intro hwf w hw
  obtain rfl := Option.some.inj hw
  rw [decode_pack5_6]
  exact fixed_eq (by decide) rfl hwf

theorem Encoding.mldb0 (wb : BitVec 1) : Encoding.Statement (.mldb0 wb) := by
  intro hwf w hw
  obtain rfl := Option.some.inj hw
  rw [decode_pack5_5]
  obtain ⟨h0, hm⟩ := layout_z14_1_z7 wb
  exact fixed_eq hm (by rw [h0]) hwf

theorem Encoding.mldb1 (wb : BitVec 1) : Encoding.Statement (.mldb1 wb) := by
  intro hwf w hw
  obtain rfl := Option.some.inj hw
  rw [decode_pack5_6]
  obtain ⟨h0, hm⟩ := layout_z14_1_z7 wb
  exact fixed_eq hm (by rw [h0]) hwf

theorem Encoding.mma0 (nm1 row0 : BitVec 6) (ovw scl wb : BitVec 1) : Encoding.Statement (.mma0 nm1 row0 ovw scl wb) := by
  intro hwf w hw
  obtain rfl := Option.some.inj hw
  rw [decode_pack5_5]
  obtain ⟨h0, h1, h2, h3, h4, hm⟩ := layout_6_6_1_1_1_z7 nm1 row0 ovw scl wb
  exact fixed_eq hm (by rw [h0, h1, h2, h3, h4]) hwf

theorem Encoding.mma1 (nm1 row0 : BitVec 6) (ovw scl wb : BitVec 1) : Encoding.Statement (.mma1 nm1 row0 ovw scl wb) := by
  intro hwf w hw
  obtain rfl := Option.some.inj hw
  rw [decode_pack5_6]
  obtain ⟨h0, h1, h2, h3, h4, hm⟩ := layout_6_6_1_1_1_z7 nm1 row0 ovw scl wb
  exact fixed_eq hm (by rw [h0, h1, h2, h3, h4]) hwf

theorem Encoding.mzero0 (nm1 row0 : BitVec 6) : Encoding.Statement (.mzero0 nm1 row0) := by
  intro hwf w hw
  obtain rfl := Option.some.inj hw
  rw [decode_pack5_5]
  obtain ⟨h0, h1, hm⟩ := layout_6_6_z10 nm1 row0
  exact fixed_eq hm (by rw [h0, h1]) hwf

theorem Encoding.mzero1 (nm1 row0 : BitVec 6) : Encoding.Statement (.mzero1 nm1 row0) := by
  intro hwf w hw
  obtain rfl := Option.some.inj hw
  rw [decode_pack5_6]
  obtain ⟨h0, h1, hm⟩ := layout_6_6_z10 nm1 row0
  exact fixed_eq hm (by rw [h0, h1]) hwf

theorem Encoding.mskipa0 (nm1 : BitVec 6) : Encoding.Statement (.mskipa0 nm1) := by
  intro hwf w hw
  obtain rfl := Option.some.inj hw
  rw [decode_pack5_5]
  obtain ⟨h0, hm⟩ := layout_6_z16 nm1
  exact fixed_eq hm (by rw [h0]) hwf

theorem Encoding.mskipa1 (nm1 : BitVec 6) : Encoding.Statement (.mskipa1 nm1) := by
  intro hwf w hw
  obtain rfl := Option.some.inj hw
  rw [decode_pack5_6]
  obtain ⟨h0, hm⟩ := layout_6_z16 nm1
  exact fixed_eq hm (by rw [h0]) hwf

theorem Encoding.mstat0 (rd : BitVec 6) : Encoding.Statement (.mstat0 rd) := by
  intro hwf w hw
  obtain rfl := Option.some.inj hw
  rw [decode_pack5_5]
  obtain ⟨h0, hm⟩ := layout_z6_6_z10 rd
  exact fixed_eq hm (by rw [h0]) hwf

theorem Encoding.mstat1 (rd : BitVec 6) : Encoding.Statement (.mstat1 rd) := by
  intro hwf w hw
  obtain rfl := Option.some.inj hw
  rw [decode_pack5_6]
  obtain ⟨h0, hm⟩ := layout_z6_6_z10 rd
  exact fixed_eq hm (by rw [h0]) hwf

theorem Encoding.lds (size : BitVec 3) (rd base : BitVec 6) (off : BitVec 8) : Encoding.Statement (.lds size rd base off) := by
  intro hwf w hw
  obtain rfl := Option.some.inj hw
  clear hw
  rw [decode_pack6_7]
  obtain ⟨h0, h1, h2, hm⟩ := layout_z1_6_6_8 rd base off
  have hv : size = 0 ∨ size = 1 ∨ size = 2 ∨ size = 3 ∨ size = 4 ∨ size = 5 ∨ size = 6 ∨ size = 7 := by clear hwf; revert size; decide
  rcases hv with rfl | rfl | rfl | rfl | rfl | rfl | rfl | rfl <;> exact fixed_eq hm (by rw [h0, h1, h2]; rfl) hwf

theorem Encoding.ldsv (rd : BitVec 7) (base : BitVec 6) (off : BitVec 8) : Encoding.Statement (.ldsv rd base off) := by
  intro hwf w hw
  obtain rfl := Option.some.inj hw
  rw [decode_pack6_7]
  obtain ⟨h0, h1, h2, hm⟩ := layout_7_6_8 rd base off
  exact fixed_eq hm (by rw [h0, h1, h2]) hwf

theorem Encoding.ldsk (hi : BitVec 1) (rk : BitVec 4) (base : BitVec 6) (off : BitVec 8) : Encoding.Statement (.ldsk hi rk base off) := by
  intro hwf w hw
  obtain rfl := Option.some.inj hw
  rw [decode_pack6_7]
  obtain ⟨h0, h1, h2, h3, hm⟩ := layout_z2_1_4_6_8 hi rk base off
  exact fixed_eq hm (by rw [h0, h1, h2, h3]) hwf

theorem Encoding.ldsx (rd : BitVec 7) (base : BitVec 6) (off : BitVec 8) : Encoding.Statement (.ldsx rd base off) := by
  intro hwf w hw
  obtain rfl := Option.some.inj hw
  rw [decode_pack6_7]
  obtain ⟨h0, h1, h2, hm⟩ := layout_7_6_8 rd base off
  exact fixed_eq hm (by rw [h0, h1, h2]) hwf

theorem Encoding.ldc (size : BitVec 3) (rd base : BitVec 6) (off : BitVec 8) : Encoding.Statement (.ldc size rd base off) := by
  intro hwf w hw
  obtain rfl := Option.some.inj hw
  clear hw
  rw [decode_pack6_7]
  obtain ⟨h0, h1, h2, hm⟩ := layout_z1_6_6_8 rd base off
  have hv : size = 0 ∨ size = 1 ∨ size = 2 ∨ size = 3 ∨ size = 4 ∨ size = 5 ∨ size = 6 ∨ size = 7 := by clear hwf; revert size; decide
  rcases hv with rfl | rfl | rfl | rfl | rfl | rfl | rfl | rfl <;> exact fixed_eq hm (by rw [h0, h1, h2]; rfl) hwf

theorem Encoding.ldcv (rd : BitVec 7) (base : BitVec 6) (off : BitVec 8) : Encoding.Statement (.ldcv rd base off) := by
  intro hwf w hw
  obtain rfl := Option.some.inj hw
  rw [decode_pack6_7]
  obtain ⟨h0, h1, h2, hm⟩ := layout_7_6_8 rd base off
  exact fixed_eq hm (by rw [h0, h1, h2]) hwf

theorem Encoding.ldg (size : BitVec 3) (rd base : BitVec 6) (off : BitVec 8) : Encoding.Statement (.ldg size rd base off) := by
  intro hwf w hw
  obtain rfl := Option.some.inj hw
  clear hw
  rw [decode_pack6_7]
  obtain ⟨h0, h1, h2, hm⟩ := layout_z1_6_6_8 rd base off
  have hv : size = 0 ∨ size = 1 ∨ size = 2 ∨ size = 3 ∨ size = 4 ∨ size = 5 ∨ size = 6 ∨ size = 7 := by clear hwf; revert size; decide
  rcases hv with rfl | rfl | rfl | rfl | rfl | rfl | rfl | rfl <;> exact fixed_eq hm (by rw [h0, h1, h2]; rfl) hwf

theorem Encoding.ldgv (rd : BitVec 7) (base : BitVec 6) (off : BitVec 8) : Encoding.Statement (.ldgv rd base off) := by
  intro hwf w hw
  obtain rfl := Option.some.inj hw
  rw [decode_pack6_7]
  obtain ⟨h0, h1, h2, hm⟩ := layout_7_6_8 rd base off
  exact fixed_eq hm (by rw [h0, h1, h2]) hwf

theorem Encoding.ldgx (rd : BitVec 7) (base : BitVec 6) (off : BitVec 8) : Encoding.Statement (.ldgx rd base off) := by
  intro hwf w hw
  obtain rfl := Option.some.inj hw
  rw [decode_pack6_7]
  obtain ⟨h0, h1, h2, hm⟩ := layout_7_6_8 rd base off
  exact fixed_eq hm (by rw [h0, h1, h2]) hwf

theorem Encoding.pref (base : BitVec 6) (off : BitVec 8) : Encoding.Statement (.pref base off) := by
  intro hwf w hw
  obtain rfl := Option.some.inj hw
  rw [decode_pack6_7]
  obtain ⟨h0, h1, hm⟩ := layout_z7_6_8 base off
  exact fixed_eq hm (by rw [h0, h1]) hwf

theorem Encoding.sts (size : BitVec 3) (rd base : BitVec 6) (off : BitVec 8) : Encoding.Statement (.sts size rd base off) := by
  intro hwf w hw
  obtain rfl := Option.some.inj hw
  clear hw
  rw [decode_pack6_8]
  obtain ⟨h0, h1, h2, hm⟩ := layout_z1_6_6_8 rd base off
  have hv : size = 0 ∨ size = 1 ∨ size = 2 ∨ size = 3 ∨ size = 4 := by
    simp only [Instr.wf, storePairOk, Bool.and_eq_true, decide_eq_true_eq] at hwf
    have := hwf.1
    clear hwf
    revert size; decide
  rcases hv with rfl | rfl | rfl | rfl | rfl <;> exact fixed_eq hm (by rw [h0, h1, h2]; rfl) hwf

theorem Encoding.stsv (rd : BitVec 7) (base : BitVec 6) (off : BitVec 8) : Encoding.Statement (.stsv rd base off) := by
  intro hwf w hw
  obtain rfl := Option.some.inj hw
  rw [decode_pack6_8]
  obtain ⟨h0, h1, h2, hm⟩ := layout_7_6_8 rd base off
  exact fixed_eq hm (by rw [h0, h1, h2]) hwf

theorem Encoding.stsk (hi : BitVec 1) (rk : BitVec 4) (base : BitVec 6) (off : BitVec 8) : Encoding.Statement (.stsk hi rk base off) := by
  intro hwf w hw
  obtain rfl := Option.some.inj hw
  rw [decode_pack6_8]
  obtain ⟨h0, h1, h2, h3, hm⟩ := layout_z2_1_4_6_8 hi rk base off
  exact fixed_eq hm (by rw [h0, h1, h2, h3]) hwf

theorem Encoding.stsx (rd : BitVec 7) (base : BitVec 6) (off : BitVec 8) : Encoding.Statement (.stsx rd base off) := by
  intro hwf w hw
  obtain rfl := Option.some.inj hw
  rw [decode_pack6_8]
  obtain ⟨h0, h1, h2, hm⟩ := layout_7_6_8 rd base off
  exact fixed_eq hm (by rw [h0, h1, h2]) hwf

theorem Encoding.stc (size : BitVec 3) (rd base : BitVec 6) (off : BitVec 8) : Encoding.Statement (.stc size rd base off) := by
  intro hwf w hw
  obtain rfl := Option.some.inj hw
  clear hw
  rw [decode_pack6_8]
  obtain ⟨h0, h1, h2, hm⟩ := layout_z1_6_6_8 rd base off
  have hv : size = 0 ∨ size = 1 ∨ size = 2 ∨ size = 3 ∨ size = 4 := by
    simp only [Instr.wf, storePairOk, Bool.and_eq_true, decide_eq_true_eq] at hwf
    have := hwf.1
    clear hwf
    revert size; decide
  rcases hv with rfl | rfl | rfl | rfl | rfl <;> exact fixed_eq hm (by rw [h0, h1, h2]; rfl) hwf

theorem Encoding.stcv (rd : BitVec 7) (base : BitVec 6) (off : BitVec 8) : Encoding.Statement (.stcv rd base off) := by
  intro hwf w hw
  obtain rfl := Option.some.inj hw
  rw [decode_pack6_8]
  obtain ⟨h0, h1, h2, hm⟩ := layout_7_6_8 rd base off
  exact fixed_eq hm (by rw [h0, h1, h2]) hwf

theorem Encoding.stg (size : BitVec 3) (rd base : BitVec 6) (off : BitVec 8) : Encoding.Statement (.stg size rd base off) := by
  intro hwf w hw
  obtain rfl := Option.some.inj hw
  clear hw
  rw [decode_pack6_8]
  obtain ⟨h0, h1, h2, hm⟩ := layout_z1_6_6_8 rd base off
  have hv : size = 0 ∨ size = 1 ∨ size = 2 ∨ size = 3 ∨ size = 4 := by
    simp only [Instr.wf, storePairOk, Bool.and_eq_true, decide_eq_true_eq] at hwf
    have := hwf.1
    clear hwf
    revert size; decide
  rcases hv with rfl | rfl | rfl | rfl | rfl <;> exact fixed_eq hm (by rw [h0, h1, h2]; rfl) hwf

theorem Encoding.stgv (rd : BitVec 7) (base : BitVec 6) (off : BitVec 8) : Encoding.Statement (.stgv rd base off) := by
  intro hwf w hw
  obtain rfl := Option.some.inj hw
  rw [decode_pack6_8]
  obtain ⟨h0, h1, h2, hm⟩ := layout_7_6_8 rd base off
  exact fixed_eq hm (by rw [h0, h1, h2]) hwf

theorem Encoding.stgn (rd : BitVec 7) (base : BitVec 6) (norm : BitVec 8) : Encoding.Statement (.stgn rd base norm) := by
  intro hwf w hw
  obtain rfl := Option.some.inj hw
  rw [decode_pack6_8]
  obtain ⟨h0, h1, h2, hm⟩ := layout_7_6_8 rd base norm
  exact fixed_eq hm (by rw [h0, h1, h2]) hwf

theorem Encoding.stgx (rd : BitVec 7) (base : BitVec 6) (off : BitVec 8) : Encoding.Statement (.stgx rd base off) := by
  intro hwf w hw
  obtain rfl := Option.some.inj hw
  rw [decode_pack6_8]
  obtain ⟨h0, h1, h2, hm⟩ := layout_7_6_8 rd base off
  exact fixed_eq hm (by rw [h0, h1, h2]) hwf

theorem Encoding.cpy (opa : BitVec 6) (inCluster : BitVec 1) (chan : BitVec 2) : Encoding.Statement (.cpy opa inCluster chan) := by
  intro hwf w hw
  obtain rfl := Option.some.inj hw
  rw [decode_pack6_9]
  obtain ⟨h0, h1, h2, hm⟩ := layout_6_z12_1_2 opa inCluster chan
  exact fixed_eq hm (by rw [h0, h1, h2]) hwf

theorem Encoding.gath (opa : BitVec 6) (inCluster : BitVec 1) (chan : BitVec 2) : Encoding.Statement (.gath opa inCluster chan) := by
  intro hwf w hw
  obtain rfl := Option.some.inj hw
  rw [decode_pack6_9]
  obtain ⟨h0, h1, h2, hm⟩ := layout_6_z12_1_2 opa inCluster chan
  exact fixed_eq hm (by rw [h0, h1, h2]) hwf

theorem Encoding.stash (opa opb bar : BitVec 6) (mode : BitVec 3) : Encoding.Statement (.stash opa opb bar mode) := by
  intro hwf w hw
  obtain rfl := Option.some.inj hw
  rw [decode_pack6_9]
  obtain ⟨h0, h1, h2, h3, hm⟩ := layout_6_6_6_3 opa opb bar mode
  exact fixed_eq hm (by rw [h0, h1, h2, h3]) hwf

theorem Encoding.sfetch (opa opb bar : BitVec 6) : Encoding.Statement (.sfetch opa opb bar) := by
  intro hwf w hw
  obtain rfl := Option.some.inj hw
  rw [decode_pack6_9]
  obtain ⟨h0, h1, h2, hm⟩ := layout_6_6_6_z3 opa opb bar
  exact fixed_eq hm (by rw [h0, h1, h2]) hwf

theorem Encoding.sprobe (opa opb : BitVec 6) : Encoding.Statement (.sprobe opa opb) := by
  intro hwf w hw
  obtain rfl := Option.some.inj hw
  rw [decode_pack6_9]
  obtain ⟨h0, h1, hm⟩ := layout_6_6_z9 opa opb
  exact fixed_eq hm (by rw [h0, h1]) hwf

theorem Encoding.sfree (opb : BitVec 6) : Encoding.Statement (.sfree opb) := by
  intro hwf w hw
  obtain rfl := Option.some.inj hw
  rw [decode_pack6_9]
  obtain ⟨h0, hm⟩ := layout_z6_6_z9 opb
  exact fixed_eq hm (by rw [h0]) hwf

theorem Encoding.chsend (opa opb chan : BitVec 6) : Encoding.Statement (.chsend opa opb chan) := by
  intro hwf w hw
  obtain rfl := Option.some.inj hw
  rw [decode_pack6_9]
  obtain ⟨h0, h1, h2, hm⟩ := layout_6_6_z3_6 opa opb chan
  exact fixed_eq hm (by rw [h0, h1, h2]) hwf

theorem Encoding.chpost (opa chan : BitVec 6) : Encoding.Statement (.chpost opa chan) := by
  intro hwf w hw
  obtain rfl := Option.some.inj hw
  rw [decode_pack6_9]
  obtain ⟨h0, h1, hm⟩ := layout_6_z9_6 opa chan
  exact fixed_eq hm (by rw [h0, h1]) hwf

theorem Encoding.chack (opb chan : BitVec 6) : Encoding.Statement (.chack opb chan) := by
  intro hwf w hw
  obtain rfl := Option.some.inj hw
  rw [decode_pack6_9]
  obtain ⟨h0, h1, hm⟩ := layout_z6_6_z3_6 opb chan
  exact fixed_eq hm (by rw [h0, h1]) hwf

theorem Encoding.coll (opa bar : BitVec 6) : Encoding.Statement (.coll opa bar) := by
  intro hwf w hw
  obtain rfl := Option.some.inj hw
  rw [decode_pack6_9]
  obtain ⟨h0, h1, hm⟩ := layout_6_z6_6_z3 opa bar
  exact fixed_eq hm (by rw [h0, h1]) hwf

theorem Encoding.shopen (opa opb : BitVec 6) : Encoding.Statement (.shopen opa opb) := by
  intro hwf w hw
  obtain rfl := Option.some.inj hw
  rw [decode_pack6_9]
  obtain ⟨h0, h1, hm⟩ := layout_6_6_z9 opa opb
  exact fixed_eq hm (by rw [h0, h1]) hwf

theorem Encoding.publish (opa : BitVec 6) (scope : BitVec 3) : Encoding.Statement (.publish opa scope) := by
  intro hwf w hw
  obtain rfl := Option.some.inj hw
  rw [decode_pack6_9]
  obtain ⟨h0, h1, hm⟩ := layout_6_z12_3 opa scope
  exact fixed_eq hm (by rw [h0, h1]) hwf

theorem Encoding.ckpt (opb : BitVec 6) (scope : BitVec 3) : Encoding.Statement (.ckpt opb scope) := by
  intro hwf w hw
  obtain rfl := Option.some.inj hw
  rw [decode_pack6_9]
  obtain ⟨h0, h1, hm⟩ := layout_z6_6_z6_3 opb scope
  exact fixed_eq hm (by rw [h0, h1]) hwf

theorem Encoding.replay (opb : BitVec 6) : Encoding.Statement (.replay opb) := by
  intro hwf w hw
  obtain rfl := Option.some.inj hw
  rw [decode_pack6_9]
  obtain ⟨h0, hm⟩ := layout_z6_6_z9 opb
  exact fixed_eq hm (by rw [h0]) hwf

theorem Encoding.split (opa : BitVec 6) : Encoding.Statement (.split opa) := by
  intro hwf w hw
  obtain rfl := Option.some.inj hw
  rw [decode_pack6_9]
  obtain ⟨h0, hm⟩ := layout_6_z15 opa
  exact fixed_eq hm (by rw [h0]) hwf

theorem Encoding.wpwait (opa : BitVec 6) (chan : BitVec 2) : Encoding.Statement (.wpwait opa chan) := by
  intro hwf w hw
  obtain rfl := Option.some.inj hw
  rw [decode_pack6_9]
  obtain ⟨h0, h1, hm⟩ := layout_6_z13_2 opa chan
  exact fixed_eq hm (by rw [h0, h1]) hwf

theorem Encoding.nrmrd (opa : BitVec 6) (wantE : BitVec 1) (norm : BitVec 8) : Encoding.Statement (.nrmrd opa wantE norm) := by
  intro hwf w hw
  obtain rfl := Option.some.inj hw
  rw [decode_pack6_9]
  obtain ⟨h0, h1, h2, hm⟩ := layout_6_z6_1_8 opa wantE norm
  exact fixed_eq hm (by rw [h0, h1, h2]) hwf

theorem Encoding.nrmclr (norm : BitVec 8) : Encoding.Statement (.nrmclr norm) := by
  intro hwf w hw
  obtain rfl := Option.some.inj hw
  rw [decode_pack6_9]
  obtain ⟨h0, hm⟩ := layout_z13_8 norm
  exact fixed_eq hm (by rw [h0]) hwf

theorem Encoding.nrmset (opa : BitVec 6) (norm : BitVec 8) : Encoding.Statement (.nrmset opa norm) := by
  intro hwf w hw
  obtain rfl := Option.some.inj hw
  rw [decode_pack6_9]
  obtain ⟨h0, h1, hm⟩ := layout_6_z7_8 opa norm
  exact fixed_eq hm (by rw [h0, h1]) hwf

theorem Encoding.deq (grp : BitVec 4) (wq : BitVec 6) : Encoding.Statement (.deq grp wq) := by
  intro hwf w hw
  obtain rfl := Option.some.inj hw
  rw [decode_pack6_10]
  obtain ⟨h0, h1, hm⟩ := layout_4_z11_6 grp wq
  exact fixed_eq hm (by rw [h0, h1]) hwf

theorem Encoding.deqt (grp : BitVec 4) (wq : BitVec 6) : Encoding.Statement (.deqt grp wq) := by
  intro hwf w hw
  obtain rfl := Option.some.inj hw
  rw [decode_pack6_10]
  obtain ⟨h0, h1, hm⟩ := layout_4_z11_6 grp wq
  exact fixed_eq hm (by rw [h0, h1]) hwf

theorem Encoding.enq (grp : BitVec 4) (wq : BitVec 6) : Encoding.Statement (.enq grp wq) := by
  intro hwf w hw
  obtain rfl := Option.some.inj hw
  rw [decode_pack6_10]
  obtain ⟨h0, h1, hm⟩ := layout_4_z11_6 grp wq
  exact fixed_eq hm (by rw [h0, h1]) hwf

theorem Encoding.qclose (wq : BitVec 6) : Encoding.Statement (.qclose wq) := by
  intro hwf w hw
  obtain rfl := Option.some.inj hw
  rw [decode_pack6_10]
  obtain ⟨h0, hm⟩ := layout_z15_6 wq
  exact fixed_eq hm (by rw [h0]) hwf

theorem Encoding.binit (opa bar : BitVec 6) : Encoding.Statement (.binit opa bar) := by
  intro hwf w hw
  obtain rfl := Option.some.inj hw
  rw [decode_pack6_10]
  obtain ⟨h0, h1, hm⟩ := layout_6_z9_6 opa bar
  exact fixed_eq hm (by rw [h0, h1]) hwf

theorem Encoding.barr (bar : BitVec 6) : Encoding.Statement (.barr bar) := by
  intro hwf w hw
  obtain rfl := Option.some.inj hw
  rw [decode_pack6_10]
  obtain ⟨h0, hm⟩ := layout_z15_6 bar
  exact fixed_eq hm (by rw [h0]) hwf

theorem Encoding.bexp (opa bar : BitVec 6) : Encoding.Statement (.bexp opa bar) := by
  intro hwf w hw
  obtain rfl := Option.some.inj hw
  rw [decode_pack6_10]
  obtain ⟨h0, h1, hm⟩ := layout_6_z9_6 opa bar
  exact fixed_eq hm (by rw [h0, h1]) hwf

theorem Encoding.bwait (opa : BitVec 6) (te : BitVec 1) (bar : BitVec 6) : Encoding.Statement (.bwait opa te bar) := by
  intro hwf w hw
  obtain rfl := Option.some.inj hw
  rw [decode_pack6_10]
  obtain ⟨h0, h1, h2, hm⟩ := layout_6_z8_1_6 opa te bar
  exact fixed_eq hm (by rw [h0, h1, h2]) hwf

theorem Encoding.bpoll (opa bar : BitVec 6) : Encoding.Statement (.bpoll opa bar) := by
  intro hwf w hw
  obtain rfl := Option.some.inj hw
  rw [decode_pack6_10]
  obtain ⟨h0, h1, hm⟩ := layout_6_z9_6 opa bar
  exact fixed_eq hm (by rw [h0, h1]) hwf

theorem Encoding.fence (order : BitVec 2) (scope : BitVec 3) : Encoding.Statement (.fence order scope) := by
  intro hwf w hw
  obtain rfl := Option.some.inj hw
  rw [decode_pack6_10]
  obtain ⟨h0, h1, hm⟩ := layout_z16_2_3 order scope
  exact fixed_eq hm (by rw [h0, h1]) hwf

theorem Encoding.qalign : Encoding.Statement .qalign := by
  intro hwf w hw
  obtain rfl := Option.some.inj hw
  rw [decode_pack6_10]
  exact fixed_eq (by decide) rfl hwf

theorem Encoding.amo (order : BitVec 2) (opa opb : BitVec 6) (nr : BitVec 1) (scope : BitVec 3) (size : BitVec 1) (fn : BitVec 4) : Encoding.Statement (.amo order opa opb nr scope size fn) := by
  intro hwf w hw
  obtain rfl := Option.some.inj hw
  clear hw
  rw [decode_pack6_10]
  obtain ⟨h0, h1, h2, h3, h4, h5, hm⟩ := layout_6_6_1_3_1_4 opa opb nr scope size fn
  have hv : order = 0 ∨ order = 1 ∨ order = 2 ∨ order = 3 := by clear hwf; revert order; decide
  rcases hv with rfl | rfl | rfl | rfl <;> exact fixed_eq hm (by rw [h0, h1, h2, h3, h4, h5]; rfl) hwf

theorem Encoding.phadv : Encoding.Statement .phadv := by
  intro hwf w hw
  obtain rfl := Option.some.inj hw
  rw [decode_pack6_10]
  exact fixed_eq (by decide) rfl hwf

theorem Encoding.csrr (opa : BitVec 6) (csr : BitVec 12) : Encoding.Statement (.csrr opa csr) := by
  intro hwf w hw
  obtain rfl := Option.some.inj hw
  rw [decode_pack6_12]
  obtain ⟨h0, h1, hm⟩ := layout_6_z3_12 opa csr
  exact fixed_eq hm (by rw [h0, h1]) hwf

theorem Encoding.csrw (opa : BitVec 6) (csr : BitVec 12) : Encoding.Statement (.csrw opa csr) := by
  intro hwf w hw
  obtain rfl := Option.some.inj hw
  rw [decode_pack6_12]
  obtain ⟨h0, h1, hm⟩ := layout_6_z3_12 opa csr
  exact fixed_eq hm (by rw [h0, h1]) hwf

theorem Encoding.csrs (opa : BitVec 6) (csr : BitVec 12) : Encoding.Statement (.csrs opa csr) := by
  intro hwf w hw
  obtain rfl := Option.some.inj hw
  rw [decode_pack6_12]
  obtain ⟨h0, h1, hm⟩ := layout_6_z3_12 opa csr
  exact fixed_eq hm (by rw [h0, h1]) hwf

theorem Encoding.csrc (opa : BitVec 6) (csr : BitVec 12) : Encoding.Statement (.csrc opa csr) := by
  intro hwf w hw
  obtain rfl := Option.some.inj hw
  rw [decode_pack6_12]
  obtain ⟨h0, h1, hm⟩ := layout_6_z3_12 opa csr
  exact fixed_eq hm (by rw [h0, h1]) hwf

theorem Encoding.tret : Encoding.Statement .tret := by
  intro hwf w hw
  obtain rfl := Option.some.inj hw
  rw [decode_pack6_12]
  exact fixed_eq (by decide) rfl hwf

theorem Encoding.ctxsw : Encoding.Statement .ctxsw := by
  intro hwf w hw
  obtain rfl := Option.some.inj hw
  rw [decode_pack6_12]
  exact fixed_eq (by decide) rfl hwf

theorem Encoding.swpout (opa : BitVec 6) : Encoding.Statement (.swpout opa) := by
  intro hwf w hw
  obtain rfl := Option.some.inj hw
  rw [decode_pack6_12]
  obtain ⟨h0, hm⟩ := layout_6_z15 opa
  exact fixed_eq hm (by rw [h0]) hwf

theorem Encoding.swpin (opa : BitVec 6) : Encoding.Statement (.swpin opa) := by
  intro hwf w hw
  obtain rfl := Option.some.inj hw
  rw [decode_pack6_12]
  obtain ⟨h0, hm⟩ := layout_6_z15 opa
  exact fixed_eq hm (by rw [h0]) hwf

theorem Encoding.seedld (opa opb : BitVec 6) (seed : BitVec 4) : Encoding.Statement (.seedld opa opb seed) := by
  intro hwf w hw
  obtain rfl := Option.some.inj hw
  rw [decode_pack6_12]
  obtain ⟨h0, h1, h2, hm⟩ := layout_6_6_z5_4 opa opb seed
  exact fixed_eq hm (by rw [h0, h1, h2]) hwf

theorem Encoding.genld (opa opb : BitVec 6) (gen : BitVec 2) : Encoding.Statement (.genld opa opb gen) := by
  intro hwf w hw
  obtain rfl := Option.some.inj hw
  rw [decode_pack6_12]
  obtain ⟨h0, h1, h2, hm⟩ := layout_6_6_z7_2 opa opb gen
  exact fixed_eq hm (by rw [h0, h1, h2]) hwf

theorem Encoding.svc (code : BitVec 15) : Encoding.Statement (.svc code) := by
  intro hwf w hw
  obtain rfl := Option.some.inj hw
  rw [decode_pack6_12]
  obtain ⟨h0, hm⟩ := layout_z6_15 code
  exact fixed_eq hm (by rw [h0]) hwf

theorem Encoding.extinv (opa opb : BitVec 6) : Encoding.Statement (.extinv opa opb) := by
  intro hwf w hw
  obtain rfl := Option.some.inj hw
  rw [decode_pack6_12]
  obtain ⟨h0, h1, hm⟩ := layout_6_6_z9 opa opb
  exact fixed_eq hm (by rw [h0, h1]) hwf

theorem Encoding.migr (opa : BitVec 6) : Encoding.Statement (.migr opa) := by
  intro hwf w hw
  obtain rfl := Option.some.inj hw
  rw [decode_pack6_12]
  obtain ⟨h0, hm⟩ := layout_6_z15 opa
  exact fixed_eq hm (by rw [h0]) hwf

theorem Encoding.balloonAddb (opa : BitVec 6) : Encoding.Statement (.balloonAddb opa) := by
  intro hwf w hw
  obtain rfl := Option.some.inj hw
  rw [decode_pack6_12]
  show decodeBalloon _ = _
  unfold decodeBalloon
  rw [bits_below 0 3 opa 0x0 (by decide)]
  exact fixed_eq (and_split _ _ _ (and_of_zero _ rfl) (by decide)) (by rw [(layout_6_15 opa 0x0).1]) hwf

theorem Encoding.balloonAddt (opa : BitVec 6) : Encoding.Statement (.balloonAddt opa) := by
  intro hwf w hw
  obtain rfl := Option.some.inj hw
  rw [decode_pack6_12]
  show decodeBalloon _ = _
  unfold decodeBalloon
  rw [bits_below 0 3 opa 0x1 (by decide)]
  exact fixed_eq (and_split _ _ _ (and_of_zero _ rfl) (by decide)) (by rw [(layout_6_15 opa 0x1).1]) hwf

theorem Encoding.balloonDeflate (opa : BitVec 6) : Encoding.Statement (.balloonDeflate opa) := by
  intro hwf w hw
  obtain rfl := Option.some.inj hw
  rw [decode_pack6_12]
  show decodeBalloon _ = _
  unfold decodeBalloon
  rw [bits_below 0 3 opa 0x2 (by decide)]
  exact fixed_eq (and_split _ _ _ (and_of_zero _ rfl) (by decide)) (by rw [(layout_6_15 opa 0x2).1]) hwf

theorem Encoding.balloonClrb (opa : BitVec 6) : Encoding.Statement (.balloonClrb opa) := by
  intro hwf w hw
  obtain rfl := Option.some.inj hw
  rw [decode_pack6_12]
  show decodeBalloon _ = _
  unfold decodeBalloon
  rw [bits_below 0 3 opa 0x3 (by decide)]
  exact fixed_eq (and_split _ _ _ (and_of_zero _ rfl) (by decide)) (by rw [(layout_6_15 opa 0x3).1]) hwf

theorem Encoding.balloonClrt (opa : BitVec 6) : Encoding.Statement (.balloonClrt opa) := by
  intro hwf w hw
  obtain rfl := Option.some.inj hw
  rw [decode_pack6_12]
  show decodeBalloon _ = _
  unfold decodeBalloon
  rw [bits_below 0 3 opa 0x4 (by decide)]
  exact fixed_eq (and_split _ _ _ (and_of_zero _ rfl) (by decide)) (by rw [(layout_6_15 opa 0x4).1]) hwf

theorem Encoding.idle : Encoding.Statement .idle := by
  intro hwf w hw
  obtain rfl := Option.some.inj hw
  rw [decode_pack6_12]
  exact fixed_eq (by decide) rfl hwf

theorem Encoding.runAheadPreissue (core addr size : Nat) : Encoding.Statement (.runAheadPreissue core addr size) := fun _ _ h => nomatch h

theorem Encoding.segmentExpand (core segment : Nat) : Encoding.Statement (.segmentExpand core segment) := fun _ _ h => nomatch h

theorem Encoding.postedTrapTake (core bank : Nat) : Encoding.Statement (.postedTrapTake core bank) := fun _ _ h => nomatch h

theorem Encoding.loadPerform (core bank index piece : Nat) (outside : List (Bool × Nat × BitVec 8)) : Encoding.Statement (.loadPerform core bank index piece outside) := fun _ _ h => nomatch h

theorem Encoding.storePerform (core bank index piece : Nat) : Encoding.Statement (.storePerform core bank index piece) := fun _ _ h => nomatch h

theorem Encoding.amoPerform (core bank index : Nat) (outside : List (Bool × Nat × BitVec 8)) : Encoding.Statement (.amoPerform core bank index outside) := fun _ _ h => nomatch h

theorem Encoding.markerEffect (core bank index : Nat) : Encoding.Statement (.markerEffect core bank index) := fun _ _ h => nomatch h

theorem Encoding.l2LineEvict (cluster line : Nat) : Encoding.Statement (.l2LineEvict cluster line) := fun _ _ h => nomatch h

theorem Encoding.drainComplete (core : Nat) : Encoding.Statement (.drainComplete core) := fun _ _ h => nomatch h

theorem Encoding.haltReport (core bank : Nat) : Encoding.Statement (.haltReport core bank) := fun _ _ h => nomatch h

theorem Encoding.preemptArrive (core bank : Nat) : Encoding.Statement (.preemptArrive core bank) := fun _ _ h => nomatch h

theorem Encoding.swapOutComplete (partition bank : Nat) : Encoding.Statement (.swapOutComplete partition bank) := fun _ _ h => nomatch h

theorem Encoding.swapInComplete (partition bank : Nat) : Encoding.Statement (.swapInComplete partition bank) := fun _ _ h => nomatch h

theorem Encoding.schedulerRound (stage : Nat) : Encoding.Statement (.schedulerRound stage) := fun _ _ h => nomatch h

theorem Encoding.enqRecordEnter (core bank index : Nat) : Encoding.Statement (.enqRecordEnter core bank index) := fun _ _ h => nomatch h

theorem Encoding.barrArrive (core bank index : Nat) : Encoding.Statement (.barrArrive core bank index) := fun _ _ h => nomatch h

theorem Encoding.copyBlockProgress (core chan units : Nat) (outside : List (Bool × Nat × BitVec 8)) : Encoding.Statement (.copyBlockProgress core chan units outside) := fun _ _ h => nomatch h

theorem Encoding.chainBlockEnd (core chan : Nat) : Encoding.Statement (.chainBlockEnd core chan) := fun _ _ h => nomatch h

theorem Encoding.fifoDelivery (core chan : Nat) : Encoding.Statement (.fifoDelivery core chan) := fun _ _ h => nomatch h

theorem Encoding.engineCountFix (engine a b : Nat) : Encoding.Statement (.engineCountFix engine a b) := fun _ _ h => nomatch h

theorem Encoding.ccctlAbort (core chan : Nat) : Encoding.Statement (.ccctlAbort core chan) := fun _ _ h => nomatch h

theorem Encoding.stashCmdTake (core : Nat) : Encoding.Statement (.stashCmdTake core) := fun _ _ h => nomatch h

theorem Encoding.stashOffloadComplete (die key : Nat) : Encoding.Statement (.stashOffloadComplete die key) := fun _ _ h => nomatch h

theorem Encoding.stashDropComplete (die key : Nat) : Encoding.Statement (.stashDropComplete die key) := fun _ _ h => nomatch h

theorem Encoding.stashKeepComplete (die key : Nat) : Encoding.Statement (.stashKeepComplete die key) := fun _ _ h => nomatch h

theorem Encoding.stashFetchComplete (die key : Nat) : Encoding.Statement (.stashFetchComplete die key) := fun _ _ h => nomatch h

theorem Encoding.spillLinkAbort (die key : Nat) : Encoding.Statement (.spillLinkAbort die key) := fun _ _ h => nomatch h

theorem Encoding.sfreeComplete (die key : Nat) : Encoding.Statement (.sfreeComplete die key) := fun _ _ h => nomatch h

theorem Encoding.ckptRecordComplete (core bank : Nat) : Encoding.Statement (.ckptRecordComplete core bank) := fun _ _ h => nomatch h

theorem Encoding.replayRemoteRestore (core bank : Nat) : Encoding.Statement (.replayRemoteRestore core bank) := fun _ _ h => nomatch h

theorem Encoding.packetDepart (chan : Nat) : Encoding.Statement (.packetDepart chan) := fun _ _ h => nomatch h

theorem Encoding.packetDeposit (chan seq step tag kind offset pad : Nat) (data : List (BitVec 8)) : Encoding.Statement (.packetDeposit chan seq step tag kind offset pad data) := fun _ _ h => nomatch h

theorem Encoding.windowFlitReceive (chan : Nat) (isWindow : Bool) (value : Nat) : Encoding.Statement (.windowFlitReceive chan isWindow value) := fun _ _ h => nomatch h

theorem Encoding.packetAckReceive (chan seq : Nat) : Encoding.Statement (.packetAckReceive chan seq) := fun _ _ h => nomatch h

theorem Encoding.chackEffect (core bank index : Nat) : Encoding.Statement (.chackEffect core bank index) := fun _ _ h => nomatch h

theorem Encoding.bucketStart (position : Nat) : Encoding.Statement (.bucketStart position) := fun _ _ h => nomatch h

theorem Encoding.chunkReceive (step bucket half chunk count : Nat) (final : Bool) (values : List Nat) : Encoding.Statement (.chunkReceive step bucket half chunk count final values) := fun _ _ h => nomatch h

theorem Encoding.completionMarkReceive (step bucket rank port : Nat) : Encoding.Statement (.completionMarkReceive step bucket rank port) := fun _ _ h => nomatch h

theorem Encoding.failureMarkReceive (step bucket cause rank port : Nat) : Encoding.Statement (.failureMarkReceive step bucket cause rank port) := fun _ _ h => nomatch h

theorem Encoding.ringSettle (position : Nat) (reports : List Bool) : Encoding.Statement (.ringSettle position reports) := fun _ _ h => nomatch h

theorem Encoding.shopenEffect (core bank index : Nat) : Encoding.Statement (.shopenEffect core bank index) := fun _ _ h => nomatch h

theorem Encoding.publishEffect (core bank index : Nat) : Encoding.Statement (.publishEffect core bank index) := fun _ _ h => nomatch h

theorem Encoding.splitArrive (core bank index : Nat) : Encoding.Statement (.splitArrive core bank index) := fun _ _ h => nomatch h

theorem Encoding.splitDrainEnd (cluster : Nat) : Encoding.Statement (.splitDrainEnd cluster) := fun _ _ h => nomatch h

theorem Encoding.balloonClaim (die : Nat) : Encoding.Statement (.balloonClaim die) := fun _ _ h => nomatch h

theorem Encoding.evictionStart (die : Nat) : Encoding.Statement (.evictionStart die) := fun _ _ h => nomatch h

theorem Encoding.evictionComplete (die page : Nat) : Encoding.Statement (.evictionComplete die page) := fun _ _ h => nomatch h

theorem Encoding.pageRecall (die : Nat) : Encoding.Statement (.pageRecall die) := fun _ _ h => nomatch h

theorem Encoding.spaceAnswer (die : Nat) : Encoding.Statement (.spaceAnswer die) := fun _ _ h => nomatch h

theorem Encoding.accessCountHalve (die : Nat) : Encoding.Statement (.accessCountHalve die) := fun _ _ h => nomatch h

theorem Encoding.migrationPass (index : Nat) (noSpace : Bool) : Encoding.Statement (.migrationPass index noSpace) := fun _ _ h => nomatch h

theorem Encoding.executiveFrame (die : Nat) : Encoding.Statement (.executiveFrame die) := fun _ _ h => nomatch h

theorem Encoding.queueNotify (offset width value : Nat) (stored : List (Nat × BitVec 8)) (maps : List (Nat × Nat × Nat)) (taken : Nat) : Encoding.Statement (.queueNotify offset width value stored maps taken) := fun _ _ h => nomatch h

theorem Encoding.prgResponse (group code : Nat) : Encoding.Statement (.prgResponse group code) := fun _ _ h => nomatch h

theorem Encoding.atsTranslationReturn (group : Nat) (pages : List (Nat × Nat × Bool)) : Encoding.Statement (.atsTranslationReturn group pages) := fun _ _ h => nomatch h

theorem Encoding.atsInvalidation (pasid base len tag : Nat) : Encoding.Statement (.atsInvalidation pasid base len tag) := fun _ _ h => nomatch h

theorem Encoding.hostWindowWrite (addr : Nat) (data : List (BitVec 8)) : Encoding.Statement (.hostWindowWrite addr data) := fun _ _ h => nomatch h

theorem Encoding.hostWindowRead (addr : BarAddress) (len : Nat) : Encoding.Statement (.hostWindowRead addr len) := fun _ _ h => nomatch h

theorem Encoding.invoke (queue seq : Nat) : Encoding.Statement (.invoke queue seq) := fun _ _ h => nomatch h

theorem Encoding.load (queue seq : Nat) : Encoding.Statement (.load queue seq) := fun _ _ h => nomatch h

theorem Encoding.unload (queue seq : Nat) : Encoding.Statement (.unload queue seq) := fun _ _ h => nomatch h

theorem Encoding.version (queue seq : Nat) : Encoding.Statement (.version queue seq) := fun _ _ h => nomatch h

theorem Encoding.stagecfg (queue seq : Nat) : Encoding.Statement (.stagecfg queue seq) := fun _ _ h => nomatch h

theorem Encoding.devcfg (queue seq : Nat) : Encoding.Statement (.devcfg queue seq) := fun _ _ h => nomatch h

theorem Encoding.tagset (queue seq : Nat) : Encoding.Statement (.tagset queue seq) := fun _ _ h => nomatch h

theorem Encoding.snapshot (queue seq : Nat) : Encoding.Statement (.snapshot queue seq) := fun _ _ h => nomatch h

theorem Encoding.snapshotSend (job : Nat) : Encoding.Statement (.snapshotSend job) := fun _ _ h => nomatch h

theorem Encoding.holderDigestReceive (job holder : Nat) (digest : BitVec 256) : Encoding.Statement (.holderDigestReceive job holder digest) := fun _ _ h => nomatch h

theorem Encoding.pageans (queue seq : Nat) : Encoding.Statement (.pageans queue seq) := fun _ _ h => nomatch h

theorem Encoding.pasiddown (queue seq : Nat) : Encoding.Statement (.pasiddown queue seq) := fun _ _ h => nomatch h

theorem Encoding.teardownCancel (pasid : Nat) : Encoding.Statement (.teardownCancel pasid) := fun _ _ h => nomatch h

theorem Encoding.teardownTimeout (pasid : Nat) : Encoding.Statement (.teardownTimeout pasid) := fun _ _ h => nomatch h

theorem Encoding.preempt (queue seq : Nat) : Encoding.Statement (.preempt queue seq) := fun _ _ h => nomatch h

theorem Encoding.restore (queue seq : Nat) : Encoding.Statement (.restore queue seq) := fun _ _ h => nomatch h

theorem Encoding.qcreate (queue seq : Nat) : Encoding.Statement (.qcreate queue seq) := fun _ _ h => nomatch h

theorem Encoding.qdelete (queue seq : Nat) : Encoding.Statement (.qdelete queue seq) := fun _ _ h => nomatch h

theorem Encoding.reset : Encoding.Statement .reset := fun _ _ h => nomatch h

theorem Encoding.recoveryMailboxWrite (image : List (BitVec 8)) (len : Nat) : Encoding.Statement (.recoveryMailboxWrite image len) := fun _ _ h => nomatch h

theorem Encoding.singlePartReset (part : Nat) (lostA lostB : List (Nat × Nat)) : Encoding.Statement (.singlePartReset part lostA lostB) := fun _ _ h => nomatch h

theorem Encoding.dieFatalFault (die : Nat) : Encoding.Statement (.dieFatalFault die) := fun _ _ h => nomatch h

theorem Encoding.portRetrain (port : Nat) : Encoding.Statement (.portRetrain port) := fun _ _ h => nomatch h

theorem Encoding.portUp (port : Nat) : Encoding.Statement (.portUp port) := fun _ _ h => nomatch h

theorem Encoding.portDown (port : Nat) (pattern : Bool) : Encoding.Statement (.portDown port pattern) := fun _ _ h => nomatch h

theorem Encoding.linkFlitRetry (port : Nat) : Encoding.Statement (.linkFlitRetry port) := fun _ _ h => nomatch h

theorem Encoding.deviceFailureDeclare (sign : FailureSign) : Encoding.Statement (.deviceFailureDeclare sign) := fun _ _ h => nomatch h

theorem Encoding.domainAccessTimeout (core bank index : Nat) : Encoding.Statement (.domainAccessTimeout core bank index) := fun _ _ h => nomatch h

theorem Encoding.rollback (job step : Nat) (done : Bool) : Encoding.Statement (.rollback job step done) := fun _ _ h => nomatch h

theorem Encoding.fillChunkAck (chunk : Nat) (part : FillPart) (last : Bool) (digest : BitVec 256) (lost : Bool) : Encoding.Statement (.fillChunkAck chunk part last digest lost) := fun _ _ h => nomatch h

theorem Encoding.phaseFlitSend : Encoding.Statement .phaseFlitSend := fun _ _ h => nomatch h

theorem Encoding.phaseFlitReceive (port value : Nat) : Encoding.Statement (.phaseFlitReceive port value) := fun _ _ h => nomatch h

theorem Encoding.powerArbitration (draw : List Nat) (demand : List Nat) (hold : List (Nat × Nat)) : Encoding.Statement (.powerArbitration draw demand hold) := fun _ _ h => nomatch h

theorem Encoding.spdmGetVersion (request : List (BitVec 8)) : Encoding.Statement (.spdmGetVersion request) := fun _ _ h => nomatch h

theorem Encoding.spdmGetCapabilities (request : List (BitVec 8)) : Encoding.Statement (.spdmGetCapabilities request) := fun _ _ h => nomatch h

theorem Encoding.spdmNegotiateAlgorithms (request : List (BitVec 8)) : Encoding.Statement (.spdmNegotiateAlgorithms request) := fun _ _ h => nomatch h

theorem Encoding.spdmGetDigests (request : List (BitVec 8)) : Encoding.Statement (.spdmGetDigests request) := fun _ _ h => nomatch h

theorem Encoding.spdmGetCertificate (request : List (BitVec 8)) : Encoding.Statement (.spdmGetCertificate request) := fun _ _ h => nomatch h

theorem Encoding.spdmChallenge (request : List (BitVec 8)) : Encoding.Statement (.spdmChallenge request) := fun _ _ h => nomatch h

theorem Encoding.spdmGetMeasurements (request : List (BitVec 8)) : Encoding.Statement (.spdmGetMeasurements request) := fun _ _ h => nomatch h

theorem Encoding.cmpctlWrite (die : Nat) (value : BitVec 64) : Encoding.Statement (.cmpctlWrite die value) := fun _ _ h => nomatch h

theorem Encoding.cmpwmWrite (die : Nat) (value : BitVec 64) : Encoding.Statement (.cmpwmWrite die value) := fun _ _ h => nomatch h

theorem Encoding.cmpstatRefusedClear (die : Nat) : Encoding.Statement (.cmpstatRefusedClear die) := fun _ _ h => nomatch h

theorem Encoding.stashRegionWrite (die reg : Nat) (value : BitVec 64) : Encoding.Statement (.stashRegionWrite die reg value) := fun _ _ h => nomatch h

theorem Encoding.wakeWrite (core : Nat) : Encoding.Statement (.wakeWrite core) := fun _ _ h => nomatch h

theorem Encoding.barwWrite (cluster reg : Nat) (value : BitVec 64) : Encoding.Statement (.barwWrite cluster reg value) := fun _ _ h => nomatch h

theorem Encoding.ringcfgWrite (value : BitVec 64) : Encoding.Statement (.ringcfgWrite value) := fun _ _ h => nomatch h

theorem Encoding.rportWrite (port : Nat) (value : BitVec 64) : Encoding.Statement (.rportWrite port value) := fun _ _ h => nomatch h

theorem Encoding.arbctlWrite (value : BitVec 64) : Encoding.Statement (.arbctlWrite value) := fun _ _ h => nomatch h

theorem Encoding.pwrctlWrite (reg : Nat) (value : BitVec 64) : Encoding.Statement (.pwrctlWrite reg value) := fun _ _ h => nomatch h

theorem Encoding.tcoordWrite (value : BitVec 64) : Encoding.Statement (.tcoordWrite value) := fun _ _ h => nomatch h

theorem Encoding.registerWrite (die reg : Nat) (value : BitVec 64) : Encoding.Statement (.registerWrite die reg value) := fun _ _ h => nomatch h

theorem Encoding.nonInstructionEncoding (cause pos : Nat) : Encoding.Statement (.nonInstructionEncoding cause pos) := fun _ _ h => nomatch h

theorem Encoding.translationWalkComplete (invocation : Nat) (ats : List (Nat × Nat × Bool)) : Encoding.Statement (.translationWalkComplete invocation ats) := fun _ _ h => nomatch h

theorem Encoding.priReenable (allocation : Nat) : Encoding.Statement (.priReenable allocation) := fun _ _ h => nomatch h

end Sys2Proof.Laws
end

