-- ==== Sys2Proof/Safety.lean ====
section
/-! DEFINITION. The terms in which claims about the machine are stated: when a slot is examined, what is unchanged, and the invariants
of the state. -/

namespace Sys2Proof.Machine

/-! ## Conditions on a slot at issue -/

/-- The device runs, and the slot at issue is examined by itself (R8). -/
abbrev State.examines (s : State) : Prop := s.failed = false ∧ s.ctx.checked = false

/-- The same, where the power arbiter does not hold the core either (R8, R477). -/
abbrev State.mayIssue (s : State) : Prop := s.examines ∧ s.curCore.powerUntil ≤ s.clk

/-- Registers of the bank at issue that hold values (R17). -/
abbrev State.full (s : State) (rs : List Reg) : Prop := ∀ r ∈ rs, s.cur.isEmpty r = false

/-- Vector registers whose halves have one lane view (R13). -/
abbrev State.oneView (s : State) (rs : List Nat) : Prop := ∀ q ∈ rs, ∀ r ∈ rs, s.cur.viewOf q = s.cur.viewOf r

/-- A code address to which a transfer may be made (R113). -/
abbrev State.goodTarget (s : State) (a : Nat) : Prop := a % 4 = 0 ∧ a < 2 ^ 32 ∧ a < 4 * (s.codeOf s.cur).length

/-- The bundle at issue is not the end bundle of the innermost loop (R117). -/
abbrev State.notAtLoopEnd (s : State) : Prop := ∀ e ∈ s.cur.loops.head?, e.stop ≠ s.ctx.addr

/-- A scratchpad access of `n` bytes that lies in the scratchpad, aligned to its size (R127). -/
abbrev padAccess (a n : Nat) : Prop := a + n ≤ 2 ^ 23 ∧ a % n = 0

/-! ## What is unchanged -/

/-- The registers of a bank that software reads: scalar, mask and vector registers with their side words, transposer tiles, generators,
seeds, the engines with their configuration and FIFOs, and the loop stack (R11). -/
def Bank.sameRegisters (k t : Bank) : Prop :=
  (∀ r, t.s r = k.s r) ∧ (∀ r, t.k r = k.k r) ∧ (∀ r, t.v r = k.v r) ∧ (∀ r, t.side r = k.side r)
    ∧ t.tiles = k.tiles ∧ t.gens = k.gens ∧ t.seeds = k.seeds ∧ t.eng0 = k.eng0 ∧ t.eng1 = k.eng1 ∧ t.loops = k.loops

/-- Every bank but one is unchanged. -/
def State.otherBanksSame (s t : State) : Prop :=
  ∀ c b, (c ≠ s.ctx.core ∨ (b = 0 ↔ s.ctx.bank ≠ 0)) → t.bank c b = s.bank c b

/-- Every byte of every scratchpad reads as before. -/
def State.samePads (s t : State) : Prop := ∀ c a, mget a (t.core c).pad = mget a (s.core c).pad

/-- Every byte of cluster memory reads as before. -/
def State.sameClusterMemory (s t : State) : Prop := ∀ k a, mget a (t.cluster k).cmem = mget a (s.cluster k).cmem

/-- Every byte of home memory, of the LPDDR-6 tier, of the host and of other devices, and every word of the signal page, reads as
before. -/
def State.sameMainMemory (s t : State) : Prop :=
  (∀ d a, mget a (t.die d).home = mget a (s.die d).home) ∧ (∀ d a, mget a (t.die d).lp = mget a (s.die d).lp)
    ∧ (∀ a, mget a t.hostMem = mget a s.hostMem) ∧ (∀ a, mget a t.otherMem = mget a s.otherMem)
    ∧ (∀ a, mget a t.signal = mget a s.signal)

/-- Every byte of memory of every kind reads as before. -/
def State.sameMemory (s t : State) : Prop := s.samePads t ∧ s.sameClusterMemory t ∧ s.sameMainMemory t

/-- The slot at issue has become the youngest entry of its sequencer's queues, with an address and its operands, and has marked its
destinations empty; run-ahead entries may have been claimed or discarded, the work queues and the stages are those named, and nothing else
of the machine is changed (R17, R29, R266). -/
def State.enteredWith (s t : State) (queues : Table WorkQueue) (stages : Table Stage) (i : Instr) (rs : List Reg) (addr : Nat)
    (ops : List SReg) (row : Row) : Prop :=
  (∃ e, t = { s.setCur { s.cur with queue := s.cur.queue ++ [e], runAhead := t.cur.runAhead, sEmpty := t.cur.sEmpty,
                                    kEmpty := t.cur.kEmpty, vEmpty := t.cur.vEmpty } with
                nextEntry := s.nextEntry + 1, queues, stages }
      ∧ e.ins = i ∧ e.addr = addr ∧ e.ops = ops ∧ e.row = row ∧ e.clk = s.clk ∧ e.bundle = s.ctx.addr ∧ e.pos = s.ctx.pos
      ∧ e.priv = s.cur.priv ∧ e.done = [] ∧ e.phase = 0 ∧ e.kept = false ∧ e.id = s.nextEntry)
    ∧ (∀ r, t.cur.isEmpty r = (s.cur.isEmpty r || rs.any fun q => q = r && q ≠ .s 0))
    ∧ ∀ x ∈ t.cur.runAhead, x ∈ s.cur.runAhead

/-- The same with the work queues and the stages as they were. -/
abbrev State.enteredQueue (s t : State) (i : Instr) (rs : List Reg) (addr : Nat) (ops : List SReg) (row : Row) : Prop :=
  s.enteredWith t s.queues s.stages i rs addr ops row

/-- Entry `i` of a bank's queues has been performed: it has left the queue, its registers hold the values listed and are full, and
every other scalar register of the bank and every other bank is unchanged (R17, R266). -/
def State.performed (s t : State) (c b i : Nat) (l : List (Nat × SReg)) : Prop :=
  (t.bank c b).queue = (s.bank c b).queue.eraseIdx i
    ∧ (∀ p ∈ l, p.1 ≠ 0 → (t.bank c b).s p.1 = p.2) ∧ (∀ p ∈ l, (t.bank c b).isEmpty (.s p.1) = false)
    ∧ (∀ r, (∀ p ∈ l, p.1 ≠ r) → (t.bank c b).s r = (s.bank c b).s r ∧ (t.bank c b).isEmpty (.s r) = (s.bank c b).isEmpty (.s r))
    ∧ (∀ c' b', b' < 2 → b < 2 → (c', b') ≠ (c, b) → t.bank c' b' = s.bank c' b') ∧ t.clk = s.clk

/-! ## Invariants -/

/-- The configuration registers of the device hold what their rules allow (R330, R393, R441, R445, R450, R471, R478). -/
def Regs.Legal (r : Regs) : Prop :=
  let coord (lo : Nat) : Nat := (r.tcoord.extractLsb' lo 7).toNat
  let budget := (r.pwrctl.extractLsb' 0 12).toNat
  (r.arbctl.toNat < 2 ^ 35 ∧ (r.arbctl.getLsbD 32 = true → r.arbctl.extractLsb' 0 32 ≠ 0))
    ∧ (coord 0 ≤ coord 24 ∧ coord 7 ≤ coord 31 ∧ coord 14 ≤ coord 38)
    ∧ (1000 ≤ budget ∧ budget ≤ 3400 ∧ r.floors ≤ budget)
    ∧ (∀ i < 24, (r.island i).extractLsb' 0 12 ≤ (r.island i).extractLsb' 12 12)
    ∧ (12500 ≤ r.tlink ∧ r.tlink ≤ 12500000) ∧ (125000 ≤ r.teardown ∧ r.teardown ≤ 125000000)
    ∧ (1250 ≤ r.frame ∧ r.frame ≤ 20000) ∧ r.lead < 16

/-! ## Commands of the host -/

/-- An accepted command of a queue is the next to be dispatched, and its completion ring has room (R461, R469). -/
abbrev State.commanded (s : State) (op q n : Nat) (e : JournalEntry) : Prop :=
  s.failed = false ∧ s.commandNext op q n = some e ∧ s.openEntry q n = some e ∧ (s.hostQueue q).cplFull = false
    ∧ (s.hostQueue q).heldCpl = []

/-- A command has completed with a status: its entry is in the completion ring, its interrupt sent, its journal entry COMPLETED
(R459, R469). -/
def State.answers (s t : State) (e : JournalEntry) (status info : Nat) : Prop :=
  let x := s.hostQueue e.queue
  t.hostMem = mwrite s.hostMem (x.cpl + 32 * x.ctail) 32
      (e.arg 8 8 + 2 ^ 64 * e.seq + 2 ^ 128 * status + 2 ^ 160 * info + 2 ^ 248 * x.cphase.toNat)
    ∧ (t.hostQueue e.queue).written = x.written + 1 ∧ t.sent = s.sent ++ [.msix x.vec]
    ∧ ∀ j ∈ t.journal, j.queue = e.queue → j.seq = e.seq → j.state = 3 ∧ j.status = status

end Sys2Proof.Machine
end

