-- ==== Sys2Proof/Certificates/Slice0/Obligations.lean ====
section
/-! DEFINITION. The statements for the provers. -/

open Sys2Proof Sys2Proof.Machine

/-! ## Encodings -/

/-- R36, R37 and the tables of R41 to R59: words written out from the encoding decode to what they stand for; words of no class, of no
operation and with a reserved field set are told apart. -/
def Obligations.DecodedWords : Prop :=
  decodeSlot 0x00330010 = .ok (.pfx 1 1 3 0x0010)
    ∧ decodeSlot 0x58000003 = .ok (.ext 3)
    ∧ decodeSlot 0x0800D1AA = .ok (.add 3 17 42 1)
    ∧ decodeSlot 0x08926118 = .ok (.and 9 33 6)
    ∧ decodeSlot 0x0A21C12C = .ok (.movi 7 300)
    ∧ decodeSlot 0x082146E8 = .ok (.addi 5 6 0xE8)
    ∧ decodeSlot 0x10267FFE = .ok (.brz 1 12 0x7FFE)
    ∧ decodeSlot 0x10B24001 = .ok (.brkt 1 9 0x4001)
    ∧ decodeSlot 0x12602003 = .ok (.loopi 0x101 3)
    ∧ decodeSlot 0x12964C00 = .ok (.lset 5 2 19)
    ∧ decodeSlot 0x18007FC0 = .ok (.vadd 1 127 64)
    ∧ decodeSlot 0x192381DA = .ok (.veq 14 3 90)
    ∧ decodeSlot 0x1C0B3200 = .ok (.vrsum 44 100)
    ∧ decodeSlot 0x1CF9209E = .ok (.vslide 100 65 30)
    ∧ decodeSlot 0x20004002 = .ok (.vcvtn 0 1 0 0 2)
    ∧ decodeSlot 0x20C06321 = .ok (.vcvtns 2 1 70 33)
    ∧ decodeSlot 0x218A2307 = .ok (.vqscaleE5m2 40 70 0 7)
    ∧ decodeSlot 0x22118028 = .ok (.vsidew 70 40)
    ∧ decodeSlot 0x28CFC280 = .ok (.mma0 15 48 1 0 1)
    ∧ decodeSlot 0x30008400 = .ok (.mcfg1 33)
    ∧ decodeSlot 0x38C1C902 = .ok (.lds 6 7 9 2)
    ∧ decodeSlot 0x39254903 = .ok (.ldsk 1 5 9 3)
    ∧ decodeSlot 0x41590903 = .ok (.stsx 100 9 3)
    ∧ decodeSlot 0x453909C8 = .ok (.stgn 100 9 200)
    ∧ decodeSlot 0x48048006 = .ok (.cpy 9 1 2)
    ∧ decodeSlot 0x4844950D = .ok (.stash 9 10 33 5)
    ∧ decodeSlot 0x4A05014D = .ok (.nrmrd 10 1 77)
    ∧ decodeSlot 0x500A0021 = .ok (.deq 5 33)
    ∧ decodeSlot 0x50E48061 = .ok (.bwait 9 1 33)
    ∧ decodeSlot 0x51200013 = .ok (.fence 2 3)
    ∧ decodeSlot 0x51C49595 = .ok (.amo 2 9 10 1 4 1 5)
    ∧ decodeSlot 0x60048305 = .ok (.csrr 9 0x305)
    ∧ decodeSlot 0x61049407 = .ok (.seedld 9 10 7)
    ∧ decodeSlot 0x61A48000 = .ok (.balloonAddb 9)
    ∧ decodeSlot 0xB8C1C902 = .ok (.lds 6 7 9 2)
    ∧ decodeSlot 0xF0000000 = .error .illegalClass
    ∧ decodeSlot 0x0B100000 = .error .illegalOp
    ∧ decodeSlot 0x1E000000 = .error .illegalOp
    ∧ decodeSlot 0x0930420C = .error .reservedField
    ∧ decodeSlot 0x0890420E = .error .reservedField
    ∧ decodeSlot 0x20004012 = .error .reservedField
    ∧ decodeSlot 0x51200003 = .error .reservedField
    ∧ decodeSlot 0x61A48005 = .error .reservedField

/-- R36 to R59: decoding the word of a well-formed instruction, with STOP clear or set, gives back that instruction with every operand; and
every well-formed instruction but a step that is no slot has a word. A word that decodes is the word of what it decodes to, but for STOP: no
two words stand for one instruction, and a reserved bit that is set is never passed over. -/
def Obligations.EncodingsAgree : Prop :=
  (∀ i : Instr, i.wf = true → ((encode i).isSome = true ↔ i.isStep = false))
    ∧ (∀ (i : Instr) (w : Slot), i.wf = true → encode i = some w → decodeSlot w = .ok i ∧ decodeSlot (w ||| 0x80000000) = .ok i)
    ∧ (∀ (w : Slot) (i : Instr), decodeSlot w = .ok i → encode i = some (w &&& 0x7FFFFFFF) ∧ i.wf = true)

/-! ## The step, traps, registers and results -/

/-- R7, R8, R38, R113: where nothing else is due and the segment of the bundle is expanded, a step issues the bundle at the program counter
of the first core at a boundary: a bundle of one well-formed slot that raises no trap and does not end the code is that slot's instruction,
and then the sequencer moves on. That nothing else is due, and that the lowest core comes first, is the order of the model (log 5), not the
spec's; bundles of several slots are not spoken of. -/
def Obligations.StepRunsBundle : Prop :=
  ∀ (s : State) (c : Nat) (w : Slot) (i : Instr), s.failed = false → (∀ e ∈ s.script.head?, s.scriptDue e.1 = false) →
    takeDue s.clk s.calendar = none → firstProgress s s.ownSteps = none → s.nextIssuer = some c → s.segmentMissing c = none →
    let b := s.begin c
    let l := placeSlots 0 [] [w]
    let t := b.withBundle 1 l
    bundleAt (s.codeOf ((s.core c).bank (s.core c).active)) b.ctx.addr = some [w] → decodeSlot w = .ok i → composed [w] = true →
    bundleTrap t l = none → fallsThrough t l = false →
    step s = finishBundle (exec i t)
      ∧ t.cores = (s.setCore c { s.core c with examined := s.clk + 1 }).cores ∧ t.ctx.core = c ∧ t.ctx.bank = (s.core c).active ∧ t.ctx.pos = 0 ∧ t.ctx.len = 4
      ∧ ∀ u, exec i t = .next u → u.ctx.status = .open → u.ctx.core = c → u.ctx.bank = t.ctx.bank → ∃ z, step s = .next z
          ∧ (z.bank c t.ctx.bank).pc = (nextPosition u).1 ∧ (z.bank c t.ctx.bank).loops = (nextPosition u).2
          ∧ (z.core c).nextIssue = max (u.core c).nextIssue (u.clk + u.ctx.gap)

/-- R33, R34, R39, R40, R401, R402: words that are no instruction take their issue trap; an issue trap writes the record, sets PRIV and
INTRAP and goes on at TVEC 4 clk later; a double trap, or a TVEC that is not valid, halts the bank (the fields that are left then are log
14's). -/
def Obligations.TrapEntry : Prop :=
  ∀ (s : State) (cause pos code : Nat) (code16 : BitVec 16),
    let k := s.cur
    let t := s.takeIssueTrap cause pos code
    let k' := t.bank s.ctx.core s.ctx.bank
    (s.failed = false → (cause = 1 ∨ cause = 2 ∨ cause = 4) → pos < 8 →
        exec (.nonInstructionEncoding cause pos) s = .next (s.takeIssueTrap cause pos 0))
      ∧ (s.examines → exec (.trap code16) s = .next (s.takeIssueTrap 0x1C s.ctx.pos code16.toNat))
      ∧ t.ctx.status = .trapped ∧ (t.core s.ctx.core).nextIssue = s.clk + 4 ∧ t.clk = s.clk ∧ s.otherBanksSame t
      ∧ k.sameRegisters k' ∧ k'.loops = k.loops ∧ k'.queue = k.queue ∧ k'.inFlight = k.inFlight ∧ k'.tvec = k.tvec
      ∧ k'.trecWord 0 = BitVec.ofNat 64 (cause + 2 ^ 8 * (8 * k.priv.toNat) + 2 ^ 16 * pos + 2 ^ 32 * code)
      ∧ k'.trecWord 1 = BitVec.ofNat 64 s.ctx.addr ∧ k'.trecWord 2 = BitVec.ofNat 64 s.ctx.addr ∧ k'.trecWord 3 = 0
      ∧ k'.trecWord 4 = BitVec.ofNat 64 s.clk
      ∧ (k.inTrap = false → k.tvec.getLsbD 0 = true → k'.priv = true ∧ k'.inTrap = true ∧ k'.state = k.state
        ∧ k'.pc = k.tvec.toNat % 2 ^ 32 / 64 * 64)
      ∧ (k.inTrap = true ∨ k.tvec.getLsbD 0 = false → k'.state = .halted ∧ k'.haltFault = true ∧ k'.pc = k.pc)

/-- R8, R17, R18, R24: a slot whose source or destination is empty is held with nothing of it done, and traps with `EMPTY_READ` where STRICT
names that source; one that the power arbiter stops is held; S0 and K0 are never empty. R13: a slot whose vector registers lie in halves of
different views raises `LANE_VIEW`. R146: a source that is a narrow block raises `FMT_PAIR`, whatever the format. R127: an access past the
end of the scratchpad raises `SP_BOUNDS`, and otherwise one that is not aligned to its size `MISALIGNED`. R416: without PRIV each privileged
instruction raises `PRIVILEGE`, its operands and its number being sound. -/
def Obligations.IssueTrapsAndHolds : Prop :=
  (∀ (s : State) (rd ra rb : BitVec 6) (mod : BitVec 1), s.examines →
       let strictA := s.ctx.strict.getLsbD (2 * s.ctx.pos)
       let strictB := s.ctx.strict.getLsbD (2 * s.ctx.pos + 1)
       let ea := s.cur.isEmpty (.s ra.toNat)
       let eb := s.cur.isEmpty (.s rb.toNat)
       let ed := s.cur.isEmpty (.s rd.toNat)
       ((strictA = true ∧ ea = true) ∨ (strictB = true ∧ eb = true) →
           exec (.add rd ra rb mod) s = .next (s.takeIssueTrap 0x06 s.ctx.pos 0)
           ∧ exec (.sub rd ra rb mod) s = .next (s.takeIssueTrap 0x06 s.ctx.pos 0))
         ∧ (¬ ((strictA = true ∧ ea = true) ∨ (strictB = true ∧ eb = true)) → ea = true ∨ eb = true ∨ ed = true →
           exec (.add rd ra rb mod) s = .next s.hold ∧ exec (.sub rd ra rb mod) s = .next s.hold)
         ∧ (¬ ((strictA = true ∧ ea = true) ∨ (strictB = true ∧ eb = true)) → s.clk < s.curCore.powerUntil →
           exec (.add rd ra rb mod) s = .next s.hold ∧ exec (.sub rd ra rb mod) s = .next s.hold)
         ∧ s.cur.isEmpty (.s 0) = false ∧ s.cur.isEmpty (.k 0) = false)
    ∧ (∀ (s : State) (rd ra rb : BitVec 7), s.examines → s.full [.v rd.toNat, .v ra.toNat, .v rb.toNat] →
       ¬ s.oneView [rd.toNat, ra.toNat, rb.toNat] →
       exec (.vadd rd ra rb) s = .next (s.takeIssueTrap 0x10 s.ctx.pos 0)
         ∧ exec (.vfma rd ra rb) s = .next (s.takeIssueTrap 0x10 s.ctx.pos 0)
         ∧ exec (.viadd rd ra rb) s = .next (s.takeIssueTrap 0x10 s.ctx.pos 0)
         ∧ exec (.vsel rd ra rb) s = .next (s.takeIssueTrap 0x10 s.ctx.pos 0)
         ∧ exec (.vperm rd ra rb) s = .next (s.takeIssueTrap 0x10 s.ctx.pos 0))
    ∧ (∀ (s : State) (fmt : BitVec 2) (rd ra : BitVec 7) (sd sb : BitVec 6), s.examines →
       s.full [.v rd.toNat, .v ra.toNat, .s sd.toNat, .s sb.toNat] → (s.cur.side ra.toNat).getLsbD 63 = true →
       exec (.vcvtn fmt rd ra 0 0) s = .next (s.takeIssueTrap 0x0E s.ctx.pos 0)
         ∧ exec (.vcvtns fmt rd ra sb) s = .next (s.takeIssueTrap 0x0E s.ctx.pos 0)
         ∧ exec (.vqscaleE4m3 sd ra 0 0) s = .next (s.takeIssueTrap 0x0E s.ctx.pos 0))
    ∧ (∀ (s : State) (size : BitVec 3) (rd base : BitVec 6) (vd : BitVec 7) (off : BitVec 8), s.examines →
       s.full [.s rd.toNat, .s (rd.toNat + 1), .s base.toNat, .v vd.toNat] → immFits (.ldsv vd base off) s.ctx.ext = true →
       rd.getLsbD 0 = false → size.toNat ≤ 4 →
       let addr (n : Nat) : Nat := (s.cur.s base.toNat + BitVec.ofInt 64 (immSigned s.ctx.ext 8 off * n)).toNat
       let traps (i : Instr) (n : Nat) : Prop :=
         (2 ^ 23 < addr n + n → exec i s = .next (s.takeIssueTrap 0x0B s.ctx.pos 0))
           ∧ (addr n + n ≤ 2 ^ 23 → addr n % n ≠ 0 → exec i s = .next (s.takeIssueTrap 0x0C s.ctx.pos 0))
       traps (.lds 6 rd base off) 8
         ∧ traps (.lds 7 rd base off) 16
         ∧ traps (.ldsv vd base off) 512
         ∧ traps (.sts size rd base off) (2 ^ size.toNat)
         ∧ traps (.stsv vd base off) 512)
    ∧ (∀ (s : State) (opa opb : BitVec 6) (csr : BitVec 12), s.examines → s.full [.s opa.toNat, .s opb.toNat] → s.cur.priv = false →
       let traps (i : Instr) : Prop := exec i s = .next (s.takeIssueTrap 0x05 s.ctx.pos 0)
       let a := (s.cur.s opa.toNat).toNat
       let b := (s.cur.s opb.toNat).toNat
       (csrKnown csr.toNat = true → traps (.csrr opa csr) ∧ traps (.csrw opa csr) ∧ traps (.csrs opa csr) ∧ traps (.csrc opa csr))
         ∧ traps .tret ∧ traps .ctxsw ∧ traps .idle
         ∧ (a < 32 → traps (.swpout opa) ∧ traps (.swpin opa))
         ∧ (a % 4096 = 0 → b % 4096 = 0 → 0 < b → b ≤ 2 ^ 48 → traps (.extinv opa opb))
         ∧ traps (.migr opa)
         ∧ (a % 4096 = 0 → traps (.balloonAddb opa) ∧ traps (.balloonAddt opa) ∧ traps (.balloonDeflate opa))
         ∧ traps (.balloonClrb opa) ∧ traps (.balloonClrt opa))

/-- R12, R15, R22, R135: a result lands in its register at its clk and in no other; what is written to S0 and K0 is discarded; a vector
write keeps the bits that its mask does not select and replaces the side word; of two results for one register in one clk that of the later
bundle, or of the higher slot position, remains; before its clk nothing lands, and nothing else of the bank changes but the record of what
landed. R21, R22: an instruction that leaves a result changes nothing of the machine at its issue but the results in flight of its bank. -/
def Obligations.ResultsLand : Prop :=
  (∀ (k : Bank) (now : Nat) (f g : InFlight) (r : Nat) (v w : SReg) (sel m : Mask) (rs rv : Row) (side : SReg),
       let alone (x : RegWrite) : Prop := k.inFlight = [f] ∧ f.due ≤ now ∧ f.write = x
       let t := k.landDue now
       let k' : Bank := { k with inFlight := [], landedNow := [f] }
       ((∀ x ∈ k.inFlight, now < x.due) → t = k)
         ∧ (alone (.sreg r v) → r ≠ 0 → t.s r = v ∧ (∀ q, q ≠ r → t.s q = k.s q)
           ∧ t = { k' with sregs := t.sregs, sChanged := t.sChanged })
         ∧ (alone (.sreg 0 v) → t = k')
         ∧ (alone (.kmask r sel m) → r ≠ 0 → t.k r = (k.k r &&& ~~~sel) ||| (m &&& sel) ∧ (∀ q, q ≠ r → t.k q = k.k q)
           ∧ t = { k' with kregs := t.kregs })
         ∧ (alone (.kmask 0 sel m) → t = k')
         ∧ (alone (.vrow r rs rv side) → t.v r = (k.v r &&& ~~~rs) ||| (rv &&& rs) ∧ t.side r = side
           ∧ (∀ q, q ≠ r → t.v q = k.v q ∧ t.side q = k.side q) ∧ t = { k' with vregs := t.vregs, sides := t.sides })
         ∧ (k.inFlight = [f, g] → f.due ≤ now → g.due ≤ now → f.write = .sreg r v → g.write = .sreg r w → r ≠ 0 →
           t.s r = if g.issued < f.issued ∨ (g.issued = f.issued ∧ g.pos < f.pos) then v else w))
    ∧ (∀ (s t : State) (rd ra rb : BitVec 6) (vd va vb : BitVec 7) (mod : BitVec 1), s.mayIssue →
       s.full [.s rd.toNat, .s ra.toNat, .s rb.toNat, .v vd.toNat, .v va.toNat, .v vb.toNat] →
       s.oneView [vd.toNat, va.toNat, vb.toNat] →
       (∃ i ∈ [Instr.add rd ra rb mod, .sub rd ra rb mod, .mul rd ra rb mod, .div rd ra rb mod, .and rd ra rb, .or rd ra rb, .xor rd ra rb,
           .shl rd ra rb mod, .shr rd ra rb mod, .slt rd ra rb mod, .sel rd ra rb, .fadd rd ra rb, .fmul rd ra rb, .ffma rd ra rb,
           .vadd vd va vb, .vmul vd va vb, .vfma vd va vb, .viadd vd va vb, .vmov vd va, .vsel vd va vb],
         exec i s = .next t) →
       ∃ f, t = s.setCur { s.cur with inFlight := s.cur.inFlight ++ [f] } ∧ f.issued = s.clk ∧ s.clk < f.due)

/-- The values that the spec gives for reset (R11, R162, R222, R236, R240, R247 to R249, R330, R332, R400, R401, R405, R450, R471, R478);
home memory reads zero by R240, and that a scratchpad reads zero is the model's choice (log 1). -/
def Obligations.ResetValues : Prop :=
  ∀ (c b k d r : Nat),
    let s := State.reset
    let x := s.core c
    let y := s.bank c b
    x.active = 0 ∧ x.returnBit = true ∧ x.wakePending = false ∧ x.drain = none
      ∧ y.state = .empty ∧ y.pc = 0 ∧ y.loops = [] ∧ y.s r = 0 ∧ y.v r = 0 ∧ y.side r = 0
      ∧ y.isEmpty (.s r) = false ∧ y.isEmpty (.v r) = false ∧ y.isEmpty (.k r) = false ∧ y.priv = false ∧ y.inTrap = false
      ∧ y.tvec = 0 ∧ (∀ e, (y.eng e).mcfg = 0 ∧ (y.eng e).aFifo = [] ∧ (y.eng e).bFifo = [] ∧ (y.eng e).wb0 = none
        ∧ (y.eng e).wb1 = none ∧ (y.eng e).skip = 0)
      ∧ (s.barrier k b).phase = 0 ∧ (s.barrier k b).expect = 0 ∧ (s.barrier k b).pending = 0
      ∧ (s.cluster k).banks = 4 ∧ (s.cluster k).lines = []
      ∧ (s.die d).cmpctl = 0x3C00 ∧ (s.die d).cmpcnt = 0 ∧ (s.die d).policy r = 0x32000B
      ∧ s.regs.arbctl = 0x04040404 ∧ s.regs.phase = 0 ∧ s.regs.lead = 0 ∧ s.regs.island r = 0x8FFF000
      ∧ s.regs.pwrctl.extractLsb' 0 12 = 3000 ∧ s.clk = 0 ∧ s.failed = false
      ∧ (∀ a, mget a x.pad = 0) ∧ (∀ a, mget a (s.die d).home = 0)

/-- R330, R393, R441, R445, R450, R471, R478: every step keeps the configuration registers within what their rules allow, and reset leaves
them so: the weights of ARBCTL, the coordinates of TCOORD below their sizes, the power budget within its bounds and not below the sum of the
floors, and the times. -/
def Obligations.ConfigurationLegal : Prop :=
  State.reset.regs.Legal ∧ ∀ s t : State, s.regs.Legal → step s = .next t → t.regs.Legal

/-! ## The scalar class -/

/-- R106: each integer operation completes on every operand, and its result lands in D at the latency of R21. R106: `CLZ` and `POPC` count
over 64 bits, or over bits 31:0 in the 32-bit form. -/
def Obligations.IntegerResults : Prop :=
  (∀ (s : State) (rd ra rb imm6 : BitVec 6) (imm : BitVec 8) (mod : BitVec 1),
       s.mayIssue → s.full [.s rd.toNat, .s ra.toNat, .s rb.toNat] →
       let a := s.cur.s ra.toNat
       let b := s.cur.s rb.toNat
       let a32 : Word := a.setWidth 32
       let b32 : Word := b.setWidth 32
       let lands (i : Instr) (lat : Nat) (v : SReg) : Prop := exec i s = .next (s.landS lat rd v)
       let wide (x : SReg) (y : Word) : SReg := if mod = 1 then y.signExtend 64 else x
       lands (.add rd ra rb mod) 1 (wide (a + b) (a32 + b32))
         ∧ lands (.sub rd ra rb mod) 1 (wide (a - b) (a32 - b32))
         ∧ (immFits (.addi rd ra imm) s.ctx.ext = true →
             lands (.addi rd ra imm) 1 (a + BitVec.ofInt 64 (immSigned s.ctx.ext 8 imm)))
         ∧ lands (.addsh rd ra rb mod) 1 (a + b <<< (if mod = 1 then 9 else 3))
         ∧ lands (.mul rd ra rb mod) 3 (wide (a * b) (a32 * b32))
         ∧ lands (.mulh rd ra rb mod) 3 (if mod = 1 then BitVec.ofNat 64 (a.toNat * b.toNat / 2 ^ 64)
             else BitVec.ofInt 64 (a.toInt * b.toInt / 2 ^ 64))
         ∧ lands (.and rd ra rb) 1 (a &&& b)
         ∧ lands (.or rd ra rb) 1 (a ||| b)
         ∧ lands (.xor rd ra rb) 1 (a ^^^ b)
         ∧ lands (.andn rd ra rb) 1 (a &&& ~~~b)
         ∧ lands (.shl rd ra rb mod) 1 (wide (a <<< (b.extractLsb' 0 6).toNat) (a32 <<< (b.extractLsb' 0 5).toNat))
         ∧ lands (.shr rd ra rb mod) 1 (wide (a >>> (b.extractLsb' 0 6).toNat) (a32 >>> (b.extractLsb' 0 5).toNat))
         ∧ lands (.sar rd ra rb mod) 1
             (wide (a.sshiftRight (b.extractLsb' 0 6).toNat) (a32.sshiftRight (b.extractLsb' 0 5).toNat))
         ∧ lands (.shli rd ra imm6) 1 (a <<< imm6.toNat)
         ∧ lands (.shri rd ra imm6) 1 (a >>> imm6.toNat)
         ∧ lands (.sari rd ra imm6) 1 (a.sshiftRight imm6.toNat)
         ∧ lands (.min rd ra rb mod) 1 (wide (if b.slt a then b else a) (if b32.slt a32 then b32 else a32))
         ∧ lands (.max rd ra rb mod) 1 (wide (if a.slt b then b else a) (if a32.slt b32 then b32 else a32))
         ∧ lands (.minu rd ra rb mod) 1 (wide (if b.ult a then b else a) (if b32.ult a32 then b32 else a32))
         ∧ lands (.maxu rd ra rb mod) 1 (wide (if a.ult b then b else a) (if a32.ult b32 then b32 else a32)))
    ∧ (∀ (s : State) (rd ra : BitVec 6) (mod : BitVec 1), s.mayIssue → s.full [.s rd.toNat, .s ra.toNat] →
       let a := s.cur.s ra.toNat
       let w := if mod = 1 then 32 else 64
       (∃ n ≤ w, exec (.clz rd ra mod) s = .next (s.landS 1 rd (BitVec.ofNat 64 n))
           ∧ (∀ i < n, a.getLsbD (w - 1 - i) = false) ∧ (n < w → a.getLsbD (w - 1 - n) = true))
         ∧ exec (.popc rd ra mod) s
             = .next (s.landS 1 rd (BitVec.ofNat 64 ((List.range w).filter fun i => a.getLsbD i).length)))

/-- R107: division truncates toward zero; division by zero and the signed overflow have the results of the table. -/
def Obligations.DivisionResults : Prop :=
  ∀ (s : State) (rd ra rb : BitVec 6) (mod : BitVec 1), s.mayIssue → s.full [.s rd.toNat, .s ra.toNat, .s rb.toNat] →
    let a := s.cur.s ra.toNat
    let b := s.cur.s rb.toNat
    let a32 : Word := a.setWidth 32
    let b32 : Word := b.setWidth 32
    let lands (i : Instr) (v : SReg) : Prop := exec i s = .next (s.landS 18 rd v)
    (mod = 0 → b = 0 → lands (.div rd ra rb mod) (BitVec.allOnes 64) ∧ lands (.divu rd ra rb mod) (BitVec.allOnes 64)
        ∧ lands (.rem rd ra rb mod) a)
      ∧ (mod = 1 → b32 = 0 → lands (.div rd ra rb mod) (BitVec.allOnes 64) ∧ lands (.divu rd ra rb mod) (BitVec.allOnes 64)
        ∧ lands (.rem rd ra rb mod) (a32.signExtend 64))
      ∧ (mod = 0 → a = BitVec.intMin 64 → b = BitVec.allOnes 64 →
        lands (.div rd ra rb mod) a ∧ lands (.rem rd ra rb mod) 0)
      ∧ (mod = 1 → a32 = BitVec.intMin 32 → b32 = BitVec.allOnes 32 →
        lands (.div rd ra rb mod) (a32.signExtend 64) ∧ lands (.rem rd ra rb mod) 0)
      ∧ (mod = 0 → b ≠ 0 → lands (.div rd ra rb mod) (BitVec.ofInt 64 (a.toInt.tdiv b.toInt))
        ∧ lands (.divu rd ra rb mod) (BitVec.ofNat 64 (a.toNat / b.toNat))
        ∧ lands (.rem rd ra rb mod) (BitVec.ofInt 64 (a.toInt - b.toInt * a.toInt.tdiv b.toInt)))
      ∧ (mod = 1 → b32 ≠ 0 → lands (.div rd ra rb mod) ((BitVec.ofInt 32 (a32.toInt.tdiv b32.toInt)).signExtend 64)
        ∧ lands (.divu rd ra rb mod) ((BitVec.ofNat 32 (a32.toNat / b32.toNat)).signExtend 64)
        ∧ lands (.rem rd ra rb mod) ((BitVec.ofInt 32 (a32.toInt - b32.toInt * a32.toInt.tdiv b32.toInt)).signExtend 64))

/-- R108: `BEXT` and `BINS` take position b[5:0] and width Min(b[14:8], 64 − p); bit i of the result is given. R109, R110: the constants,
the compares and `SEL`. -/
def Obligations.FieldsComparesAndSelect : Prop :=
  (∀ (s : State) (rd ra rb : BitVec 6), s.mayIssue → s.full [.s rd.toNat, .s ra.toNat, .s rb.toNat] →
       let a := s.cur.s ra.toNat
       let b := s.cur.s rb.toNat
       let d := s.cur.s rd.toNat
       let p := (b.extractLsb' 0 6).toNat
       let w := min (b.extractLsb' 8 7).toNat (64 - p)
       (∃ v, exec (.bext rd ra rb) s = .next (s.landS 1 rd v)
           ∧ ∀ i < 64, v.getLsbD i = (decide (i < w) && a.getLsbD (p + i)))
         ∧ ∃ v, exec (.bins rd ra rb) s = .next (s.landS 1 rd v)
           ∧ ∀ i < 64, v.getLsbD i = if p ≤ i ∧ i < p + w then a.getLsbD (i - p) else d.getLsbD i)
    ∧ (∀ (s : State) (rd ra rb : BitVec 6) (mod : BitVec 1) (imm : BitVec 14),
       s.mayIssue → s.full [.s rd.toNat, .s ra.toNat, .s rb.toNat] →
       let a := s.cur.s ra.toNat
       let b := s.cur.s rb.toNat
       let d := s.cur.s rd.toNat
       let a32 : Word := a.setWidth 32
       let b32 : Word := b.setWidth 32
       let lands (i : Instr) (v : SReg) : Prop := exec i s = .next (s.landS 1 rd v)
       let truth (x y : Prop) : SReg → Prop := fun v =>
         ((if mod = 1 then y else x) ∧ v = 1) ∨ (¬ (if mod = 1 then y else x) ∧ v = 0)
       (∃ v, lands (.seq rd ra rb mod) v ∧ truth (a = b) (a32 = b32) v)
         ∧ (∃ v, lands (.sne rd ra rb mod) v ∧ truth (a ≠ b) (a32 ≠ b32) v)
         ∧ (∃ v, lands (.slt rd ra rb mod) v ∧ truth (a.toInt < b.toInt) (a32.toInt < b32.toInt) v)
         ∧ (∃ v, lands (.sltu rd ra rb mod) v ∧ truth (a.toNat < b.toNat) (a32.toNat < b32.toNat) v)
         ∧ (∃ v, lands (.sle rd ra rb mod) v ∧ truth (a.toInt ≤ b.toInt) (a32.toInt ≤ b32.toInt) v)
         ∧ (∃ v, lands (.sleu rd ra rb mod) v ∧ truth (a.toNat ≤ b.toNat) (a32.toNat ≤ b32.toNat) v)
         ∧ lands (.sel rd ra rb) (if d = 0 then b else a)
         ∧ (immFits (.movi rd imm) s.ctx.ext = true → lands (.movi rd imm) (BitVec.ofInt 64 (immSigned s.ctx.ext 14 imm)))
         ∧ ∃ v, lands (.movhi rd imm) v ∧ v.extractLsb' 50 14 = imm ∧ v.extractLsb' 0 50 = d.extractLsb' 0 50)

/-- R111, R112: the FP32 operations and the conversions; bits 63:32 of an FP32 result are zero. -/
def Obligations.ScalarFloatResults : Prop :=
  ∀ (s : State) (rd ra rb : BitVec 6) (mod : BitVec 1), s.mayIssue → s.full [.s rd.toNat, .s ra.toNat, .s rb.toNat] →
    let fp (r : BitVec 6) : FVal := Fmt.fp32.decode ((s.cur.s r.toNat).setWidth 32 : Word).toNat
    let a := fp ra
    let b := fp rb
    let d := fp rd
    let rne (v : FVal) : SReg := BitVec.ofNat 64 (Fmt.fp32.rne v)
    let lands (i : Instr) (lat : Nat) (v : SReg) : Prop := exec i s = .next (s.landS lat rd v)
    let n : Int := if mod = 1 then ((s.cur.s ra.toNat).toNat : Int) else (s.cur.s ra.toNat).toInt
    lands (.fadd rd ra rb) 4 (rne (a.add b))
      ∧ lands (.fsub rd ra rb) 4 (rne (a.add b.negate))
      ∧ lands (.fmul rd ra rb) 4 (rne (a.mul b))
      ∧ lands (.ffma rd ra rb) 4 (rne ((a.mul b).add d))
      ∧ lands (.fdiv rd ra rb) 12 (BitVec.ofNat 64 (Fmt.fp32.div a b))
      ∧ lands (.fsqrt rd ra) 12 (BitVec.ofNat 64 (Fmt.fp32.sqrt a))
      ∧ lands (.fmin rd ra rb) 4 (rne (a.min b))
      ∧ lands (.fmax rd ra rb) 4 (rne (a.max b))
      ∧ lands (.feq rd ra rb) 4 (if a.eq b then 1 else 0)
      ∧ lands (.flt rd ra rb) 4 (if a.lt b then 1 else 0)
      ∧ lands (.fle rd ra rb) 4 (if a.le b then 1 else 0)
      ∧ lands (.fcvti rd ra mod) 4 (BitVec.ofInt 64 (a.toInt (RoundMode.ofCode s.ctx.rm) s.ctx.sat 64 (mod = 1)))
      ∧ lands (.fcvtf rd ra mod) 4
          (BitVec.ofNat 64 (Fmt.fp32.ofVal (RoundMode.ofCode s.ctx.rm) false (FVal.ofInteger n)))

/-! ## Prefix, extension, branches and the sequencer -/

/-- R24, R25, R43: `PFX` sets the modes of its bundle where every STRICT bit names a source, and `EXT` gives its payload to the slot that
follows. -/
def Obligations.PrefixAndExtension : Prop :=
  ∀ (s : State) (rm : BitVec 3) (sat : BitVec 1) (mask : BitVec 4) (strict : BitVec 16) (pay : BitVec 25), s.mayIssue →
    (rm.toNat ≤ 4 → strict &&& ~~~s.ctx.named = 0 →
        exec (.pfx rm sat mask strict) s
          = .next { s with ctx := { s.ctx with rm := rm.toNat, sat := decide (sat = 1), maskReg := mask.toNat, strict } })
      ∧ (rm.toNat ≤ 4 → strict &&& ~~~s.ctx.named ≠ 0 →
        exec (.pfx rm sat mask strict) s = .next (s.takeIssueTrap 0x03 s.ctx.pos 0))
      ∧ exec (.ext pay) s = .next { s with ctx := { s.ctx with ext := s.ctx.ext ++ [pay] } }

/-- R27, R114: `BRZ` and `BRNZ` test all 64 bits; the hint sets the clk to the next bundle and, where it is wrong, the run-ahead buffer is
emptied (R29). R115: `BRKT` and `BRKF` test a mask register over the active lanes of the view of MCFG0; with no active lane both are taken,
and a mixed mask raises `NONUNIFORM`. -/
def Obligations.ConditionalBranches : Prop :=
  (∀ (s : State) (hint : BitVec 1) (ra : BitVec 6) (off : BitVec 15), s.mayIssue → s.full [.s ra.toNat] →
       immFits (.brz hint ra off) s.ctx.ext = true →
       let target := (BitVec.ofInt 64 ((s.ctx.addr : Int) + 4 * immSigned s.ctx.ext 15 off)).toNat
       let zero : Prop := s.cur.s ra.toNat = 0
       let taken (i : Instr) : Prop := exec i s =
         .next (if hint = 1 then s.transfer target 1 else (s.setCur s.cur.mispredict).transfer target 4)
       let untaken (i : Instr) : Prop := exec i s = .next (if hint = 0 then s.setGap 1 else (s.setCur s.cur.mispredict).setGap 4)
       (zero → s.goodTarget target → taken (.brz hint ra off))
         ∧ (¬ zero → untaken (.brz hint ra off))
         ∧ (¬ zero → s.goodTarget target → taken (.brnz hint ra off))
         ∧ (zero → untaken (.brnz hint ra off))
         ∧ (zero → ¬ s.goodTarget target → exec (.brz hint ra off) s = .next (s.takeIssueTrap 0x0C s.ctx.pos 0))
         ∧ (¬ zero → ¬ s.goodTarget target → exec (.brnz hint ra off) s = .next (s.takeIssueTrap 0x0C s.ctx.pos 0)))
    ∧ (∀ (s : State) (hint : BitVec 1) (rk : BitVec 4) (off : BitVec 15), s.mayIssue → s.full [.k rk.toNat] →
       immFits (.brkt hint rk off) s.ctx.ext = true →
       let lanes := if mcfgAcc s.cur.eng0.mcfg = 4 then 256 else 128
       let active (j : Nat) : Prop := (s.cur.k s.ctx.maskReg).getLsbD j = true
       let allSet : Prop := ∀ j < lanes, active j → (s.cur.k rk.toNat).getLsbD j = true
       let allClear : Prop := ∀ j < lanes, active j → (s.cur.k rk.toNat).getLsbD j = false
       let target := (BitVec.ofInt 64 ((s.ctx.addr : Int) + 4 * immSigned s.ctx.ext 15 off)).toNat
       let taken (i : Instr) : Prop := exec i s =
         .next (if hint = 1 then s.transfer target 1 else (s.setCur s.cur.mispredict).transfer target 4)
       let untaken (i : Instr) : Prop := exec i s = .next (if hint = 0 then s.setGap 1 else (s.setCur s.cur.mispredict).setGap 4)
       (allSet → s.goodTarget target → taken (.brkt hint rk off))
         ∧ (allClear → ¬ allSet → untaken (.brkt hint rk off))
         ∧ (allClear → s.goodTarget target → taken (.brkf hint rk off))
         ∧ (allSet → ¬ allClear → untaken (.brkf hint rk off))
         ∧ (¬ allSet → ¬ allClear → exec (.brkt hint rk off) s = .next (s.takeIssueTrap 0x07 s.ctx.pos 0)
             ∧ exec (.brkf hint rk off) s = .next (s.takeIssueTrap 0x07 s.ctx.pos 0))
         ∧ (¬ s.goodTarget target → (allSet → exec (.brkt hint rk off) s = .next (s.takeIssueTrap 0x0C s.ctx.pos 0))
             ∧ (allClear → exec (.brkf hint rk off) s = .next (s.takeIssueTrap 0x0C s.ctx.pos 0))))

/-- R113, R116: the unconditional transfers; `CALL` leaves the address of the following bundle in D at latency 1, and each raises
`MISALIGNED` at a target to which none may be made. From `JMPI` or `RET` to the next bundle it takes 1 clk where the register has held its
value for 4 clk with no write in flight, and otherwise 4; a write of the jump's own bundle counts as in flight, and one to S0 (log 63). R124
to R126: `WAITC` sets the clk to the next bundle; `HALT` stops the sequencer, completes its item and keeps its registers; `TRAP` and `SVC`
(R427) take their issue traps with CODE16. -/
def Obligations.JumpsWaitsHaltAndTraps : Prop :=
  (∀ (s : State) (ra rd : BitVec 6) (off : BitVec 21) (off15 : BitVec 15), s.mayIssue → s.full [.s ra.toNat, .s rd.toNat] →
       let far := (BitVec.ofInt 64 ((s.ctx.addr : Int) + 4 * immSigned s.ctx.ext 21 off)).toNat
       let near := (BitVec.ofInt 64 ((s.ctx.addr : Int) + 4 * immSigned s.ctx.ext 15 off15)).toNat
       let a := (s.cur.s ra.toNat).toNat
       let underway : Prop := (∃ f ∈ s.cur.inFlight, ∃ v, f.write = .sreg ra.toNat v) ∨ ∃ e ∈ s.cur.queue, ∃ bar, e.ins = .bpoll ra bar
       let recent : Prop := ∃ c, tfind ra.toNat s.cur.sChanged = some c ∧ s.clk < c + 4
       (immFits (.jmp off) s.ctx.ext = true →
           (s.goodTarget far → exec (.jmp off) s = .next (s.transfer far 1))
           ∧ (¬ s.goodTarget far → exec (.jmp off) s = .next (s.takeIssueTrap 0x0C s.ctx.pos 0)))
         ∧ (immFits (.call rd off15) s.ctx.ext = true →
           (s.goodTarget near → exec (.call rd off15) s
               = .next ((s.landS 1 rd (BitVec.ofNat 64 (s.ctx.addr + s.ctx.len))).transfer near 1))
           ∧ (¬ s.goodTarget near → exec (.call rd off15) s = .next (s.takeIssueTrap 0x0C s.ctx.pos 0)))
         ∧ (s.goodTarget a → underway ∨ recent → exec (.jmpi ra) s = .next (s.transfer a 4) ∧ exec (.ret ra) s = .next (s.transfer a 4))
         ∧ (s.goodTarget a → ¬ (underway ∨ recent) →
             exec (.jmpi ra) s = .next (s.transfer a 1) ∧ exec (.ret ra) s = .next (s.transfer a 1))
         ∧ (¬ s.goodTarget a → exec (.jmpi ra) s = .next (s.takeIssueTrap 0x0C s.ctx.pos 0)
             ∧ exec (.ret ra) s = .next (s.takeIssueTrap 0x0C s.ctx.pos 0)))
    ∧ (∀ (s : State) (cnt : BitVec 21) (code : BitVec 16) (service : BitVec 15), s.mayIssue →
       (immUnsigned s.ctx.ext 21 cnt < 2 ^ 32 → exec (.waitc cnt) s = .next (s.setGap (immUnsigned s.ctx.ext 21 cnt)))
         ∧ (∃ t, exec .halt s = .next t ∧ t.ctx = s.ctx ∧ t.clk = s.clk ∧ t.clusters = s.clusters
             ∧ t.cores = (s.setCur { s.cur with state := .halted, haltReported := false, haltClk := s.clk, item := none }).cores)
         ∧ exec (.trap code) s = .next (s.takeIssueTrap 0x1C s.ctx.pos code.toNat)
         ∧ exec (.svc service) s = .next (s.takeIssueTrap 0x1B s.ctx.pos service.toNat))

/-- R117: `LOOP` and `LOOPI` push an entry, or with a count of 0 go on after the end bundle 4 clk later; a seventh entry raises
`LOOP_OVERFLOW`, and the end bundle of the innermost loop `LOOP_STATE`, whatever the count. -/
def Obligations.LoopsEntered : Prop :=
  ∀ (s : State) (ra : BitVec 6) (cnt : BitVec 9) (endw : BitVec 13), s.mayIssue → s.full [.s ra.toNat] →
    immUnsigned s.ctx.ext 9 cnt < 2 ^ 32 →
    let start := s.ctx.addr + s.ctx.len
    let last := start + 4 * endw.toNat
    let entered (count : BitVec 32) : State := s.setCur { s.cur with loops := ⟨start, last, count, 0⟩ :: s.cur.loops }
    let count := (s.cur.s ra.toNat).extractLsb' 0 32
    let immediate := immUnsigned s.ctx.ext 9 cnt
    let skipped : State := s.transfer (afterLoop s last) 4
    let trapped (i : Instr) (cause : Nat) : Prop := exec i s = .next (s.takeIssueTrap cause s.ctx.pos 0)
    (s.notAtLoopEnd → s.cur.loops.length ≠ 6 →
        (count ≠ 0 → exec (.loop ra endw) s = .next (entered count))
        ∧ (count = 0 → s.goodTarget (afterLoop s last) → exec (.loop ra endw) s = .next skipped)
        ∧ (count = 0 → ¬ s.goodTarget (afterLoop s last) → trapped (.loop ra endw) 0x0C)
        ∧ (immediate ≠ 0 → exec (.loopi cnt endw) s = .next (entered (BitVec.ofNat 32 immediate)))
        ∧ (immediate = 0 → s.goodTarget (afterLoop s last) → exec (.loopi cnt endw) s = .next skipped)
        ∧ (immediate = 0 → ¬ s.goodTarget (afterLoop s last) → trapped (.loopi cnt endw) 0x0C))
      ∧ (s.notAtLoopEnd → s.cur.loops.length = 6 → trapped (.loop ra endw) 0x09 ∧ trapped (.loopi cnt endw) 0x09)
      ∧ (¬ s.notAtLoopEnd → trapped (.loop ra endw) 0x08 ∧ trapped (.loopi cnt endw) 0x08)

/-- R120 to R123: `LSET` writes one field of an entry, `LIDX` reads its index, `LBRK` pops it with every entry inside it and goes on after
its end bundle; a level not below the depth raises `LOOP_UNDERFLOW`, and 6 and 7 `RESERVED_FIELD`. R118: at the end bundle of the innermost
loop the finished entries that share it are popped; where the entry under them ends there too and passes remain, the next position is the
start of its body with one pass counted, and otherwise the bundle that follows; a transfer of the bundle's own leaves the stack alone. -/
def Obligations.LoopAccess : Prop :=
  (∀ (s : State) (lvl : BitVec 3) (fld : BitVec 2) (ra rd : BitVec 6), s.mayIssue → s.full [.s ra.toNat, .s rd.toNat] →
       let a := (s.cur.s ra.toNat).extractLsb' 0 32
       let trapped (i : Instr) (cause : Nat) : Prop := exec i s = .next (s.takeIssueTrap cause s.ctx.pos 0)
       let put (e : LoopEntry) : State := s.setCur { s.cur with loops := s.cur.loops.set lvl.toNat e }
       (∀ e, lvl.toNat ≤ 5 → s.cur.loops[lvl.toNat]? = some e →
           (fld = 0 → exec (.lset lvl fld ra) s = .next (put { e with remaining := a }))
           ∧ (fld = 1 → exec (.lset lvl fld ra) s = .next (put { e with index := a }))
           ∧ (2 ≤ fld.toNat → e.start ≤ s.ctx.addr ∧ s.ctx.addr ≤ e.stop → trapped (.lset lvl fld ra) 0x08)
           ∧ (2 ≤ fld.toNat → ¬ (e.start ≤ s.ctx.addr ∧ s.ctx.addr ≤ e.stop) →
             (¬ s.goodTarget a.toNat → trapped (.lset lvl fld ra) 0x0C)
             ∧ (s.goodTarget a.toNat → exec (.lset lvl fld ra) s
                 = .next (put (if fld = 2 then { e with start := a.toNat } else { e with stop := a.toNat }))))
           ∧ exec (.lidx rd lvl) s = .next (s.landS 1 rd (e.index.setWidth 64))
           ∧ (s.goodTarget (afterLoop s e.stop) → exec (.lbrk lvl) s
               = .next ((s.transfer (afterLoop s e.stop) 4).setCur { s.cur with loops := s.cur.loops.drop (lvl.toNat + 1) }))
           ∧ (¬ s.goodTarget (afterLoop s e.stop) → trapped (.lbrk lvl) 0x0C))
         ∧ (lvl.toNat ≤ 5 → s.cur.loops.length ≤ lvl.toNat →
             trapped (.lset lvl fld ra) 0x0A ∧ trapped (.lidx rd lvl) 0x0A ∧ trapped (.lbrk lvl) 0x0A)
         ∧ (6 ≤ lvl.toNat → trapped (.lset lvl fld ra) 0x03 ∧ trapped (.lidx rd lvl) 0x03 ∧ trapped (.lbrk lvl) 0x03))
    ∧ (∀ (s : State) (l r : List LoopEntry), s.cur.loops = l ++ r → s.ctx.next = none →
       (∀ e ∈ l, e.stop = s.ctx.addr ∧ e.remaining.toNat ≤ 1) →
       ((∀ e ∈ r.head?, e.stop ≠ s.ctx.addr) → nextPosition s = (s.ctx.addr + s.ctx.len, r))
         ∧ ∀ e q, r = e :: q → e.stop = s.ctx.addr → 1 < e.remaining.toNat →
           nextPosition s = (e.start, { e with remaining := e.remaining - 1, index := e.index + 1 } :: q))
    ∧ ∀ (s : State) (a : Nat), s.ctx.next = some a → nextPosition s = (a, s.cur.loops)

/-! ## The vector class -/

/-- R137: the floating lanes; each result is the exact value rounded once, RNE, to FP32 or, in the 256-lane view, to BF16. It lands under
the bundle's mask (R135). R139: the special functions at 10 clk, rounded to the lane type; that the model's exponential, logarithm, tanh and
sigmoid, computed with 640 fractional bits, are the correctly rounded ones is log 11's. -/
def Obligations.FloatingLanes : Prop :=
  (∀ (s : State) (rd ra rb : BitVec 7), s.mayIssue → s.full [.v rd.toNat, .v ra.toNat, .v rb.toNat] →
       s.oneView [rd.toNat, ra.toNat, rb.toNat] →
       let n := s.cur.viewOf rd.toNat
       let f : Fmt := if n = 256 then .bf16 else .fp32
       let x (r : BitVec 7) : List FVal := (s.cur.lanes n r.toNat).map f.decode
       let lands (i : Instr) (lat : Nat) (l : List FVal) : Prop := exec i s = .next (s.landV lat n rd (l.map f.rne))
       lands (.vadd rd ra rb) 4 (List.zipWith FVal.add (x ra) (x rb))
         ∧ lands (.vsub rd ra rb) 4 (List.zipWith (fun a b => a.add b.negate) (x ra) (x rb))
         ∧ lands (.vmul rd ra rb) 5 (List.zipWith FVal.mul (x ra) (x rb))
         ∧ lands (.vfma rd ra rb) 5 (List.zipWith FVal.add (List.zipWith FVal.mul (x ra) (x rb)) (x rd))
         ∧ lands (.vfms rd ra rb) 5
             (List.zipWith (fun p d => d.add p.negate) (List.zipWith FVal.mul (x ra) (x rb)) (x rd))
         ∧ lands (.vmin rd ra rb) 4 (List.zipWith FVal.min (x ra) (x rb))
         ∧ lands (.vmax rd ra rb) 4 (List.zipWith FVal.max (x ra) (x rb))
         ∧ lands (.vabs rd ra) 4 ((x ra).map FVal.abs)
         ∧ lands (.vneg rd ra) 4 ((x ra).map FVal.negate))
    ∧ (∀ (s : State) (rd ra : BitVec 7), s.mayIssue → s.full [.v rd.toNat, .v ra.toNat] → s.oneView [rd.toNat, ra.toNat] →
       let n := s.cur.viewOf rd.toNat
       let f : Fmt := if n = 256 then .bf16 else .fp32
       let x : List FVal := (s.cur.lanes n ra.toNat).map f.decode
       let lands (i : Instr) (g : FVal → Nat) : Prop := exec i s = .next (s.landV 10 n rd (x.map g))
       lands (.vrcp rd ra) (fun a => f.div (.fin false 1 0) a)
         ∧ lands (.vrsq rd ra) f.rsqrt
         ∧ lands (.vsqrt rd ra) f.sqrt
         ∧ lands (.vexp2 rd ra) f.exp2
         ∧ lands (.vlog2 rd ra) f.log2
         ∧ lands (.vtanh rd ra) f.tanh
         ∧ lands (.vsigm rd ra) f.sigmoid)

/-- R140, R141, R142: the integer and raw lanes modulo 2^width, the select and the move. -/
def Obligations.IntegerLanes : Prop :=
  ∀ (s : State) (rd ra rb : BitVec 7), s.mayIssue → s.full [.v rd.toNat, .v ra.toNat, .v rb.toNat] →
    s.oneView [rd.toNat, ra.toNat, rb.toNat] →
    let n := s.cur.viewOf rd.toNat
    let w := 4096 / n
    let x (r : BitVec 7) : List (BitVec w) := (s.cur.lanes n r.toNat).map (BitVec.ofNat w)
    let lands (i : Instr) (g : BitVec w → BitVec w → BitVec w) : Prop :=
      exec i s = .next (s.landV 4 n rd ((List.zipWith g (x ra) (x rb)).map BitVec.toNat))
    lands (.vand rd ra rb) (· &&& ·)
      ∧ lands (.vor rd ra rb) (· ||| ·)
      ∧ lands (.vxor rd ra rb) (· ^^^ ·)
      ∧ lands (.viadd rd ra rb) (· + ·)
      ∧ lands (.visub rd ra rb) (· - ·)
      ∧ lands (.vimul rd ra rb) (· * ·)
      ∧ lands (.vimin rd ra rb) (fun a b => if a.slt b then a else b)
      ∧ lands (.vimax rd ra rb) (fun a b => if a.slt b then b else a)
      ∧ lands (.vshl rd ra rb) (fun a b => a <<< (b.toNat % w))
      ∧ lands (.vshr rd ra rb) (fun a b => a >>> (b.toNat % w))
      ∧ lands (.vsar rd ra rb) (fun a b => a.sshiftRight (b.toNat % w))
      ∧ exec (.vmov rd ra) s = .next (s.landV 4 n rd (s.cur.lanes n ra.toNat))
      ∧ ∃ l, exec (.vsel rd ra rb) s = .next (s.land 4 (.vrow rd.toNat rowAll (rowOf w l) 0)) ∧ l.length = n
          ∧ ∀ j < n, l[j]? = if s.bundleMask.getLsbD j then (s.cur.lanes n ra.toNat)[j]? else (s.cur.lanes n rb.toNat)[j]?

/-- R138, R145: the compares and the mask operations; bits 255:128 are written as zero in the 128-lane view. R100, R143: the reductions over
the fixed tree; a lane with its mask bit 0 contributes the neutral value. -/
def Obligations.MasksAndReductions : Prop :=
  (∀ (s : State) (rd ka kb : BitVec 4) (ra rb : BitVec 7) (sd : BitVec 6), s.mayIssue →
       s.full [.k rd.toNat, .k ka.toNat, .k kb.toNat, .v ra.toNat, .v rb.toNat, .s sd.toNat] →
       let n := s.cur.viewOf ra.toNat
       let f : Fmt := if n = 256 then .bf16 else .fp32
       let compared (g : FVal → FVal → Bool) : Mask := maskOf (List.zipWith (fun a b => g (f.decode a) (f.decode b))
         (s.cur.lanes n ra.toNat) (s.cur.lanes n rb.toNat))
       let m := viewLanes s.cur.eng0.mcfg
       (s.oneView [ra.toNat, rb.toNat] →
           exec (.veq rd ra rb) s = .next (s.landK 4 n rd (compared FVal.eq))
           ∧ exec (.vne rd ra rb) s = .next (s.landK 4 n rd (compared fun a b => !a.eq b))
           ∧ exec (.vlt rd ra rb) s = .next (s.landK 4 n rd (compared FVal.lt))
           ∧ exec (.vle rd ra rb) s = .next (s.landK 4 n rd (compared FVal.le)))
         ∧ exec (.kand rd ka kb) s = .next (s.landK 1 m rd (s.cur.k ka.toNat &&& s.cur.k kb.toNat))
         ∧ exec (.kor rd ka kb) s = .next (s.landK 1 m rd (s.cur.k ka.toNat ||| s.cur.k kb.toNat))
         ∧ exec (.kxor rd ka kb) s = .next (s.landK 1 m rd (s.cur.k ka.toNat ^^^ s.cur.k kb.toNat))
         ∧ exec (.knot rd ka) s = .next (s.landK 1 m rd (~~~(s.cur.k ka.toNat)))
         ∧ exec (.kpop sd ka) s = .next (s.landS 1 sd (BitVec.ofNat 64
             ((List.range m).filter fun j => (s.cur.k ka.toNat).getLsbD j && s.bundleMask.getLsbD j).length)))
    ∧ (∀ (s : State) (rd : BitVec 6) (ra : BitVec 7), s.mayIssue → s.full [.s rd.toNat, .v ra.toNat] →
       let n := s.cur.viewOf ra.toNat
       let f : Fmt := if n = 256 then .bf16 else .fp32
       let x (idle : FVal) (pre : FVal → FVal) : List FVal := (s.cur.lanes n ra.toNat).mapIdx fun j a =>
         if s.bundleMask.getLsbD j then pre (f.decode a) else idle
       let tree (g : FVal → FVal → FVal) (l : List FVal) : FVal := (reduceTree g (if n = 256 then 8 else 7) l).headD .nan
       let lands (i : Instr) (v : FVal) : Prop :=
         exec i s = .next (s.landS (if n = 256 then 9 else 8) rd (BitVec.ofNat 64 (Fmt.fp32.rne v)))
       lands (.vrsum rd ra) (tree (fun a b => Fmt.fp32.decode (Fmt.fp32.rne (a.add b))) (x (.fin false 0 0) id))
         ∧ lands (.vrmax rd ra) (tree FVal.max (x (.inf true) id))
         ∧ lands (.vramax rd ra) (tree FVal.max (x (.fin false 0 0) FVal.abs)))

/-- R142, R144: broadcast, lane access, permutation, slide, lane indices and random lanes; `VRAND` advances its generator at issue. -/
def Obligations.LaneMoves : Prop :=
  ∀ (s : State) (rd ra rb : BitVec 7) (sd sa sb : BitVec 6) (g : BitVec 2), s.mayIssue →
    s.full [.v rd.toNat, .v ra.toNat, .v rb.toNat, .s sd.toNat, .s sa.toNat, .s sb.toNat] →
    s.oneView [rd.toNat, ra.toNat, rb.toNat] →
    let n := s.cur.viewOf rd.toNat
    let w := 4096 / n
    let row := (s.cur.v ra.toNat).toNat
    let j := (s.cur.s sb.toNat).toNat % n
    let m := (s.cur.s sb.toNat).toInt
    let gen := s.cur.gen g.toNat
    exec (.vbcast rd sa) s = .next (s.landV 4 n rd (List.replicate n (s.cur.s sa.toNat).toNat))
      ∧ exec (.vextr sd ra sb) s = .next (s.landS 4 sd (BitVec.ofNat 64 (row / 2 ^ (w * j) % 2 ^ w)))
      ∧ exec (.vins rd sa sb) s = .next (s.land 4 (.vrow rd.toNat (rowSelect w n (s.bundleMask &&& (1#256 <<< j)))
          (rowOf w (List.replicate n (s.cur.s sa.toNat).toNat)) 0))
      ∧ exec (.vperm rd ra rb) s
          = .next (s.landV 6 n rd ((s.cur.lanes n rb.toNat).map fun i => row / 2 ^ (w * (i % n)) % 2 ^ w))
      ∧ exec (.vslide rd ra sb) s = .next (s.landV 6 n rd ((List.range n).map fun (i : Nat) =>
          if 0 ≤ (i : Int) - m ∧ (i : Int) - m < n then row / 2 ^ (w * ((i : Int) - m).toNat) % 2 ^ w else 0))
      ∧ exec (.viota rd) s = .next (s.landV 4 n rd (List.range n))
      ∧ ∃ t, exec (.vrand rd g) s = .next t
          ∧ t.cur.gen g.toNat = ⟨gen.key, gen.ctr + BitVec.ofNat 64 n⟩
          ∧ (∀ h < 4, h ≠ g.toNat → t.cur.gen h = s.cur.gen h)
          ∧ t.cur.inFlight = (s.landV 6 n rd ((List.range n).map fun i =>
              (mix gen.key (gen.ctr + BitVec.ofNat 64 i)).toNat)).cur.inFlight

/-! ## Conversion, transposer and pushes -/

/-- R146 to R149: narrowing of a source block that is no narrow block itself, with its side word at issue + 14; `VQSCALE` gives the control
word of the same carding at issue + 4. -/
def Obligations.Narrowing : Prop :=
  ∀ (s : State) (fmt : BitVec 2) (rd ra : BitVec 7) (sd sb : BitVec 6) (noRot : BitVec 1) (seed : BitVec 4),
    s.mayIssue → s.full [.v rd.toNat, .v ra.toNat, .s sd.toNat, .s sb.toNat] → s.oneView [rd.toNat, ra.toNat] →
    (noRot = 0 ∨ seed = 0) → (s.cur.side ra.toNat).getLsbD 63 = false →
    let acc := mcfgAcc (s.cur.mcfgOf ra.toNat)
    let t : Fmt := if acc = 7 then .int32 else if acc = 4 then .bf16 else .fp32
    let x : List FVal := (unpack t.width 128 (s.cur.v ra.toNat).toNat).mapIdx fun i e =>
      if s.bundleMask.getLsbD i then t.decode e else .fin false 0 0
    let mode := RoundMode.ofCode s.ctx.rm
    let block (f : Fmt) (n : BitVec 4) (raw : Bool) (given : Option (BitVec 32)) : NarrowBlock :=
      cardBlock x f mode s.ctx.sat (s.cur.seed n.toNat) 0 raw given
    let w := s.cur.s sb.toNat
    let scaled (i : Instr) (f : Fmt) : Prop := exec i s = .next (s.landS 4 sd
      ((0 : BitVec 27) ++ noRot ++ seed ++ cardScale x f (s.cur.seed seed.toNat) (noRot = 1)))
    let landed (b : NarrowBlock) : State := s.land 14 (.vrow rd.toNat rowAll b.row b.side)
    (¬ (fmt = 2 ∧ t = .bf16) →
        exec (.vcvtn fmt rd ra noRot seed) s
            = .next (landed (block (Fmt.ofTarget fmt.toNat) seed (decide (noRot = 1)) none))
        ∧ exec (.vcvtns fmt rd ra sb) s = .next (landed
            (block (Fmt.ofTarget fmt.toNat) (w.extractLsb' 32 4) (w.getLsbD 36) (some (w.extractLsb' 0 32)))))
      ∧ scaled (.vqscaleE4m3 sd ra noRot seed) .e4m3
      ∧ scaled (.vqscaleE5m2 sd ra noRot seed) .e5m2
      ∧ (t ≠ .bf16 → scaled (.vqscaleBf16 sd ra noRot seed) .bf16)
      ∧ scaled (.vqscaleInt8 sd ra noRot seed) .int8

/-- R150 to R153: widening of a narrow block by the seed of its tag, the lane conversions, and the side words. -/
def Obligations.WideningAndSides : Prop :=
  ∀ (s : State) (rd ra : BitVec 7) (sd sb : BitVec 6) (uns : BitVec 1) (f : Fmt), s.mayIssue →
    s.full [.v rd.toNat, .v ra.toNat, .s sd.toNat, .s sb.toNat] → s.oneView [rd.toNat, ra.toNat] →
    let side := s.cur.side ra.toNat
    let tag := side.extractLsb' 32 16
    let n := s.cur.viewOf rd.toNat
    let t : Fmt := if n = 256 then .bf16 else .fp32
    let w := 4096 / n
    let mode := RoundMode.ofCode s.ctx.rm
    let b := s.cur.s sb.toNat
    (side.getLsbD 63 = true → narrowFormat (sideFmt side) = some f → tag = 0 →
        exec (.vcvtw rd ra) s = .next (s.land 12 (.vrow rd.toNat (rowSelect 32 128 s.bundleMask)
          (rowOf 32 (widenBlock f (unpack f.width 128 (s.cur.v ra.toNat).toNat) (side.extractLsb' 0 32) false
            ((s.cur.seedFor 0).getD ⟨0, 0⟩).value 0)) 0)))
      ∧ (∀ seed, side.getLsbD 63 = true → narrowFormat (sideFmt side) = some f → tag.extractLsb' 12 4 = 8 →
        s.cur.seedFor (tag.extractLsb' 0 12) = some seed →
        exec (.vcvtw rd ra) s = .next (s.land 12 (.vrow rd.toNat (rowSelect 32 128 s.bundleMask)
          (rowOf 32 (widenBlock f (unpack f.width 128 (s.cur.v ra.toNat).toNat) (side.extractLsb' 0 32) true seed.value 0)) 0)))
      ∧ (side.getLsbD 63 = false → exec (.vcvtw rd ra) s = .next (s.takeIssueTrap 0x0E s.ctx.pos 0))
      ∧ exec (.vcvti rd ra uns) s = .next (s.landV 4 n rd ((s.cur.lanes n ra.toNat).map fun (a : Nat) =>
          (BitVec.ofInt w ((t.decode a).toInt mode s.ctx.sat w (uns = 1))).toNat))
      ∧ exec (.vcvtf rd ra uns) s = .next (s.landV 4 n rd ((s.cur.lanes n ra.toNat).map fun (a : Nat) =>
          t.ofVal mode false (FVal.ofInteger (if uns = 1 then (a : Int) else (BitVec.ofNat w a).toInt))))
      ∧ exec (.vside sd ra) s = .next (s.landS 4 sd side)
      ∧ (b.getLsbD 63 = true → exec (.vsidew rd sb) s = .next (s.land 4 (.side rd.toNat
          ((1 : BitVec 1) ++ (0 : BitVec 11) ++ b.extractLsb' 48 4 ++ b.extractLsb' 0 48))))
      ∧ (b.getLsbD 63 = false → exec (.vsidew rd sb) s = .next (s.land 4 (.side rd.toNat 0)))

/-- R154 to R157: the transposer tiles. -/
def Obligations.TransposerResults : Prop :=
  ∀ (s : State) (tile noRot : BitVec 1) (rd ra : BitVec 7) (sa sb : BitVec 6) (seed : BitVec 4), s.mayIssue →
    s.full [.v rd.toNat, .v ra.toNat, .s sa.toNat, .s sb.toNat] → (noRot = 0 ∨ seed = 0) →
    let cell (i : Nat) : Nat :=
      (tget 0 (128 * tile.toNat + i) s.cur.tiles).toNat / 2 ^ (32 * ((s.cur.s sa.toNat).toNat % 128)) % 2 ^ 32
    let t : Fmt := if mcfgAcc (s.cur.mcfgOf rd.toNat) = 7 then .int32 else .fp32
    let x : List FVal := (List.range 128).map fun i => if s.bundleMask.getLsbD i then t.decode (cell i) else .fin false 0 0
    let carded (i : Instr) (f : Fmt) : Prop :=
      let b := cardBlock x f (RoundMode.ofCode s.ctx.rm) s.ctx.sat (s.cur.seed seed.toNat) 0 (noRot = 1) none
      exec i s = .next (s.land 6 (.vrow rd.toNat rowAll b.row b.side))
    exec (.ttwr tile ra sb) s = .next (s.land 4 (.tileRow tile.toNat ((s.cur.s sb.toNat).toNat % 128)
        (rowSelect 32 128 s.bundleMask) (s.cur.v ra.toNat)))
      ∧ exec (.ttclr tile) s = .next (s.land 4 (.tileClear tile.toNat))
      ∧ exec (.ttrdc rd tile sa) s = .next (s.land 6 (.vrow rd.toNat (rowSelect 32 128 s.bundleMask)
          (rowOf 32 ((List.range 128).map cell)) 0))
      ∧ carded (.ttrdcE4m3 rd tile sa noRot seed) .e4m3
      ∧ carded (.ttrdcE5m2 rd tile sa noRot seed) .e5m2
      ∧ carded (.ttrdcBf16 rd tile sa noRot seed) .bf16
      ∧ carded (.ttrdcInt8 rd tile sa noRot seed) .int8

/-- R158: a push of a valid block gives its elements where the mask is 1, with its format, scale and tag, 2 clk after issue; a push of wide
lanes cards them under the operand fields of MCFG, 14 clk after issue, but for BF16 lanes and a BF16 operand, which enter as they are after
2 clk. -/
def Obligations.FifoPushes : Prop :=
  ∀ (s : State) (fifo : BitVec 1) (ra : BitVec 7), s.mayIssue → s.full [.v ra.toNat] →
    let side := s.cur.side ra.toNat
    let row := s.cur.v ra.toNat
    let mask : BitVec 128 := s.bundleMask.setWidth 128
    let mcfg := (s.cur.eng fifo.toNat).mcfg
    let seed (isB : Bool) := s.cur.seed (mcfg.extractLsb' (if isB then 24 else 20) 4).toNat
    let acc := mcfgAcc (s.cur.mcfgOf ra.toNat)
    let t : Fmt := if acc = 7 then .int32 else if acc = 4 then .bf16 else .fp32
    let x : List FVal := (unpack t.width 128 row.toNat).mapIdx fun i e =>
      if s.bundleMask.getLsbD i then t.decode e else .fin false 0 0
    let pushed (isB : Bool) (lat : Nat) (f : Nat) (e : BitVec 2048) (scale : BitVec 32) (tag : BitVec 16) : Prop :=
      exec (if isB then .fpushb fifo ra else .fpusha fifo ra) s
        = .next (s.land lat (.push fifo.toNat isB f e scale tag mask))
    ∀ isB : Bool,
      (side.getLsbD 63 = true → pushed isB 2 (sideFmt side)
          (row.setWidth 2048 &&& elemSelect (8 * codeBytes (sideFmt side)) s.bundleMask) (side.extractLsb' 0 32)
          (side.extractLsb' 32 16))
        ∧ (∀ f, side.getLsbD 63 = false → pushFormat mcfg isB = some f → ¬ (f = .bf16 ∧ t = .bf16) →
          let b := cardBlock x f (RoundMode.ofCode s.ctx.rm) s.ctx.sat (seed isB) 0 (mcfg.getLsbD (if isB then 19 else 18)) none
          pushed isB 14 f.code (b.row.setWidth 2048) b.scale b.tag)
        ∧ (side.getLsbD 63 = false → pushFormat mcfg isB = some .bf16 → t = .bf16 →
          pushed isB 2 4 (row.setWidth 2048 &&& elemSelect 16 s.bundleMask) 0x3F800000 0)
        ∧ (side.getLsbD 63 = false → pushFormat mcfg isB = none →
          exec (if isB then .fpushb fifo ra else .fpusha fifo ra) s = .next (s.takeIssueTrap 0x0E s.ctx.pos 0))

/-! ## The matrix classes -/

/-- R164 to R169, R175 to R177: configuration, draining, tile loads, zeroing, skips and status of either engine; a tile load that finds an
entry of another format makes its buffer invalid and posts `FMT_PAIR` with the lowest such column. -/
def Obligations.MatrixControl : Prop :=
  ∀ (s : State) (e : Bool) (ra rd : BitVec 6) (wb : BitVec 1) (nm1 row0 : BitVec 6), s.mayIssue →
    s.full [.s ra.toNat, .s rd.toNat] →
    let n : Nat := e.toNat
    let m := s.cur.eng n
    let v := s.cur.s ra.toNat
    let put (m' : MatEngine) : State := s.setCur (s.cur.setEng n m')
    let pick (i j : Instr) : Instr := if e then j else i
    (mcfgReserved v = false → (v = 0 ∨ mcfgLegal v = true) → (v = m.mcfg ∨ engineQuiescent m = true) →
        exec (pick (.mcfg0 ra) (.mcfg1 ra)) s = .next (s.land 1 (.mcfg n v)))
      ∧ exec (pick .mdrain0 .mdrain1) s
          = .next (s.setCur { s.cur.setEng n { m with aFifo := [], bFifo := [], wb0 := none, wb1 := none, load := none, skip := 0 } with
            inFlight := s.cur.inFlight.filter fun f => !f.pushesTo n s.clk })
      ∧ (m.load = none → m.mcfg ≠ 0 → 128 ≤ m.bFifo.length → (∀ c ∈ m.bFifo.take 128, c.fmt = mcfgB m.mcfg) →
          exec (pick (.mldb0 wb) (.mldb1 wb)) s = .next (put { m with
            bFifo := m.bFifo.drop 128,
            load := some ⟨wb.toNat, s.clk + (if mcfgB m.mcfg = 4 then 128 else 64), some (m.bFifo.take 128)⟩ }))
      ∧ (∀ j c, m.load = none → m.mcfg ≠ 0 → 128 ≤ m.bFifo.length → j < 128 → m.bFifo[j]? = some c → c.fmt ≠ mcfgB m.mcfg →
          (∀ b ∈ m.bFifo.take j, b.fmt = mcfgB m.mcfg) →
          exec (pick (.mldb0 wb) (.mldb1 wb)) s = .next (s.setCur ((s.cur.setEng n { m with
            bFifo := m.bFifo.drop 128,
            load := some ⟨wb.toNat, s.clk + (if mcfgB m.mcfg = 4 then 128 else 64), none⟩ }).post
            { clk := s.clk, cause := 0x0E, bundle := s.ctx.addr, pos := s.ctx.pos, issued := s.clk, row := some j })))
      ∧ (row0.toNat + nm1.toNat < 64 → s.full ((List.range (nm1.toNat + 1)).map fun j => .v (64 * n + row0.toNat + j)) →
          ∃ t, exec (pick (.mzero0 nm1 row0) (.mzero1 nm1 row0)) s = .next t
          ∧ t = s.setCur { s.cur with inFlight := s.cur.inFlight ++ (List.range (nm1.toNat + 1)).map fun i =>
              { due := s.clk + 2, issued := s.clk, pos := s.ctx.pos, bundle := s.ctx.addr,
                write := .vrow (64 * n + row0.toNat + i) rowAll 0 0 } })
      ∧ (m.skip + nm1.toNat + 1 ≤ 256 →
          let k := m.skip + nm1.toNat + 1
          exec (pick (.mskipa0 nm1) (.mskipa1 nm1)) s = .next (put { m with
            aFifo := m.aFifo.drop (min k m.aFifo.length), skip := k - min k m.aFifo.length }))
      ∧ exec (pick (.mstat0 rd) (.mstat1 rd)) s = .next (s.landS 2 rd (mstatWord m s.clk))

/-- R170 to R172: an `MMA` that finds its entries, a valid weight buffer and an idle engine pops its rows, takes the tile as it stands and
occupies the engine for as many clk as it has rows, or twice as many with BF16 operands. R172, R173: each row lands 12 clk after its start,
column c in lane c and no other row changed; the INT8 sum is exact and clamped, and a floating lane is rounded once to FP32 and once to the
accumulator's format. R174: a row that fails its check is not written; it is found in the clk of its start and posted with its row, a later
one of the same `MMA` as MORE. -/
def Obligations.MatrixMultiply : Prop :=
  (∀ (s : State) (e : Bool) (nm1 row0 : BitVec 6) (ovw scl wb : BitVec 1) (tile : List FifoEntry), s.mayIssue →
    row0.toNat + nm1.toNat < 64 → s.full ((List.range (nm1.toNat + 1)).map fun j => .v (64 * e.toNat + row0.toNat + j)) →
    let n : Nat := e.toNat
    let m := s.cur.eng n
    let rows := nm1.toNat + 1
    let rate := if mcfgA m.mcfg = 4 then 2 else 1
    let i : Instr := if e then .mma1 nm1 row0 ovw scl wb else .mma0 nm1 row0 ovw scl wb
    let issues : Prop := m.mcfg ≠ 0 ∧ (if wb = 0 then m.wb0 else m.wb1) = some tile ∧ (scl = 1 → mcfgAcc m.mcfg ≠ 7)
    (m.busyUntil ≤ s.clk → issues → m.skip = 0 → rows ≤ m.aFifo.length →
        ∃ o : MmaOp, exec i s = .next (s.setCur (s.cur.setEng n { m with
            aFifo := m.aFifo.drop rows, ops := m.ops ++ [o], busyUntil := s.clk + rate * rows }))
          ∧ o.rows = m.aFifo.take rows ∧ o.tile = tile ∧ o.issued = s.clk ∧ o.row0 = row0.toNat ∧ o.rate = rate
          ∧ o.ovw = decide (ovw = 1) ∧ o.scl = decide (scl = 1) ∧ o.mcfg = m.mcfg ∧ o.bundle = s.ctx.addr ∧ o.pos = s.ctx.pos
          ∧ o.failed = false ∧ o.checked = 0)
      ∧ (m.busyUntil ≤ s.clk → issues → (m.skip ≠ 0 ∨ m.aFifo.length < rows) → exec i s = .next s.hold)
      ∧ (s.clk < m.busyUntil → exec i s = .next (s.takeIssueTrap 0x0F s.ctx.pos 0))
      ∧ (m.busyUntil ≤ s.clk → m.mcfg = 0 → exec i s = .next (s.takeIssueTrap 0x0E s.ctx.pos 0)))
    ∧ (∀ (k : Bank) (e : Bool) (o : MmaOp) (now i : Nat) (a : FifoEntry), (k.eng e.toNat).ops = [o] → (k.eng (!e).toNat).ops = [] →
       k.inFlight = [] → o.rows[i]? = some a → (o.rate = 1 ∨ o.rate = 2) → o.tile.length = 128 →
       let t := k.tick now
       let r := 64 * e.toNat + o.row0 + i
       let tagged : Prop := ∀ c ∈ o.tile, (tagAdjust a.tag c.tag).isSome = true
       let sound : Prop := tagged ∧ a.fmt = mcfgA o.mcfg
       let acc := mcfgAcc o.mcfg
       let f : Fmt := if acc = 4 then .bf16 else .fp32
       let w := if acc = 4 then 16 else 32
       let lane (v : Row) (c : Nat) : Nat := v.toNat / 2 ^ (w * c) % 2 ^ w
       let whole (c : FifoEntry) : Int :=
         ((List.range 128).map fun j => (a.elems.extractLsb' (8 * j) 8).toInt * (c.elems.extractLsb' (8 * j) 8).toInt).sum
       let nan (x : BitVec 32) : Prop := Fmt.fp32.decode x.toNat = .nan
       let rounded (v : FVal) : FVal := Fmt.fp32.decode (Fmt.fp32.rne v)
       let scale (c : FifoEntry) : FVal :=
         if o.scl then rounded ((Fmt.fp32.decode a.scale.toNat).mul (Fmt.fp32.decode c.scale.toNat)) else .fin false 1 0
       let sum (c : FifoEntry) : FVal := if a.fmt = 1 then FVal.ofInteger (whole c) else groupSum a.values c.values
       let shift : FVal := .fin false 1 (if a.tag = 0 then 0 else -7)
       (sound → o.issued + 12 + o.rate * i = now + 1 →
           t.side r = 0 ∧ (∀ q, q ≠ r → t.v q = k.v q ∧ t.side q = k.side q) ∧ (∀ q, t.s q = k.s q) ∧ (∀ q, t.k q = k.k q)
           ∧ (acc = 4 → (t.v r).toNat / 2 ^ 2048 = (k.v r).toNat / 2 ^ 2048)
           ∧ ∀ n c, o.tile[n]? = some c → c.fmt = a.fmt →
             (acc = 7 → a.fmt = 1 → nan a.scale ∨ nan c.scale → lane (t.v r) n = 0x80000000)
             ∧ (acc = 7 → a.fmt = 1 → ¬ (nan a.scale ∨ nan c.scale) →
               let old : Int := if o.ovw then 0 else (BitVec.ofNat 32 (lane (k.v r) n)).toInt
               (BitVec.ofNat 32 (lane (t.v r) n)).toInt = max (-2 ^ 31) (min (old + whole c) (2 ^ 31 - 1)))
             ∧ (acc ≠ 7 →
               let x := rounded (((sum c).mul (scale c)).mul shift)
               lane (t.v r) n = f.rne (if o.ovw then x else (f.decode (lane (k.v r) n)).add x)))
         ∧ (¬ sound → o.issued + 12 + o.rate * i = now + 1 → ∀ q, t.v q = k.v q ∧ t.side q = k.side q)
         ∧ (o.issued + o.rate * i = now → o.checked ≤ i →
           (sound → t.posted = k.posted)
           ∧ (¬ sound → o.failed = false →
             let trap (cause : Nat) : PostedTrap :=
               { clk := now, cause, bundle := o.bundle, pos := o.pos, issued := o.issued, row := some (o.row0 + i) }
             (¬ tagged → t.posted = k.posted ++ [trap 0x0D]) ∧ (tagged → t.posted = k.posted ++ [trap 0x0E]))
           ∧ (¬ sound → o.failed = true → k.posted ≠ [] → t.posted = k.posted.map fun (p : PostedTrap) => { p with more := true })
           ∧ (¬ sound → o.failed = true → k.posted = [] → t.posted = [] ∧ (t.trecWord 0).getLsbD 10 = true)))

/-! ## The scratchpad -/

/-- R53, R127 to R130, R291: scratchpad loads read in their issue clk and land 6 clk later, `LDSX` 8 clk; its bytes beyond 512 are noted
against the port bandwidth of the copy channels (R31; log 32). -/
def Obligations.ScratchpadLoads : Prop :=
  ∀ (s : State) (size : BitVec 3) (rd base : BitVec 6) (vd : BitVec 7) (hi : BitVec 1) (kd : BitVec 4) (off : BitVec 8),
    s.mayIssue → s.full [.s rd.toNat, .s (rd.toNat + 1), .s base.toNat, .v vd.toNat, .k kd.toNat] →
    immFits (.ldsv vd base off) s.ctx.ext = true →
    let pad := (s.core s.ctx.core).pad
    let addr (n : Nat) : Nat := (s.cur.s base.toNat + BitVec.ofInt 64 (immSigned s.ctx.ext 8 off * n)).toNat
    let bytes (n : Nat) : Nat := mread pad (addr n) n
    let loads (z : BitVec 3) (n : Nat) (v : SReg) : Prop := size = z → padAccess (addr n) n →
      exec (.lds size rd base off) s = .next (s.landS 6 rd v)
    loads 0 1 ((BitVec.ofNat 8 (bytes 1)).signExtend 64)
      ∧ loads 1 1 (BitVec.ofNat 64 (bytes 1))
      ∧ loads 2 2 ((BitVec.ofNat 16 (bytes 2)).signExtend 64)
      ∧ loads 3 2 (BitVec.ofNat 64 (bytes 2))
      ∧ loads 4 4 ((BitVec.ofNat 32 (bytes 4)).signExtend 64)
      ∧ loads 5 4 (BitVec.ofNat 64 (bytes 4))
      ∧ loads 6 8 (BitVec.ofNat 64 (bytes 8))
      ∧ (size = 7 → rd.getLsbD 0 = false → padAccess (addr 16) 16 → exec (.lds size rd base off) s
          = .next ((s.landS 6 rd (BitVec.ofNat 64 (bytes 16))).land 6
              (.sreg (rd.toNat + 1) (BitVec.ofNat 64 (bytes 16 / 2 ^ 64)))))
      ∧ (padAccess (addr 512) 512 → exec (.ldsv vd base off) s
          = .next (s.land 6 (.vrow vd.toNat rowAll (BitVec.ofNat 4096 (bytes 512)) 0)))
      ∧ (padAccess (addr 16) 16 → exec (.ldsk hi kd base off) s = .next (s.land 6 (.kmask kd.toNat
          (BitVec.ofNat 256 ((2 ^ 128 - 1) * 2 ^ (128 * hi.toNat))) (BitVec.ofNat 256 (bytes 16 * 2 ^ (128 * hi.toNat))))))
      ∧ (∀ b, padAccess (addr 32) 32 → sparseBlock (bytes 32) = some b → addr 32 + b.bytes ≤ 2 ^ 23 →
          exec (.ldsx vd base off) s
            = .next ((s.usePorts b.bytes).land 8 (.vrow vd.toNat rowAll (b.row (mread pad (addr 32) b.bytes)) 0)))
      ∧ (padAccess (addr 32) 32 → sparseBlock (bytes 32) = none →
          exec (.ldsx vd base off) s = .next (s.takeIssueTrap 0x18 s.ctx.pos 0))

/-- R32, R127 to R130: a scratchpad store writes its bytes in its issue clk: the state differs in the scratchpad of the core alone, and
there in the bytes stored alone. R263, R292, R293: `STSX` appends one block under a header in the scratchpad where it fits, with LEN counted
up and its bytes beyond 512, the header's 128 counted with them (log 32, the model's reading), noted against the port bandwidth of the copy
channels (R31); past CAP nothing is written and `SPARSE_OVERRUN` is
posted. -/
def Obligations.ScratchpadStores : Prop :=
  (∀ (s : State) (size : BitVec 3) (rd base : BitVec 6) (vd : BitVec 7) (hi : BitVec 1) (kd : BitVec 4) (off : BitVec 8),
       s.mayIssue → s.full [.s rd.toNat, .s (rd.toNat + 1), .s base.toNat, .v vd.toNat, .k kd.toNat] →
       immFits (.stsv vd base off) s.ctx.ext = true →
       let x := s.core s.ctx.core
       let addr (n : Nat) : Nat := (s.cur.s base.toNat + BitVec.ofInt 64 (immSigned s.ctx.ext 8 off * n)).toNat
       let stores (i : Instr) (n : Nat) (v : Nat) : Prop := padAccess (addr n) n →
         ∃ pad, exec i s = .next (s.setCore s.ctx.core { x with pad })
           ∧ (∀ j < n, mget (addr n + j) pad = BitVec.ofNat 8 (v / 256 ^ j))
           ∧ ∀ a, (a < addr n ∨ addr n + n ≤ a) → mget a pad = mget a x.pad
       (size.toNat ≤ 3 → stores (.sts size rd base off) (2 ^ size.toNat) (s.cur.s rd.toNat).toNat)
         ∧ (size = 4 → rd.getLsbD 0 = false → stores (.sts size rd base off) 16
             ((s.cur.s rd.toNat).toNat + 2 ^ 64 * (s.cur.s (rd.toNat + 1)).toNat))
         ∧ stores (.stsv vd base off) 512 (s.cur.v vd.toNat).toNat
         ∧ stores (.stsk hi kd base off) 16 ((s.cur.k kd.toNat).toNat / 2 ^ (128 * hi.toNat)))
    ∧ (∀ (s : State) (vd : BitVec 7) (base : BitVec 6) (off : BitVec 8), s.mayIssue → s.full [.s base.toNat, .v vd.toNat] →
       immFits (.stsx vd base off) s.ctx.ext = true →
       let x := s.core s.ctx.core
       let a := (s.cur.s base.toNat + BitVec.ofInt 64 (immSigned s.ctx.ext 8 off * 32)).toNat
       let h := Header.ofNat (mread x.pad a 64)
       let src := sparseSource s.cur vd.toNat
       let block := sparseStored src h.point
       let bytes := sparseBytes src.fmt (src.elems.countP (· ≠ 0))
       a + 64 ≤ 2 ^ 23 → a % 64 = 0 → h.addr < 2 ^ 23 → sparseHeaderBad h src true = false →
       (h.len + bytes ≤ h.cap → h.addr + h.len + bytes ≤ 2 ^ 23 →
           exec (.stsx vd base off) s = .next (s.setCore s.ctx.core { x with
             pad := mput (mput x.pad (a + 12) (natBytes 4 (h.len + bytes))) (h.addr + h.len) block,
             sparseClk := s.clk, sparseBytes := (if x.sparseClk = s.clk then x.sparseBytes else 0) + (128 + bytes - 512) }))
         ∧ (h.cap < h.len + bytes → exec (.stsx vd base off) s = .next (s.postHere 0x15)))

/-! ## Accesses and commands at issue -/

/-- R17, R266, R284, R287, R289, R290: a cluster or global load marks its destinations empty and enters the queue of its sequencer with its
address; nothing else of the bank but its run-ahead buffer changes. `PREF` writes no register and traps on no address. R266, R284, R288,
R292, R294: a cluster or global store enters the queue of its sequencer with its address and the data read at issue; no byte of memory
changes before the store is performed. -/
def Obligations.QueuedAccesses : Prop :=
  (∀ (s : State) (size : BitVec 3) (rd base : BitVec 6) (vd : BitVec 7) (off : BitVec 8), s.mayIssue →
       s.full [.s rd.toNat, .s (rd.toNat + 1), .s base.toNat, .v vd.toNat] → immFits (.ldgv vd base off) s.ctx.ext = true →
       (size = 7 → rd.getLsbD 0 = false) →
       let addr (n : Nat) : Nat := (s.cur.s base.toNat + BitVec.ofInt 64 (immSigned s.ctx.ext 8 off * n)).toNat
       let queued (i : Instr) (a : Nat) (rs : List Reg) : Prop := ∃ t, exec i s = .next t ∧ s.enteredQueue t i rs a [] 0
       (addr (loadBytes size) % loadBytes size = 0 → queued (.ldc size rd base off) (addr (loadBytes size))
           (if size = 7 then [.s rd.toNat, .s (rd.toNat + 1)] else [.s rd.toNat]))
         ∧ (addr (loadBytes size) % min (loadBytes size) 4 = 0 → queued (.ldg size rd base off) (addr (loadBytes size))
           (if size = 7 then [.s rd.toNat, .s (rd.toNat + 1)] else [.s rd.toNat]))
         ∧ (addr 512 % 512 = 0 → queued (.ldcv vd base off) (addr 512) [.v vd.toNat])
         ∧ (addr 512 % 16 = 0 → queued (.ldgv vd base off) (addr 512) [.v vd.toNat])
         ∧ (addr 32 % 32 = 0 → queued (.ldgx vd base off) (addr 32) [.v vd.toNat])
         ∧ (addr 512 % 16 ≠ 0 → exec (.ldgv vd base off) s = .next (s.takeIssueTrap 0x0C s.ctx.pos 0))
         ∧ ∃ t, exec (.pref base off) s = .next t ∧ t.cores = s.cores ∧ t.clk = s.clk ∧ t.ctx = s.ctx)
    ∧ (∀ (s : State) (size : BitVec 3) (rd base : BitVec 6) (vd : BitVec 7) (off norm : BitVec 8), s.mayIssue →
       s.full [.s rd.toNat, .s (rd.toNat + 1), .s base.toNat, .v vd.toNat] → immFits (.stgv vd base off) s.ctx.ext = true →
       size.toNat ≤ 4 → (size = 4 → rd.getLsbD 0 = false) →
       let addr (n : Nat) : Nat := (s.cur.s base.toNat + BitVec.ofInt 64 (immSigned s.ctx.ext 8 off * n)).toNat
       let n := 2 ^ size.toNat
       let queued (i : Instr) (a : Nat) (ops : List SReg) (row : Row) : Prop :=
         ∃ t, exec i s = .next t ∧ s.enteredQueue t i [] a ops row
       let pair : List SReg := [s.cur.s rd.toNat, s.cur.s (rd.toNat + 1)]
       let v := s.cur.v vd.toNat
       let src := sparseSource s.cur vd.toNat
       (addr n % n = 0 → queued (.stc size rd base off) (addr n) pair 0)
         ∧ (addr n % min n 4 = 0 → queued (.stg size rd base off) (addr n) pair 0)
         ∧ (addr 512 % 512 = 0 → queued (.stcv vd base off) (addr 512) [] v)
         ∧ (addr 512 % 16 = 0 → queued (.stgv vd base off) (addr 512) [] v)
         ∧ ((s.cur.s base.toNat).toNat % 16 = 0 → queued (.stgn vd base norm) (s.cur.s base.toNat).toNat
             [BitVec.ofNat 64 (s.cur.viewOf vd.toNat)] v)
         ∧ (addr 32 % 64 = 0 → queued (.stgx vd base off) (addr 32) [BitVec.ofNat 64 src.fmt, src.tag.setWidth 64] v)
         ∧ (addr 512 % 16 ≠ 0 → exec (.stgv vd base off) s = .next (s.takeIssueTrap 0x0C s.ctx.pos 0)))

/-- R303, R306, R311, R312, R352, R355: a chain in the scratchpad or in cluster memory that keeps its rules enters the queue of its copy
channel with the issuer captured, and its counted bytes, or a provisional byte on each barrier where a header decides them or a gather's
pattern has still to be written (log 41), are added first; a chain that breaks them, or whose bytes the barriers cannot take, is refused
with a posted `ENGINE`. R331, R336, R350, R352, R356, R357, R359: a stash command enters the stash queue of its core with its key and the
issuer captured, and with a barrier it adds a provisional byte; where that byte would pass 2^28 - 1 the command is refused with a posted
`ENGINE`. Behind another command on its key it waits its turn; otherwise a `STASH` gives its entry its state at once (the state under
`.auto` is the model's choice, log 20), and a fetch makes its entry READY where the destination is its home, else FETCHING. -/
def Obligations.CopyAndStashAcceptance : Prop :=
  (∀ (s : State) (gath : Bool) (opa : BitVec 6) (inCluster : BitVec 1) (chan : BitVec 2) (l : List CopyBlock), s.mayIssue →
       s.full [.s opa.toNat] →
       let a := (s.cur.s opa.toNat).toNat
       let x := s.core s.ctx.core
       let k := clusterOf s.ctx.core
       let d := dieOf s.ctx.core
       let i : Instr := if gath then .gath opa inCluster chan else .cpy opa inCluster chan
       let read (b : Nat) : Nat ⊕ Nat :=
         if inCluster = 1 then
           match (s.cluster k).check b 64 with
           | some cause => .inl cause
           | none => .inr (mread (s.cluster k).cmem b 64)
         else if 2 ^ 23 < b + 64 then .inl 0x1D else .inr (mread x.pad b 64)
       let elem (b : CopyBlock) : Nat := patternBytes (tget 0 (b.aux % 64) (s.die d).patterns)
       let bs := deferGathers (s.pendingPatterns d) l
       let headers : Prop := ∃ b ∈ bs, b.isHeader = true ∨ b.deferred = true
       let counts := bs.map fun b => b.plainCount (elem b)
       let bars := bs.map (·.bar)
       a % 64 = 0 → (inCluster = 0 → a + 64 ≤ 2 ^ 23) → (x.channel chan.toNat).queue.length < 8 → readChain read 17 a = .inr l →
       (chainBad elem bs = false → wrongOpcode gath bs = false →
           (∀ s', (headers → s.provisional k bars.eraseDups = some s') → (¬ headers → s.countBlocks k (bars.zip counts) = some s') →
             ∃ t cmd, exec i s = .next t ∧ t.clusters = s'.clusters
               ∧ ((t.core s.ctx.core).channel chan.toNat).queue = (x.channel chan.toNat).queue ++ [cmd]
               ∧ cmd.blocks = bs ∧ cmd.started = false ∧ cmd.who.core = s.ctx.core ∧ cmd.who.bank = s.ctx.bank
               ∧ cmd.who.priv = s.cur.priv ∧ cmd.who.issued = s.clk ∧ cmd.who.seeds = s.cur.seeds
               ∧ (¬ headers → cmd.counted = counts))
           ∧ ((headers ∧ s.provisional k bars.eraseDups = none) ∨ (¬ headers ∧ s.countBlocks k (bars.zip counts) = none) →
             exec i s = .next (s.postHere 0x1D)))
         ∧ (chainBad elem bs = true ∨ wrongOpcode gath bs = true → exec i s = .next (s.postHere 0x1D)))
    ∧ (∀ (s : State) (opa opb bar : BitVec 6) (mode : BitVec 3), s.mayIssue → s.full [.s opa.toNat, .s opb.toNat] →
       let c := s.ctx.core
       let d := dieOf c
       let x := s.core c
       let k := clusterOf c
       let a := (s.cur.s opa.toNat).toNat
       let key := (s.cur.s opb.toNat).toNat % 2 ^ 32
       let y := s.barrier k bar.toNat
       let counted : Barrier := { y with pending := y.pending + 1 }
       let old := tfind key (s.die d).stash
       let idle : Prop := (s.die d).turn key = none
       let entered (i : Instr) (p : StashCmd → Prop) (q : State → Prop) : Prop := ∃ t cmd, exec i s = .next t
         ∧ (t.core c).stashQueue = x.stashQueue ++ [s.nextEntry] ∧ cmd ∈ (t.die d).stashRunning ∧ cmd.id = s.nextEntry
         ∧ cmd.key = key ∧ cmd.who.core = c ∧ cmd.who.bank = s.ctx.bank ∧ (cmd.begun = true ↔ idle) ∧ p cmd ∧ q t
       let stashed (cmd : StashCmd) : Prop := cmd.op = 0 ∧ cmd.mode = mode.toNat ∧ cmd.header = a ∧ cmd.bar = some bar.toNat
         ∧ cmd.resv = 32 * ((s.cur.s opb.toNat).extractLsb' 32 16).toNat
       let fetching (cmd : StashCmd) : Prop := cmd.op = 1 ∧ cmd.header = a ∧ cmd.bar = some bar.toNat
       x.stashQueue.length < 8 →
       (a % 64 = 0 → mode.toNat ≤ 6 → y.pending + 1 < 2 ^ 28 →
           (¬ idle → entered (.stash opa opb bar mode) stashed (fun t => t.barrier k bar.toNat = counted)
             ∧ entered (.sfetch opa opb bar) fetching (fun t => t.barrier k bar.toNat = counted))
           ∧ (idle → (∀ e, old = some e → e.state ∉ [3, 5, 7, 8]) → (old = none → (s.die d).stash.length < 4096) →
             entered (.stash opa opb bar mode) stashed fun t => t.barrier k bar.toNat = counted
               ∧ ∃ e, tfind key (t.die d).stash = some e ∧ e.header = a ∧ e.loc = 1
                 ∧ e.state = (match mode.toNat with
                   | 1 => 2
                   | 2 => 4
                   | 3 | 4 => 6
                   | 6 => 0
                   | _ => 1))
           ∧ (idle → (old = none ∧ 4096 ≤ (s.die d).stash.length) ∨ (∃ e, old = some e ∧ e.state ∈ [3, 5, 7]) →
             ∃ t p, exec (.stash opa opb bar mode) s = .next t ∧ t.barrier k bar.toNat = y ∧ t.cur.posted = s.cur.posted ++ [p]
               ∧ p.cause = 0x1D)
           ∧ (idle → ∀ e, old = some e → e.state ≠ 0 → e.state ≠ 8 →
             entered (.sfetch opa opb bar) fetching fun t => t.barrier k bar.toNat = counted
               ∧ tfind key (t.die d).stash = some { e with state := if (e.state = 1 ∨ e.state = 10) ∧ a = e.header then 10 else 9 })
           ∧ (idle → (old = none ∨ ∃ e, old = some e ∧ (e.state = 0 ∨ e.state = 8)) →
             ∃ t, exec (.sfetch opa opb bar) s = .next t
               ∧ t.barrier k bar.toNat = (counted.fail 3 0x1D).subtract 1))
         ∧ (a % 64 = 0 → mode.toNat ≤ 6 → 2 ^ 28 ≤ y.pending + 1 →
             exec (.stash opa opb bar mode) s = .next (s.postHere 0x1D)
             ∧ exec (.sfetch opa opb bar) s = .next (s.postHere 0x1D))
         ∧ entered (.sfree opb) (fun cmd => cmd.op = 2 ∧ cmd.bar = none) (fun t => t.clusters = s.clusters))

/-- R350, R351, R354, R358, R361, R362, R364 to R367, R369, R370: a probe and the accesses of a norm register become entries of their
sequencer's queues; a command of the command port occupies it, and with `CHPOST` and `CHACK` waits in the device behind the entries that its
rule names. -/
def Obligations.QueuedCommands : Prop :=
  ∀ (s : State) (opa opb chan : BitVec 6) (scope : BitVec 3) (wantE : BitVec 1) (norm : BitVec 8), s.mayIssue →
    s.full [.s opa.toNat, .s (opa.toNat + 1), .s opb.toNat] →
    let a := s.cur.s opa.toNat
    let b := s.cur.s opb.toNat
    let entered (i : Instr) (rs : List Reg) (ops : List SReg) : Prop := ∃ t, exec i s = .next t ∧ s.enteredQueue t i rs 0 ops 0
    let accepted (i : Instr) (addr : Nat) (ops : List SReg) (behind : QEntry → Bool) : Prop := ∃ t cmd, exec i s = .next t
      ∧ t.commands = s.commands ++ [cmd] ∧ cmd.ins = i ∧ cmd.addr = addr ∧ cmd.ops = ops ∧ cmd.id = s.nextEntry
      ∧ cmd.waits = (s.cur.queue.filter behind).map (·.id) ∧ cmd.who.core = s.ctx.core ∧ cmd.who.bank = s.ctx.bank
      ∧ cmd.who.priv = s.cur.priv ∧ cmd.who.issued = s.clk ∧ t.cores = s.cores ∧ s.sameMemory t ∧ t.ctx = s.ctx
      ∧ (cmd.onPort = true → t.portBusy = true)
    entered (.sprobe opa opb) [.s opa.toNat] [b]
      ∧ (opa.getLsbD 0 = false → entered (.nrmrd opa wantE norm) [.s opa.toNat, .s (opa.toNat + 1)] [])
      ∧ entered (.nrmclr norm) [] []
      ∧ (-128 ≤ a.toInt → a.toInt ≤ 127 → entered (.nrmset opa norm) [] [a])
      ∧ (a.toNat % 64 = 0 → accepted (.chpost opa chan) a.toNat [] fun e => match e.ins with
        | .fence order _ | .amo order .. => order = 2 || order = 3
        | .barr _ => true
        | _ => false)
      ∧ (b.toNat % 64 = 0 → accepted (.chack opb chan) 0 [b] fun e => (entryKinds e).loads)
      ∧ (s.portBusy = false →
          (a.toNat % 65536 = 0 → b.toNat % 65536 = 0 → 0 < b.toNat → b.toNat ≤ 2 ^ 30 →
            accepted (.shopen opa opb) a.toNat [b] fun _ => false)
          ∧ (scope.toNat ≤ 5 → accepted (.publish opa scope) a.toNat [] fun e => (entryKinds e).stores)
          ∧ (a.toNat ≤ 8 → accepted (.split opa) 0 [a] isClusterAccess)
          ∧ (scope.toNat ≤ 3 → accepted (.ckpt opb scope) 0 [b, s.cur.lastStep] fun _ => false))
      ∧ (s.portBusy = true →
          (a.toNat ≤ 8 → exec (.split opa) s = .next s.hold)
          ∧ (scope.toNat ≤ 5 → exec (.publish opa scope) s = .next s.hold)
          ∧ (scope.toNat ≤ 3 → exec (.ckpt opb scope) s = .next s.hold)
          ∧ (a.toNat % 65536 = 0 → b.toNat % 65536 = 0 → 0 < b.toNat → b.toNat ≤ 2 ^ 30 → exec (.shopen opa opb) s = .next s.hold))

/-- R319, R323, R349, R352, R360, R363: a packet enters the send queue of a channel bound to the issuer's stage, and a bucket the collective
engine, each with a provisional byte on its barrier; a channel not so bound refuses the packet with a posted `CHANNEL`. -/
def Obligations.ChannelAndCollectiveAcceptance : Prop :=
  ∀ (s : State) (opa opb chan bar : BitVec 6), s.mayIssue → s.full [.s opa.toNat, .s opb.toNat] →
    let k := clusterOf s.ctx.core
    let a := (s.cur.s opa.toNat).toNat
    let d := s.cur.s opb.toNat
    let c := s.tensor chan.toNat
    let stage := (s.cur.task.map (·.stage)).getD 0
    let mine : Prop := c.bound = true ∧ c.sender = true ∧ c.stage = stage
    let y := s.barrier k (d.extractLsb' 4 6).toNat
    let z := s.barrier k bar.toNat
    a % 64 = 0 →
    (d.extractLsb' 10 6 = 0 → (d.extractLsb' 0 3 = 0 ∨ d.extractLsb' 0 3 = 2) → c.sq.length < 16 →
        (mine → (d.getLsbD 3 = true → y.pending + 1 < 2 ^ 28) → ∃ t p, exec (.chsend opa opb chan) s = .next t
          ∧ (t.tensor chan.toNat).sq = c.sq ++ [p] ∧ p.headerAddr = a ∧ p.descriptor = d ∧ p.header = none
          ∧ (d.getLsbD 3 = true →
              t.barrier k (d.extractLsb' 4 6).toNat = { y with pending := y.pending + 1 })
          ∧ (d.getLsbD 3 = false → t.clusters = s.clusters))
        ∧ (¬ mine → exec (.chsend opa opb chan) s = .next (s.postHere 0x19)))
      ∧ (s.buckets.length < 64 → z.pending + 1 < 2 ^ 28 → ∃ t p, exec (.coll opa bar) s = .next t
          ∧ t.buckets = s.buckets ++ [p] ∧ p.descAddr = a ∧ p.bar = bar.toNat ∧ p.started = false
          ∧ t.barrier k bar.toNat = { z with pending := z.pending + 1 })
      ∧ (s.buckets.length < 64 → 2 ^ 28 ≤ z.pending + 1 → exec (.coll opa bar) s = .next (s.postHere 0x1D))

/-- R346, R347, R368: `REPLAY` of a snapshot puts the generators and seeds that its record holds for the issuer into its registers 4 clk
later, marks its segment as replayed, and restores the other sequencers that the snapshot covers (2 clk after issue, within the bound of
R346; log 38); without a record, or with one that covers another number, it raises `ENGINE`. `WPWAIT` passes once the write pointer has come
far enough. -/
def Obligations.ReplayAndWritePointer : Prop :=
  ∀ (s : State) (opa opb : BitVec 6) (chan : BitVec 2) (r : SnapRecord) (w i : Nat), s.mayIssue → s.full [.s opa.toNat, .s opb.toNat] →
    let stage := (s.cur.task.map (·.stage)).getD 0
    let tag := (s.cur.s opb.toNat).toNat % 65536
    let a := (s.cur.s opa.toNat).toNat
    let found := s.snapOf stage tag
    let l := (s.covered s.ctx.core s.ctx.bank r.scope).zipIdx
    let bytes (j : Nat) : Nat := s.snapImage (s.extentsOf s.cur) (s.snapDie stage tag) r / 256 ^ (64 + 256 * j + 8) % 256 ^ 224
    let landing (wr : RegWrite) : InFlight :=
      { due := s.clk + 4, issued := s.clk, pos := s.ctx.pos, bundle := s.ctx.addr, write := wr }
    (found = some r → l.length = r.covered.length → (l.filter fun e => e.1.2 = s.me) = [((w, s.me), i)] →
        ∃ t, exec (.replay opb) s = .next t ∧ t.cur.replaying = some (stage, tag)
          ∧ t.cur.inFlight = s.cur.inFlight
              ++ ((List.range 4).map fun g => landing (.gen g (tget {} g (regGens (bytes i))).key (tget {} g (regGens (bytes i))).ctr))
              ++ ((List.range 16).map fun n => landing (.seed n (tget ⟨0, 0⟩ n (regSeeds (bytes i)))))
          ∧ t.calendar = s.calendar ++ (l.filter fun e => e.1.2 ≠ s.me).map fun e =>
              (s.clk + 2, .replayRestore e.1.2.1 e.1.2.2 stage tag (regGens (bytes e.2)) (regSeeds (bytes e.2))))
      ∧ ((found = none ∨ (found = some r ∧ l.length ≠ r.covered.length)) → exec (.replay opb) s = .next (s.postHere 0x1D))
      ∧ (a ≤ (s.curCore.channel chan.toNat).offset → a < 2 ^ 24 → exec (.wpwait opa chan) s = .next s)
      ∧ ((s.curCore.channel chan.toNat).offset < a → a < 2 ^ 24 → (s.curCore.channel chan.toNat).queue ≠ [] →
          exec (.wpwait opa chan) s = .next s.hold)
      ∧ ((s.curCore.channel chan.toNat).offset < a → a < 2 ^ 24 → (s.curCore.channel chan.toNat).queue = [] →
          exec (.wpwait opa chan) s = .next (s.postHere 0x1D))
      ∧ (2 ^ 24 ≤ a → exec (.wpwait opa chan) s = .next (s.takeIssueTrap 0x03 s.ctx.pos 0))

/-! ## Queues, barriers, markers and atomics -/

/-- R215, R216, R220: a delivery leaves four words for the quad, landing 4 clk later, and marks the quad empty; the oldest record leaves the
queue, a closed queue without records gives END, and an empty open one makes `DEQ` wait and gives `DEQT` the empty result, which makes
demand for one round. R218 to R220: `ENQ` reserves a place in an open queue whose records and reserved places are fewer than 64, or in the
arrivals of its stage, and waits as a marker; `QCLOSE` closes a queue, and an `ENQ` to a closed one is refused with a posted `ENGINE`. -/
def Obligations.WorkQueues : Prop :=
  (∀ (s : State) (grp : BitVec 4) (wq : BitVec 6) (stage : Nat), s.mayIssue → s.full (quad grp) → grp ≠ 0 →
       s.ownerOf wq.toNat = some stage →
       let q := s.wq wq.toNat
       let delivered (i : Instr) (words : List SReg) (rest : List QRecord) (once : Bool) : Prop := ∃ t l e, exec i s = .next t
         ∧ t.cur.queue = l ++ [e] ∧ (∀ o ∈ s.cur.queue, o.phase ≠ 2 → o ∈ l) ∧ e.ins = i ∧ e.ops = words ∧ e.phase = 1 ∧ e.addr = s.clk + 4
         ∧ (t.wq wq.toNat).records = rest ∧ (t.wq wq.toNat).once = (q.once || once) ∧ (∀ r ∈ quad grp, t.cur.isEmpty r = true)
         ∧ t.cur.waiting = none ∧ s.cur.sameRegisters t.cur ∧ s.sameMemory t
       q.bound = [] → (q.waiters = [] ∨ q.waiters = [(s.ctx.core, s.ctx.bank)]) →
       (∀ r rest, q.records = r :: rest → delivered (.deq grp wq) r.words rest false ∧ delivered (.deqt grp wq) r.words rest false)
         ∧ (q.records = [] → q.closed = true →
             delivered (.deq grp wq) [7, 0, 0, 0] [] false ∧ delivered (.deqt grp wq) [7, 0, 0, 0] [] false)
         ∧ (q.records = [] → q.closed = false → delivered (.deqt grp wq) [0, 0, 0, BitVec.ofNat 64 (2 ^ 63)] [] true
             ∧ ∃ t, exec (.deq grp wq) s = .next t ∧ t.ctx.status = .held ∧ s.cur.sameRegisters t.cur))
    ∧ (∀ (s : State) (grp : BitVec 4) (wq : BitVec 6) (stage : Nat), s.mayIssue → s.full (quad grp) → grp ≠ 0 →
       s.ownerOf wq.toNat = some stage →
       let q := s.wq wq.toNat
       let taken := q.records.length + q.reserved
       let word (j : Nat) : SReg := s.cur.s (4 * grp.toNat + j)
       let kind := ((word 0).extractLsb' 0 3).toNat
       let arrival := (word 0).getLsbD 7
       let sound : Prop := (word 0).extractLsb' 34 30 = 0 ∧ (word 0).extractLsb' 3 4 = 0 ∧ (kind < 4 ∨ kind = 7)
         ∧ (arrival = true → kind = 0 ∨ kind = 2) ∧ (word 3).extractLsb' 32 32 = 0
       let entered (p : State → Prop) : Prop := ∃ t, exec (.enq grp wq) s = .next t
         ∧ s.enteredWith t t.queues t.stages (.enq grp wq) [] 0 [word 0, word 1, word 2, word 3] 0 ∧ p t
       let full : Prop := (s.stage stage).arrivalFull (decide (kind = 2)) = true
       (sound → arrival = false → q.closed = false → taken < 64 → entered fun t =>
           t.queues = tset wq.toNat { q with reserved := q.reserved + 1 } s.queues ∧ t.stages = s.stages)
         ∧ (sound → arrival = false → q.closed = false → 64 ≤ taken → exec (.enq grp wq) s = .next s.hold)
         ∧ (sound → arrival = false → q.closed = true → exec (.enq grp wq) s = .next (s.postHere 0x1D))
         ∧ (sound → arrival = true → ¬ full → entered fun t =>
           t.queues = s.queues ∧ t.stages = tset stage (if kind = 2 then
               { s.stage stage with bReserved := (s.stage stage).bReserved + 1 }
             else { s.stage stage with fReserved := (s.stage stage).fReserved + 1 }) s.stages)
         ∧ (sound → arrival = true → full → exec (.enq grp wq) s = .next s.hold)
         ∧ (¬ sound → exec (.enq grp wq) s = .next (s.takeIssueTrap 0x03 s.ctx.pos 0))
         ∧ (q.closed = false → ∃ t, exec (.qclose wq) s = .next t
             ∧ t.wq wq.toNat = { q with closed := true, closer := some s.ctx.core })
         ∧ (q.closed = true → exec (.qclose wq) s = .next s))

/-- R224, R226, R267, R295, R298: the barrier requests, the markers and the atomics become entries of their sequencer's queues; an atomic
with a result marks its destination empty. -/
def Obligations.MarkersAndAtomics : Prop :=
  ∀ (s : State) (opa opb bar : BitVec 6) (order : BitVec 2) (nr size : BitVec 1) (scope : BitVec 3) (fn : BitVec 4),
    s.mayIssue → s.full [.s opa.toNat, .s (opa.toNat + 1), .s opb.toNat] →
    let a := s.cur.s opa.toNat
    let b := s.cur.s opb.toNat
    let entered (i : Instr) (rs : List Reg) (addr : Nat) (ops : List SReg) : Prop :=
      ∃ t, exec i s = .next t ∧ s.enteredQueue t i rs addr ops 0
    (0 < a.toNat → a.toNat ≤ 65535 → entered (.binit opa bar) [] 0 [a])
      ∧ entered (.barr bar) [] 0 []
      ∧ (a.toNat < 2 ^ 28 → entered (.bexp opa bar) [] 0 [a])
      ∧ entered (.bpoll opa bar) [] 0 []
      ∧ (order ≠ 0 → scope.toNat ≤ 5 → entered (.fence order scope) [] 0 [])
      ∧ entered .qalign [] 0 []
      ∧ (fn.toNat ≤ 10 → ¬ (fn = 10 ∧ size = 1) → (fn = 9 → opa.getLsbD 0 = false) → scope.toNat ≤ 5 →
          b.toNat % (if size = 0 then 4 else 8) = 0 →
          entered (.amo order opa opb nr scope size fn) (if nr = 0 then [.s opa.toNat] else []) b.toNat
            [a, s.cur.s (opa.toNat + 1)])
      ∧ (fn.toNat ≤ 10 → ¬ (fn = 10 ∧ size = 1) → (fn = 9 → opa.getLsbD 0 = false) → scope.toNat ≤ 5 →
          b.toNat % (if size = 0 then 4 else 8) ≠ 0 →
          exec (.amo order opa opb nr scope size fn) s = .next (s.takeIssueTrap 0x0C s.ctx.pos 0))

/-- R225, R227, R451: a `BWAIT` awaits the phase it chose when its bundle first reached issue: the arrival phase of its sequencer, or else
the present one (chosen anew after a drain where there was no arrival phase, log 66); it chooses none while a `BARR` of its own is under
way. It passes once that phase has completed in an earlier clk: its arrival phase is used up, the run-ahead buffer is emptied, and the
phase's error code lands 2 clk later, or 0xFFFF of one that completed longer ago; with `.te` a code is posted as its cause, 0xFFFF as
`ENGINE`. `PHADV` counts the phase up, to be sent to the neighbours in the next clk, unless that would put it more than L ahead of the
least neighbour, by their signed difference. -/
def Obligations.BarrierWaitAndPhase : Prop :=
  ∀ (s : State) (opa bar : BitVec 6) (te : BitVec 1), s.mayIssue → s.full [.s opa.toNat] →
    let x := s.barrier (clusterOf s.ctx.core) bar.toNat
    let awaited := (tfind bar.toNat s.cur.arrival).getD x.phase
    let held (q : BitVec 8) : Prop := ∃ w, s.cur.waiting = some w ∧ w.bundle = s.ctx.addr ∧ w.phase = some q
    let fresh : Prop := ∀ w ∈ s.cur.waiting, w.bundle ≠ s.ctx.addr ∨ w.phase = none
    let chosen (q : BitVec 8) : Prop := held q ∨ (fresh ∧ s.cur.barrPending s.clk bar.toNat = false ∧ q = awaited)
    let code (q : BitVec 8) : Nat := if x.phase = q + 1 then x.lastErr else 0xFFFF
    let passed (q : BitVec 8) : State :=
      (s.setCur { s.cur with waiting := none, arrival := tdel bar.toNat s.cur.arrival, runAhead := [] }).landS 2
        opa (BitVec.ofNat 64 (code q))
    let p := s.regs.phase
    let ahead (l : BitVec 32) : Prop := (s.regs.lead : Int) < (p + 1 - l).toInt
    let neighbours := s.regs.lasts
    let least (l : BitVec 32) : Prop := l ∈ neighbours ∧ ∀ m ∈ neighbours, (l - p).toInt ≤ (m - p).toInt
    let advanced : State :=
      { s with regs := { s.regs with phase := p + 1 }, calendar := s.calendar ++ [(s.clk + 1, .phaseFlit)] }
    (∀ q, chosen q → x.phase ≠ q → (x.phase = q + 1 → x.doneClk < s.clk) →
        (te = 0 ∨ code q = 0 → exec (.bwait opa te bar) s = .next (passed q))
        ∧ (te = 1 → code q ≠ 0 → exec (.bwait opa te bar) s
            = .next ((passed q).postHere (if code q = 0xFFFF then 0x1D else code q % 256))))
      ∧ (∀ q, chosen q → x.phase = q ∨ (x.phase = q + 1 ∧ s.clk ≤ x.doneClk) →
          ∃ t w, exec (.bwait opa te bar) s = .next t ∧ t.ctx.status = .held ∧ s.cur.sameRegisters t.cur
            ∧ t.cur.waiting = some w ∧ w.bundle = s.ctx.addr ∧ w.phase = some q ∧ t.cur.arrival = s.cur.arrival)
      ∧ (s.cur.waiting = none → s.cur.barrPending s.clk bar.toNat = true → exec (.bwait opa te bar) s = .next s.hold)
      ∧ (neighbours = [] → exec .phadv s = .next advanced)
      ∧ (∀ l ∈ neighbours, least l →
          (¬ ahead l → exec .phadv s = .next advanced)
          ∧ (ahead l → exec .phadv s = .next s.hold))

/-! ## The system class -/

/-- R417 to R419, R427: reads and writes of bank and core registers: a read lands 2 clk after issue, a write 1 clk after; the other
registers of the map are reached by an entry of the queues, with the destination of a read marked empty. -/
def Obligations.CsrAccess : Prop :=
  ∀ (s : State) (opa : BitVec 6) (csr : BitVec 12), s.mayIssue → s.full [.s opa.toNat] → s.cur.priv = true →
    csrKnown csr.toNat = true →
    let n := csr.toNat
    let a := s.cur.s opa.toNat
    (csrLocal n = true →
        exec (.csrr opa csr) s = .next (s.landS 2 opa (s.readLocal n))
        ∧ exec (.csrw opa csr) s = .next (s.land 1 (.csr n (a &&& (rwLocal n ||| woLocal n))))
        ∧ exec (.csrs opa csr) s = .next (s.land 1 (.csr n ((s.readLocal n ||| a) &&& rwLocal n)))
        ∧ exec (.csrc opa csr) s = .next (s.land 1 (.csr n (s.readLocal n &&& ~~~a &&& rwLocal n))))
      ∧ (csrLocal n = false →
        (∃ t, exec (.csrr opa csr) s = .next t ∧ s.enteredQueue t (.csrr opa csr) [.s opa.toNat] 0 [] 0)
        ∧ (∃ t, exec (.csrw opa csr) s = .next t ∧ s.enteredQueue t (.csrw opa csr) [] 0 [a] 0)
        ∧ (∃ t, exec (.csrs opa csr) s = .next t ∧ s.enteredQueue t (.csrs opa csr) [] 0 [a] 0)
        ∧ ∃ t, exec (.csrc opa csr) s = .next t ∧ s.enteredQueue t (.csrc opa csr) [] 0 [a] 0)

/-- R421 to R423: `TRET` resumes at the record's PC 4 clk later with PRIV of the record, INTRAP clear and no run-ahead; `CTXSW` starts a
drain where the other bank may run and otherwise does nothing; an `IDLE` that a wake has reached goes on, and one without waits. R424, R425:
a swap-out of a partition that does not hold the issuer begins; a swap-in begins where every other core of the partition is in `IDLE`, and
stops every named bank; otherwise a posted `ENGINE`. -/
def Obligations.ReturnSwitchIdleAndSwap : Prop :=
  (∀ (s : State), s.mayIssue → s.cur.priv = true →
       let x := s.core s.ctx.core
       let other := x.bank (1 - s.ctx.bank)
       exec .tret s = .next ((s.setCur { s.cur with
           pc := (tget 0 2 s.cur.trec).toNat, priv := (tget 0 0 s.cur.trec).getLsbD 11, inTrap := false, runAhead := [] }).transfer
             (tget 0 2 s.cur.trec).toNat 4)
         ∧ (other.state = .runnable → other.stopped = false → x.drain = none → exec .ctxsw s
             = .next (s.setCore s.ctx.core { x with drain := some { bank := s.ctx.bank, reason := .ctxsw, since := s.clk } }))
         ∧ (¬ (other.state = .runnable ∧ other.stopped = false) → exec .ctxsw s = .next s)
         ∧ (x.wakePending = true → ∃ t, exec .idle s = .next t ∧ t.curCore.wakePending = false ∧ t.cur.idle = false
             ∧ t.ctx.status = s.ctx.status ∧ s.cur.sameRegisters t.cur)
         ∧ (x.wakePending = false → s.cur.woken = false → ∃ t, exec .idle s = .next t ∧ t.cur.idle = true
             ∧ t.ctx.status = .held ∧ s.cur.sameRegisters t.cur))
    ∧ (∀ (s : State) (opa : BitVec 6), s.mayIssue → s.full [.s opa.toNat] → s.cur.priv = true → (s.cur.s opa.toNat).toNat < 32 →
       let p := (s.cur.s opa.toNat).toNat % 16
       let b := (s.cur.s opa.toNat).toNat / 16
       let inside : Prop := s.ctx.core ∈ s.partitionCores p
       let resumes : Prop := inside ∧ s.ctx.bank = b ∧ s.swapStatus p b = 2
         ∧ ∀ c ∈ s.partitionCores p, c ≠ s.ctx.core → (s.bank c b).idle = true
       (¬ inside → s.swapStatus p b = 0 → s.needsAlternate p b = false →
           exec (.swpout opa) s = .next { s with
             swaps := s.swaps ++ [{ partition := p, bank := b, inward := false, save := s.saveArea p }] })
         ∧ (inside ∨ s.swapStatus p b ≠ 0 → exec (.swpout opa) s = .next (s.postHere 0x1D))
         ∧ (resumes → ∃ t, exec (.swpin opa) s = .next t
             ∧ t.swaps = s.swaps ++ [{ partition := p, bank := b, inward := true, save := s.saveArea p }]
             ∧ ∀ c ∈ s.partitionCores p, (t.bank c b).stopped = true)
         ∧ (¬ resumes → exec (.swpin opa) s = .next (s.postHere 0x1D)))

/-- R426, R428 to R430: seeds and generators are loaded at issue + 1; a revocation and the balloon commands enter the queues of their
sequencer, and a migration its engine. -/
def Obligations.SystemCommands : Prop :=
  ∀ (s : State) (opa opb : BitVec 6) (seed : BitVec 4) (gen : BitVec 2), s.mayIssue →
    s.full [.s opa.toNat, .s opb.toNat] → s.cur.priv = true →
    let a := s.cur.s opa.toNat
    let b := s.cur.s opb.toNat
    let entered (i : Instr) (ops : List SReg) : Prop := ∃ t, exec i s = .next t ∧ s.enteredQueue t i [] 0 ops 0
    (b.toNat < 4096 → exec (.seedld opa opb seed) s = .next (s.land 1 (.seed seed.toNat ⟨b.setWidth 12, a⟩)))
      ∧ exec (.genld opa opb gen) s = .next (s.land 1 (.gen gen.toNat a b))
      ∧ (a.toNat % 4096 = 0 → b.toNat % 4096 = 0 → 0 < b.toNat → b.toNat ≤ 2 ^ 48 → entered (.extinv opa opb) [a, b])
      ∧ (a.toNat % 64 = 0 → ∃ t m, exec (.migr opa) s = .next t ∧ t.migrations = s.migrations ++ [m] ∧ m.addr = a.toNat
          ∧ m.taken = false ∧ m.who.core = s.ctx.core ∧ m.who.bank = s.ctx.bank ∧ t.cores = s.cores ∧ t.dies = s.dies)
      ∧ (a.toNat % 4096 = 0 →
          entered (.balloonAddb opa) [a] ∧ entered (.balloonAddt opa) [a] ∧ entered (.balloonDeflate opa) [a])
      ∧ entered (.balloonClrb opa) [a] ∧ entered (.balloonClrt opa) [a]

/-! ## Steps of the memory system -/

/-- R17, R22, R268, R275, R285 to R287: a load of 1 to 16 bytes that lies in one sector is performed at its point: its register or pair is
filled with the bytes at its address, sign-extended; a check that fails posts its trap, and a restartable one keeps the load (R281). A load
that has claimed a run-ahead entry whose data a load performed at issue would have returned gives those data (R29; log 9, the model's
reading). Where a result of a later slot has landed in a register in that clk, the register keeps it (R22). R275, R289: a row load is
performed in 32 pieces of 16 bytes in any order: a piece adds its bytes to the entry, and the last one fills the vector register with all of
them. R338, R358, R369, R417: a probe reads the status word of its stash entry, `NRMRD` its norm register and `CSRR` its register. -/
def Obligations.LoadsPerformed : Prop :=
  (∀ (s : State) (c b i : Nat) (out : List (Bool × Nat × BitVec 8)) (e : QEntry) (size : BitVec 3) (rd x : BitVec 6) (off : BitVec 8),
       s.failed = false → s.performable c b i = some e → e.done = [] → e.got = 0 → e.phase = 0 →
       let n := loadBytes size
       e.addr % n = 0 ∨ e.addr % 32 + n ≤ 32 →
       let q := s.cluster (clusterOf c)
       let s' := s.outside out
       let k := s'.bank c b
       let checked := s'.checkGlobal (s'.extentsOf k) e.priv false true e.addr n
       let kept (r : Nat) (v : SReg) : Nat × SReg := (r, if k.overtaken s.clk e (.s r) = true then k.s r else v)
       let loaded (v : Nat) : Prop := ∃ t, exec (.loadPerform c b i 0 out) s = .next t
         ∧ s.performed t c b i (if size = 7 then [kept rd.toNat (BitVec.ofNat 64 v), kept (rd.toNat + 1) (BitVec.ofNat 64 (v / 2 ^ 64))]
           else [kept rd.toNat (if size = 0 then (BitVec.ofNat 8 v).signExtend 64 else if size = 2 then (BitVec.ofNat 16 v).signExtend 64
             else if size = 4 then (BitVec.ofNat 32 v).signExtend 64 else BitVec.ofNat 64 v)])
       (e.ins = .ldc size rd x off → e.claimed = none →
           (q.check e.addr n = none → loaded (mread q.cmem e.addr n))
           ∧ ∀ cause, q.check e.addr n = some cause →
             exec (.loadPerform c b i 0 out) s = .next (s'.failEntry c b i e cause e.addr))
         ∧ (e.ins = .ldg size rd x off →
           (∀ l, checked = .inr l →
             (∀ d, e.claimed = some d → e.sure = true → loaded (d % 256 ^ n))
             ∧ (e.claimed = none ∨ e.sure = false →
               loaded (((s'.refill c k l).countAccess l).pieceLoad c (s'.extentsOf k) e.addr n).1))
           ∧ (∀ cause, checked = .inl cause → cause < 0x30 →
             exec (.loadPerform c b i 0 out) s = .next (s'.failEntry c b i e cause e.addr))
           ∧ ∀ cause, checked = .inl cause → 0x30 ≤ cause →
             exec (.loadPerform c b i 0 out) s = .next (s'.faultEntry c b i e cause e.addr n false)))
    ∧ (∀ (s : State) (c b i j : Nat) (out : List (Bool × Nat × BitVec 8)) (e : QEntry) (rd : BitVec 7) (x : BitVec 6) (off : BitVec 8),
       s.failed = false → s.performable c b i = some e → j < 32 → j ∉ e.done → b < 2 → e.phase = 0 →
       let q := s.cluster (clusterOf c)
       let s' := s.outside out
       let k := s'.bank c b
       let xt := s'.extentsOf k
       let with' (v : Nat) : QEntry := { e with done := e.done ++ [j], got := e.got ||| BitVec.ofNat 4608 (v * 256 ^ (16 * j)) }
       let pieced (v : Nat) : Prop := ∃ t, exec (.loadPerform c b i j out) s = .next t
         ∧ (e.done.length < 31 → (t.bank c b).queue = k.queue.set i (with' v) ∧ k.sameRegisters (t.bank c b))
         ∧ (e.done.length = 31 → (t.bank c b).queue = k.queue.eraseIdx i
           ∧ (t.bank c b).v rd.toNat = (if k.overtaken s.clk e (.v rd.toNat) = true then k.v rd.toNat
             else BitVec.ofNat 4096 (with' v).got.toNat)
           ∧ (t.bank c b).isEmpty (.v rd.toNat) = false ∧ ∀ r, r ≠ rd.toNat → (t.bank c b).v r = k.v r)
       let read (v : Nat) : Prop :=
         (∀ d, e.claimed = some d → e.sure = true → pieced (d / 256 ^ (16 * j) % 256 ^ 16))
           ∧ (e.claimed = none ∨ e.sure = false → pieced v)
       (e.ins = .ldcv rd x off → (e.done = [] → q.check e.addr 512 = none) → pieced (mread q.cmem (e.addr + 16 * j) 16))
         ∧ (e.ins = .ldgv rd x off →
           (e.done ≠ [] → read (s'.pieceLoad c xt (e.addr + 16 * j) 16).1)
           ∧ (e.done = [] → ∀ l, s'.checkGlobal xt e.priv false true e.addr 512 = .inr l →
             read (((s'.refill c k l).countAccess l).pieceLoad c xt (e.addr + 16 * j) 16).1)))
    ∧ (∀ (s : State) (c b i : Nat) (e : QEntry) (rd x : BitVec 6) (wantE : BitVec 1) (norm : BitVec 8) (csr : BitVec 12),
       s.failed = false → s.performable c b i = some e →
       let d := dieOf c
       let key := (e.ops.headD 0).toNat % 2 ^ 32
       let r := s.norm norm.toNat
       let kept (p : Nat × SReg) : Nat × SReg :=
         (p.1, if (s.bank c b).overtaken s.clk e (.s p.1) = true then (s.bank c b).s p.1 else p.2)
       let read (l : List (Nat × SReg)) : Prop := ∃ t, exec (.loadPerform c b i 0 []) s = .next t
         ∧ s.performed t c b i (l.map kept) ∧ t.clusters = s.clusters ∧ t.dies = s.dies ∧ t.norms = s.norms
       (e.ins = .sprobe rd x → s.unseen d key = false → read [(rd.toNat, statusWord (tfind key (s.die d).stash))])
         ∧ (e.ins = .nrmrd rd wantE norm → wantE = 1 →
           read [(rd.toNat, r.e.signExtend 64), (rd.toNat + 1, if r.a = BitVec.allOnes 128 then 1 else 0)])
         ∧ (e.ins = .nrmrd rd wantE norm → wantE = 0 →
           read [(rd.toNat, r.a.extractLsb' 0 64), (rd.toNat + 1, r.a.extractLsb' 64 64)])
         ∧ (e.ins = .csrr rd csr → read [(rd.toNat, s.readRegister (clusterOf c) csr.toNat)]))

/-- R266, R268, R275, R284, R286, R288, R370: an aligned store to cluster memory writes its bytes there and no other; an aligned global
store that passes its checks and finds its batts stores its bytes through the slice of its cluster and leaves the queue; one without batts
waits for them, one to a page in the final pass of a migration waits, and a failed check posts its trap or keeps the store; `NRMCLR` and
`NRMSET` write their norm register. R275, R289, R294: a row store is performed in 32 pieces of 16 bytes in any order, the checks and the
batts of all of it with the first, and its blocks sized anew before each later one (R244; where batts are then lacking it waits and is
issued again whole, log 10); the last one takes it out of the queue, and a `STGN` then adds the squares of its values to its norm register.
R293: a sparse store that passes its checks reserves its place: LEN of its header rises by the bytes of its block, and its entry
becomes the store of that block behind the place reserved; a header that does not fit posts `HEADER`, a block that does not fit
`SPARSE_OVERRUN`, and a failed check of the header's address its own trap. R274, R295, R296: an atomic that passes its checks and finds its
batts takes its line out of its own slice, after the release of its order, reads the old value, writes the new one as its function says (a
compare that fails writes none), and gives the old value to its register where it has one; then comes the acquire of its order; without
batts it waits, and a failed check posts its trap or keeps it. -/
def Obligations.StoresAndAtomicsPerformed : Prop :=
  (∀ (s : State) (c b i : Nat) (e : QEntry) (size : BitVec 3) (rd x : BitVec 6) (off norm : BitVec 8),
       s.failed = false → s.performable c b i = some e → e.done = [] → size.toNat ≤ 4 →
       let n := 2 ^ size.toNat
       e.addr % n = 0 →
       let q := s.cluster (clusterOf c)
       let k := s.bank c b
       let xt := s.extentsOf k
       let data := (e.ops.headD 0).toNat + 2 ^ 64 * ((e.ops[1]?).getD 0).toNat
       let gone : State := s.setBank c b (k.dropEntry i)
       let checked := s.checkGlobal xt e.priv true true e.addr n
       let does (t : State) : Prop := exec (.storePerform c b i 0) s = .next t
       (e.ins = .stc size rd x off → (q.check e.addr n = none → ∃ cmem, does (gone.setCluster (clusterOf c) { q with cmem })
             ∧ (∀ j < n, mget (e.addr + j) cmem = BitVec.ofNat 8 (data / 256 ^ j))
             ∧ ∀ a, (a < e.addr ∨ e.addr + n ≤ a) → mget a cmem = mget a q.cmem)
           ∧ ∀ cause, q.check e.addr n = some cause → does (s.failEntry c b i e cause e.addr))
         ∧ (e.ins = .stg size rd x off →
           (∀ l, checked = .inr l → s.heldByMigration l = false →
             let whole := account s (s.wholeStore c b l (data % 256 ^ n)) (.bank c b) (touches l)
             (∀ w, whole = .inl w →
               let t := (((s.takeRecords w).countAccess l).refill c k l).pieceStore c b xt e.addr n (data % 256 ^ n)
               does (t.setBank c b (k.dropEntry i)) ∧ k.sameRegisters (k.dropEntry i) ∧ s.samePads t ∧ s.sameClusterMemory t)
             ∧ ∀ d need, whole = .inr (d, need) → does (s.waitBatts c b i e d need e.addr))
           ∧ (∀ l, checked = .inr l → s.heldByMigration l = true → does s)
           ∧ (∀ cause, checked = .inl cause → cause < 0x30 → does (s.failEntry c b i e cause e.addr))
           ∧ ∀ cause, checked = .inl cause → 0x30 ≤ cause → does (s.faultEntry c b i e cause e.addr n true))
         ∧ (e.ins = .nrmclr norm → does { gone with norms := tset norm.toNat { s.norm norm.toNat with a := 0 } s.norms })
         ∧ (e.ins = .nrmset rd norm → does { gone with norms := tset norm.toNat ⟨0, (e.ops.headD 0).setWidth 8⟩ s.norms }))
    ∧ (∀ (s : State) (c b i j : Nat) (e : QEntry) (rd : BitVec 7) (x : BitVec 6) (off norm : BitVec 8),
       s.failed = false → s.performable c b i = some e → j < 32 → j ∉ e.done →
       let q := s.cluster (clusterOf c)
       let k := s.bank c b
       let xt := s.extentsOf k
       let piece := e.row.toNat / 256 ^ (16 * j) % 256 ^ 16
       let closed (t : State) : State :=
         if e.done.length = 31 then t.setBank c b (k.dropEntry i) else t.setBank c b (k.setEntry i { e with done := e.done ++ [j] })
       let does (t : State) : Prop := exec (.storePerform c b i j) s = .next t
       let values := if (e.ops.headD 0).toNat = 256 then (unpack 16 256 e.row.toNat).map Fmt.bf16.decode
         else (unpack 32 128 e.row.toNat).map Fmt.fp32.decode
       let normed (t : State) : State :=
         if e.done.length = 31 then { t with norms := tset norm.toNat (values.foldl Norm.add (s.norm norm.toNat)) s.norms } else t
       let stored (f : State → State) : Prop :=
         (e.done ≠ [] →
             let left := account s (s.restStore c b xt e) (.bank c b) (touches (s.parts xt 64 (e.addr % 2 ^ 56) 512))
             (∀ w, left = .inl w → does (f (closed ((s.takeRecords w).pieceStore c b xt (e.addr + 16 * j) 16 piece))))
             ∧ ∀ d need, left = .inr (d, need) → does (s.waitBatts c b i { e with done := [] } d need e.addr))
           ∧ (e.done = [] → ∀ l, s.checkGlobal xt e.priv true true e.addr 512 = .inr l → s.heldByMigration l = false →
             ∀ w, account s (s.wholeStore c b l e.row.toNat) (.bank c b) (touches l) = .inl w →
             does (f (closed ((((s.takeRecords w).countAccess l).refill c k l).pieceStore c b xt (e.addr + 16 * j) 16 piece))))
       (e.ins = .stcv rd x off → (e.done = [] → q.check e.addr 512 = none) →
           does (closed (s.setCluster (clusterOf c) { q with cmem := mwrite q.cmem (e.addr + 16 * j) 16 piece })))
         ∧ (e.ins = .stgv rd x off → stored id)
         ∧ (e.ins = .stgn rd x norm → stored normed))
    ∧ (∀ (s : State) (c b i : Nat) (e : QEntry) (rd : BitVec 7) (x : BitVec 6) (o : BitVec 8),
       s.failed = false → s.performable c b i = some e → e.ins = .stgx rd x o → e.phase = 0 →
       let k := s.bank c b
       let xt := s.extentsOf k
       let does (t : State) : Prop := exec (.storePerform c b i 0) s = .next t
       (∀ cause, s.checkGlobal xt e.priv true true e.addr 64 = .inl cause → cause < 0x30 → does (s.failEntry c b i e cause e.addr))
         ∧ (∀ hl, s.checkGlobal xt e.priv true true e.addr 64 = .inr hl →
           let loc := (hl.head?.map (·.loc)).getD .nothing
           let m := s.toMemory (clusterOf c) loc 64
           let h := Header.ofNat (m.rawRead loc 64)
           let f := (e.ops.headD 0).toNat
           let src : SparseSource := { fmt := f, tag := ((e.ops[1]?).getD 0).setWidth 16, elems := unpack (8 * codeBytes f) 128 e.row.toNat }
           let block := sparseStored src h.point
           let place := (h.addr + h.len) % 2 ^ 64
           let norm : List SReg := if h.normEn then [BitVec.ofNat 64 h.norm] else []
           let lenPart : Part := { va := e.addr + 12, n := 4, ext := (hl.head?.bind (·.ext)), loc := loc.add 12 }
           (sparseHeaderBad h src false = true → does (m.failEntry c b i e 0x18 e.addr))
             ∧ (sparseHeaderBad h src false = false → h.cap < h.len + block.length → does (m.failEntry c b i e 0x15 e.addr))
             ∧ (sparseHeaderBad h src false = false → h.len + block.length ≤ h.cap →
               (∀ cause, m.checkGlobal xt e.priv true true place block.length = .inl cause →
                 (cause < 0x30 → does (m.failEntry c b i e cause place))
                 ∧ (0x30 ≤ cause → does (m.faultEntry c b i e cause place block.length true)))
               ∧ ∀ bl, m.checkGlobal xt e.priv true true place block.length = .inr bl →
                 (m.heldByMigration (hl ++ bl) = true → does m)
                 ∧ (m.heldByMigration (hl ++ bl) = false →
                   let whole := account m ((m.wholeStore c b bl (bytesNat block)).rawWrite (loc.add 12) 4 (h.len + block.length)) (.bank c b)
                     (touches (bl ++ [lenPart]))
                   (∀ d need, whole = .inr (d, need) → does (m.waitBatts c b i e d need place))
                   ∧ ∀ w, whole = .inl w →
                     let t := ((m.takeRecords w).countAccess (hl ++ bl)).refill c k (hl ++ bl)
                     does ((t.rawWrite (loc.add 12) 4 (h.len + block.length)).setBank c b ((k.discardAhead place block.length).setEntry i
                       { e with addr := place, phase := block.length, got := BitVec.ofNat 4608 (bytesNat block), ops := e.ops ++ norm }))))))
    ∧ (∀ (s : State) (c b i : Nat) (out : List (Bool × Nat × BitVec 8)) (e : QEntry) (order : BitVec 2) (rd x : BitVec 6) (nr size : BitVec 1)
         (scope : BitVec 3) (fn : BitVec 4),
       s.failed = false → s.performable c b i = some e → e.ins = .amo order rd x nr scope size fn → fn.toNat ≤ 10 →
       let n := if size = 0 then 4 else 8
       let s' := s.outside out
       let xt := s'.extentsOf (s'.bank c b)
       let does (t : State) : Prop := exec (.amoPerform c b i out) s = .next t
       (∀ cause, s'.checkGlobal xt e.priv true true e.addr n = .inl cause →
           (cause < 0x30 → does (s'.failEntry c b i e cause e.addr)) ∧ (0x30 ≤ cause → does (s'.faultEntry c b i e cause e.addr n true)))
         ∧ (∀ l, s'.checkGlobal xt e.priv true true e.addr n = .inr l →
           (s'.heldByMigration l = true → does s')
           ∧ (s'.heldByMigration l = false →
             let loc := (l.head?.map (·.loc)).getD .nothing
             let m := ((if order = 2 ∨ order = 3 then s'.release c b scope.toNat else s').toMemory (clusterOf c) loc n)
             let old := m.rawRead loc n
             let v0 := (e.ops.headD 0).toNat
             let v := v0 % 2 ^ (8 * n)
             let signed (y : Nat) : Int := (BitVec.ofNat (8 * n) y).toInt
             let new : Option Nat := match fn.toNat with
               | 0 => some ((old + v) % 2 ^ (8 * n))
               | 1 => some (if signed old ≤ signed v then old else v)
               | 2 => some (if signed old ≤ signed v then v else old)
               | 3 => some (min old v)
               | 4 => some (max old v)
               | 5 => some (old &&& v)
               | 6 => some (old ||| v)
               | 7 => some (old ^^^ v)
               | 8 => some v
               | 9 => if old = v then some (((e.ops[1]?).getD 0).toNat % 2 ^ (8 * n)) else none
               | _ => some (Fmt.fp32.ofVal .rne false ((Fmt.fp32.decode old).add (Fmt.fp32.decode v)))
             let written : State ⊕ (Nat × Nat) := match new with
               | none => .inl m
               | some y => account m (m.rawWrite loc n y) (.bank c b) (touches l)
             (∀ d need, written = .inr (d, need) → does (m.waitBatts c b i e d need e.addr))
               ∧ (∀ w, written = .inl w → ∃ t, does t ∧ (t.bank c b).queue = (m.bank c b).queue.eraseIdx i
                 ∧ (nr = 0 → rd ≠ 0 → (t.bank c b).isEmpty (.s rd.toNat) = false
                   ∧ ((m.bank c b).overtaken s.clk e (.s rd.toNat) = false → (t.bank c b).s rd.toNat =
                     if size = 0 ∧ fn ≠ 10 then (BitVec.ofNat 32 old).signExtend 64 else BitVec.ofNat 64 old))
                 ∧ (nr = 1 → (m.bank c b).sameRegisters (t.bank c b))
                 ∧ (∀ d, (t.die d).home = (w.die d).home) ∧ t.hostMem = w.hostMem ∧ t.otherMem = w.otherMem
                 ∧ (order = 1 ∨ order = 3 → (t.bank c b).runAhead = [])))))

/-- R275, R286, R287, R288: a scalar global access that crosses a 32-byte sector is performed in two pieces, in either order: the checks
of all of it come with the first, the last one fills the registers or takes the store out of its queue. R275, R289, R291: a sparse load
reads 32 bytes in two pieces of 16, and by them knows its block: one of no more bytes is complete, one that is no block posts `HEADER`,
and one of more bytes reads the rest in pieces of 16, after the checks of the whole, and then fills the vector register with the expanded
block. R293: the block of a sparse store that has its place is written in pieces of 16, its blocks sized as each is written (R244). A
claimed run-ahead entry gives its data as log 9 says. -/
def Obligations.PiecewiseAccesses : Prop :=
  (∀ (s : State) (c b i j : Nat) (out : List (Bool × Nat × BitVec 8)) (e : QEntry) (size : BitVec 3) (rd x : BitVec 6) (o : BitVec 8),
       s.failed = false → s.performable c b i = some e → b < 2 → j < 2 → e.phase = 0 → e.ins = .ldg size rd x o →
       let n := loadBytes size
       4 ≤ n → e.addr % n ≠ 0 → 32 < e.addr % 32 + n →
       let m := 32 - e.addr % 32
       let off := if j = 0 then 0 else m
       let len := if j = 0 then m else n - m
       let s' := s.outside out
       let k := s'.bank c b
       let xt := s'.extentsOf k
       let value (fresh : Nat) : Nat := match e.claimed with
         | some d => if e.sure then d / 256 ^ off % 256 ^ len else fresh
         | none => fresh
       let with' (v : Nat) : QEntry := { e with done := e.done ++ [j], got := e.got ||| BitVec.ofNat 4608 (v * 256 ^ off) }
       (e.done = [] →
           (∀ l, s'.checkGlobal xt e.priv false true e.addr n = .inr l → ∃ t, exec (.loadPerform c b i j out) s = .next t
             ∧ t.bank c b = k.setEntry i (with' (value (((s'.refill c k l).countAccess l).pieceLoad c xt (e.addr + off) len).1)))
           ∧ ∀ cause, s'.checkGlobal xt e.priv false true e.addr n = .inl cause →
             (cause < 0x30 → exec (.loadPerform c b i j out) s = .next (s'.failEntry c b i e cause e.addr))
             ∧ (0x30 ≤ cause → exec (.loadPerform c b i j out) s = .next (s'.faultEntry c b i e cause e.addr n false)))
         ∧ (e.done = [1 - j] → ∃ t, exec (.loadPerform c b i j out) s = .next t
           ∧ t.bank c b = (k.finishLoad s.clk (with' (value (s'.pieceLoad c xt (e.addr + off) len).1))).dropEntry i))
    ∧ (∀ (s : State) (c b i j : Nat) (e : QEntry) (size : BitVec 3) (rd x : BitVec 6) (o : BitVec 8),
       s.failed = false → s.performable c b i = some e → j < 2 → size.toNat ≤ 4 → e.ins = .stg size rd x o →
       let n := 2 ^ size.toNat
       4 ≤ n → e.addr % n ≠ 0 → 32 < e.addr % 32 + n →
       let m := 32 - e.addr % 32
       let k := s.bank c b
       let xt := s.extentsOf k
       let data := ((e.ops.headD 0).toNat + 2 ^ 64 * ((e.ops[1]?).getD 0).toNat) % 256 ^ n
       let put (t : State) : State :=
         if j = 0 then t.pieceStore c b xt e.addr m (data % 256 ^ m) else t.pieceStore c b xt (e.addr + m) (n - m) (data / 256 ^ m)
       let does (t : State) : Prop := exec (.storePerform c b i j) s = .next t
       (e.done = [] → ∀ l, s.checkGlobal xt e.priv true true e.addr n = .inr l → s.heldByMigration l = false →
           let whole := account s (s.wholeStore c b l data) (.bank c b) (touches l)
           (∀ w, whole = .inl w →
             does ((put (((s.takeRecords w).countAccess l).refill c k l)).setBank c b (k.setEntry i { e with done := [j] })))
           ∧ ∀ d need, whole = .inr (d, need) → does (s.waitBatts c b i e d need e.addr))
         ∧ (e.done = [1 - j] →
           let rest := account s (put s) (.bank c b) (touches (s.parts xt 64 (e.addr % 2 ^ 56) n))
           (∀ w, rest = .inl w → does ((put (s.takeRecords w)).setBank c b (k.dropEntry i)))
           ∧ ∀ d need, rest = .inr (d, need) → does (s.waitBatts c b i { e with done := [] } d need e.addr)))
    ∧ (∀ (s : State) (c b i j : Nat) (out : List (Bool × Nat × BitVec 8)) (e : QEntry) (rd : BitVec 7) (x : BitVec 6) (o : BitVec 8),
       s.failed = false → s.performable c b i = some e → b < 2 → j ∉ e.done → e.ins = .ldgx rd x o →
       let s' := s.outside out
       let k := s'.bank c b
       let xt := s'.extentsOf k
       let value (fresh : Nat) : Nat := match e.claimed with
         | some d => if e.sure ∧ 16 * j + 16 ≤ 32 then d / 256 ^ (16 * j) % 256 ^ 16 else fresh
         | none => fresh
       let with' (v : Nat) : QEntry := { e with done := e.done ++ [j], got := e.got ||| BitVec.ofNat 4608 (v * 256 ^ (16 * j)) }
       let fresh (u : State) : QEntry := with' (value (u.pieceLoad c xt (e.addr + 16 * j) 16).1)
       let leaves (p : Bank → Prop) : Prop := ∃ t, exec (.loadPerform c b i j out) s = .next t ∧ p (t.bank c b)
       let filled (y : QEntry) (blk : SparseBlock) (t : Bank) : Prop := t.queue = k.queue.eraseIdx i ∧ t.isEmpty (.v rd.toNat) = false
         ∧ (k.overtaken s.clk e (.v rd.toNat) = false → t.v rd.toNat = blk.row y.got.toNat ∧ t.side rd.toNat = 0)
         ∧ ∀ r, r ≠ rd.toNat → t.v r = k.v r
       (e.phase = 0 → j < 2 →
           (∀ l, e.done = [] → s'.checkGlobal xt e.priv false true e.addr 32 = .inr l →
             leaves fun t => t = k.setEntry i (fresh (s'.refill c k l)))
           ∧ (∀ cause, e.done = [] → s'.checkGlobal xt e.priv false true e.addr 32 = .inl cause →
             (cause < 0x30 → exec (.loadPerform c b i j out) s = .next (s'.failEntry c b i e cause e.addr))
             ∧ (0x30 ≤ cause → exec (.loadPerform c b i j out) s = .next (s'.faultEntry c b i e cause e.addr 32 false)))
           ∧ (e.done = [1 - j] →
             let y := fresh s'
             (sparseBlock (y.got.toNat % 2 ^ 256) = none → leaves fun t => t.queue = k.queue.eraseIdx i ∧ t.isEmpty (.v rd.toNat) = false
               ∧ ∃ p, t.posted = k.posted ++ [p] ∧ p.cause = 0x18 ∧ p.addr = some e.addr)
             ∧ (∀ blk, sparseBlock (y.got.toNat % 2 ^ 256) = some blk →
               (blk.bytes ≤ 32 → leaves (filled y blk))
               ∧ (32 < blk.bytes → leaves fun t => t = k.setEntry i { y with phase := blk.bytes }))))
         ∧ (32 < e.phase → 16 * j + 16 ≤ e.phase → 2 ≤ e.done.length →
           (∀ l, e.done.length = 2 → e.phase ≠ 48 → s'.checkGlobal xt e.priv false true e.addr e.phase = .inr l →
             leaves fun t => t = k.setEntry i (fresh ((s'.refill c k l).countAccess l)))
           ∧ (∀ cause, e.done.length = 2 → s'.checkGlobal xt e.priv false true e.addr e.phase = .inl cause →
             (cause < 0x30 → exec (.loadPerform c b i j out) s = .next (s'.failEntry c b i e cause e.addr))
             ∧ (0x30 ≤ cause → exec (.loadPerform c b i j out) s = .next (s'.faultEntry c b i e cause e.addr e.phase false)))
           ∧ (2 < e.done.length → e.done.length + 1 < e.phase / 16 → leaves fun t => t = k.setEntry i (fresh s'))
           ∧ (2 < e.done.length → e.done.length + 1 = e.phase / 16 → ∀ blk, sparseBlock ((fresh s').got.toNat % 2 ^ 256) = some blk →
             leaves (filled (fresh s') blk))))
    ∧ (∀ (s : State) (c b i j : Nat) (e : QEntry) (rd : BitVec 7) (x : BitVec 6) (o : BitVec 8),
       s.failed = false → s.performable c b i = some e → e.ins = .stgx rd x o → 16 < e.phase → 16 * j + 16 ≤ e.phase → j ∉ e.done →
       let k := s.bank c b
       let xt := s.extentsOf k
       let l := s.parts xt 64 (e.addr % 2 ^ 56) e.phase
       let rest := account s (s.restStore c b xt e) (.bank c b) (touches l)
       let y : QEntry := { e with done := e.done ++ [j] }
       (∀ w, rest = .inl w →
           let t := if e.done = [] then (s.takeRecords w).refill c k l else s.takeRecords w
           let t := t.pieceStore c b xt (e.addr + 16 * j) 16 (e.got.toNat / 256 ^ (16 * j) % 256 ^ 16)
           (e.done.length + 1 ≠ e.phase / 16 → exec (.storePerform c b i j) s = .next (t.setBank c b (k.setEntry i y)))
           ∧ (e.done.length + 1 = e.phase / 16 → exec (.storePerform c b i j) s = .next ((t.setBank c b (k.dropEntry i)).storeNorm y)))
         ∧ ∀ d need, rest = .inr (d, need) → exec (.storePerform c b i j) s = .next (s.waitBatts c b i e d need e.addr))

/-- R217, R267, R272, R298, R428: the markers take effect in their place in the queue: `QALIGN` has none of its own; a `FENCE` releases,
acquires or does both, as its order says, at its scope; the completion release of an item releases at its scope; the record of a delivery
fills its quad, with an acquire; a revocation releases, marks the extents of its partition at once, and leaves the queue when the accesses
then under way have ended. R28, R29, R30, R270: a load of the hinted path whose address is known, that passes its checks, whose extents the
first-level TLB holds and that lies in no other device enters the run-ahead buffer with its data; the segment that issue waits for, or else
the one the next-segment pointer names, is expanded in the half of the loop buffer that the core does not issue from; an evicted line leaves
its slice, and its dirty bytes are then in home memory. -/
def Obligations.MarkersAndBuffers : Prop :=
  (∀ (s : State) (c b i : Nat) (e : QEntry) (scope : BitVec 3) (grp : BitVec 4) (wq x y : BitVec 6)
         (w0 w1 w2 w3 : SReg),
       s.failed = false → s.performable c b i = some e →
       let k := s.bank c b
       let gone : State := s.setBank c b (k.dropEntry i)
       let does (t : State) : Prop := exec (.markerEffect c b i) s = .next t
       (e.ins = .qalign → does gone)
         ∧ (e.ins = .fence 1 scope → does (gone.acquire c b scope.toNat))
         ∧ (e.ins = .fence 2 scope → does (gone.release c b scope.toNat))
         ∧ (e.ins = .fence 3 scope → does ((gone.release c b scope.toNat).acquire c b scope.toNat))
         ∧ ((e.ins = .deq grp wq ∨ e.ins = .deqt grp wq) →
           (e.phase = 0 ∨ (e.phase = 2 ∧ s.atIssue c b e.bundle = false) → does (gone.release c b e.addr))
           ∧ (grp ≠ 0 → e.phase = 1 → e.addr ≤ s.clk → s.owesRelease e.done e.clk = false → e.ops = [w0, w1, w2, w3] →
             ∃ t, does t
               ∧ s.performed t c b i [(4 * grp.toNat, w0), (4 * grp.toNat + 1, w1), (4 * grp.toNat + 2, w2), (4 * grp.toNat + 3, w3)]
               ∧ (t.bank c b).runAhead = []
               ∧ t.clusters = (if 3 ≤ e.side.toNat then s.acquireLines (clusterOf c) else s).clusters))
         ∧ (e.ins = .extinv x y →
           (e.phase = 0 →
             let r := (s.release c b 3).revokeIn (fun v => v.partition = (k.task.map (·.partition)).getD 0) (e.ops.headD 0).toNat
               ((e.ops[1]?).getD 0).toNat
             does (r.setBank c b ((r.bank c b).setEntry i { e with phase := 1, done := r.underWay })))
           ∧ (e.phase ≠ 0 → (∀ u ∈ e.done, u ∉ s.underWay) → does gone)))
    ∧ (∀ (s : State) (c a n g cl line d off : Nat) (l : List Part) (z : Line),
       s.failed = false →
       let x := s.core c
       let k := x.bank x.active
       let loaded := s.pieceLoad c (s.extentsOf k) a n
       (k.state = .runnable → k.runAhead.length < 64 → (runAheadLoads (s.codeOf k) k 257 ⟨k.pc, k.loops⟩).contains (a, n) = true →
           s.checkGlobal (s.extentsOf k) k.priv false false a n = .inr l →
           (l.all fun p => p.ext.any fun e => x.tlbHolds k e) = true →
           (l.all fun p => match p.loc with | .other _ => false | _ => true) = true →
           exec (.runAheadPreissue c a n) s
             = .next (loaded.2.setBank c x.active { k with runAhead := k.runAhead ++ [⟨a, n, k.raGen, loaded.1⟩] }))
         ∧ (s.segmentWanted c = some g →
           let used := x.segments.filter fun h => s.segmentOf k k.pc = some h
           exec (.segmentExpand c g) s
             = .next (s.setCore c { x with segments := g :: (if used = [] then x.segments else used).take 1 }))
         ∧ (tfind line (s.cluster cl).lines = some z → ∃ t, exec (.l2LineEvict cl line) s = .next t
             ∧ (t.cluster cl).lines = tdel line (s.cluster cl).lines ∧ t.cores = s.cores ∧ s.sameClusterMemory t
             ∧ (z.dirty = 0 → t.dies = s.dies)
             ∧ (z.dirty ≠ 0 → lineLoc line = .home d off → ((s.die d).page (off / 4096)).state = 0 →
               (t.die d).home = mwrite (s.die d).home off 128
                   ((BitVec.ofNat 1024 (mread (s.die d).home off 128) &&& ~~~byteMask z.dirty) ||| (z.bytes &&& byteMask z.dirty)).toNat
                 ∧ ∀ d', d' ≠ d → (t.die d').home = (s.die d').home)))

/-! ## Steps of the banks -/

/-- R33, R34, R159, R174, R347, R401: at a bundle boundary the posted traps of a bank are taken, with those that its pushes and rows raise
in that clk: of those detected first the one of the oldest bundle is in the record, with MORE where there are others, and the next bundle
is at TVEC + 0x40; kept entries are issued again where no fault stands; where the bank replayed a segment, the divergence is reported. -/
def Obligations.PostedTraps : Prop :=
  ∀ (s : State) (c b : Nat) (p : PostedTrap), s.failed = false →
    let k := s.bank c b
    let z := k.detect s.clk
    k.posted ≠ [] → oldestPosted z.posted = some p → k.state = .runnable → (s.core c).drain = none →
    k.tvec.getLsbD 0 = true → k.inTrap = false →
    p ∈ z.posted ∧ (∀ q ∈ z.posted, p.clk < q.clk ∨ (p.clk = q.clk ∧ p.issued ≤ q.issued))
      ∧ (k.eng0.ops = [] → k.eng1.ops = [] → (∀ f ∈ k.inFlight, s.clk < f.due) → z = k)
      ∧ ∃ t, exec (.postedTrapTake c b) s = .next t ∧ (s.clk + 4 = (t.core c).nextIssue)
      ∧ t.reports = s.reports ++ (k.replaying.map fun r => (r.1, r.2, s.snapStep r.1 r.2)).toList
      ∧ let k' := t.bank c b
        k'.posted = [] ∧ k'.pc = k.tvec.toNat % 2 ^ 32 / 64 * 64 + 0x40 ∧ k'.priv = true ∧ k'.inTrap = true ∧ k'.replaying = none
          ∧ z.sameRegisters k' ∧ k'.inFlight = z.inFlight ∧ (∀ r, k'.s r = k.s r) ∧ (∀ r, k'.v r = k.v r) ∧ (∀ r, k'.k r = k.k r)
          ∧ k'.queue = (if k.fault = none then k.queue.map fun (e : QEntry) => { e with kept := false } else k.queue)
          ∧ k'.trecWord 0 = BitVec.ofNat 64 (p.cause + 2 ^ 8 * trapFlags true false
              (decide (z.posted.length > 1) || z.posted.any (·.more)) k.priv p.addr.isSome p.row.isSome
              + 2 ^ 16 * p.pos + 2 ^ 24 * p.row.getD 0)
          ∧ k'.trecWord 1 = BitVec.ofNat 64 p.bundle ∧ k'.trecWord 2 = BitVec.ofNat 64 k.pc
          ∧ k'.trecWord 3 = BitVec.ofNat 64 (p.addr.getD 0) ∧ k'.trecWord 4 = BitVec.ofNat 64 s.clk

/-- R403 to R407, R422: a drain ends once everything of its bank has ended, no earlier than 4 clk after it began: a bank with a
restartable fault is WAITING with the fault in its record, where the fault is why it drained and has not been answered meanwhile; a
pre-empted one is stopped; then the other bank becomes active where it may run, or else this one, and issues 4 clk later. R126, R192,
R406, R468: a halted bank whose results have landed and whose queues are empty reports its halt, after a release of its writes at `.sys`;
the other bank becomes active where it may run; the worker leaves its invocation, and with the last one the invocation completes: with
`SUCCESS`, or with `FAULT`, the core of the first worker that halted with a record, and that record at RECADDR. R407, R408, R410, R425: a
pre-emption request stops the bank it names, after a drain where it runs; once every core of the partition has stopped, a swap-out puts
each bank into shadow storage, frees it with S1 the save area and S2 the core's index, starts the handler at the pre-emption vector, and
completes the command that asked for it; a swap-in restores each bank as it was kept, RUNNABLE where it was WAITING, and as the save area
now has it where its bytes there have changed, and completes its command. What the model chooses: the record and the kept value of a
swapped bank (log 17), and that RECADDR is an address of the host (log 55). -/
def Obligations.DrainsHaltsAndSwaps : Prop :=
  (∀ (s : State) (c b : Nat) (d : Drain), s.failed = false → b < 2 →
       let x := s.core c
       let k := s.bank c b
       let other := x.bank (1 - b)
       x.drain = some d → d.bank = b → d.since + 4 ≤ s.clk → k.drained = true →
       ∃ t, exec (.drainComplete c) s = .next t ∧ (t.core c).drain = none ∧ k.sameRegisters (t.bank c b)
         ∧ (t.bank c b).waiting = none ∧ (t.bank c b).idle = false
         ∧ (t.bank c b).stopped = (k.stopped || d.reason == .preempt)
         ∧ (k.fault = none → (t.bank c b).state = k.state ∧ (t.bank c b).trec = k.trec
           ∧ (other.ready = true → (t.core c).active = 1 - b ∧ (t.core c).nextIssue = s.clk + 4)
           ∧ (other.ready = false → k.ready = true → d.reason ≠ .preempt → (t.core c).active = b ∧ (t.core c).nextIssue = s.clk + 4)
           ∧ (other.ready = false → d.reason = .preempt → (t.core c).active = x.active ∧ (t.core c).nextIssue = x.nextIssue))
         ∧ (∀ f, k.fault = some f → (t.bank c b).trecWord 2 = BitVec.ofNat 64 k.pc ∧ (t.bank c b).trecWord 3 = BitVec.ofNat 64 f.addr
           ∧ (f.answered = false → d.reason = .fault →
             (t.bank c b).fault = some f ∧ (k.state = .runnable → (t.bank c b).state = .waiting))
           ∧ (f.answered = false → d.reason ≠ .fault → (t.bank c b).state = k.state)
           ∧ (f.answered = false → other.ready = true →
             (t.bank c b).fault = some f ∧ (t.core c).active = 1 - b ∧ (t.core c).nextIssue = s.clk + 4)
           ∧ (f.answered = true → (t.bank c b).fault = none ∧ (t.bank c b).state = k.state)))
    ∧ (∀ (s : State) (c b : Nat), s.failed = false → b < 2 →
       let x := s.core c
       let k := s.bank c b
       k.state = .halted → k.haltReported = false → k.quiet = true →
       ∃ t, exec (.haltReport c b) s = .next t ∧ (t.bank c b).haltReported = true ∧ (t.bank c b).state = .halted
         ∧ k.sameRegisters (t.bank c b) ∧ t.clusters = (s.releaseLines c b).clusters
         ∧ (x.active = b → (x.bank (1 - b)).ready = true → (t.core c).active = 1 - b ∧ (t.core c).nextIssue = s.clk + 4)
         ∧ (k.task = none → t.invocations = s.invocations ∧ t.journal = s.journal)
         ∧ ∀ tk, k.task = some tk → ∀ v, tfind tk.invocation s.invocations = some v → (c, b) ∈ v.workers →
           let left := v.workers.erase (c, b)
           ∃ v', tfind tk.invocation t.invocations = some v' ∧ v'.workers = left
             ∧ (k.haltFault = true → v.faulted = none → v'.faulted = some (k.haltClk, c, k.trec))
             ∧ (k.haltFault = false → v'.faulted = v.faulted)
             ∧ (left ≠ [] → v'.running = v.running ∧ t.journal = s.journal)
             ∧ (left = [] → v'.running = false
               ∧ let status := if k.haltFault ∨ v.faulted.isSome then 3 else 0
                 let m := s.releaseLines c b
                 let recorded : State := { m with hostMem := match v'.faulted with
                   | some f => if v.recAddr = 0 then m.hostMem else mput m.hostMem v.recAddr (recordBytes f.2.2)
                   | none => m.hostMem }
                 let done := recorded.complete v.queue v.seq status ((v'.faulted.map (·.2.1)).getD 0)
                 t.journal = done.journal ∧ t.hostMem = done.hostMem ∧ t.hostQueues = done.hostQueues ∧ t.sent = done.sent))
    ∧ (∀ (s : State) (c b p : Nat) (w : Swap), s.failed = false → b < 2 →
       let x := s.core c
       let k := s.bank c b
       let ended (t : State) : Prop := t.swaps = s.swaps.erase w
         ∧ (w.command = none → t.journal = s.journal)
         ∧ ∀ r, w.command = some r → let done := s.complete r.1 r.2 0 0
           t.journal = done.journal ∧ t.hostQueues = done.hostQueues ∧ t.sent = done.sent
       (w ∈ s.swaps → w.inward = false → w.bank = b → c ∈ s.partitionCores w.partition → k.stopped = false →
           (x.active ≠ b ∨ k.state ≠ .runnable → (k.state = .halted → k.landed = true) →
             ∃ t, exec (.preemptArrive c b) s = .next t ∧ (t.bank c b).stopped = true ∧ (t.bank c b).state = k.state
               ∧ (t.bank c b).waiting = none ∧ (t.bank c b).idle = false ∧ k.sameRegisters (t.bank c b))
           ∧ (x.active = b → k.state = .runnable → x.drain = none →
             ∃ t, exec (.preemptArrive c b) s = .next t
               ∧ (t.core c).drain = some { bank := b, reason := .preempt, since := s.clk }))
         ∧ (s.swapOf p b false = some w → (∀ o ∈ s.coresInOrder p, (s.bank o b).stopped = true) →
           ∃ t, exec (.swapOutComplete p b) s = .next t ∧ ended t ∧ ∀ (o j : Nat), (s.coresInOrder p)[j]? = some o →
             let taken : Bool := (s.cluster (clusterOf o)).shadow.any fun e => e.1 = o
             (t.bank o b).priv = true ∧ (t.bank o b).pc = (tget 0 p s.regs.pvec).toNat % 2 ^ 32 / 64 * 64
             ∧ (t.bank o b).state = .runnable ∧ (t.bank o b).stopped = false
             ∧ (t.bank o b).s 1 = BitVec.ofNat 64 (s.saveArea p) ∧ (t.bank o b).s 2 = BitVec.ofNat 64 j
             ∧ (t.bank o b).trecWord 0 = BitVec.ofNat 64 (0x1A + 2 ^ 8 * trapFlags false false false (s.bank o b).priv false false)
             ∧ tfind (if taken then o + 1024 else o) (t.cluster (clusterOf o)).shadow = some (b, s.bank o b))
         ∧ (s.swapOf p b true = some w → (∀ o ∈ s.coresInOrder p, ∀ e ∈ (s.core o).drain, e.bank ≠ b) →
           ∃ t, exec (.swapInComplete p b) s = .next t ∧ ended t
             ∧ (∀ o ∈ s.coresInOrder p, (t.bank o b).stopped = false) ∧ ∀ o ∈ s.coresInOrder p, ∀ e,
             (s.cluster (clusterOf o)).shadow.find? (fun (e : Nat × Nat × Bank) => e.1 % 1024 = o ∧ e.2.1 = b) = some e →
             let k' := e.2.2
             let saved := tfind e.1 (s.cluster (clusterOf o)).saved
             let held (a n : Nat) : Nat := s.readSaveLong p (n / 4096 + 1) a n
             (∀ a n y, saved = some (a, n, y) → held a n = y) →
             k'.sameRegisters (t.bank o b) ∧ (t.bank o b).pc = k'.pc ∧ (t.bank o b).stopped = false
               ∧ (t.bank o b).state = (if k'.state = .waiting then .runnable else k'.state)
               ∧ (t.bank o b).queue = k'.queue.map fun q => { q with kept := false })
         ∧ (s.swapOf p b true = some w → (∀ o ∈ s.coresInOrder p, ∀ e ∈ (s.core o).drain, e.bank ≠ b) →
           ∃ t, exec (.swapInComplete p b) s = .next t ∧ ∀ o ∈ s.coresInOrder p, ∀ e : Nat × Nat × Bank,
             (s.cluster (clusterOf o)).shadow.find? (fun (e : Nat × Nat × Bank) => e.1 % 1024 = o ∧ e.2.1 = b) = some e → e.1 = o + 1024 →
             ∀ a n y, tfind e.1 (s.cluster (clusterOf o)).saved = some (a, n, y) →
             let image := s.readSaveLong p (n / 4096 + 1) a n
             image ≠ y → (t.bank o b).pc = image / 256 ^ 0x40 % 256 ^ 8
               ∧ ∀ r, 0 < r → r < 64 → (t.bank o b).s r = BitVec.ofNat 64 (image / 256 ^ (0x100 + 8 * r))))

/-- R194, R203 to R205, R216, R218: a round of a stage with demand dispatches at most one item, its choice: to the lowest-numbered queue
with demand that accepts it, bound there to the worker that has waited longest or placed to enter the queue, at the clk of the next round,
unless the queue counts as full; an F binds its tag to CUR, and each item's record is made from its arrival; the next round comes 8 clk
and one for each entry in use later, while there is demand. R196, R219, R220, R272: an `ENQ` record, after a release over the owning
stage's placement, enters the place it reserved: it is bound to the worker that has waited longest, or stands behind the records there; an
arrival record enters the F or B arrival queue of the stage; a queue closed meanwhile takes no record, and the `ENQ` posts `ENGINE` (log
47, the model's reading). R222 to R226: the barrier requests act at their barrier: `BINIT` sets EXPECT and REMAIN, `BEXP` adds its bytes,
`BARR` arrives in the present or the next phase and its sequencer keeps which; each is refused with a posted `ENGINE` where its rule says.
R223: at the end of the clk every barrier that awaits nothing completes its phase, and a `BPOLL` that has reached the barrier then reads
it, its word landing at issue + 8. -/
def Obligations.RoundsRecordsAndArrivals : Prop :=
  (∀ (s : State) (g u : Nat), s.failed = false →
       let r := s.refreshStage g
       let x := r.stage g
       let next := s.clk + x.period
       let cur := (tget {} x.slot s.slots).current
       x.round = some u → u ≤ s.clk →
       ∃ t, exec (.schedulerRound g) s = .next t
         ∧ (t.stage g).round = (if (x.queueNumbers g).any (fun q => (t.wq q).demand) = true then some next else none)
         ∧ (r.roundChoice g = none → (∀ q, t.wq q = if q ∈ x.queueNumbers g then { r.wq q with once := false } else r.wq q)
           ∧ (t.stage g).fArr = x.fArr ∧ (t.stage g).bArr = x.bArr)
         ∧ ∀ it, r.roundChoice g = some it → ∀ q, (x.queueNumbers g).find? (fun q => (r.wq q).demand && x.accepts q it.kind) = some q →
           let y := r.wq q
           let made (p : QRecord) : Prop :=
             (it.kind = 0 → ∀ a, x.fArr.find? (fun y => y.tag = it.tag ∧ y.entered = it.entered) = some a →
               p.words = workRecord x g 0 it.tag cur a.step a.addr ∧ (t.stage g).fArr = x.fArr.erase a
                 ∧ ∃ tg, tfind it.tag (t.stage g).tags = some tg ∧ tg.version = cur ∧ tg.f = a)
             ∧ (it.kind = 1 → ∀ tg, tfind it.tag x.tags = some tg →
               p.words = workRecord x g 1 it.tag tg.version tg.f.step tg.f.addr)
             ∧ (it.kind = 2 → ∀ tg, tfind it.tag x.tags = some tg → ∀ a, x.bArr.find? (fun y => y.tag = it.tag) = some a →
               p.words = workRecord x g 2 it.tag tg.version a.step a.addr ∧ (t.stage g).bArr = x.bArr.erase a)
             ∧ (it.kind = 3 → ∀ tg, tfind it.tag x.tags = some tg →
               p.words = workRecord x g 3 it.tag tg.version (tg.b.getD tg.f).step (tg.b.getD tg.f).addr)
           (∀ w, y.nextWaiter = some w → ∃ p, (t.wq q).bound = y.bound ++ [(w.1, w.2, p, next)] ∧ (t.wq q).placed = y.placed ∧ made p)
             ∧ (y.nextWaiter = none → y.records.length + y.reserved < 64 → ∃ p, (t.wq q).placed = y.placed ++ [(next, p)] ∧ (t.wq q).bound = y.bound ∧ made p)
             ∧ (y.nextWaiter = none → 64 ≤ y.records.length + y.reserved → (t.wq q).placed = y.placed ∧ (t.wq q).bound = y.bound
               ∧ (t.stage g).fArr = x.fArr ∧ (t.stage g).bArr = x.bArr))
    ∧ (∀ (s : State) (c b i : Nat) (e : QEntry) (grp : BitVec 4) (wq : BitVec 6) (w0 w1 w2 w3 : SReg), s.failed = false →
       s.performable c b i = some e → e.ins = .enq grp wq → e.ops = [w0, w1, w2, w3] →
       let k := s.bank c b
       let q := s.wq wq.toNat
       let g := wq.toNat / 4
       let x := s.stage g
       let isB : Bool := w0.extractLsb' 0 3 = 2
       let a : Arrival := { tag := (w0.extractLsb' 16 16).toNat, step := w1, addr := w2, producer := some c, entered := x.arrivals }
       ∃ t, exec (.enqRecordEnter c b i) s = .next t ∧ (t.bank c b).queue = k.queue.eraseIdx i ∧ k.sameRegisters (t.bank c b)
         ∧ t.clusters = (s.release c b (scopeOver c x.cores)).clusters
         ∧ (w0.getLsbD 7 = false → q.closed = false → (t.wq wq.toNat).reserved = q.reserved - 1
           ∧ let p : QRecord := { words := [w0, w1, w2, w3], producers := [c] }
             (q.nextWaiter = none → (t.wq wq.toNat).records = q.records ++ [p] ∧ (t.wq wq.toNat).bound = q.bound)
               ∧ ∀ w, q.nextWaiter = some w → (t.wq wq.toNat).bound = q.bound ++ [(w.1, w.2, p, 0)] ∧ (t.wq wq.toNat).records = q.records)
         ∧ (w0.getLsbD 7 = false → q.closed = true → t.wq wq.toNat = { q with reserved := q.reserved - 1 }
           ∧ ∃ p, (t.bank c b).posted = k.posted ++ [p] ∧ p.cause = 0x1D ∧ p.bundle = e.bundle ∧ p.pos = e.pos)
         ∧ (w0.getLsbD 7 = true → t.queues = s.queues ∧ (t.stage g).arrivals = x.arrivals + 1
           ∧ (t.stage g).fArr = (if isB then x.fArr else x.fArr ++ [a]) ∧ (t.stage g).bArr = (if isB then x.bArr ++ [a] else x.bArr)
           ∧ (t.stage g).fReserved = (if isB then x.fReserved else x.fReserved - 1)
           ∧ (t.stage g).bReserved = (if isB then x.bReserved - 1 else x.bReserved)))
    ∧ (∀ (s : State) (c b i : Nat) (e : QEntry) (opa bar : BitVec 6), s.failed = false → s.performable c b i = some e →
       let k := s.bank c b
       let cl := clusterOf c
       let y := s.barrier cl bar.toNat
       let n := (e.ops.headD 0).toNat
       let gone : State := s.setBank c b (k.dropEntry i)
       let refused (u : State) : State := u.postOn c b 0x1D e.bundle e.pos e.clk none
       let does (t : State) : Prop := exec (.barrArrive c b i) s = .next t
       let place : Bank := { k.dropEntry i with barrClk := tset bar.toNat s.clk k.barrClk }
       let arrived (phase : BitVec 8) : State := s.setBank c b { place with arrival := tset bar.toNat phase k.arrival }
       (e.ins = .binit opa bar → y.pending = 0 →
           does (gone.setBarrier cl bar.toNat { y with expect := n, remain := n, early := 0, err := false, errCode := 0 }))
         ∧ (e.ins = .binit opa bar → y.pending ≠ 0 → does (refused gone))
         ∧ (e.ins = .bexp opa bar → y.pending + n < 2 ^ 28 → does (gone.setBarrier cl bar.toNat { y with pending := y.pending + n }))
         ∧ (e.ins = .bexp opa bar → 2 ^ 28 ≤ y.pending + n → does (refused gone))
         ∧ (e.ins = .barr bar → y.expect ≠ 0 → 0 < y.remain →
           does ((arrived y.phase).setBarrier cl bar.toNat { y with remain := y.remain - 1 }))
         ∧ (e.ins = .barr bar → y.expect ≠ 0 → y.remain = 0 → y.early + 1 < y.expect →
           does ((arrived (y.phase + 1)).setBarrier cl bar.toNat { y with early := y.early + 1 }))
         ∧ (e.ins = .barr bar → (y.expect = 0 ∨ (y.remain = 0 ∧ y.expect ≤ y.early + 1)) → does (refused (s.setBank c b place))))
    ∧ (∀ (s : State) (k b : Nat),
       let y := s.barrier k b
       s.settleBarriers.barrier k b = if y.expect ≠ 0 ∧ y.remain = 0 ∧ y.pending = 0 then
           { y with lastErr := if y.err then y.errCode else 0, phase := y.phase + 1, remain := y.expect - y.early, early := 0, err := false,
                    errCode := 0, doneClk := s.clk }
         else y)
    ∧ (∀ (s : State) (c b : Nat) (l r : List QEntry) (e : QEntry) (opa bar : BitVec 6), b < 2 →
       let k := s.bank c b
       let y := s.barrier (clusterOf c) bar.toNat
       let polls (o : QEntry) : Prop := ∃ q n, o.ins = .bpoll q n
       k.queue = l ++ e :: r → e.ins = .bpoll opa bar → (∀ o ∈ l ++ r, ¬ polls o) →
       (s.clk < e.clk + 2 → s.pollBarriers c b = s)
         ∧ (e.clk + 2 ≤ s.clk → y.remain < 2 ^ 16 → y.pending < 2 ^ 28 → ∃ v : SReg,
             s.pollBarriers c b = s.setBank c b { k with queue := l ++ r, inFlight := k.inFlight ++
               [{ due := e.clk + 8, issued := e.clk, pos := e.pos, bundle := e.bundle, write := .sreg opa.toNat v }] }
             ∧ v.extractLsb' 0 8 = y.phase ∧ (v.extractLsb' 8 16).toNat = y.remain ∧ (v.extractLsb' 24 28).toNat = y.pending
             ∧ v.getLsbD 52 = y.err ∧ (v.extractLsb' 53 8).toNat = y.errCode % 256 ∧ v.extractLsb' 61 3 = 0))

/-! ## Engines -/

/-- R32, R303 to R305, R307, R312: a command that starts sets OFFSET to the lowest offset it writes in the scratchpad; a block that may
run starts with its headers; each of its units moves its bytes, is counted down at the block's barrier and raises OFFSET; one that fails
stops the command with its code and one that must wait leaves the state it waited in. A `COPY` from cluster memory moves 32 bytes to the
scratchpad and no other there, OFFSET standing at their end; a `FILL` writes the bytes of its value; a `PATTERN` writes its entry. R159,
R307, R308, R311, R312: a block that has written all it writes ends: what is left of its count is subtracted, and the next block of its
chain follows with its own count, or its command leaves the channel. An entry enters its FIFO where there is room, not after the bundle of
the clk was examined nor after an entry of a higher channel, and its bytes are counted down; without room it waits. R311, R312, R314,
R352, R353: the counted bytes of a command are fixed once its headers are read, those that earlier blocks write being foreseen (logs 18
and 41, the model's readings, as is the provisional byte that a block keeps that cannot be foreseen): each block's count is added at its
barrier, the other provisional bytes are removed; an output past the intermediate, or a count past the range of a barrier, refuses the
whole command with a posted `ENGINE`; and an abort empties the channel, each outstanding count failing with `ENGINE` at its barrier. -/
def Obligations.CopyChannels : Prop :=
  (∀ (s : State) (c n cause : Nat) (out : List (Bool × Nat × BitVec 8)) (cmd : CopyCmd) (b : CopyBlock) (r : List CopyBlock), s.failed = false →
       s.headCmd c n = some cmd → cmd.blocks = b :: r → cmd.fixed = true → s.copyMayRun c cmd = true →
       (cmd.started = false → b.kind = 1 → s.patternBefore cmd = false) →
       let x := s.core c
       let q := s.cluster (clusterOf c)
       let s' := (s.outside out).startCommand c n cmd
       let going : CopyCmd := { cmd with started := true }
       let i := 32 * cmd.progress
       let does (units : Nat) (t : State) : Prop := exec (.copyBlockProgress c n units out) s = .next t
       (cmd.started = false → out = [] → ((s'.core c).channel n).offset = match s.padLowest c cmd.blocks with
           | some a => a % 2 ^ 24
           | none => (x.channel n).offset)
         ∧ (s.standing (.copy c n) = .failed cause → (b.kind ≠ 1 ∨ cmd.progress ≠ 0) → does 1 (s.failBlock c n cmd cmd.kindCode cause))
         ∧ (s.standing (.copy c n) = .free → cmd.heads = [] →
           (∀ v t, s'.startBlock c n going b = .value v t → does 0 t)
           ∧ (∀ code, s'.startBlock c n going b = .fail code → does 1 (s'.failBlock c n going cmd.kindCode code))
           ∧ ∀ t, s'.startBlock c n going b = .wait t → does 1 t)
         ∧ (s.standing (.copy c n) = .free → cmd.heads ≠ [] → cmd.progress < cmd.units b → (b.to.isFifo = true → cmd.waiting = []) →
           (∀ bytes t, s'.blockUnit c n going b = .value bytes t →
             let y := (t.headCmd c n).getD going
             let down := min bytes y.left
             let moved := t.setHead c n { y with progress := y.progress + 1, left := y.left - down }
             let raised := (y.unitOffset b (cmd.progress + 1)).elim moved (moved.raiseOffset c n (decide (cmd.units b ≤ cmd.progress + 1)))
             does 1 (raised.countDown (clusterOf c) b.bar down))
           ∧ (∀ code, s'.blockUnit c n going b = .fail code → does 1 (s'.unitFailed c n going b code))
           ∧ (∀ t, s'.blockUnit c n going b = .wait t → does 1 (t.uncounted s'))
           ∧ (b.kind = 0 → b.from = .cluster → b.to = .pad → b.rows = 1 → i + 32 ≤ b.len → q.check (b.src + i) 32 = none →
             b.dst + i + 32 ≤ 2 ^ 23 → s.padRoom c n 32 = true → cmd.started = true → r = [] → (x.channel n).offset ≤ b.dst + i →
             cmd.top ≤ b.dst + i → out = [] →
             ∃ t, exec (.copyBlockProgress c n 1 out) s = .next t ∧ ((t.core c).channel n).offset = b.dst + i + 32
               ∧ (∀ j < 32, mget (b.dst + i + j) (t.core c).pad = mget (b.src + i + j) q.cmem)
               ∧ ∀ a, (a < b.dst + i ∨ b.dst + i + 32 ≤ a) → mget a (t.core c).pad = mget a x.pad)
           ∧ (b.kind = 5 → b.param % 2 = 0 → b.to = .cluster → b.rows = 1 → i + 32 ≤ b.len → q.check (b.dst + i) 32 = none → out = [] →
             ∃ t, exec (.copyBlockProgress c n 1 out) s = .next t
               ∧ (∀ j < 32, mget (b.dst + i + j) (t.cluster (clusterOf c)).cmem = BitVec.ofNat 8 (b.aux / 256 ^ ((i + j) % 8)))
               ∧ ∀ a, (a < b.dst + i ∨ b.dst + i + 32 ≤ a) → mget a (t.cluster (clusterOf c)).cmem = mget a q.cmem)
           ∧ (b.kind = 7 → b.from = .pad → b.src + 32 ≤ 2 ^ 23 → out = [] →
             ∃ t, exec (.copyBlockProgress c n 1 out) s = .next t
               ∧ (t.die (dieOf c)).patterns = tset (b.aux % 64) (BitVec.ofNat 256 (mread x.pad b.src 32)) (s.die (dieOf c)).patterns)))
    ∧ (∀ (s : State) (c n eng : Nat) (isB : Bool) (cmd : CopyCmd) (b : CopyBlock) (r : List CopyBlock) (e : FifoEntry) (es : List FifoEntry),
       s.failed = false → s.headCmd c n = some cmd → cmd.blocks = b :: r →
       let k := s.bankOf cmd.who
       let m := k.eng eng
       let ended := s.countDown (clusterOf c) b.bar cmd.left
       (cmd.heads ≠ [] → cmd.units b ≤ cmd.progress → (b.to.isFifo = true → cmd.waiting = []) →
           (r = [] → exec (.chainBlockEnd c n) s = .next (ended.dropHead c n))
           ∧ (r ≠ [] → exec (.chainBlockEnd c n) s = .next (ended.setHead c n { cmd with
             blocks := r, counted := cmd.counted.drop 1, progress := 0, heads := [], srcOff := 0, waiting := [],
             left := (cmd.counted.drop 1).headD 0 })))
         ∧ (b.to = .fifo eng isB → cmd.waiting = e :: es → s.mayDeliver c n (if isB then m.bLast else m.aLast) = true →
           (∀ m', m.accept isB e = some m' →
             let down := min (cmd.entryBytes b) cmd.left
             let full : MatEngine := if isB then { m' with bLast := (s.clk, n) } else { m' with aLast := (s.clk, n) }
             exec (.fifoDelivery c n) s = .next (((s.setBankOf cmd.who (k.setEng eng full)).setHead c n { cmd with
               waiting := es, left := cmd.left - down, progress := cmd.progress + if b.kind = 1 then 1 else 0 }).countDown (clusterOf c) b.bar down))
           ∧ (m.accept isB e = none → exec (.fifoDelivery c n) s = .next s)
           ∧ (isB = true → m.bFifo.length < 128 → (m.accept isB e).map (·.bFifo) = some (m.bFifo ++ [e])))
         ∧ (b.to = .fifo eng isB → (s.core c).examined = s.clk + 1 → exec (.fifoDelivery c n) s = .next s))
    ∧ (∀ (s : State) (c n : Nat), s.failed = false →
       let x := s.core c
       let k := clusterOf c
       let h := x.channel n
       let outstanding (cmd : CopyCmd) : List (CopyBlock × Nat) := if cmd.fixed then cmd.blocks.zip (cmd.left :: cmd.counted.drop 1) else []
       let stopped : State := h.queue.foldl (fun (u : State) cmd =>
         cmd.provisional.foldl (fun (u : State) p => u.failDown k p cmd.kindCode 0x1D 1)
           ((outstanding cmd).foldl (fun (u : State) o => if o.2 = 0 then u else u.failDown k o.1.bar cmd.kindCode 0x1D o.2) u)) s
       (∃ t, exec (.ccctlAbort c n) s = .next t ∧ t.clusters = stopped.clusters ∧ ((t.core c).channel n).queue = []
           ∧ (t.core c).pad = x.pad ∧ ∀ m, m ≠ n → (t.core c).channel m = x.channel m)
         ∧ ∀ cmd, s.headCmd c n = some cmd → cmd.fixed = false → s.copyMayRun c cmd = true → s.standing (.copy c n) = .free →
           ((cmd.blocks.any (·.kind = 1)) = true → s.patternBefore cmd = false) →
           let does (t : State) : Prop := exec (.engineCountFix 0 c n) s = .next t
           let refused (u : State) : State :=
             ((cmd.provisional.foldl (fun (v : State) p => v.countDown k p 1) u).dropHead c n).postFor cmd.who 0x1D
           let ahead := if (cmd.blocks.any (·.unclear)) = true then s.foresee c n cmd cmd.blocks else (cmd.blocks.map fun _ => none, false)
           let read := s.readCounts c n cmd (cmd.blocks.zip ahead.1)
           (ahead.2 = true → does (refused s))
             ∧ (ahead.2 = false → read.1 = none → does (read.2.uncounted s))
             ∧ (ahead.2 = false → ∀ found, read.1 = some found →
               let u := read.2
               let counts := found.map fun o => o.getD 0
               let blocks := (cmd.blocks.zip found).map fun o => { o.1 with deferred := o.2.isNone }
               let later := (blocks.filter (·.deferred)).map (·.bar)
               let kept := cmd.provisional.filter fun p => later.contains p
               let gone := cmd.provisional.filter fun p => !later.contains p
               let fixed : CopyCmd := { cmd with blocks := blocks, counted := counts, fixed := true, left := counts.headD 0, provisional := kept }
               (∀ w, u.countBlocks k ((cmd.blocks.map (·.bar)).zip counts) = some w →
                   does ((gone.foldl (fun (v : State) p => v.countDown k p 1) w).setHead c n fixed))
                 ∧ (u.countBlocks k ((cmd.blocks.map (·.bar)).zip counts) = none → does (refused u))))

/-- R331, R336, R341, R343, R350, R352, R353: the engine takes the oldest command of a core's queue. In its turn on its key a fetch has
the bytes of its entry counted, and ends at once where that is READY; a `STASH` reads its home header, fails with `HEADER` on a bad one,
has its bytes counted and gives its entry the state of its mode, `.auto` choosing one; a recompute of a DROPPED entry whose checksum
differs fails, keeps the entry and abandons the tag, as log 54 has it; a count past the range of the barrier refuses the command. R333 to
R335, R338 to R341, R359: a `STASH` in turn reads its payload, keeps its checksum in the entry and the home header, writes its copy where
its mode finds room, and ends once its payload is zeroed, with the entry that stands for the copy; a NARROW8 keeps no checksum and clears
CKV; without room a chained or spilled one goes on as a drop or a keep. A drop leaves only the checksum, a keep the payload too. A lost
link sends a spill to LPDDR-6 with RETRY, else it fails after its checksum is kept (log 20), and ends a fetch from the host. `SFREE`
removes the entry. An engine whose access failed fails its command with the cause. R333, R337: a fetch checks the destination header,
reads the payload from where the entry says it is, writes it in the format of the home payload, then LEN, CKSUM and CKV of the destination
header, and ends with the entry READY there; a destination that does not fit fails with `HEADER`, a copy that cannot be read back with its
own cause. R344 to R347, R366, R371: once every covered sequencer has been captured, the record of a `CKPT` is written to free granules of
its region, in the place of an earlier one of its stage and tag, and the command ends; without room, or where the write fails, it ends
with a posted `ENGINE`. A covered sequencer takes its generators and seeds from a snapshot when that is due, and replays. -/
def Obligations.StashSteps : Prop :=
  (∀ (s : State) (core d key i : Nat) (is : List Nat) (c : StashCmd), s.failed = false →
       let who := Writer.stash d key
       let does (t : State) : Prop := exec (.engineCountFix 1 d key) s = .next t.refresh
       let entry (t : State) : StashEntry := (tfind key (t.die d).stash).getD {}
       ((s.core core).stashQueue = i :: is →
           exec (.stashCmdTake core) s = .next (s.setCore core { s.core core with stashQueue := is }))
         ∧ ((s.die d).turn key = some c → c.begun = true → c.running = false → s.stashTaken c = true → s.released c.who = true → s.tooSoon d c = false →
           (∀ cause, s.standing who = .failed cause → c.op ≠ 2 → does (s.stashBadStart d c cause))
           ∧ (s.standing who = .free →
             ((c.op = 1 ∨ c.op = 3) →
               (∀ u, s.stashCount c (entry s).len = some u →
                 ((entry s).state = 10 → does ((c.bar.elim u fun b => u.countDown (clusterOf c.who.core) b (entry s).len).endTurn d key))
                 ∧ ((entry s).state ≠ 10 → does (u.setTurn d { c with running := true, left := (entry s).len })))
               ∧ (s.stashCount c (entry s).len = none → does (s.stashRefused d c)))
             ∧ (c.op = 0 →
               (∀ cause, s.engineRead who c.who c.header 64 = .fail cause → does (s.stashBadStart d c cause))
               ∧ ∀ v u, s.engineRead who c.who c.header 64 = .value v u →
                 let h := Header.ofNat v
                 let run : StashCmd := { c with running := true, left := h.len }
                 let shaped (w : State) : StashEntry := { entry w with
                   header := c.header, payload := h.addr, len := h.len, fmt := h.fmt, rows := h.rows, rowLen := h.rowLen, loc := 1,
                   granules := [], scales := [] }
                 (stashHeaderBad h c.mode = true → does (u.stashBadStart d c 0x18))
                 ∧ (stashHeaderBad h c.mode = false → c.mode ≠ 6 → c.prev ≠ 8 →
                   (∀ w, u.stashCount c h.len = some w →
                     does ((w.setStash d key { shaped w with state := acceptedState c.mode }).setTurn d run))
                   ∧ (u.stashCount c h.len = none → does (u.stashRefused d c)))
                 ∧ (stashHeaderBad h c.mode = false → (c.mode = 6 ∨ c.prev = 8) →
                   ∀ p m, u.readBytes who c.who h.addr h.len = .value p m →
                   (m.stashCount c h.len = none → does (m.stashRefused d c))
                   ∧ ∀ w, m.stashCount c h.len = some w →
                   let sum : Option SReg := some (BitVec.ofNat 64 (checksumOf p h.len))
                   let mode := if c.mode = 6 then (w.die d).autoMode run (shaped w) p else c.mode
                   (c.prev = 8 → (entry w).checksum ≠ sum →
                     does ((((w.setStash d key { entry w with err := 0x17 }).stashError run 0x17).endTurn d key).diverge c.who.stage
                       (key % 65536)))
                   ∧ ((c.prev ≠ 8 ∨ (entry w).checksum = sum) →
                     does ((w.setStash d key { shaped w with state := acceptedState mode }).setTurn d { run with mode := mode })))))))
    ∧ (∀ (s : State) (d key : Nat) (c : StashCmd) (e : StashEntry), s.failed = false → (s.die d).turn key = some c →
       let who := Writer.stash d key
       let does (i : Instr) (t : State) : Prop := exec i s = .next t.refresh
       let zeroed (i : Instr) (m : State) (y : StashEntry) : Prop := ∀ v z,
         (m.setTurn d { c with copied := some y }).writeBytes who c.who e.payload e.len 0 = .value v z →
         does i (z.stashDone d { c with copied := some y } y)
       (c.op = 2 → s.stashTaken c = true →
           does (.sfreeComplete d key) ((s.setDie d { s.die d with stash := tdel key (s.die d).stash }).endTurn d key))
         ∧ (tfind key (s.die d).stash = some e → c.running = true → c.op = 0 → c.aborted = false →
           (∀ cause, s.standing who = .failed cause →
             (1 ≤ c.mode → c.mode ≤ 4 → does (.stashOffloadComplete d key) (s.stashFail d c cause))
             ∧ (c.mode = 5 → does (.stashDropComplete d key) (s.stashFail d c cause))
             ∧ (c.mode = 0 → does (.stashKeepComplete d key) (s.stashFail d c cause)))
           ∧ (s.standing who = .free →
             (∀ y, c.copied = some y → ∀ v u, s.writeBytes who c.who y.payload y.len 0 = .value v u →
               (1 ≤ c.mode → c.mode ≤ 4 → does (.stashOffloadComplete d key) (u.stashDone d c y))
               ∧ (c.mode = 5 → does (.stashDropComplete d key) (u.stashDone d c y)))
             ∧ (c.copied = none → ∀ p u, s.readBytes who c.who e.payload e.len = .value p u →
               let sum : Option SReg := some (BitVec.ofNat 64 (checksumOf p e.len))
               let placed (w : State) (y : StashEntry) : Prop :=
                 let choice := (w.die d).chooseHeld c y p (!c.chained) (fallbackChain c.mode)
                 (choice = .last → does (.stashOffloadComplete d key) ((w.setStash d key { y with state := 1 }).setTurn d { c with
                     mode := if c.eligible then 5 else 0, chained := true }))
                   ∧ (∀ cause, choice = .fail cause → does (.stashOffloadComplete d key) (w.stashFail d c cause))
                   ∧ ∀ z data, choice = .place z data → ∀ v m,
                     (w.setStash d key { y with state := acceptedState z.mode }).copyOut d who c.who z.loc z.granules data = .value v m →
                     (c.mode ≠ 2 → zeroed (.stashOffloadComplete d key) m z)
                     ∧ (c.mode = 2 → ∀ v' m', m.markHeader who c.who y.header none = .value v' m' → zeroed (.stashOffloadComplete d key) m' z)
               (c.mode = 2 → placed u ((tfind key (u.die d).stash).getD e))
               ∧ ∀ v w, u.markHeader who c.who e.header sum = .value v w →
                 ((c.mode = 1 ∨ c.mode = 3 ∨ c.mode = 4) →
                   placed (w.setStash d key { e with checksum := sum }) { e with checksum := sum })
                 ∧ (c.mode = 5 → zeroed (.stashDropComplete d key) w { e with state := 8, mode := 5, loc := 0, checksum := sum })
                 ∧ (c.mode = 0 → does (.stashKeepComplete d key)
                   (w.stashDone d c { e with state := 1, mode := 0, checksum := sum })))))
         ∧ (tfind key (s.die d).stash = some e → c.running = true →
           let kept (i : Instr) (m : State) (y : StashEntry) (c : StashCmd) : Prop := ∀ p u, m.readBytes who c.who e.payload e.len = .value p u →
             let sum : Option SReg := some (BitVec.ofNat 64 (checksumOf p e.len))
             ∀ v w, u.markHeader who c.who e.header sum = .value v w → does i ((w.setStash d key { y with checksum := sum }).stashFail d c 0x19)
           let cut : State := s.setStash d key { e with state := 1 }
           let stopped : StashCmd := { c with aborted := true }
           (c.op = 0 → c.mode = 4 → c.copied = none →
             (((s.die d).policy c.who.stage).getLsbD 3 = true →
               does (.spillLinkAbort d key) (cut.setTurn d { c with mode := 3, chained := true }))
             ∧ (((s.die d).policy c.who.stage).getLsbD 3 = false →
               kept (.spillLinkAbort d key) (cut.setTurn d stopped) { e with state := 1 } stopped)
             ∧ (c.aborted = true → s.standing who = .free → kept (.stashOffloadComplete d key) s e c))
           ∧ ((c.op = 1 ∨ c.op = 3) → e.loc = 4 → does (.spillLinkAbort d key) (s.stashFail d c 0x19))))
    ∧ (∀ (s : State) (d key : Nat) (c : StashCmd) (e : StashEntry), s.failed = false → (s.die d).turn key = some c →
       let who := Writer.stash d key
       let does (t : State) : Prop := exec (.stashFetchComplete d key) s = .next t.refresh
       tfind key (s.die d).stash = some e → c.running = true → (c.op = 1 ∨ c.op = 3) →
       (∀ cause, s.standing who = .failed cause → does (s.stashFail d c cause))
         ∧ (s.standing who = .free → ∀ x u, s.engineRead who c.who c.header 64 = .value x u →
           let h := Header.ofNat x
           let bad : Prop := h.fault = true ∨ h.form ≠ 0 ∨ h.fmt ≠ e.fmt ∨ h.rows ≠ e.rows ∨ h.rowLen ≠ e.rowLen
             ∨ h.pitch ≠ h.rowLen * codeBytes h.fmt
           (bad → does (u.stashFail d c 0x18))
           ∧ (¬ bad → ∀ y m,
             (if c.prev = 1 ∨ c.prev = 10 then u.readBytes who c.who e.payload e.len else u.copyIn d who c.who e.loc e.granules) = .value y m →
             (∀ cause, e.restore c.prev y = .inl cause → does (m.stashFail d c cause))
             ∧ ∀ p, e.restore c.prev y = .inr p →
               ∀ v1 u1, m.writeBytes who c.who h.addr e.len p = .value v1 u1 →
               ∀ z u2, u1.engineRead who c.who e.header 64 = .value z u2 →
               let home := Header.ofNat z
               let old := fieldAt x 48 8
               let flags := old - (old &&& 2 ^ 33) + if home.ckValid then 2 ^ 33 else 0
               ∀ v3 u3, u2.engineWrite who c.who true ((c.header + 12) % 2 ^ 64) 4 e.len = .value v3 u3 →
               ∀ v4 u4, u3.engineWrite who c.who true ((c.header + 40) % 2 ^ 64) 16 (home.cksum + 2 ^ 64 * flags) = .value v4 u4 →
               does (u4.stashDone d c { e with
                 state := 10, header := c.header, payload := h.addr, loc := 1, granules := [], scales := [], copyBytes := 0 }))))
    ∧ (∀ (s : State) (c b : Nat) (cmd : Command) (opb : BitVec 6) (scope : BitVec 3) (stage tag : Nat) (gens : Table Gen) (seeds : Table Seed)
         (l : List (Nat × Due)), s.failed = false →
       let d := dieOf c
       let who := Writer.ckpt c cmd.id
       let st := cmd.who.stage
       let tg := (cmd.ops.headD 0).toNat % 65536
       let covered := cmd.covers.map fun e => (e.1, e.2.2.2.getD 0)
       let data := snapBytes st scope.toNat tg ((cmd.ops[1]?).getD 0).toNat covered
       let ended (u : State) : State := (u.endCommand cmd).forgetWriter who
       let does (t : State) : Prop := exec (.ckptRecordComplete c b) s = .next t
       let room := ((s.freeSnaps st tg).die d).allocate 3 (64 + 256 * covered.length)
       (s.commands.find? (fun x => x.snaps && x.who.core = c && x.who.bank = b && x.covers.all fun e => e.2.2.2.isSome) = some cmd →
           cmd.ins = .ckpt opb scope →
           (room = none → does ((ended s).postFor cmd.who 0x1D))
           ∧ ∀ g, room = some g →
             (∀ cause, s.standing who = .failed cause → does ((ended s).postFor cmd.who 0x1D))
             ∧ (s.standing who = .free →
               let written : Got := g.zipIdx.foldl (fun (acc : Got) (o : Nat × Nat) =>
                 match acc with
                 | .value _ u => u.engineWrite who cmd.who true (((u.die d).region 3).1 + 256 * o.1) 256 (data / 256 ^ (256 * o.2) % 256 ^ 256)
                 | x => x) (.value 0 s)
               (∀ cause, written = .fail cause → does ((ended s).postFor cmd.who 0x1D))
               ∧ ∀ v u, written = .value v u →
                 let w := u.freeSnaps st tg
                 let r : SnapRecord := { stage := st, tag := tg, scope := scope.toNat, step := (cmd.ops[1]?).getD 0, granules := g,
                                         covered := covered.map (·.1) }
                 does (ended (w.setDie d { w.die d with snaps := (w.die d).snaps ++ [r] }))))
         ∧ (takeReplay s.clk c b s.calendar = some (((stage, tag), gens, seeds), l) →
           let k := s.bank c b
           exec (.replayRemoteRestore c b) s = .next ({ s with calendar := l }.setBank c b
             { k with gens := gens, seeds := seeds, replaying := some (stage, tag) })))

/-- R318 to R322, R352, R353, R360: the header of the first packet that lacks it is read and its payload bytes counted; a packet whose
header is bad, or whose engine failed, leaves the queue with its failure. The head packet departs, its payload read, with its sequence
number, place and padding, once the window has room and the port of its route is UP (R446), and stays in the replay buffer; one larger
than the window fails with `CHANNEL`, one without room waits. A window resets the sender's counts, a CONSUMED flit moves its count, an
acknowledged packet leaves the replay buffer, each in the order of sending (R442); an exchange with an end of the same device takes the
first flit that end has sent (log 60). R318, R320, R321, R361, R362, R371, R484: a packet already deposited is acknowledged and discarded;
the next one is written at its place of the buffer with its deposited header (log 26), enters the arrival queue of the stage and is
acknowledged, DEPOSITED and SEQ moving on; it waits while the queue has no room, and a failed write is reported and its region consumed by
the channel itself. `CHPOST` sets the window of a receiver that has consumed all, from a header in home memory, and sends it; the deposits
that follow land in the current copy (log 39); `CHACK` moves CONSUMED and sends it; anything else posts `CHANNEL`. -/
def Obligations.ChannelSteps : Prop :=
  (∀ (s : State) (chan i seq v : Nat) (p : Packet) (ps : List Packet), s.failed = false →
       let t := s.tensor chan
       let who := Writer.channel chan
       let size := packetBytes p.len
       let o := t.sent % t.w
       let pad := if t.w < o + size then t.w - o else 0
       let fixes (u : State) : Prop := exec (.engineCountFix 2 chan 0) s = .next u
       let departs (u : State) : Prop := exec (.packetDepart chan) s = .next u
       let k := clusterOf p.who.core
       let brought (f : Flit) : Prop := s.peerHere t = true → (s.sent.find? fun g => g.control == f.control) = some f
       let taken (f : Flit) : State := if s.peerHere t = true then { s with sent := s.sent.erase f } else s
       (t.sq.findIdx? (fun q => q.header.isNone) = some i → t.sq[i]? = some p → s.released p.who = true →
           (∀ cause, s.standing who = .failed cause → fixes (s.failPacket chan i p cause))
           ∧ (s.standing who = .free →
             (∀ cause, s.engineRead who p.who p.headerAddr 64 = .fail cause → fixes (s.failPacket chan i p cause))
             ∧ ∀ x u, s.engineRead who p.who p.headerAddr 64 = .value x u →
               let n := (Header.ofNat x).len
               let p' : Packet := { p with header := some x, counted := n, provisional := false }
               ((Header.ofNat x).fault = true → fixes (u.failPacket chan i p 0x18))
               ∧ ((Header.ofNat x).fault = false → p.bv = false → fixes (u.setTensor chan { t with sq := t.sq.set i p' }))
               ∧ ((Header.ofNat x).fault = false → p.bv = true →
                 (∀ w, u.countUp k p.bar n = some w → fixes ((w.countDown k p.bar 1).setTensor chan { t with sq := t.sq.set i p' }))
                 ∧ (u.countUp k p.bar n = none →
                   fixes (((u.setTensor chan { t with sq := t.sq.eraseIdx i }).countDown k p.bar 1).postFor p.who 0x1D)))))
         ∧ (t.sq = p :: ps → p.header ≠ none → 0 < t.w →
           (t.w < size → departs (s.failPacket chan 0 p 0x19))
           ∧ (size ≤ t.w → (t.w + t.consumed < pad + t.sent + size ∨ ∃ r, s.regs.route t.peerPos = some r ∧ (s.port r).1 ≠ 0) → departs s)
           ∧ (size ≤ t.w → pad + t.sent + size ≤ t.w + t.consumed → (∀ r, s.regs.route t.peerPos = some r → (s.port r).1 = 0) →
             (∀ cause, s.standing who = .failed cause → departs (s.failPacket chan 0 p cause))
             ∧ (s.standing who = .free →
               let a := (Header.ofNat (p.header.getD 0)).addr
               (∀ cause, s.readBytes who p.who a p.len = .fail cause → departs (s.failPacket chan 0 p cause))
               ∧ ∀ x u, s.readBytes who p.who a p.len = .value x u →
                 let p' : Packet := { p with seq := t.seq, offset := if pad = 0 then o else 0, pad := pad, payload := natBytes (size - 64) x }
                 let w := u.setTensor chan { t with
                   sq := ps, replay := t.replay ++ [p'], sent := t.sent + pad + size, seq := (t.seq + 1) % 2 ^ 32 }
                 departs ((if p.bv then w.countDown k p.bar p.counted else w).send (.packet chan t.seq)))))
         ∧ (t.bound = true → t.sender = true →
           (brought (.window t.peer v) → exec (.windowFlitReceive chan true v) s
             = .next ((taken (.window t.peer v)).setTensor chan { t with w := v, sent := 0, consumed := 0 }))
           ∧ (t.consumed ≤ v → v ≤ t.sent → brought (.consumed t.peer v) → exec (.windowFlitReceive chan false v) s
             = .next ((taken (.consumed t.peer v)).setTensor chan { t with consumed := v }))
           ∧ (v < t.consumed ∨ t.sent < v → exec (.windowFlitReceive chan false v) s = .next s)
           ∧ (t.replay = p :: ps → p.seq = seq → brought (.ack t.peer seq) → exec (.packetAckReceive chan seq) s
             = .next ((taken (.ack t.peer seq)).setTensor chan { t with replay := ps }))))
    ∧ (∀ (s : State) (c b i chan seq step tag kind offset pad : Nat) (data : List (BitVec 8)) (w : Captured) (cmd : Command) (hd ch : BitVec 6),
       s.failed = false →
       let t := s.tensor chan
       let dep := Writer.deposit chan
       let size := data.length
       let a := t.rbase + offset
       let deposits (u : State) : Prop := exec (.packetDeposit chan seq step tag kind offset pad data) s = .next u
       let ended : State := s.endCommand cmd
       let does (u : State) : Prop := exec (.chackEffect c b i) s = .next u
       let bad : Prop := does ((ended.forgetWriter dep).postFor cmd.who 0x19)
       let n := (cmd.ops.headD 0).toNat
       (t.bound = true → t.sender = false → s.linkBrings t seq step tag kind offset pad data = true →
           (seq ≠ t.seq → (t.seq + 2 ^ 32 - seq) % 2 ^ 32 < 2 ^ 31 → deposits (s.send (.ack chan seq)))
           ∧ (t.who = some w → s.depositor t = some w)
           ∧ (seq = t.seq → s.depositor t = some w →
             let room : Prop := offset + size ≤ t.w ∧ (s.stage t.stage).arrivalFull (decide (kind = 2)) = false
             let image := depositedHeader (bytesNat (data.take 64)) (a + 64) tag + 2 ^ 512 * bytesNat (data.drop 64)
             (¬ room → deposits s)
             ∧ (room → ∀ cause, s.standing dep = .failed cause → deposits (s.depositFailed chan tag pad size cause))
             ∧ (room → s.standing dep = .free →
               (∀ cause, s.writeBytes dep w a size image = .fail cause → deposits (s.depositFailed chan tag pad size cause))
               ∧ ∀ v u, s.writeBytes dep w a size image = .value v u →
                 let entered := u.arrive t.stage (decide (kind = 2)) tag (BitVec.ofNat 64 step) (BitVec.ofNat 64 a) none
                 deposits ((entered.depositDone chan pad size false).refresh))))
         ∧ (let z := s.depositDone chan pad size false
           (z.tensor chan).deposited = t.deposited + pad + size ∧ (z.tensor chan).seq = (t.seq + 1) % 2 ^ 32
           ∧ (s.outPort (.ack chan t.seq) = none → .ack chan t.seq ∈ z.sent)
           ∧ ∀ p, s.outPort (.ack chan t.seq) = some p → ((s.port p).1 = 0 → .via p (.ack chan t.seq) ∈ z.sent)
             ∧ ((s.port p).1 ≠ 0 → (p, .ack chan t.seq) ∈ z.held))
         ∧ (s.commandAt c b i = some cmd → s.commandReady cmd = true → ch.toNat = chan →
           (cmd.ins = .chpost hd ch → s.released cmd.who = true →
             let may : Prop := t.bound = true ∧ t.sender = false ∧ t.stage = cmd.who.stage ∧ t.deposited = t.consumed
             (¬ may → bad)
             ∧ (may → ∀ cause, s.standing dep = .failed cause → bad)
             ∧ (may → s.standing dep = .free →
               (∀ cause, s.engineRead dep cmd.who cmd.addr 64 = .fail cause → bad)
               ∧ ∀ x u, s.engineRead dep cmd.who cmd.addr 64 = .value x u →
                 let h := Header.ofNat x
                 let good : Prop := h.fault = false ∧ h.addr % 64 = 0 ∧ h.cap % 64 = 0 ∧ 128 ≤ h.cap
                   ∧ u.homeOf (tget [] cmd.who.invocation u.extents) (dieOf cmd.who.core) h.addr h.cap = true
                 let done := (u.endCommand cmd).forgetWriter dep
                 (good → does ((done.setTensor chan { t with
                   rbase := h.addr, w := h.cap, sent := 0, consumed := 0, deposited := 0, selfConsumed := [],
                   who := some { cmd.who with shadows := [] } }).send (.window chan h.cap)))
                 ∧ (¬ good → does (done.postFor cmd.who 0x19))))
           ∧ (cmd.ins = .chack hd ch →
             let next := t.consumedAfter n
             let may : Prop := t.bound = true ∧ t.sender = false ∧ t.stage = cmd.who.stage ∧ n % 64 = 0 ∧ next ≤ t.deposited
             (¬ may → does (ended.postFor cmd.who 0x19))
             ∧ (may →
               let moved := ended.setTensor chan { t with
                 consumed := next, selfConsumed := t.selfConsumed.filter fun r => next < r.1 + r.2 }
               does (if next = t.consumed then moved else moved.send (.consumed chan next)))
             ∧ (t.selfConsumed = [] → next = t.consumed + n))))

/-- R323, R324, R326, R352, R353, R363, R485: the descriptor of a bucket is read and 4 bytes of each element counted; a member out of the
ring refuses it with `CHANNEL` (R449), an identity that is remembered completes at once, a bad descriptor fails with `CHANNEL`, one that
is held waits, a count past the range of the barrier is refused (log 59). A bucket whose signal word is not zero starts with the chunks of
its rank; one that a failure mark reached before it started fails. R324, R325, R327, R449: a chunk of a held bucket waits in the engine,
and no other does. Taken up, a sum has the own values added and goes on along its half of the ring; at the last rank it becomes the
result, which is written, added to the norm register and counted, but for the last 4 bytes, and goes round; a result is written and sent
on until it is back where the sum was complete. An access that fails fails the bucket at every member. R326 to R329, R485: a completion
mark is relayed and counted; with the marks of all others a bucket whose OUT is written completes: its last bytes are counted, its signal
word becomes zero, its identity and contribution counts are remembered. A failure mark is relayed; it stops a started bucket, with its
norm additions withdrawn and its count failed, and is kept for one that has not started; its second copy does nothing more, nor does one
of a bucket that has failed here (log 42). With the reports of all other survivors a bucket that all have written completes, and any other
one restarts. -/
def Obligations.CollectiveSteps : Prop :=
  (∀ (s : State) (i j : Nat) (b : Bucket), s.failed = false → s.buckets[i]? = some b →
       let k := clusterOf b.who.core
       let fixes (t : State) : Prop := exec (.engineCountFix 3 i j) s = .next t
       (b.fixed = false → s.released b.who = true →
           (∀ cause, s.standing b.writer = .failed cause → fixes (s.endBucket i b cause))
           ∧ (s.standing b.writer = .free →
             (∀ cause, s.engineRead b.writer b.who b.descAddr 64 = .fail cause → fixes (s.endBucket i b cause))
             ∧ ∀ x u, s.engineRead b.writer b.who b.descAddr 64 = .value x u →
               let b' := b.read x
               let known := u.remembered.contains (b'.step, b'.bucket)
               let held := u.buckets.any fun o => o.fixed ∧ o.step = b'.step ∧ o.bucket = b'.bucket
               let refused := ((u.endBucket i b 0x19).noteFailed (b'.step, b'.bucket)).sendFailure b'.step b'.bucket 0x19 u.regs.rank
               (u.regs.live = false → fixes refused)
               ∧ (u.regs.live = true → known = true → fixes ((u.dropBucket i b).countDown k b.bar 1))
               ∧ (u.regs.live = true → known = false → b'.bad x = true → fixes refused)
               ∧ (known = false → u.regs.live = true → b'.bad x = false →
                 (held = true → fixes s)
                 ∧ (held = false → u.countUp k b.bar (4 * b'.count) = none →
                   fixes (((u.dropBucket i b).countDown k b.bar 1).postFor b.who 0x1D))
                 ∧ (held = false → ∀ w, u.countUp k b.bar (4 * b'.count) = some w →
                   fixes (({ w with failedBuckets := w.failedBuckets.filter (· ≠ (b'.step, b'.bucket)) }.setBucket i { b' with
                     fixed := true, left := 4 * b'.count }).countDown k b.bar 1)))))
         ∧ (b.fixed = true → s.settling = false → b.started = false →
           (mread s.signal (8 * b.sig) 8 = 0 → exec (.bucketStart i) s = .next s)
           ∧ (mread s.signal (8 * b.sig) 8 ≠ 0 →
             let early := s.earlyFailures.find? fun f => f.1 = b.step ∧ f.2.1 = b.bucket
             (∀ f, early = some f → exec (.bucketStart i) s
               = .next ({ s with earlyFailures := s.earlyFailures.erase f }.stopBucket i b f.2.2))
             ∧ (early = none → exec (.bucketStart i) s
               = .next (s.setBucket i { b with started := true, early := b.ownChunks s.regs.ringSize s.regs.rank ++ b.early })))))
    ∧ (∀ (s : State) (i step bucket half chunk count : Nat) (final : Bool) (values : List Nat) (b : Bucket) (ch : Chunk) (rest : List Chunk),
       s.failed = false → s.buckets[i]? = some b →
       let n := s.regs.ringSize
       let me := s.regs.rank
       let hops := hopsTo n chunk me half
       let receives (t : State) : Prop := exec (.chunkReceive step bucket half chunk count final values) s = .next t
       let fits : Prop := s.regs.live = true ∧ b.unsettled = false ∧ half < 2 ∧ chunk < n
         ∧ values.length = (b.chunkRange n half chunk).2 ∧ values ≠ [] ∧ values.all (· < 2 ^ 32) = true
         ∧ if final then count = n ∧ hops + 1 < n else count = hops ∧ hops ≠ 0
       let span := b.chunkRange n ch.half ch.chunk
       let b0 : Bucket := { b with early := rest }
       let s0 := s.setBucket i b0
       let runs (t : State) : Prop := exec (.bucketStart i) s = .next t
       let fails (cause : Nat) : State :=
         ((((s.withdrawNorm b).dropBucket i b).failDown (clusterOf b.who.core) b.bar 6 cause b.left).noteFailed (b.step, b.bucket)).sendFailure
           b.step b.bucket cause me
       let sentOn (t : State) (c : Chunk) : State := t.send (.chunk ch.half b.step b.bucket c)
       (s.bucketOf step bucket = some i → fits →
           receives (s.setBucket i { b with early := b.early ++ [⟨half, chunk, count, final, values⟩] }))
         ∧ (s.bucketOf step bucket = some i → ¬ fits → receives s)
         ∧ (s.bucketOf step bucket = none → receives s)
         ∧ (b.fixed = true → s.settling = false → b.started = true → b.early = ch :: rest →
           (∀ cause, s.standing b.writer = .failed cause → runs (fails cause))
           ∧ (s.standing b.writer = .free →
             (ch.final = true →
               (∀ cause, s0.writeChunk i b0 ch span.1 ch.values = .fail cause → runs (fails cause))
               ∧ ∀ v u, s0.writeChunk i b0 ch span.1 ch.values = .value v u →
                 runs ((if stepRank n me ch.half = stepRank n ch.chunk (1 - ch.half) then u else sentOn u ch).settleBucket i))
             ∧ (ch.final = false →
               (∀ cause, s0.readChunk b0 span.1 span.2 = .fail cause → runs (fails cause))
               ∧ ∀ x u, s0.readChunk b0 span.1 span.2 = .value x u →
                 let own := unpack 32 span.2 x
                 let sums := if ch.count = 0 then own
                   else (ch.values.zip own).map fun y => Fmt.fp32.rne ((Fmt.fp32.decode y.1).add (Fmt.fp32.decode y.2))
                 let results := sums.map fun y =>
                   if b.avg then Fmt.fp32.div (Fmt.fp32.decode y) (FVal.ofInteger (ch.count + 1)) else y
                 let done : Chunk := { ch with count := ch.count + 1, final := true, values := results }
                 (ch.count + 1 < n → runs ((sentOn u { ch with count := ch.count + 1, values := sums }).settleBucket i))
                 ∧ (n ≤ ch.count + 1 → ∀ v w, u.writeChunk i b0 done span.1 results = .value v w →
                   runs ((if n = 1 then w else sentOn w done).settleBucket i))))))
    ∧ (∀ (s : State) (i step bucket cause rank port : Nat) (reports : List Bool) (b : Bucket), s.failed = false →
       let n := s.regs.ringSize
       let k := clusterOf b.who.core
       let ident := (step, bucket)
       let copy := (step, bucket, rank, port)
       let marked (t : State) : Prop := exec (.completionMarkReceive step bucket rank port) s = .next t
       let failure (t : State) : Prop := exec (.failureMarkReceive step bucket cause rank port) s = .next t
       let relayed := s.send (.mark port step bucket rank)
       let failing := s.send (.failure port step bucket cause rank)
       let first : State := { failing with markCopies := s.markCopies ++ [(step, bucket, rank, 1 - port)] }
       let kept : State := if s.remembered.contains ident ∨ s.failedBuckets.contains ident
           ∨ s.earlyFailures.any (fun f => f.1 = step ∧ f.2.1 = bucket) then first
         else { first with earlyFailures := s.earlyFailures ++ [(step, bucket, cause)] }
       let b' : Bucket := { b with marks := if b.marks.contains rank then b.marks else b.marks ++ [rank] }
       let complete (t : State) : State :=
         let u := (t.dropBucket i b').countDown k b.bar b.left
         { u with signal := mwrite s.signal (8 * b.sig) 8 0, remembered := ((b.step, b.bucket) :: s.remembered).take 4096,
                  contributions := (((b.step, b.bucket), b.counts) :: s.contributions).take 4096 }
       (s.regs.live = true → rank ≠ s.regs.rank → port < 2 →
           (s.bucketOf step bucket = none → marked relayed
             ∧ (copy ∈ s.markCopies → failure { failing with markCopies := s.markCopies.erase copy })
             ∧ (copy ∉ s.markCopies → failure kept))
           ∧ (s.bucketOf step bucket = some i → s.buckets[i]? = some b →
             (b.full = false → marked (relayed.setBucket i b'))
             ∧ (b.full = true →
               let t := relayed.setBucket i b'
               let own := if b.marked then t else ((t.setBucket i { b' with marked := true }).send (.mark 0 step bucket s.regs.rank)).send
                 (.mark 1 step bucket s.regs.rank)
               marked (if b'.marks.length + 1 < n then own else complete own))
             ∧ (copy ∈ s.markCopies → failure { failing with markCopies := s.markCopies.erase copy })
             ∧ (copy ∉ s.markCopies → b.started = false → failure kept)
             ∧ (copy ∉ s.markCopies → b.started = true →
               let u := (first.withdrawNorm b).dropBucket i b
               let v := u.failDown k b.bar 6 cause b.left
               failure { v with failedBuckets := (b.step, b.bucket) :: v.failedBuckets.filter (· ≠ (b.step, b.bucket)) })))
         ∧ ((s.regs.live = false ∨ rank = s.regs.rank) → marked s ∧ failure s)
         ∧ (s.buckets[i]? = some b → b.unsettled = true → reports.length = n - 1 →
           let whole : Prop := reports.all id = true ∧ b.fixed = true ∧ b.full = true
           (whole →
             let u := (s.dropBucket i b).countDown k b.bar b.left
             exec (.ringSettle i reports) s = .next { u with
               signal := mwrite u.signal (8 * b.sig) 8 0, remembered := ((b.step, b.bucket) :: u.remembered).take 4096,
               contributions := (((b.step, b.bucket), b.counts) :: u.contributions).take 4096 })
           ∧ (¬ whole → exec (.ringSettle i reports) s = .next ((s.withdrawNorm b).setBucket i { b with
               unsettled := false, started := false, written := [], added := [], marks := [], marked := false, early := [], counts := [] }))))

/-- R315, R364: an extent whose pages pass the checks of a store and are home memory of one die, mapped shared, resident, without a shadow
and not migrating, gets a shadow that holds their bytes and records, once their lines have left the slices, under the number of its
command (log 39); a 65th shadow of a die and any other page are refused with `ENGINE`, a failed check posts its cause. R280, R316, R365:
once the commands that write the shadow have ended and no access is under way (log 49), `PUBLISH` releases at its scope and makes the
shadow's pages the current copy: the shadow is gone, and the page of a shadow of one page reads as the shadow's bytes; a `PUBLISH` that
names no open shadow of its task posts `ENGINE`. R236, R237, R367: no earlier than issue + 4, and once the older accesses to cluster
memory are performed, a split of its own number of banks changes nothing, one during a drain posts `ENGINE`, and any other starts a drain
of 64 clk and 512 for each bank: banks that become slice lose their bytes, and lines of banks that become cluster memory are written back
first, each dirty one with 2 clk more. At its end the new limit applies, and a bank that has become cluster memory reads zero. -/
def Obligations.ShadowsAndSplits : Prop :=
  (∀ (s : State) (c b i d : Nat) (cmd : Command) (opa opb : BitVec 6) (pages : List Nat), s.failed = false →
       s.commandAt c b i = some cmd → cmd.ins = .shopen opa opb →
       let w := cmd.who
       let n := (cmd.ops.headD 0).toNat
       let l := s.parts (tget [] w.invocation s.extents) (n / 4096 + 1) (cmd.addr % 2 ^ 56) n
       let ended := s.endCommand cmd
       let does (t : State) : Prop := exec (.shopenEffect c b i) s = .next t
       let mapped : Prop := ∀ p ∈ l, p.ext.isSome = true
       let denied : Prop := ∃ p ∈ l, ∃ x, p.ext = some x ∧ x.p = true ∧ (x.w = false ∨ (w.priv = false ∧ x.u = false))
       (cmd.addr / 2 ^ 56 % 16 ≠ 0 → does (ended.postFor w 0x12))
         ∧ (cmd.addr / 2 ^ 56 % 16 = 0 → ¬ mapped → does (ended.postFor w 0x11))
         ∧ (cmd.addr / 2 ^ 56 % 16 = 0 → mapped → denied → does (ended.postFor w 0x12))
         ∧ (cmd.addr / 2 ^ 56 % 16 = 0 → mapped → ¬ denied →
           (s.shadowPages l = none → does (ended.postFor w 0x1D))
           ∧ (s.shadowPages l = some (d, pages) →
             (64 ≤ (s.die d).shadows.length → does (ended.postFor w 0x1D))
             ∧ ((s.die d).shadows.length < 64 →
               let t := ended.openShadow cmd.id d cmd.addr n w.invocation pages
               let clean := pages.foldl (fun (u : State) p => u.flushPage d p) ended
               does t ∧ ∃ o j, tfind j (t.die d).shadows = some o ∧ o.id = cmd.id ∧ o.base = cmd.addr ∧ o.bytes = n ∧ o.invocation = w.invocation
                 ∧ ∀ p ∈ pages, ((t.die d).page p).shadow = true
                   ∧ tfind p o.pages = some ⟨{ (clean.die d).page p with shadow := false }, (clean.die d).pageCells p, true⟩))))
    ∧ (∀ (s : State) (c b i d j p : Nat) (cmd : Command) (opa : BitVec 6) (scope : BitVec 3) (h : Shadow) (y : ShadowPage), s.failed = false →
       s.commandAt c b i = some cmd → cmd.ins = .publish opa scope →
       let ended := s.endCommand cmd
       let does (t : State) : Prop := exec (.publishEffect c b i) s = .next t
       (s.findShadow cmd.who.invocation cmd.addr = none → does (ended.postFor cmd.who 0x1D))
         ∧ (s.findShadow cmd.who.invocation cmd.addr = some (d, j) →
           ((s.commandReady cmd = false ∨ s.shadowInUse (d, j) = true ∨ s.midAccess = true) → does s)
           ∧ (s.commandReady cmd = true → s.shadowInUse (d, j) = false → s.midAccess = false →
             let r := ended.release c b scope.toNat
             let t := r.publishShadow d j
             does t ∧ (tfind j (r.die d).shadows = some h → (t.die d).shadows = tdel j (r.die d).shadows
               ∧ (h.pages = [(p, y)] → Memory.wf y.bytes → ((t.die d).page p).shadow = false
                 ∧ ((t.die d).page p).batts = y.record.batts
                 ∧ ∀ a < 4096, mget (4096 * p + a) (t.die d).home = mget a y.bytes)))))
    ∧ (∀ (s : State) (c b i cl a : Nat) (cmd : Command) (opa : BitVec 6) (x : SplitDrain), s.failed = false →
       let k := clusterOf c
       let q := s.cluster k
       let z := s.cluster cl
       let n := (cmd.ops.headD 0).toNat
       let ended := s.endCommand cmd
       let does (t : State) : Prop := exec (.splitArrive c b i) s = .next t
       let lines := q.converting q.banks n
       let clean := lines.foldl (fun (u : State) l => u.evictLine k l.1) ended
       (s.commandAt c b i = some cmd → cmd.ins = .split opa →
           ((s.clk < cmd.who.issued + 4 ∨ s.commandReady cmd = false) → does s)
           ∧ (cmd.who.issued + 4 ≤ s.clk → s.commandReady cmd = true →
             (q.split ≠ none → does (ended.postFor cmd.who 0x1D))
             ∧ (q.split = none → n = q.banks → does ended)
             ∧ (q.split = none → q.banks < n → does (ended.setCluster k { q with
                 split := some ⟨n, s.clk + 64 + 512 * (n - q.banks)⟩, cmem := q.cmem.filter fun o => o.1 < (8 - n) * 2 ^ 23 }))
             ∧ (q.split = none → n < q.banks → does (clean.setCluster k { clean.cluster k with
                 split := some ⟨n, s.clk + 64 + 512 * (q.banks - n) + 2 * lines.countP fun l => l.2.dirty ≠ 0⟩ }))))
         ∧ (z.split = some x → s.clk < x.ends → exec (.splitDrainEnd cl) s = .next s)
         ∧ (z.split = some x → x.ends ≤ s.clk → ∃ t, exec (.splitDrainEnd cl) s = .next t ∧ (t.cluster cl).banks = x.banks
           ∧ (t.cluster cl).split = none ∧ (t.cluster cl).lines = z.lines ∧ t.dies = s.dies
           ∧ mget a (t.cluster cl).cmem = if a < (8 - max z.banks x.banks) * 2 ^ 23 then mget a z.cmem else 0))

/-- R244, R250 to R253, R256: the balloon engine skips a listed page that is not to be claimed, and claims the next, its bytes and batts
gone, at least 64 clk after the last; it starts an eviction of the coldest page to the first target frame while fewer than four run and
batts are short, and completes it with the page's bytes in the frame and its batts free, or gives the frame back where the page has been
claimed, shadowed or moved; it recalls a page with its newest bytes; it answers the oldest waiter whose need it cannot meet with `SPACE`;
access counts halve with each epoch of 2^20 clk. R397, R398, R429: a migration reads its command, which ends with `ENGINE` where it cannot
be read, with status 4 where a page is refused and 3 where tags would be lost, and else has its source pages marked; each pass copies what
it can, waiting for batts; with few blocks left after a pass, or after eight, its final pass begins, which, while no access of a core is
in progress, copies what is left, moves the tags, makes the destination current, revokes and frees the source and ends with status 1; no
space ends it with status 2 (log 57). The end releases at `.sys` and writes STAT, once that write can be performed. -/
def Obligations.BalloonAndMigration : Prop :=
  (∀ (s : State) (d p o since : Nat) (os : List Nat) (f : SReg) (q : Page) (w : Waiter) (ws : List Waiter), s.failed = false →
       let x := s.die d
       let r := x.page (o / 4096)
       let e := x.page p
       let skipped : Prop := x.presented ≤ o ∨ o % 4096 ≠ 0 ∨ r.state ≠ 0 ∨ r.shadow = true ∨ r.migrating = true
       let others := x.evictions.filter fun y => y.1 ≠ p
       let frame := (f.extractLsb' 0 52).toNat
       let put (m : List Host.Cell) : List Host.Cell :=
         (x.pageCells p).foldl (fun m y => mset (frame + y.1) y.2 m) (m.filter fun y => y.1 < frame ∨ frame + 4096 ≤ y.1)
       let left := ((x.clearPage p).give e.batts).setPage p { e with
         batts := [], state := if f.getLsbD 63 then 2 else 1, fwd := frame }
       let gone : Die := { left.count 16 with evictions := others }
       (x.balloonList = o :: os → x.balloon = 1 →
           (skipped → exec (.balloonClaim d) s = .next ((s.setDie d { x with balloonList := os }).balloonSettle d))
           ∧ (¬ skipped → s.clk < x.lastClaim + 64 → x.lastClaim ≠ 0 → exec (.balloonClaim d) s = .next s)
           ∧ (¬ skipped → (x.lastClaim + 64 ≤ s.clk ∨ x.lastClaim = 0) →
             let y := ((x.clearPage (o / 4096)).give r.batts).setPage (o / 4096) { r with blocks := [], batts := [], state := 3 }
             exec (.balloonClaim d) s = .next (((s.setDie d { y.count 0 with balloonList := os, lastClaim := s.clk }).dropLines d
               (o / 4096)).balloonSettle d)))
         ∧ (x.coldest = some p → x.target = some f → x.balloon = 2 → x.evictions.length < 4 →
           x.freeCount + x.leaving < x.high + (x.waiters.map (·.need)).sum →
           exec (.evictionStart d) s = .next (s.setDie d { x with
             evictions := x.evictions ++ [(p, f, s.clk)], targetList := x.targetList.erase f }))
         ∧ (x.evictions.find? (fun y => y.1 = p) = some (p, f, since) →
           (e.leaves = false → exec (.evictionComplete d p) s
             = .next ((s.setDie d { x with evictions := others, targetList := f :: x.targetList }).balloonSettle d))
           ∧ (e.leaves = true → f.getLsbD 63 = false → exec (.evictionComplete d p) s
             = .next ((s.setDie d { gone with lp := put x.lp }).balloonSettle d))
           ∧ (e.leaves = true → f.getLsbD 63 = true → exec (.evictionComplete d p) s
             = .next (({ s.setDie d gone with hostMem := put s.hostMem }).balloonSettle d)))
         ∧ (s.recallable d = some (p, q) → x.balloon = 4 →
           let u := s.flushPage d p
           let y := u.die d
           let batts := takeBatts q.needed y.free
           let back : SReg := BitVec.ofNat 64 ((y.page p).fwd + if (y.page p).state = 2 then 2 ^ 63 else 0)
           let z : Die := { y with free := batts.2, targetList := y.targetList ++ [back],
                                   home := mwrite y.home (4096 * p) 4096 (u.rawRead (.home d (4096 * p)) 4096) }
           exec (.pageRecall d) s
             = .next ((u.setDie d (z.setPage p { q with batts := batts.1, state := 0, fwd := 0 })).balloonSettle d))
         ∧ (x.waiters = w :: ws → x.balloon = 3 → x.freeCount < w.need → exec (.spaceAnswer d) s
           = .next (((s.setDie d ((x.count 48).release w false)).answerWriter w.who false).balloonSettle d))
         ∧ (x.halved < s.clk / 2 ^ 20 → ∃ t, exec (.accessCountHalve d) s = .next t ∧ (t.die d).halved = s.clk / 2 ^ 20
           ∧ (∀ p, ((t.die d).page p).access = (x.page p).access / 2 ∧ ((t.die d).page p).state = (x.page p).state)
           ∧ t.cores = s.cores))
    ∧ (∀ (s : State) (i : Nat) (noSpace : Bool) (m : Migration), s.failed = false → s.migrations[i]? = some m →
       let who := Writer.migration m.who.core m.who.bank
       let does (t : State) : Prop := exec (.migrationPass i noSpace) s = .next t
       let ends (u : State) (m' : Migration) (status : Nat) : Prop :=
         let r := u.release m'.who.core m'.who.bank 5
         let me := Writer.migration m'.who.core m'.who.bank
         let gone (t : State) : State := { t.forgetWriter me with migrations := t.migrations.eraseIdx i }
         (∀ v t, r.engineWrite me m'.who true m'.stat 8 status = .value v t → does (gone t))
           ∧ (∀ cause, r.engineWrite me m'.who true m'.stat 8 status = .fail cause → does (gone (r.postFor m'.who cause)))
           ∧ ∀ t, r.engineWrite me m'.who true m'.stat 8 status = .wait t →
             does (t.setMigration i { m' with pages := [], frames := [], ended := some status })
       let unread : State := { (s.postFor m.who 0x1D).forgetWriter who with migrations := (s.postFor m.who 0x1D).migrations.eraseIdx i }
       (∀ cause, s.standing who = .failed cause → m.ended = none → (m.known = false → does unread)
         ∧ (m.known = true → ends (s.markMigrating m false) m (if cause = 0x14 then 2 else 4)))
         ∧ (∀ status, m.ended = some status → (s.standing who = .free → ends s m status) ∧ ∀ cause, s.standing who = .failed cause →
           does { (s.postFor m.who cause).forgetWriter who with migrations := (s.postFor m.who cause).migrations.eraseIdx i })
         ∧ (s.standing who = .free → m.ended = none → m.taken = false →
           (s.readMigration i m = .inl none → does { s.postFor m.who 0x1D with migrations := s.migrations.eraseIdx i })
           ∧ (∀ t, s.readMigration i m = .inr t → does t)
           ∧ ∀ m', s.readMigration i m = .inl (some m') →
             (s.migrationRefused m' = true → ends s m' 4)
             ∧ (s.migrationRefused m' = false → s.migrationTagged m' = true → ends s m' 3)
             ∧ (s.migrationRefused m' = false → s.migrationTagged m' = false → m'.kind = 2 → does (s.setMigration i m'))
             ∧ (s.migrationRefused m' = false → s.migrationTagged m' = false → m'.kind ≠ 2 →
               does ((s.markMigrating m' true).setMigration i m')))
         ∧ (s.standing who = .free → m.ended = none → m.taken = true →
           (noSpace = true → m.kind = 0 → ends (s.markMigrating m false) m 2)
           ∧ ((noSpace = false ∨ m.kind ≠ 0) →
             let few : Prop := 1 ≤ m.pass ∧ (s.dirtyBlocks m < 256 ∨ 8 ≤ m.pass)
             (m.final = false → few → does (s.setMigration i { m with final := true }))
             ∧ (m.final = false → ¬ few →
               (∀ d need, s.copyPages m = .inr (d, need) → does (s.engineWaitBatts who d need))
               ∧ ∀ u, s.copyPages m = .inl u → does (u.setMigration i { m with pass := m.pass + 1 }))
             ∧ (m.final = true → s.midAccess = true → does s)
             ∧ (m.final = true → s.midAccess = false →
               (∀ d need, s.copyPages m = .inr (d, need) → does (s.engineWaitBatts who d need))
               ∧ ∀ u, s.copyPages m = .inl u →
                 (∀ v w, u.moveTags m = .value v w → ends (w.switchPages m) m 1)
                 ∧ ∀ cause, u.moveTags m = .fail cause → ends (s.markMigrating m false) m 4))))

/-! ## Faults, the host and the device -/

/-- R387 to R391, R393: a page request group answered with success has the translations of its pages asked for, with Invalid Request its
faults fail, and with any other code every outstanding request fails and no more are sent until re-enabled; translations end their records
and have their faults walked again; answers for a PASID being torn down, and of a group that is not outstanding, are discarded (codes and
groups: log 56). An ATS
invalidation sets RVK in every overlapping extent of its PASID in this clk and is completed once the accesses then under way have ended. A
teardown ends when its last page request and translation request have, or at its time-out: nothing of the PASID is left in a bank, in shadow
storage or in an extent table. -/
def Obligations.FaultAnswers : Prop :=
  ∀ (s : State) (g code base len tag alloc pasid : Nat) (pages : List (Nat × Nat × Bool)) (td : Teardown), s.failed = false →
    let mine := s.requested.filter fun x => x.group = some g
    let granted := s.faults.filter fun x => x.host && x.granted && x.group = some g
    let down (l : List FaultRecord) : Prop := ∃ x ∈ l, x.pasid ∈ s.downPasids
    let without (l : List FaultRecord) : State := { s with faults := s.faults.filter fun x => !l.contains x }
    let failed (l : List FaultRecord) : State := l.foldl (fun (u : State) x =>
      (u.joined x).foldl (fun (u : State) f => u.answerFault f false) u) (without l)
    let responds (t : State) : Prop := exec (.prgResponse g code) s = .next t
    let revoked := s.revokeIn (fun v => v.pasid = pasid) base len
    let open' := s.invalidations ++ [(tag, revoked.underWay)]
    let busy (v : Nat × List Nat) : Bool := v.2.any revoked.underWay.contains
    (mine = [] → responds s)
      ∧ (mine ≠ [] → down (mine.take 1) → responds (without mine))
      ∧ (mine ≠ [] → ¬ down (mine.take 1) →
        (code = 0 → responds { s with
          faults := s.faults.map fun x => if mine.contains x then { x with granted := true } else x,
          sent := s.sent ++ mine.map fun x => Flit.atsRequest x.pasid x.page })
        ∧ (code = 1 → responds (failed mine))
        ∧ (1 < code → responds { failed s.requested with priEnabled := false }))
      ∧ (granted ≠ [] → down granted → exec (.atsTranslationReturn g pages) s = .next (without granted))
      ∧ (granted ≠ [] → ¬ down granted → exec (.atsTranslationReturn g pages) s = .next (granted.foldl (fun (u : State) x =>
        (u.joined x).foldl (fun (u : State) f => u.walkAnswer f (some pages)) u) (without granted)))
      ∧ exec (.priReenable alloc) s = .next { s with priEnabled := true, priAllocation := alloc }
      ∧ (exec (.atsInvalidation pasid base len tag) s = .next { revoked with
          invalidations := open'.filter busy, sent := s.sent ++ (open'.filter fun v => !busy v).map fun v => Flit.invalidationDone v.1 })
      ∧ (∀ id xt, tfind id s.extents = some xt → (tfind id s.invocations).any (fun v => v.pasid = pasid) = true →
        ∃ yt, tfind id revoked.extents = some yt ∧ yt.length = xt.length
          ∧ ∀ y ∈ yt, y.vbase < base + len → base < y.vbase + y.units * y.unit → y.rvk = true)
      ∧ (s.teardowns.find? (fun x => x.pasid = pasid) = some td →
        let t := s.endTeardown td
        let asks : Prop := (∃ x ∈ s.faults, x.host = true ∧ x.pasid = pasid ∧ x.group.isSome = true)
          ∨ ∃ v ∈ s.invocations, v.2.pasid = pasid ∧ v.2.walking = true ∧ v.2.asked ≠ []
        (¬ asks → exec (.teardownCancel pasid) s = .next t) ∧ (asks → exec (.teardownCancel pasid) s = .next s)
        ∧ (td.since + s.regs.teardown ≤ s.clk → exec (.teardownTimeout pasid) s = .next t)
        ∧ (s.clk < td.since + s.regs.teardown → exec (.teardownTimeout pasid) s = .next s)
        ∧ t.teardowns = s.teardowns.erase td ∧ t.downPasids = s.downPasids.filter (fun x => x ≠ pasid)
        ∧ (∀ x ∈ t.clusters, ∀ y ∈ x.2.shadow, ∀ k, y.2.2.task = some k → k.pasid ≠ pasid)
        ∧ (∀ e ∈ t.extents, ∀ v, (e.1, v) ∈ s.invocations → v.pasid ≠ pasid)
        ∧ ∀ (c b : Nat), b < 2 → ∀ k, (t.bank c b).task = some k → k.pasid ≠ pasid)

/-- R282, R389, R396, R399, R413, R464, R465, R469, R471: a frame of a die's control core sees its faults, polls the queues whose frame it
is or that have PNOTIFY, and maps waiting queues to free slots; a poll journals the entry at HEAD with the next sequence number and clears
PNOTIFY. A queue leaves its slot where its ring was empty at its last poll and PNOTIFY is clear, and a notification since becomes its
PNOTIFY (R413). A notification sets TAIL, and PNOTIFY of an unmapped queue; one at another offset, narrower, or of an invalid or stopped
queue is discarded; held completions are written as the host takes others. A host write enters the controller behind those that wait
there; the oldest lands, waits for batts or for a migration, or is discarded with a record where it meets a claimed page or is refused its
batts (log 22). A read of BAR2 gives the bytes, zero for a claimed page, and one of BAR0 what stands there (R462; log 24). -/
def Obligations.HostInterface : Prop :=
  ∀ (s : State) (d q off width value taken a n cause : Nat) (data : List (BitVec 8)) (later : List (Nat × List (BitVec 8)))
      (stored : List (Nat × BitVec 8)) (maps : List (Nat × Nat × Nat)), s.failed = false → q < 1024 → off < 4096 →
    let x := s.hostQueue q
    let frame := tget (0, 0) d s.frames
    let seen := { s with frames := tset d (frame.1 + 1, s.clk) s.frames }.pollFaults d
    let polled := (seen.slotsOf d).foldl (fun (u : State) o =>
      if frame.1 % max 1 (u.hostQueue o.2).g = 0 ∨ (u.hostQueue o.2).pnotify then u.pollQueue o.2 else u) seen
    let mapped := polled.wantMapping.foldl (fun (u : State) o => (u.freeSlot d).elim u (u.mapQueue o)) polled
    let held : State := { s with hostMem := stored.foldl (fun m o => mset o.1 o.2 m) s.hostMem,
                                 hostMaps := maps.map (fun (m : Nat × Nat × Nat) => ((m.1, m.2.1), m.2.2)) ++ s.hostMaps }
    let told := (held.setHostQueue q { x with taken := min x.written (x.taken + taken) }).flushHeld q x.heldCpl.length
    let z := told.hostQueue q
    let notifies (t : State) : Prop := exec (.queueNotify (0x400000 + 4096 * q + off) width value stored maps taken) s = .next t
    let l := s.windowParts (data.length / 4096 + 2) a data.length
    let written := (partData l (bytesNat data)).foldl (fun (u : State) o => u.rawWrite o.1.loc o.1.n o.2) s
    let done (u : State) : State := { u with hostWrites := later }
    let serves (t : State) : Prop := s.serveHost = t
    ((s.withies = true → d < 4 → frame.2 + s.regs.frame ≤ s.clk → exec (.executiveFrame d) s = .next mapped)
        ∧ (s.clk < frame.2 + s.regs.frame → exec (.executiveFrame d) s = .next s))
      ∧ (x.cplFull = true → s.pollQueue q = s)
      ∧ (x.valid = true → x.stopped = false → x.cplFull = false → x.heldCpl = [] → x.head ≠ x.tail % 2 ^ x.rlog →
        let e : JournalEntry := { die := s.queueDie q, seq := x.seq, queue := q, state := 1, ring := x.ring + 64 * x.head,
                                  body := mread s.hostMem (x.ring + 64 * x.head) 64 }
        e.wellFormed = true → e.queueOk = true → e ∈ (s.pollQueue q).journal ∧ e ∈ (s.pollQueue q).mirror ∧ ((s.pollQueue q).hostQueue q).pnotify = false)
      ∧ ((off ≠ 0 ∨ width < 4 ∨ z.valid = false ∨ z.stopped = true) → notifies told)
      ∧ (off = 0 → 4 ≤ width → z.valid = true → z.stopped = false →
        notifies (told.setHostQueue q { z with
          tail := value % 2 ^ z.rlog, pnotify := z.pnotify || !z.mapped, notified := z.notified || z.mapped }))
      ∧ (x.valid = true → x.stopped = false → x.cplFull = false → x.heldCpl = [] → x.head = x.tail % 2 ^ x.rlog →
        s.pollQueue q = s.setHostQueue q { x with pnotify := false, notified := false, emptied := true })
      ∧ (∀ slot, s.freeSlot d = some slot → ∀ o, tfind slot s.hostSlots = some o → o ≠ q →
        (s.hostQueue o).emptied = true ∧ (s.hostQueue o).pnotify = false ∧ slot ≠ 0
        ∧ ((s.mapQueue q slot).hostQueue o).pnotify = (s.hostQueue o).notified ∧ ((s.mapQueue q slot).hostQueue o).mapped = false
        ∧ ((s.mapQueue q slot).hostQueue q).mapped = true)
      ∧ exec (.hostWindowWrite a data) s = .next { s with hostWrites := s.hostWrites ++ [(a, data)] }.serveHost
      ∧ (s.hostWrites = (a, data) :: later →
        (s.standing .host = .waiting → serves s)
        ∧ (s.standing .host = .failed cause → serves (done (s.discardWrite a cause)))
        ∧ (s.standing .host = .free →
          ((∃ p ∈ l, s.claimed p = true) → serves (done (s.discardWrite a 0)))
          ∧ ((∀ p ∈ l, s.claimed p = false) → s.heldByMigration l = true → serves s)
          ∧ ((∀ p ∈ l, s.claimed p = false) → s.heldByMigration l = false →
            (∀ u, account s written .host (touches l) = .inl u → serves (done u))
            ∧ ∀ die need, account s written .host (touches l) = .inr (die, need) → serves (s.engineWaitBatts .host die need))))
      ∧ exec (.hostWindowRead ⟨2, a⟩ n) s = .next (s.send (.windowRead ((s.windowParts (n / 4096 + 2) a n).flatMap fun p =>
          natBytes p.n (if s.claimed p then 0 else s.rawRead p.loc p.n))))
      ∧ exec (.hostWindowRead ⟨0, a⟩ n) s = .next (s.send (.windowRead ((List.range n).map fun i => s.barRead (a + i))))
      ∧ ∀ i < 4, s.barRead i = BitVec.ofNat 8 (s.devStatus.toNat / 256 ^ i)

/-- R187, R190, R192, R210, R379, R381 to R383, R467, R468, R486: an invocation of a resident version with addresses enough is taken, its
set walked and the host asked for its pages, and waits while workers of its slot run; the walk marks its leaves, forms the extents and
starts the workers, each at its entry with its registers, or ends with TRANSLATION; while a rollback or a fill holds the job none start
(R455, R456), and answers for a PASID that is torn down are discarded (R393). A load fills its slot from the translated image, waits for the
batts of its placed sections, or leaves the slot empty with LOADFAIL or NOSPACE (log 67); an unload empties it; a version goes into an
index that is not held and becomes CUR; an empty slot has none (log 24). Each is answered with its status. -/
def Obligations.SlotCommands : Prop :=
  ∀ (s : State) (q n id reason : Nat) (e : JournalEntry) (tr : Translated) (v : Invocation) (declared : List (Nat × Nat × Bool))
      (xt : List Extent) (ats : List (Nat × Nat × Bool)),
    let slot := e.arg 24 1
    let version := e.arg 25 1
    let naddr := e.arg 26 1
    let m := tget {} slot s.slots
    let bytes := s.extended e
    let resident : Prop := slot < 32 ∧ version < 4 ∧ m.loaded = true ∧ m.present.getLsbD version = true
    let taken := s.markDispatched q n
    let translated := s.translate bytes version (e.arg 32 8)
    let who := Writer.load q n
    let x := s.hostQueue q
    let l := s.walkSet v.partition v.ranges (ats.filter fun t => v.asked.contains t.1)
    let v' : Invocation := { v with walking := false, hostPages := hostPagesOf l }
    let walked : State := { s.markLeaves (l.filterMap fun o => o) with invocations := tset id v' s.invocations }
    let z : State := { walked with extents := tset id xt walked.extents }
    let ws := z.workersOf id v'
    (s.commanded 0x01 q n e → (s.slotRuns slot = true → exec (.invoke q n) s = .next s)
        ∧ (s.slotRuns slot = false →
          (resident → m.relocs ≤ naddr → rangesOf naddr (e.arg 27 1) (bytesNat bytes) = some declared →
            ∃ t y, exec (.invoke q n) s = .next t ∧ tfind s.nextInvocation t.invocations = some y
              ∧ t.nextInvocation = s.nextInvocation + 1 ∧ t.cores = s.cores ∧ t.journal = taken.journal
              ∧ y.slot = slot ∧ y.version = version ∧ y.walking = true ∧ y.queue = q ∧ y.seq = n ∧ y.recAddr = e.arg 32 8
              ∧ y.addrs = (unpack 64 naddr (bytesNat bytes)).map (BitVec.ofNat 64) ∧ y.pasid = x.pasid ∧ y.partition = x.part
              ∧ y.stages = s.maskedStages slot (e.arg 28 2)
              ∧ y.ranges = declared ++ (m.placed ++ tget [] x.part s.deviceRanges).map (fun o => (o.1, o.2, false))
              ∧ y.asked = hostPagesOf (taken.walkSet x.part y.ranges [])
              ∧ t.sent = s.sent ++ y.asked.map (fun page => Flit.atsRequest x.pasid page))
          ∧ (¬ resident → ∃ t, exec (.invoke q n) s = .next t ∧ s.answers t e 1 0 ∧ t.invocations = s.invocations)
          ∧ (resident → naddr < m.relocs → ∃ t, exec (.invoke q n) s = .next t ∧ s.answers t e 7 1 ∧ t.invocations = s.invocations)
          ∧ (resident → m.relocs ≤ naddr → rangesOf naddr (e.arg 27 1) (bytesNat bytes) = none →
            ∃ t, exec (.invoke q n) s = .next t ∧ s.answers t e 7 0 ∧ t.invocations = s.invocations)))
      ∧ (s.failed = false → tfind id s.invocations = some v → s.jobHeld v.stages = true → exec (.translationWalkComplete id ats) s = .next s)
      ∧ (s.failed = false → tfind id s.invocations = some v → v.walking = true → s.jobHeld v.stages = false → v.pasid ∈ s.downPasids →
        v.asked ≠ [] → exec (.translationWalkComplete id ats) s = .next { s with
          invocations := tset id { v with walking := false, asked := [] } s.invocations })
      ∧ (s.failed = false → tfind id s.invocations = some v → v.walking = true → s.jobHeld v.stages = false →
        (v.pasid ∉ s.downPasids ∨ v.asked = []) →
        (tableOf l = none → exec (.translationWalkComplete id ats) s = .next (walked.complete v.queue v.seq 2 0))
        ∧ (tableOf l = some xt → exec (.translationWalkComplete id ats) s = .next (z.startWorkers id v')
          ∧ (ws ≠ [] → (ws.map fun w => (w.1, w.2.1)).Nodup → (∀ w ∈ ws, w.2.1 < 2) →
            let t := z.startWorkers id v'
            (tfind id t.invocations).map (·.workers) = some (ws.map fun w => (w.1, w.2.1)) ∧ tget [] id t.extents = xt
              ∧ ∀ w ∈ ws, let k := t.bank w.1 w.2.1
                k.state = .runnable ∧ k.pc = w.2.2.pc ∧ k.sregs = w.2.2.sregs ∧ k.task = w.2.2.task ∧ k.priv = w.2.2.priv
                  ∧ k.tvec = w.2.2.tvec ∧ k.seeds = w.2.2.seeds)))
      ∧ (s.commanded 0x02 q n e →
        (s.slotRuns slot = true → ∃ t, exec (.load q n) s = .next t ∧ s.answers t e 8 0 ∧ t.slots = s.slots)
        ∧ (s.slotRuns slot = false →
          (translated = .inl reason → ∃ t, exec (.load q n) s = .next t ∧ s.answers t e 9 reason
            ∧ (tget {} slot t.slots).loaded = false)
          ∧ (translated = .inr tr →
            let place := taken.placeImage who (s.tableRoot version) tr
            (s.standing who = .waiting → exec (.load q n) s = .next s)
            ∧ (∀ cause, s.standing who = .failed cause → ∃ t, exec (.load q n) s = .next t ∧ s.answers t e 0x0B 0
              ∧ (tget {} slot t.slots).loaded = false)
            ∧ (s.standing who = .free →
              (∀ u, place = .inl u → exec (.load q n) s = .next
                (({ u.forgetWriter who with slots := tset slot (tr.slot bytes) u.slots }.configureSlot slot).complete q n 0 0))
              ∧ (∀ d need, place = .inr (d, need) → exec (.load q n) s = .next (s.engineWaitBatts who d need))
              ∧ (sizeOf' tr.sections 10 = 0 → sizeOf' tr.sections 6 = 0 → ∃ t, exec (.load q n) s = .next t
                ∧ s.answers t e 0 0 ∧ tget {} slot t.slots = tr.slot bytes)))))
      ∧ (s.commanded 0x03 q n e → (s.slotRuns slot = true → ∃ t, exec (.unload q n) s = .next t ∧ s.answers t e 8 0 ∧ t.slots = s.slots)
        ∧ (s.slotRuns slot = false → ∃ t, exec (.unload q n) s = .next t ∧ s.answers t e 0 0
          ∧ (tget {} slot t.slots).loaded = false))
      ∧ (s.commanded 0x04 q n e →
        (m.loaded = false → ∃ t, exec (.version q n) s = .next t ∧ s.answers t e 1 0 ∧ t.slots = s.slots)
        ∧ (m.loaded = true → s.versionHeld slot version = true → ∃ t, exec (.version q n) s = .next t ∧ s.answers t e 8 0
          ∧ t.slots = s.slots)
        ∧ (m.loaded = true → version < 4 → s.versionHeld slot version = false → ∃ t, exec (.version q n) s = .next t
          ∧ s.answers t e 0 0 ∧ (tget {} slot t.slots).current = version ∧ (tget {} slot t.slots).present.getLsbD version = true
          ∧ (tget {} slot t.slots).weights = tset version bytes m.weights))

/-- R185, R186, R188, R189, R257, R388, R393, R407, R413, R454, R459, R467, R469: a completion is written to its ring with its status and
interrupt, and its journal entry is COMPLETED. `STAGECFG` gives its stage what it names and what the image gives, the bank, kinds and slot
base of a stage that has run kept; `DEVCFG` writes its registers in order up to the first refused; `TAGSET` sets the tags of home memory;
`SNAPSHOT` asks for a set; `PAGEANS` ends the records of its page and answers its faults; `PASIDDOWN` begins a teardown; `PREEMPT` and
`RESTORE` begin swaps; `QCREATE` and `QDELETE` make and remove queues. The sequence numbers of a queue
go on after it has been removed. What breaks a rule is answered BADCMD or REFUSED. Where the spec gives no layout the fields are those of
log 22; a stage configured again and the clusters of a partition are those of logs 34 and 35, and what a RESTORE stops that of log 17. -/
def Obligations.DeviceCommands : Prop :=
  ∀ (s : State) (q n r v op status info : Nat) (e : JournalEntry) (x : HostQueue) (j : Job),
    let f := s.field e
    let l := s.fieldList e
    let m := s.markDispatched q n
    let done (u : State) (status : Nat) : State := u.complete q n status 0
    let does (i : Instr) (t : State) : Prop := exec i s = .next t
    (s.commanded op q n e → s.answers (m.complete q n status info) e status info)
      ∧ (s.commanded 0x05 q n e →
        let i := f 0 % 16
        let old := m.stage i
        let slot := f 3 % 32
        let cores := (l 1).filter (· < Config.cores)
        let bad : Prop := firmwareBad (f 11) = true ∨ m.splitsCluster i (f 4 % 16) cores = true
        let given (k dflt : Nat) : Nat := ((l k).head?).getD dflt
        let base := (tget {} slot m.slots).configure i { old with configured := true, partition := f 4 % 16, slot := slot, cores := cores }
        (bad → does (.stagecfg q n) (done m 7))
        ∧ (¬ bad → ∃ t, exec (.stagecfg q n) s = .next t ∧ t.journal = (done m 0).journal ∧ t.hostMem = (done m 0).hostMem
          ∧ t.sent = (done m 0).sent
          ∧ t.tensors = bindChannels i (l 12) s.tensors ∧ let y := t.stage i
            y.configured = true ∧ y.partition = f 4 % 16 ∧ y.slot = slot ∧ y.cores = cores ∧ y.tvec = BitVec.ofNat 64 (f 11 % 2 ^ 32)
              ∧ y.fwPriv = decide (f 11 / 2 ^ 32 % 2 = 1) ∧ y.ageLim = given 7 base.ageLim ∧ y.sbudget = given 8 base.sbudget
              ∧ y.warmup = given 9 base.warmup ∧ y.flags = given 10 base.flags ∧ y.entries = base.entries ∧ y.nq = base.nq
              ∧ (old.invoked = true → old.slot = slot → y.bank = old.bank ∧ y.qkinds = old.qkinds ∧ y.slotBase = old.slotBase)
              ∧ ((old.invoked = false ∨ old.slot ≠ slot) → y.bank = given 2 base.bank % 2 ∧ y.slotBase = given 6 base.slotBase
                ∧ y.qkinds = if l 5 = [] then base.qkinds else l 5)))
      ∧ (s.commanded 0x06 q n e →
        let pairs := pairsOf (unpack 64 (e.arg 4 4 / 8) (bytesNat (s.extended e)))
        let w := m.writePairs pairs
        (e.arg 4 4 % 16 ≠ 0 → does (.devcfg q n) (done m 7))
        ∧ (e.arg 4 4 % 16 = 0 → does (.devcfg q n) (done w.1.refresh (if w.2 then 0 else 8)))
        ∧ (pairs = [(r, v)] → w = m.writeRegister (Config.clustersPerDie * ((Config.devcfgRegister r).1 % 4)) (Config.devcfgRegister r).2
          (BitVec.ofNat 64 v)))
      ∧ (s.commanded 0x07 q n e →
        let set := m.tagGranules (f 0 / 32 * 32) (unpack 4 (f 1 / 32) (bytesNat (s.extended e)))
        (∀ u, set = some u → does (.tagset q n) (done u 0)) ∧ (set = none → does (.tagset q n) (done m 8)))
      ∧ (s.commanded 0x08 q n e → (tfind (f 0) s.jobs = none → does (.snapshot q n) (done m 8))
        ∧ (tfind (f 0) s.jobs = some j → does (.snapshot q n) { m with
          jobs := tset (f 0) { j with wanted := j.wanted ++ [(q, n, e.arg 24 8)] } s.jobs }))
      ∧ (s.commanded 0x09 q n e →
        let page := f 1 / 4096 * 4096
        let answered : FaultRecord := { invocation := f 0, pasid := s.pasidOf (f 0), page := page, write := true, host := false }
        let left : State := { m with faults := s.faults.filter fun y => !(y.invocation = f 0 && y.page = page && !y.host) }
        does (.pageans q n) (done ((left.joined answered).foldl (fun (u : State) y =>
          if f 2 = 0 then u.walkAnswer y none else u.answerFault y false) left) 0))
      ∧ (s.commanded 0x0A q n e →
        let p := e.arg 24 4
        does (.pasiddown q n) { m with
          hostQueues := s.hostQueues.map fun o => (o.1, if o.1 ≠ 0 ∧ o.2.pasid = p then { o.2 with stopped := true } else o.2),
          downPasids := p :: s.downPasids.filter (· ≠ p),
          faults := s.faults.filter fun x => !(x.host && x.pasid = p && x.group.isNone), teardowns := s.teardowns ++ [⟨p, s.clk, q, n, e.arg 8 8⟩],
          sent := s.sent ++ [.stopMarker p] })
      ∧ (s.commanded 0x0B q n e →
        let p := f 0 % 16
        let b := f 1 % 2
        (m.swapAllowed p b = false → does (.preempt q n) (done m 8))
        ∧ (m.swapAllowed p b = true → does (.preempt q n) { m with swaps := s.swaps ++
          [{ partition := p, bank := b, inward := false, save := m.saveArea p, command := some (q, n) }] }))
      ∧ (s.commanded 0x0C q n e →
        let p := f 0 % 16
        let b := f 1 % 2
        (m.swapStatus p b ≠ 2 → does (.restore q n) (done m 8))
        ∧ (m.swapStatus p b = 2 → ∃ t, exec (.restore q n) s = .next t
          ∧ t.swaps = s.swaps ++ [{ partition := p, bank := b, inward := true, save := m.saveArea p, command := some (q, n) }]
          ∧ t.journal = m.journal ∧ ∀ c ∈ m.coresInOrder p, t.bank c b = { s.bank c b with stopped := true }
            ∧ ∀ w ∈ t.queues, (c, b) ∉ w.2.waiters))
      ∧ (s.commanded 0x0D q n e →
        let k := f 0 % 1024
        (HostQueue.ofNat (bytesNat (s.extended e) % 2 ^ 512) = none → does (.qcreate q n) (done m 7))
        ∧ (HostQueue.ofNat (bytesNat (s.extended e) % 2 ^ 512) = some x → does (.qcreate q n) (done (m.setHostQueue k { x with
          mapped := (s.hostQueue k).mapped, seq := (s.hostQueue k).seq, heldCpl := (s.hostQueue k).heldCpl }) 0)))
      ∧ (s.commanded 0x0E q n e →
        let k := f 0 % 1024
        let busy : Prop := k = 0 ∨ ∃ y ∈ s.journal, y.queue = k ∧ y.state ≠ 3
        (busy → does (.qdelete q n) (done m 8))
        ∧ (¬ busy → does (.qdelete q n) (done { m with
          hostQueues := tset k { seq := (s.hostQueue k).seq } s.hostQueues, hostSlots := s.hostSlots.filter fun o => o.2 ≠ k } 0)))

/-- R454 to R458, R460: while no invocation of the job walks or runs, its channels are quiet and its barriers have nothing pending, the
set of the oldest waiting SNAPSHOT goes, header and contents, to the first two holders, and not before. A holder's answer counts where it
is the set's own digest; with both, the set is kept and the command answered with SUCCESS. A rollback to a step of which the device keeps
a set discards every bank of the job, ends its invocations, answers each of its commands above the mark with ROLLED_BACK, writes the set's
bytes back, restores slots, stash, PHASECNT and the channels with an empty replay buffer, and forgets the identities above the step; no
bank of the job issues until all devices have finished; without a set a device restarts its fill. A fill takes its chunks in order, each
of at most 64 MiB, writes and acknowledges each; where the digest of the whole matches, it waits for PHASECNT and the neighbours and is
READY, or begins again at chunk 0; with no source left it fails and the host is told SNAPSHOT_LOST. A journal entry lost in both copies is
answered with JOURNAL; a copy lost alone is rebuilt. What the set and a chunk hold beyond the rules is the model's (log 24). R11, R440,
R473, R474: reset leaves the reset state but for what is not the device's and the flash; a recovery image that verifies starts the control
cores and clears bit 0 of device status; a running image rewrites the flash with it (log 24); one that does not verify stays in the
mailbox; a fatal fault of a die fails the device, and nothing but a reset runs then. -/
def Obligations.SnapshotsResetAndFailure : Prop :=
  (∀ (s : State) (job holder q n step : Nat) (digest : BitVec 256) (j : Job) (z : SnapshotSet) (later : List (Nat × Nat × Nat)),
       s.failed = false → tfind job s.jobs = some j →
       let quiet : Prop := (∀ v ∈ s.invocations, v.2.walking = true ∨ v.2.running = true → ∀ i ∈ v.2.stages, i ∉ j.stages)
         ∧ (∀ o ∈ s.tensors, o.2.bound = true → o.2.stage ∈ j.stages → o.2.sq = [] ∧ (o.2.sender = true ∨ o.2.deposited = o.2.consumed))
         ∧ ∀ k ∈ s.jobClusters j, ∀ o ∈ (s.cluster k).barriers, o.2.pending = 0
       let rolls (done : Bool) (t : State) : Prop := exec (.rollback job step done) s = .next t
       (j.wanted = (q, n, step) :: later → j.sent = none → quiet →
           let set : SnapshotSet :=
             { step := step, queue := q, mark := n, digest := 0, memory := s.setMemory j, phase := s.regs.phase,
               slots := s.slots.filter fun o => (s.jobSlots j).contains o.1, stash := s.dies.map fun o => (o.1, (o.2.stash, o.2.snaps)),
               tensors := s.tensors.filter fun o => j.stages.contains o.2.stage }
           let body := Config.snapshotBytes set.parts
           let head := snapshotHeader job step (s.regs.tcoord.extractLsb' 0 21).toNat s.regs.phase.toNat n (96 + body.length) (sha256 body)
           exec (.snapshotSend job) s = .next { s with
             jobs := tset job { j with sent := some { set with digest := bytesNat (sha256 body) }, answered := [] } s.jobs,
             sent := s.sent ++ (j.holders.take 2).map fun o => .snapshotSet o (head ++ body) })
         ∧ (¬ quiet → exec (.snapshotSend job) s = .next s)
         ∧ (j.wanted = (q, n, step) :: later → j.sent = some z →
           (digest.toNat ≠ z.digest ∨ holder ∉ j.holders.take 2 → exec (.holderDigestReceive job holder digest) s = .next s)
           ∧ (digest.toNat = z.digest → holder ∈ j.holders.take 2 → (∃ o ∈ j.holders.take 2, o ≠ holder ∧ o ∉ j.answered) →
             exec (.holderDigestReceive job holder digest) s = .next { s with
               jobs := tset job { j with answered := (holder :: j.answered).eraseDups } s.jobs })
           ∧ (digest.toNat = z.digest → holder ∈ j.holders.take 2 → (∀ o ∈ j.holders.take 2, o = holder ∨ o ∈ j.answered) →
             exec (.holderDigestReceive job holder digest) s = .next (State.complete { s with
               jobs := tset job { j with wanted := later, sent := none, answered := [],
                                         kept := z :: j.kept.filter fun o => o.step ≠ z.step } s.jobs } q n 0 0)))
         ∧ ((j.kept.find? fun o => o.step = step) = some z → (s.standing .fill = .waiting → rolls false s)
           ∧ (s.standing .fill ≠ .waiting →
             let ended := (s.journal.filter (s.rolledBack job j z)).foldl (fun (u : State) y => u.cancelEntry y y.queue 5) (s.stopJob j)
             let written := (ended.forgetWriter .fill).writeAll z.memory
             (∀ die need, written = .inr (die, need) → rolls false ((s.forgetWriter .fill).engineWaitBatts .fill die need))
             ∧ ∀ u, written = .inl u → ∃ t, rolls false t ∧ t.regs.phase = z.phase
               ∧ tfind job t.jobs = some { j with wanted := [], sent := none, answered := [], rolling := true,
                                                  kept := j.kept.filter fun o => o.step ≤ z.step }
               ∧ t.remembered = s.remembered.filter (fun i => i.1 ≤ step) ∧ (∀ i ∈ t.failedBuckets, i.1 ≤ step)
               ∧ t.earlyFailures = s.earlyFailures.filter (fun i => i.1 ≤ step)
               ∧ (∀ v ∈ t.invocations, v.2.running = true → ∀ i ∈ v.2.stages, i ∉ j.stages)
               ∧ (∀ c ∈ s.cores, ∀ b < 2, ∀ k, (t.bank c.1 b).task = some k → k.stage ∉ j.stages)
               ∧ (∀ x ∈ t.clusters, ∀ y ∈ x.2.shadow, ∀ k, y.2.2.task = some k → k.stage ∉ j.stages)
               ∧ (∀ y ∈ s.journal, s.rolledBack job j z y = true → ∀ w ∈ t.journal, w.queue = y.queue → w.seq = y.seq →
                 (w.state = 3 ∧ w.status = 5) ∨ ∃ h ∈ (t.hostQueue y.queue).heldCpl, h.source = some y.queue ∧ h.seq = y.seq ∧ h.status = 5)
               ∧ (∀ o ∈ t.dies, (o.2.stash, o.2.snaps) = tget ([], []) o.1 z.stash)
               ∧ ((z.slots.map (·.1)).Nodup → ∀ o ∈ z.slots, tfind o.1 t.slots = some o.2)
               ∧ ((z.tensors.map (·.1)).Nodup → ∀ o ∈ z.tensors, tfind o.1 t.tensors = some { o.2 with replay := [], sq := [] })
               ∧ ∀ d off x m, z.memory = [(.home d off, m, x)] → off % 4096 + m ≤ 4096 → ((s.die d).page (off / 4096)).state = 0 →
                 t.rawRead (.home d off) m = x % 256 ^ m))
         ∧ ((∀ o ∈ j.kept, o.step ≠ step) → (s.fill.isSome = true → rolls false ({ s with fill := some {} }.stopJob j))
           ∧ (s.fill = none → j.elastic = false → rolls false s)
           ∧ (s.fill = none → j.elastic = true → ∃ t, rolls false t ∧ ∀ i ∈ j.stages,
             ∀ a ∈ (t.stage i).fArr ++ (t.stage i).bArr, a.step ≠ BitVec.ofNat 64 step))
         ∧ (j.rolling = true → rolls true (State.refresh { s with jobs := tset job { j with rolling := false } s.jobs })))
    ∧ (∀ (s : State) (chunk slot partition v base d n off q : Nat) (part : FillPart) (last lost : Bool) (digest : BitVec 256)
         (data : List (BitVec 8)), s.failed = false →
       let f := s.fill.getD {}
       let fills (t : State) : Prop := exec (.fillChunkAck chunk part last digest lost) s = .next t
       let open' : Prop := chunk = f.next ∧ f.stage = 0 ∧ lost = false ∧ fillSize part ≤ 2 ^ 26
       let first := (if chunk = 0 ∧ part.elastic = true then s.emptied else s).forgetWriter .fill
       let parts := part :: f.parts
       let fill : Fill := if last = false then { f with next := chunk + 1, source := part.source, parts := parts }
         else if bytesNat (sha256 (Config.fillBytes parts.reverse)) = digest.toNat then
           { f with next := chunk + 1, source := part.source, parts := parts, stage := 1 }
         else { source := part.source }
       ((chunk ≠ f.next ∨ f.stage = 1 ∨ 2 < f.stage) → fills s)
         ∧ (chunk = f.next → f.stage = 0 → lost = true → fills ({ s with fill := some { f with stage := 3 } }.adminStatus 458 0x0A))
         ∧ (chunk = f.next → f.stage = 0 → lost = false → 2 ^ 26 < fillSize part → fills s)
         ∧ (open' → s.standing .fill = .waiting → fills s)
         ∧ (open' → s.standing .fill ≠ .waiting →
           (∀ t, first.fillWith part = .inl t → fills ({ t with fill := some fill }.send (.fillAck chunk)))
           ∧ ∀ die need, first.fillWith part = .inr (die, need) → fills (first.engineWaitBatts .fill die need))
         ∧ (chunk = f.next → f.stage = 2 → fills (if last = true then { s with fill := none }.send .ready else s))
         ∧ (∃ t, s.fillWith { channels := [⟨d, n, 0, off, off, q, base⟩] } = .inl t ∧ t.tensor d = { s.tensor d with
           w := n, sent := 0, consumed := off, deposited := off, seq := q, rbase := base, replay := [], sq := [] })
         ∧ (∃ t, s.fillWith { slots := [(slot, partition, base, data)] } = .inl t
           ∧ (∀ reason, s.translate data partition base = .inl reason → tget {} slot t.slots = {})
           ∧ ∀ tr, s.translate data partition base = .inr tr → tget {} slot t.slots = tr.slot data)
         ∧ ∃ t, s.fillWith { weights := [(slot, v, data)] } = .inl t ∧ (tget {} slot t.slots).current = v
           ∧ (tget {} slot t.slots).weights = tset v data (tget {} slot s.slots).weights)
    ∧ (∀ (s : State) (part : Nat) (lostA lostB : List (Nat × Nat)) (e : JournalEntry), s.failed = false →
       s.mirror = s.journal → (∀ x ∈ s.journal, x.intact = true) →
       let gone (x : JournalEntry) : Prop := x.state ≠ 3 ∧ (part = 2 + 2 * x.die ∨ (x.queue, x.seq) ∈ lostA)
         ∧ (part = 3 + 2 * x.die ∨ (x.queue, x.seq) ∈ lostB)
       (s.journal.filter (fun x => gone x) = [e] → s.openEntry e.queue e.seq = some e → s.answered e.queue e.seq = false →
           (s.hostQueue e.queue).cplFull = false → (s.hostQueue e.queue).heldCpl = [] →
           ∃ t, exec (.singlePartReset part lostA lostB) s = .next t ∧ s.answers t e 6 0)
         ∧ ((∀ x ∈ s.journal, ¬ gone x) → exec (.singlePartReset part lostA lostB) s = .next s))
    ∧ (∀ (s : State) (d len : Nat) (image : List (BitVec 8)),
       exec .reset s = .next { State.reset with hostMem := s.hostMem, otherMem := s.otherMem, flash := s.flash, draws := s.draws }
         ∧ (s.failed = false →
           let kept := { s with mailbox := natBytes 4 len ++ image }
           let given := image.take len
           let key := Config.imageKey given
           let good := decide (Config.fusedVersion ≤ Config.imageVersion given) && sha256 key == Config.fusedKeyDigest
             && Config.signatureValid key (sha256 (Config.imageSigned given)) given
           let ran (t : State) : Prop := exec (.recoveryMailboxWrite image len) s = .next (if good then t else kept)
           (s.withies = false → s.devStatus.getLsbD 0 = true →
             ran { kept with withies := true, firmware := image.take len, devStatus := s.devStatus &&& ~~~1#32 })
           ∧ (s.withies = false → s.devStatus.getLsbD 0 = false → ran kept)
           ∧ (s.withies = true → ran { kept with flash := image.take len }))
         ∧ (s.failed = false → exec (.dieFatalFault d) s = .next { s with failed := true })
         ∧ (s.failed = true → step s = .fault .deviceFailed ∧ exec (.dieFatalFault d) s = .fault .deviceFailed))

/-- R320, R442, R445, R446, R448, R451, R456: a port that is UP retrains; in RETRAIN it comes up within 100 us and is DOWN, which the
control core is told, after 100 us, or after 1 us where no training pattern has come; a port that comes up sends what has waited for it,
then the unacknowledged packets of its routes again, and its neighbour entries stand FAILED as the port stands, with LAST as it was. A
flit's retry is counted, and the 16th in a row retrains the port (log 69). Where every port to a device has been DOWN for TFAIL, or it has
reported a fatal fault, it is reported as failed (log 22). A global access of a core to another device that has had no answer for TLINK
fails with a posted `CHANNEL`; an engine at such an access has `CHANNEL` as its verdict (logs 58, 70). A phase flit goes out by every port
that is UP, and for a bypassed ring port by the torus port towards its peer; one that arrives sets LAST of every valid entry of its port
that has not FAILED. R475 to R478: an arbitration no earlier than 10 us after the last writes each island's GRANT and DRAW and holds the
issue of the cores of an island that draws more than its grant for a clk at least, or up to the clk named for one. The attestation's
answers are sent and join the transcript, which GET_VERSION begins anew; the capabilities offer certificates, CHALLENGE and measurements
and no KEY_EXCHANGE; the measurements are the boot ROM's version, the digests of firmware and configuration, the digest of each model slot
and the position (the encoding is the model's own, log 24). -/
def Obligations.PortsPowerAndAttestation : Prop :=
  (∀ (s : State) (p value c k i : Nat) (pattern fatal : Bool) (e : QEntry) (who : Writer) (ports : List Nat) (w : Captured),
       s.failed = false →
       let state := (s.port p).1
       let since := (s.port p).2
       let stands (t : State) (failed : Bool) : Prop := t.regs.nbr.map (fun x => (x.1, x.2.setWidth 39)) = s.regs.nbr.map (fun x => (x.1, x.2.setWidth 39))
         ∧ (∀ x ∈ t.regs.nbr, x.2.getLsbD 32 = true → (x.2.extractLsb' 36 3).toNat = p → x.2.getLsbD 39 = failed)
         ∧ ∀ x ∈ s.regs.nbr, (x.2.extractLsb' 36 3).toNat ≠ p → x ∈ t.regs.nbr
       let others (t : State) : Prop := ∀ r, r ≠ p → t.port r = s.port r
       let retrains (i : Instr) : Prop := ∃ t, exec i s = .next t ∧ t.port p = (1, s.clk) ∧ others t ∧ stands t false ∧ t.sent = s.sent ∧ tget 0 p t.retries = 0
       let dead : Prop := fatal = true ∨ ∀ r ∈ s.regs.portsTo p, (s.port r).1 = 2 ∧ (s.port r).2 + s.regs.tfail ≤ s.clk
       (state = 0 → p < 8 → retrains (.portRetrain p) ∧ (tget 0 p s.retries = 15 → retrains (.linkFlitRetry p)))
         ∧ (state = 0 → p < 8 → tget 0 p s.retries ≠ 15 →
           exec (.linkFlitRetry p) s = .next { s with retries := tset p (tget 0 p s.retries + 1) s.retries })
         ∧ (state ≠ 0 ∨ 8 ≤ p → exec (.portRetrain p) s = .next s ∧ exec (.linkFlitRetry p) s = .next s)
         ∧ ((state = 1 ∧ s.clk ≤ since + 125000) ∨ 2 ≤ state → ∃ t, exec (.portUp p) s = .next t ∧ t.port p = (0, s.clk) ∧ others t ∧ stands t false
           ∧ ((∀ x ∈ s.held, x.1 = p → s.outPort x.2 = some p) → (∀ x ∈ s.tensors, s.tensor x.1 = x.2) →
             t.held = s.held.filter (fun x => x.1 ≠ p)
             ∧ t.sent = s.sent ++ (s.held.filter fun x => x.1 = p).map (fun x => .via p x.2)
               ++ (s.tensors.filter fun x => x.2.sender = true ∧ s.regs.route x.2.peerPos = some p).flatMap fun x =>
                 x.2.replay.map fun y => .via p (.packet x.1 y.seq)))
         ∧ (state = 0 ∨ (state = 1 ∧ since + 125000 < s.clk) → exec (.portUp p) s = .next s)
         ∧ (state = 1 → since + 125000 ≤ s.clk ∨ (pattern = false ∧ since + 1250 ≤ s.clk) →
           ∃ t, exec (.portDown p pattern) s = .next t ∧ t.port p = (2, s.clk) ∧ others t ∧ stands t (!s.regs.bypassed p)
             ∧ t.sent = s.sent ++ [.portDown p])
         ∧ (state ≠ 1 ∨ (s.clk < since + 125000 ∧ (pattern = true ∨ s.clk < since + 1250)) → exec (.portDown p pattern) s = .next s)
         ∧ (p < 8 → dead → exec (.deviceFailureDeclare ⟨p, fatal⟩) s = .next ((s.send (.failureReport p)).adminEvent 456 [p]))
         ∧ (8 ≤ p ∨ ¬ dead → exec (.deviceFailureDeclare ⟨p, fatal⟩) s = .next s)
         ∧ (k < 2 → s.ripe c k i = some e →
           let late : Prop := e.clk + s.regs.tlink ≤ s.clk ∧ ∃ x ∈ s.partsOf (s.bank c k) e, (s.accessPort x.loc).isSome = true
           (late → exec (.domainAccessTimeout c k i) s = .next (s.failEntry c k i e 0x19 e.addr))
           ∧ (¬ late → exec (.domainAccessTimeout c k i) s = .next s))
         ∧ (2 ≤ k → s.timedEngine c k i = some who → s.enginePorts who = some (ports, w) →
           let late : Prop := ports ≠ [] ∧ w.issued + s.regs.tlink ≤ s.clk ∧ ∀ x ∈ s.engineWaits, x.who ≠ who
           (late → exec (.domainAccessTimeout c k i) s = .next { s with engineWaits := s.engineWaits ++
             [{ who := who, invocation := w.invocation, page := 0, cause := 0x19, write := true, verdict := some 0x19 }] })
           ∧ (¬ late → exec (.domainAccessTimeout c k i) s = .next s))
         ∧ (∃ t, exec .phaseFlitSend s = .next t ∧ t = { s with lastPhase := s.clk, retries := t.retries, sent := t.sent }
           ∧ t.sent = s.sent ++ (List.range 8).flatMap fun r =>
             let flit : Flit := .phase r s.regs.phase.toNat
             match (if r < 6 then some r else s.regs.ringRoute (r - 6)) with
             | some x => if (s.port x).1 = 0 then [.via x flit] else []
             | none => [flit])
         ∧ (∀ r < 2, s.regs.ringRoute r = if (tget 0 r s.regs.rport).getLsbD 32
           then s.regs.route ((tget 0 r s.regs.rport).extractLsb' 0 21).toNat else some (6 + r))
         ∧ ∃ t, exec (.phaseFlitReceive p value) s = .next t ∧ t.regs = { s.regs with nbr := s.regs.nbr.map fun x =>
             (x.1, if x.2.getLsbD 32 ∧ (x.2.extractLsb' 36 3).toNat = p ∧ !x.2.getLsbD 39 then
               x.2.extractLsb' 32 32 ++ BitVec.ofNat 32 value else x.2) })
    ∧ (∀ (s : State) (draw demand : List Nat) (c h : Nat) (request : List (BitVec 8)), s.failed = false →
       let grant (i : Nat) : Nat := ((s.regs.grants demand)[i]?).getD 0
       let drawn (i : Nat) : Nat := (draw[i]?).getD 0
       let table : Table SReg := (List.range 24).map fun i => (i, BitVec.ofNat 64 (grant i % 4096 + 4096 * (drawn i % 4096)))
       let above (x : Nat) : Bool := decide (grant (x / 24) < drawn (x / 24))
       let listed (x : Nat) : Bool := s.cores.any fun o => o.1 = x
       let later (x y : Nat) : Core := { s.core x with powerUntil := max (s.core x).powerUntil y }
       let answered (m : State) (i : Instr) (kind : Nat) (contents : List (List (BitVec 8))) : Prop :=
         exec i s = .next { m with spdm := m.spdm ++ request ++ Config.spdmMessage kind (request :: contents),
                                   sent := m.sent ++ [Flit.spdm (Config.spdmMessage kind (request :: contents))] }
       (s.lastArbitration + 12500 ≤ s.clk → ∃ t, exec (.powerArbitration draw demand [(c, h)]) s = .next t
           ∧ t.regs = { s.regs with pgrant := table } ∧ t.lastArbitration = s.clk ∧ t.clk = s.clk ∧ t.dies = s.dies
           ∧ (∀ x, x ≠ c → t.core x = if above x && listed x then later x (s.clk + 1) else s.core x)
           ∧ t.core c = if above c then later c (if listed c then max (s.clk + 1) h else h) else s.core c)
         ∧ (s.clk < s.lastArbitration + 12500 → exec (.powerArbitration draw demand [(c, h)]) s = .next s)
         ∧ answered { s with spdm := [] } (.spdmGetVersion request) 1 [[0x13]]
         ∧ answered s (.spdmGetCapabilities request) 2 [[1], [1], [1], [0]]
         ∧ answered s (.spdmNegotiateAlgorithms request) 3 [natBytes 4 0x10, natBytes 4 1]
         ∧ answered s (.spdmGetDigests request) 4 [sha256 Config.certificateChain]
         ∧ answered s (.spdmGetCertificate request) 5 [Config.certificateChain]
         ∧ answered s (.spdmChallenge request) 6
             [sha256 Config.certificateChain, sha256 s.measurementContents.flatten, Config.signature (s.spdm ++ request)]
         ∧ answered s (.spdmGetMeasurements request) 7 s.measurementContents
         ∧ s.measurementContents = [1 :: Config.bootRomVersion, 2 :: sha256 s.firmware, 3 :: sha256 (Config.configurationBytes s.regs.configuration)]
             ++ ((List.range 32).map fun i => BitVec.ofNat 8 (16 + i) :: natBytes 32 (tget {} i s.slots).measure)
             ++ [48 :: natBytes 8 s.regs.tcoord.toNat])

/-- R247 to R249, R330, R332, R417, R420, R423, R441, R448 to R451, R478: each register with its rule for a write that is refused, which
leaves it as it was (CMPCTL and CMPWM set REFUSED), and for one that takes effect, with no other register changed: a new RATIO moves the
boundary of the pool, a new N or RANK begins a reconfiguration and reports on every bucket, a new BYPASS sends the phase in the next clk and
sets FAILED as the port then stands. A wake ends a held `IDLE`, or stays pending. The numbers of the registers from 0x1000 on are the
model's own (log 16), and its times are counts of clk (log 29). -/
def Obligations.RegisterWrites : Prop :=
  ∀ (s : State) (d c k r : Nat) (v : BitVec 64), s.failed = false →
    let x := s.die d
    let f (lo n : Nat) : Nat := v.toNat / 2 ^ lo % 2 ^ n
    let does (i : Instr) (t : State) : Prop := exec i s = .next t
    let put (y : Die) : State := s.setDie d y
    let reg (y : Regs) : State := { s with regs := y }
    (
      let bad : Prop := v &&& ~~~0x3F7F ≠ 0 ∨ f 8 2 = 3 ∨ 16 < f 1 5 ∨ (f 1 5 ≠ 0 ∧ f 0 1 = 0)
        ∨ (v.getLsbD 0 ≠ x.en ∧ ((∃ o ∈ x.pages, o.2.batts ≠ [] ∨ o.2.state ≠ 0) ∨ ∃ o ∈ x.shadows, ∃ y ∈ o.2.pages, y.2.record.batts ≠ []))
        ∨ (f 1 5 < x.ratio ∧ ((∃ o ∈ x.pages, presentedAt (f 1 5) ≤ 4096 * o.1 ∧ (o.2.batts ≠ [] ∨ o.2.state ≠ 0))
          ∨ (∃ o ∈ x.shadows, ∃ y ∈ o.2.pages, presentedAt (f 1 5) ≤ 4096 * y.1 ∧ y.2.record.batts ≠ []) ∨ s.mappedBeyond d (presentedAt (f 1 5)) = true))
        ∨ (x.ratio < f 1 5 ∧ ∃ y ∈ x.heldBatts, storeAt (f 1 5) ≤ y)
      (bad → does (.cmpctlWrite d v) (put { x with refused := true }))
      ∧ (¬ bad → does (.cmpctlWrite d v) (put { x with cmpctl := v, free := movePool x.free (storeAt x.ratio) (storeAt (f 1 5)) })))
      ∧ (f 0 32 < f 32 32 ∧ f 32 32 ≤ storeAt x.ratio → does (.cmpwmWrite d v) (put { x with cmpwm := v }))
      ∧ (f 32 32 ≤ f 0 32 ∨ storeAt x.ratio < f 32 32 → does (.cmpwmWrite d v) (put { x with refused := true }))
      ∧ does (.cmpstatRefusedClear d) (put { x with refused := false })
      ∧ (r < 4 →
        let new : Nat × Nat := (f 20 36 * 2 ^ 20, f 0 20 * 2 ^ 20)
        let overlaps : Prop := ∃ o ∈ s.regionsBeside d r, new.2 ≠ 0 ∧ o.2 ≠ 0 ∧ new.1 < o.1 + o.2 ∧ o.1 < new.1 + new.2
        let bad : Prop := 2 ^ 56 ≤ v.toNat ∨ overlaps ∨ (v ≠ tget 0 r x.regions ∧ x.regionUsed r = true)
        (bad → does (.stashRegionWrite d r v) s)
        ∧ (¬ bad → does (.stashRegionWrite d r v) (put { x with regions := tset r v x.regions })))
      ∧ (4 ≤ r → r < 20 →
        let bad : Prop := v &&& ~~~0xFFF00F ≠ 0 ∨ 100 < f 16 8
        (bad → does (.stashRegionWrite d r v) s)
        ∧ (¬ bad → does (.stashRegionWrite d r v) (put { x with stpol := tset (r - 4) v x.stpol })))
      ∧ ((s.core c).bank0.idle = false ∧ (s.core c).bank1.idle = false →
        does (.wakeWrite c) (s.setCore c { s.core c with wakePending := true }))
      ∧ ((s.core c).bank0.idle = true ∨ (s.core c).bank1.idle = true → ∃ t, exec (.wakeWrite c) s = .next t
        ∧ (t.core c).wakePending = (s.core c).wakePending ∧ ((s.core c).bank0.idle = true → (t.core c).bank0.woken = true)
        ∧ ((s.core c).bank1.idle = true → (t.core c).bank1.woken = true))
      ∧ (r < 64 → (s.barrier k r).pending = 0 →
        does (.barwWrite k (2 * r) v) (s.setBarrier k r { s.barrier k r with
          phase := v.setWidth 8, err := v.getLsbD 8, expect := f 16 16, remain := f 32 16, early := f 48 16 })
        ∧ does (.barwWrite k (2 * r + 1) v) (s.setBarrier k r { s.barrier k r with
          pending := f 0 28, errCode := f 32 16, lastErr := f 48 16 }))
      ∧ (r < 64 → (s.barrier k r).pending ≠ 0 → does (.barwWrite k (2 * r) v) s ∧ does (.barwWrite k (2 * r + 1) v) s)
      ∧ (
        let new := v &&& 0x1FFFFFFFF
        (new.setWidth 32 = s.regs.ringcfg.setWidth 32 → does (.ringcfgWrite v) (reg { s.regs with ringcfg := new }))
        ∧ (new.setWidth 32 ≠ s.regs.ringcfg.setWidth 32 → does (.ringcfgWrite v)
          (((s.buckets.filter (·.fixed)).flatMap fun b => [0, 1].map fun h =>
            Flit.settled h b.step b.bucket ((b.written.map (·.2)).sum = b.count)).foldl State.send { reg { s.regs with ringcfg := new } with
              buckets := s.buckets.map fun b => { b with unsettled := true }, markCopies := [] })))
      ∧ (r < 2 → ∃ t, exec (.rportWrite r v) s = .next t ∧ t.regs.rport = tset r (v &&& 0x1001FFFFF) s.regs.rport
        ∧ t.regs.nbr.map (fun o => (o.1, o.2.setWidth 39)) = s.regs.nbr.map (fun o => (o.1, o.2.setWidth 39))
        ∧ (∀ o ∈ t.regs.nbr, o.2.getLsbD 32 = true → (o.2.extractLsb' 36 3).toNat = 6 + r →
          o.2.getLsbD 39 = ((s.port (6 + r)).1 == 2 && !v.getLsbD 32))
        ∧ (v.getLsbD 32 ≠ (tget 0 r s.regs.rport).getLsbD 32 → (s.clk + 1, .phaseFlit) ∈ t.calendar)
        ∧ ((v &&& 0x1001FFFFF) = tget 0 r s.regs.rport → s.held = [] → t.sent = s.sent))
      ∧ (
        let bad : Prop := 2 ^ 35 ≤ v.toNat ∨ (v.getLsbD 32 = true ∧ f 0 32 = 0)
        (bad → does (.arbctlWrite v) s) ∧ (¬ bad → does (.arbctlWrite v) (reg { s.regs with arbctl := v })))
      ∧ (
        let bad : Prop := 2 ^ 13 ≤ v.toNat ∨ f 0 12 < 1000 ∨ 3400 < f 0 12 ∨ f 0 12 < s.regs.floors
        (bad → does (.pwrctlWrite 0 v) s) ∧ (¬ bad → does (.pwrctlWrite 0 v) (reg { s.regs with pwrctl := v })))
      ∧ (r < 24 →
        let new : Regs := { s.regs with pisl := tset r v s.regs.pisl }
        let bad : Prop := 2 ^ 28 ≤ v.toNat ∨ f 12 12 < f 0 12 ∨ s.regs.pwrctl.toNat % 2 ^ 12 < new.floors
        (bad → does (.pwrctlWrite (r + 1) v) s) ∧ (¬ bad → does (.pwrctlWrite (r + 1) v) (reg new)))
      ∧ (
        let bad : Prop := v &&& ~~~0x1FFFFF1FFFFF ≠ 0 ∨ f 24 7 < f 0 7 ∨ f 31 7 < f 7 7 ∨ f 38 7 < f 14 7
        (bad → does (.tcoordWrite v) s) ∧ (¬ bad → does (.tcoordWrite v) (reg { s.regs with tcoord := v })))
      ∧ (d < 4 →
        let got (n : Nat) (t : State) : Prop := exec (.registerWrite d n v) s = .next t.refresh
        (r < 16 → got (0x400 + r) (reg { s.regs with ptroot := tset r (v &&& 0xFFFFFFFF00000) s.regs.ptroot })
          ∧ got (0x410 + r) (reg { s.regs with pvec := tset r (v &&& 0xFFFFFFC1) s.regs.pvec })
          ∧ got (0x320 + r) (s.writePolicy d r v).1)
        ∧ (r < 64 → got (0x340 + r) (put { x with patStatus := tset r (v &&& 0xFFFF) x.patStatus }))
        ∧ (r < 4 → got (0x310 + r) (s.writeRegion d r v).1)
        ∧ got 0x300 (s.writeCmpctl d v).1 ∧ got 0x301 (s.writeCmpwm d v).1 ∧ got 0x304 (put { x with cmpcnt := v })
        ∧ got 0x1000 (s.writeArbctl v).1 ∧ got 0x1001 (s.writePhase v).1 ∧ got 0x1002 (reg { s.regs with lead := v.toNat % 16 })
        ∧ (r < 8 → got (0x1003 + r) (s.writeNbr r v).1) ∧ got 0x100B (s.writeTcoord v).1
        ∧ got 0x100C (reg { s.regs with domcfg := v &&& 0xFFFFFFF }) ∧ got 0x100D (s.writeRingcfg v).1
        ∧ (r < 2 → got (0x100E + r) (s.writeRport r v).1) ∧ (r < 25 → got (0x1010 + r) (s.writePower r v).1)
        ∧ (r < 24 → got (0x1050 + r) s) ∧ got 0x1041 (reg { s.regs with tfail := v.toNat })
        ∧ got 0x1042 (if 125000 ≤ v.toNat ∧ v.toNat ≤ 125000000 then reg { s.regs with teardown := v.toNat } else s)
        ∧ got 0x1043 (if 1250 ≤ v.toNat ∧ v.toNat ≤ 20000 then reg { s.regs with frame := v.toNat } else s)
        ∧ got 0x1040 (if 12500 ≤ v.toNat ∧ v.toNat ≤ 12500000 then reg { s.regs with tlink := v.toNat } else s))
end

