-- ==== Sys2Proof/Laws/Exec.lean ====
section
/-! SUPPORT. Which meaning each instruction has: one lemma per constructor, so that no proof unfolds the dispatch. -/

namespace Sys2Proof.Machine

@[simp] theorem exec_pfx (rm : BitVec 3) (sat : BitVec 1) (mask : BitVec 4) (strict : BitVec 16) (s : State) : exec (.pfx rm sat mask strict) s = execPfx rm sat mask strict s := rfl
@[simp] theorem exec_ext (pay : BitVec 25) (s : State) : exec (.ext pay) s = execExt pay s := rfl
@[simp] theorem exec_add (rd ra rb : BitVec 6) (mod : BitVec 1) (s : State) : exec (.add rd ra rb mod) s = execAdd rd ra rb mod s := rfl
@[simp] theorem exec_sub (rd ra rb : BitVec 6) (mod : BitVec 1) (s : State) : exec (.sub rd ra rb mod) s = execSub rd ra rb mod s := rfl
@[simp] theorem exec_addi (rd ra : BitVec 6) (imm : BitVec 8) (s : State) : exec (.addi rd ra imm) s = execAddi rd ra imm s := rfl
@[simp] theorem exec_addsh (rd ra rb : BitVec 6) (mod : BitVec 1) (s : State) : exec (.addsh rd ra rb mod) s = execAddsh rd ra rb mod s := rfl
@[simp] theorem exec_mul (rd ra rb : BitVec 6) (mod : BitVec 1) (s : State) : exec (.mul rd ra rb mod) s = execMul rd ra rb mod s := rfl
@[simp] theorem exec_mulh (rd ra rb : BitVec 6) (mod : BitVec 1) (s : State) : exec (.mulh rd ra rb mod) s = execMulh rd ra rb mod s := rfl
@[simp] theorem exec_div (rd ra rb : BitVec 6) (mod : BitVec 1) (s : State) : exec (.div rd ra rb mod) s = execDiv rd ra rb mod s := rfl
@[simp] theorem exec_divu (rd ra rb : BitVec 6) (mod : BitVec 1) (s : State) : exec (.divu rd ra rb mod) s = execDivu rd ra rb mod s := rfl
@[simp] theorem exec_rem (rd ra rb : BitVec 6) (mod : BitVec 1) (s : State) : exec (.rem rd ra rb mod) s = execRem rd ra rb mod s := rfl
@[simp] theorem exec_and (rd ra rb : BitVec 6) (s : State) : exec (.and rd ra rb) s = execAnd rd ra rb s := rfl
@[simp] theorem exec_or (rd ra rb : BitVec 6) (s : State) : exec (.or rd ra rb) s = execOr rd ra rb s := rfl
@[simp] theorem exec_xor (rd ra rb : BitVec 6) (s : State) : exec (.xor rd ra rb) s = execXor rd ra rb s := rfl
@[simp] theorem exec_andn (rd ra rb : BitVec 6) (s : State) : exec (.andn rd ra rb) s = execAndn rd ra rb s := rfl
@[simp] theorem exec_shl (rd ra rb : BitVec 6) (mod : BitVec 1) (s : State) : exec (.shl rd ra rb mod) s = execShl rd ra rb mod s := rfl
@[simp] theorem exec_shr (rd ra rb : BitVec 6) (mod : BitVec 1) (s : State) : exec (.shr rd ra rb mod) s = execShr rd ra rb mod s := rfl
@[simp] theorem exec_sar (rd ra rb : BitVec 6) (mod : BitVec 1) (s : State) : exec (.sar rd ra rb mod) s = execSar rd ra rb mod s := rfl
@[simp] theorem exec_shli (rd ra imm : BitVec 6) (s : State) : exec (.shli rd ra imm) s = execShli rd ra imm s := rfl
@[simp] theorem exec_shri (rd ra imm : BitVec 6) (s : State) : exec (.shri rd ra imm) s = execShri rd ra imm s := rfl
@[simp] theorem exec_sari (rd ra imm : BitVec 6) (s : State) : exec (.sari rd ra imm) s = execSari rd ra imm s := rfl
@[simp] theorem exec_clz (rd ra : BitVec 6) (mod : BitVec 1) (s : State) : exec (.clz rd ra mod) s = execClz rd ra mod s := rfl
@[simp] theorem exec_popc (rd ra : BitVec 6) (mod : BitVec 1) (s : State) : exec (.popc rd ra mod) s = execPopc rd ra mod s := rfl
@[simp] theorem exec_bext (rd ra rb : BitVec 6) (s : State) : exec (.bext rd ra rb) s = execBext rd ra rb s := rfl
@[simp] theorem exec_bins (rd ra rb : BitVec 6) (s : State) : exec (.bins rd ra rb) s = execBins rd ra rb s := rfl
@[simp] theorem exec_min (rd ra rb : BitVec 6) (mod : BitVec 1) (s : State) : exec (.min rd ra rb mod) s = execMin rd ra rb mod s := rfl
@[simp] theorem exec_max (rd ra rb : BitVec 6) (mod : BitVec 1) (s : State) : exec (.max rd ra rb mod) s = execMax rd ra rb mod s := rfl
@[simp] theorem exec_minu (rd ra rb : BitVec 6) (mod : BitVec 1) (s : State) : exec (.minu rd ra rb mod) s = execMinu rd ra rb mod s := rfl
@[simp] theorem exec_maxu (rd ra rb : BitVec 6) (mod : BitVec 1) (s : State) : exec (.maxu rd ra rb mod) s = execMaxu rd ra rb mod s := rfl
@[simp] theorem exec_seq (rd ra rb : BitVec 6) (mod : BitVec 1) (s : State) : exec (.seq rd ra rb mod) s = execSeq rd ra rb mod s := rfl
@[simp] theorem exec_sne (rd ra rb : BitVec 6) (mod : BitVec 1) (s : State) : exec (.sne rd ra rb mod) s = execSne rd ra rb mod s := rfl
@[simp] theorem exec_slt (rd ra rb : BitVec 6) (mod : BitVec 1) (s : State) : exec (.slt rd ra rb mod) s = execSlt rd ra rb mod s := rfl
@[simp] theorem exec_sltu (rd ra rb : BitVec 6) (mod : BitVec 1) (s : State) : exec (.sltu rd ra rb mod) s = execSltu rd ra rb mod s := rfl
@[simp] theorem exec_sle (rd ra rb : BitVec 6) (mod : BitVec 1) (s : State) : exec (.sle rd ra rb mod) s = execSle rd ra rb mod s := rfl
@[simp] theorem exec_sleu (rd ra rb : BitVec 6) (mod : BitVec 1) (s : State) : exec (.sleu rd ra rb mod) s = execSleu rd ra rb mod s := rfl
@[simp] theorem exec_sel (rd ra rb : BitVec 6) (s : State) : exec (.sel rd ra rb) s = execSel rd ra rb s := rfl
@[simp] theorem exec_movi (rd : BitVec 6) (imm : BitVec 14) (s : State) : exec (.movi rd imm) s = execMovi rd imm s := rfl
@[simp] theorem exec_movhi (rd : BitVec 6) (imm : BitVec 14) (s : State) : exec (.movhi rd imm) s = execMovhi rd imm s := rfl
@[simp] theorem exec_fadd (rd ra rb : BitVec 6) (s : State) : exec (.fadd rd ra rb) s = execFadd rd ra rb s := rfl
@[simp] theorem exec_fsub (rd ra rb : BitVec 6) (s : State) : exec (.fsub rd ra rb) s = execFsub rd ra rb s := rfl
@[simp] theorem exec_fmul (rd ra rb : BitVec 6) (s : State) : exec (.fmul rd ra rb) s = execFmul rd ra rb s := rfl
@[simp] theorem exec_ffma (rd ra rb : BitVec 6) (s : State) : exec (.ffma rd ra rb) s = execFfma rd ra rb s := rfl
@[simp] theorem exec_fdiv (rd ra rb : BitVec 6) (s : State) : exec (.fdiv rd ra rb) s = execFdiv rd ra rb s := rfl
@[simp] theorem exec_fsqrt (rd ra : BitVec 6) (s : State) : exec (.fsqrt rd ra) s = execFsqrt rd ra s := rfl
@[simp] theorem exec_fmin (rd ra rb : BitVec 6) (s : State) : exec (.fmin rd ra rb) s = execFmin rd ra rb s := rfl
@[simp] theorem exec_fmax (rd ra rb : BitVec 6) (s : State) : exec (.fmax rd ra rb) s = execFmax rd ra rb s := rfl
@[simp] theorem exec_feq (rd ra rb : BitVec 6) (s : State) : exec (.feq rd ra rb) s = execFeq rd ra rb s := rfl
@[simp] theorem exec_flt (rd ra rb : BitVec 6) (s : State) : exec (.flt rd ra rb) s = execFlt rd ra rb s := rfl
@[simp] theorem exec_fle (rd ra rb : BitVec 6) (s : State) : exec (.fle rd ra rb) s = execFle rd ra rb s := rfl
@[simp] theorem exec_fcvti (rd ra : BitVec 6) (mod : BitVec 1) (s : State) : exec (.fcvti rd ra mod) s = execFcvti rd ra mod s := rfl
@[simp] theorem exec_fcvtf (rd ra : BitVec 6) (mod : BitVec 1) (s : State) : exec (.fcvtf rd ra mod) s = execFcvtf rd ra mod s := rfl
@[simp] theorem exec_brz (hint : BitVec 1) (ra : BitVec 6) (off : BitVec 15) (s : State) : exec (.brz hint ra off) s = execBrz hint ra off s := rfl
@[simp] theorem exec_brnz (hint : BitVec 1) (ra : BitVec 6) (off : BitVec 15) (s : State) : exec (.brnz hint ra off) s = execBrnz hint ra off s := rfl
@[simp] theorem exec_brkt (hint : BitVec 1) (rk : BitVec 4) (off : BitVec 15) (s : State) : exec (.brkt hint rk off) s = execBrkt hint rk off s := rfl
@[simp] theorem exec_brkf (hint : BitVec 1) (rk : BitVec 4) (off : BitVec 15) (s : State) : exec (.brkf hint rk off) s = execBrkf hint rk off s := rfl
@[simp] theorem exec_jmp (off : BitVec 21) (s : State) : exec (.jmp off) s = execJmp off s := rfl
@[simp] theorem exec_jmpi (ra : BitVec 6) (s : State) : exec (.jmpi ra) s = execJmpi ra s := rfl
@[simp] theorem exec_call (rd : BitVec 6) (off : BitVec 15) (s : State) : exec (.call rd off) s = execCall rd off s := rfl
@[simp] theorem exec_ret (ra : BitVec 6) (s : State) : exec (.ret ra) s = execRet ra s := rfl
@[simp] theorem exec_loop (ra : BitVec 6) (endw : BitVec 13) (s : State) : exec (.loop ra endw) s = execLoop ra endw s := rfl
@[simp] theorem exec_loopi (cnt : BitVec 9) (endw : BitVec 13) (s : State) : exec (.loopi cnt endw) s = execLoopi cnt endw s := rfl
@[simp] theorem exec_lset (lvl : BitVec 3) (fld : BitVec 2) (ra : BitVec 6) (s : State) : exec (.lset lvl fld ra) s = execLset lvl fld ra s := rfl
@[simp] theorem exec_lidx (rd : BitVec 6) (lvl : BitVec 3) (s : State) : exec (.lidx rd lvl) s = execLidx rd lvl s := rfl
@[simp] theorem exec_lbrk (lvl : BitVec 3) (s : State) : exec (.lbrk lvl) s = execLbrk lvl s := rfl
@[simp] theorem exec_waitc (cnt : BitVec 21) (s : State) : exec (.waitc cnt) s = execWaitc cnt s := rfl
@[simp] theorem exec_trap (code : BitVec 16) (s : State) : exec (.trap code) s = execTrap code s := rfl
@[simp] theorem exec_halt (s : State) : exec (.halt) s = execHalt s := rfl
@[simp] theorem exec_vadd (rd ra rb : BitVec 7) (s : State) : exec (.vadd rd ra rb) s = execVadd rd ra rb s := rfl
@[simp] theorem exec_vsub (rd ra rb : BitVec 7) (s : State) : exec (.vsub rd ra rb) s = execVsub rd ra rb s := rfl
@[simp] theorem exec_vmul (rd ra rb : BitVec 7) (s : State) : exec (.vmul rd ra rb) s = execVmul rd ra rb s := rfl
@[simp] theorem exec_vfma (rd ra rb : BitVec 7) (s : State) : exec (.vfma rd ra rb) s = execVfma rd ra rb s := rfl
@[simp] theorem exec_vfms (rd ra rb : BitVec 7) (s : State) : exec (.vfms rd ra rb) s = execVfms rd ra rb s := rfl
@[simp] theorem exec_vmin (rd ra rb : BitVec 7) (s : State) : exec (.vmin rd ra rb) s = execVmin rd ra rb s := rfl
@[simp] theorem exec_vmax (rd ra rb : BitVec 7) (s : State) : exec (.vmax rd ra rb) s = execVmax rd ra rb s := rfl
@[simp] theorem exec_vabs (rd ra : BitVec 7) (s : State) : exec (.vabs rd ra) s = execVabs rd ra s := rfl
@[simp] theorem exec_vneg (rd ra : BitVec 7) (s : State) : exec (.vneg rd ra) s = execVneg rd ra s := rfl
@[simp] theorem exec_veq (rd : BitVec 4) (ra rb : BitVec 7) (s : State) : exec (.veq rd ra rb) s = execVeq rd ra rb s := rfl
@[simp] theorem exec_vne (rd : BitVec 4) (ra rb : BitVec 7) (s : State) : exec (.vne rd ra rb) s = execVne rd ra rb s := rfl
@[simp] theorem exec_vlt (rd : BitVec 4) (ra rb : BitVec 7) (s : State) : exec (.vlt rd ra rb) s = execVlt rd ra rb s := rfl
@[simp] theorem exec_vle (rd : BitVec 4) (ra rb : BitVec 7) (s : State) : exec (.vle rd ra rb) s = execVle rd ra rb s := rfl
@[simp] theorem exec_vsel (rd ra rb : BitVec 7) (s : State) : exec (.vsel rd ra rb) s = execVsel rd ra rb s := rfl
@[simp] theorem exec_vand (rd ra rb : BitVec 7) (s : State) : exec (.vand rd ra rb) s = execVand rd ra rb s := rfl
@[simp] theorem exec_vor (rd ra rb : BitVec 7) (s : State) : exec (.vor rd ra rb) s = execVor rd ra rb s := rfl
@[simp] theorem exec_vxor (rd ra rb : BitVec 7) (s : State) : exec (.vxor rd ra rb) s = execVxor rd ra rb s := rfl
@[simp] theorem exec_viadd (rd ra rb : BitVec 7) (s : State) : exec (.viadd rd ra rb) s = execViadd rd ra rb s := rfl
@[simp] theorem exec_visub (rd ra rb : BitVec 7) (s : State) : exec (.visub rd ra rb) s = execVisub rd ra rb s := rfl
@[simp] theorem exec_vimul (rd ra rb : BitVec 7) (s : State) : exec (.vimul rd ra rb) s = execVimul rd ra rb s := rfl
@[simp] theorem exec_vimin (rd ra rb : BitVec 7) (s : State) : exec (.vimin rd ra rb) s = execVimin rd ra rb s := rfl
@[simp] theorem exec_vimax (rd ra rb : BitVec 7) (s : State) : exec (.vimax rd ra rb) s = execVimax rd ra rb s := rfl
@[simp] theorem exec_vshl (rd ra rb : BitVec 7) (s : State) : exec (.vshl rd ra rb) s = execVshl rd ra rb s := rfl
@[simp] theorem exec_vshr (rd ra rb : BitVec 7) (s : State) : exec (.vshr rd ra rb) s = execVshr rd ra rb s := rfl
@[simp] theorem exec_vsar (rd ra rb : BitVec 7) (s : State) : exec (.vsar rd ra rb) s = execVsar rd ra rb s := rfl
@[simp] theorem exec_vrcp (rd ra : BitVec 7) (s : State) : exec (.vrcp rd ra) s = execVrcp rd ra s := rfl
@[simp] theorem exec_vrsq (rd ra : BitVec 7) (s : State) : exec (.vrsq rd ra) s = execVrsq rd ra s := rfl
@[simp] theorem exec_vsqrt (rd ra : BitVec 7) (s : State) : exec (.vsqrt rd ra) s = execVsqrt rd ra s := rfl
@[simp] theorem exec_vexp2 (rd ra : BitVec 7) (s : State) : exec (.vexp2 rd ra) s = execVexp2 rd ra s := rfl
@[simp] theorem exec_vlog2 (rd ra : BitVec 7) (s : State) : exec (.vlog2 rd ra) s = execVlog2 rd ra s := rfl
@[simp] theorem exec_vtanh (rd ra : BitVec 7) (s : State) : exec (.vtanh rd ra) s = execVtanh rd ra s := rfl
@[simp] theorem exec_vsigm (rd ra : BitVec 7) (s : State) : exec (.vsigm rd ra) s = execVsigm rd ra s := rfl
@[simp] theorem exec_vrsum (rd : BitVec 6) (ra : BitVec 7) (s : State) : exec (.vrsum rd ra) s = execVrsum rd ra s := rfl
@[simp] theorem exec_vrmax (rd : BitVec 6) (ra : BitVec 7) (s : State) : exec (.vrmax rd ra) s = execVrmax rd ra s := rfl
@[simp] theorem exec_vramax (rd : BitVec 6) (ra : BitVec 7) (s : State) : exec (.vramax rd ra) s = execVramax rd ra s := rfl
@[simp] theorem exec_vbcast (rd : BitVec 7) (ra : BitVec 6) (s : State) : exec (.vbcast rd ra) s = execVbcast rd ra s := rfl
@[simp] theorem exec_vextr (rd : BitVec 6) (ra : BitVec 7) (rb : BitVec 6) (s : State) : exec (.vextr rd ra rb) s = execVextr rd ra rb s := rfl
@[simp] theorem exec_vins (rd : BitVec 7) (ra rb : BitVec 6) (s : State) : exec (.vins rd ra rb) s = execVins rd ra rb s := rfl
@[simp] theorem exec_vperm (rd ra rb : BitVec 7) (s : State) : exec (.vperm rd ra rb) s = execVperm rd ra rb s := rfl
@[simp] theorem exec_vslide (rd ra : BitVec 7) (rb : BitVec 6) (s : State) : exec (.vslide rd ra rb) s = execVslide rd ra rb s := rfl
@[simp] theorem exec_vmov (rd ra : BitVec 7) (s : State) : exec (.vmov rd ra) s = execVmov rd ra s := rfl
@[simp] theorem exec_viota (rd : BitVec 7) (s : State) : exec (.viota rd) s = execViota rd s := rfl
@[simp] theorem exec_vrand (rd : BitVec 7) (ra : BitVec 2) (s : State) : exec (.vrand rd ra) s = execVrand rd ra s := rfl
@[simp] theorem exec_kand (rd ra rb : BitVec 4) (s : State) : exec (.kand rd ra rb) s = execKand rd ra rb s := rfl
@[simp] theorem exec_kor (rd ra rb : BitVec 4) (s : State) : exec (.kor rd ra rb) s = execKor rd ra rb s := rfl
@[simp] theorem exec_kxor (rd ra rb : BitVec 4) (s : State) : exec (.kxor rd ra rb) s = execKxor rd ra rb s := rfl
@[simp] theorem exec_knot (rd ra : BitVec 4) (s : State) : exec (.knot rd ra) s = execKnot rd ra s := rfl
@[simp] theorem exec_kpop (rd : BitVec 6) (ra : BitVec 4) (s : State) : exec (.kpop rd ra) s = execKpop rd ra s := rfl
@[simp] theorem exec_vcvtn (fmt : BitVec 2) (rd ra : BitVec 7) (noRot : BitVec 1) (seed : BitVec 4) (s : State) : exec (.vcvtn fmt rd ra noRot seed) s = execVcvtn fmt rd ra noRot seed s := rfl
@[simp] theorem exec_vcvtns (fmt : BitVec 2) (rd ra : BitVec 7) (rb : BitVec 6) (s : State) : exec (.vcvtns fmt rd ra rb) s = execVcvtns fmt rd ra rb s := rfl
@[simp] theorem exec_vcvtw (rd ra : BitVec 7) (s : State) : exec (.vcvtw rd ra) s = execVcvtw rd ra s := rfl
@[simp] theorem exec_vcvti (rd ra : BitVec 7) (uns : BitVec 1) (s : State) : exec (.vcvti rd ra uns) s = execVcvti rd ra uns s := rfl
@[simp] theorem exec_vcvtf (rd ra : BitVec 7) (uns : BitVec 1) (s : State) : exec (.vcvtf rd ra uns) s = execVcvtf rd ra uns s := rfl
@[simp] theorem exec_vqscaleE4m3 (rd : BitVec 6) (ra : BitVec 7) (noRot : BitVec 1) (seed : BitVec 4) (s : State) : exec (.vqscaleE4m3 rd ra noRot seed) s = execVqscaleE4m3 rd ra noRot seed s := rfl
@[simp] theorem exec_vqscaleE5m2 (rd : BitVec 6) (ra : BitVec 7) (noRot : BitVec 1) (seed : BitVec 4) (s : State) : exec (.vqscaleE5m2 rd ra noRot seed) s = execVqscaleE5m2 rd ra noRot seed s := rfl
@[simp] theorem exec_vqscaleBf16 (rd : BitVec 6) (ra : BitVec 7) (noRot : BitVec 1) (seed : BitVec 4) (s : State) : exec (.vqscaleBf16 rd ra noRot seed) s = execVqscaleBf16 rd ra noRot seed s := rfl
@[simp] theorem exec_vqscaleInt8 (rd : BitVec 6) (ra : BitVec 7) (noRot : BitVec 1) (seed : BitVec 4) (s : State) : exec (.vqscaleInt8 rd ra noRot seed) s = execVqscaleInt8 rd ra noRot seed s := rfl
@[simp] theorem exec_vside (rd : BitVec 6) (ra : BitVec 7) (s : State) : exec (.vside rd ra) s = execVside rd ra s := rfl
@[simp] theorem exec_vsidew (rd : BitVec 7) (rb : BitVec 6) (s : State) : exec (.vsidew rd rb) s = execVsidew rd rb s := rfl
@[simp] theorem exec_ttwr (tile : BitVec 1) (ra : BitVec 7) (rb : BitVec 6) (s : State) : exec (.ttwr tile ra rb) s = execTtwr tile ra rb s := rfl
@[simp] theorem exec_ttrdc (rd : BitVec 7) (tile : BitVec 1) (ra : BitVec 6) (s : State) : exec (.ttrdc rd tile ra) s = execTtrdc rd tile ra s := rfl
@[simp] theorem exec_ttrdcE4m3 (rd : BitVec 7) (tile : BitVec 1) (ra : BitVec 6) (noRot : BitVec 1) (seed : BitVec 4) (s : State) : exec (.ttrdcE4m3 rd tile ra noRot seed) s = execTtrdcE4m3 rd tile ra noRot seed s := rfl
@[simp] theorem exec_ttrdcE5m2 (rd : BitVec 7) (tile : BitVec 1) (ra : BitVec 6) (noRot : BitVec 1) (seed : BitVec 4) (s : State) : exec (.ttrdcE5m2 rd tile ra noRot seed) s = execTtrdcE5m2 rd tile ra noRot seed s := rfl
@[simp] theorem exec_ttrdcBf16 (rd : BitVec 7) (tile : BitVec 1) (ra : BitVec 6) (noRot : BitVec 1) (seed : BitVec 4) (s : State) : exec (.ttrdcBf16 rd tile ra noRot seed) s = execTtrdcBf16 rd tile ra noRot seed s := rfl
@[simp] theorem exec_ttrdcInt8 (rd : BitVec 7) (tile : BitVec 1) (ra : BitVec 6) (noRot : BitVec 1) (seed : BitVec 4) (s : State) : exec (.ttrdcInt8 rd tile ra noRot seed) s = execTtrdcInt8 rd tile ra noRot seed s := rfl
@[simp] theorem exec_ttclr (tile : BitVec 1) (s : State) : exec (.ttclr tile) s = execTtclr tile s := rfl
@[simp] theorem exec_fpusha (fifo : BitVec 1) (ra : BitVec 7) (s : State) : exec (.fpusha fifo ra) s = execFpusha fifo ra s := rfl
@[simp] theorem exec_fpushb (fifo : BitVec 1) (ra : BitVec 7) (s : State) : exec (.fpushb fifo ra) s = execFpushb fifo ra s := rfl
@[simp] theorem exec_mcfg0 (ra : BitVec 6) (s : State) : exec (.mcfg0 ra) s = execMcfg0 ra s := rfl
@[simp] theorem exec_mcfg1 (ra : BitVec 6) (s : State) : exec (.mcfg1 ra) s = execMcfg1 ra s := rfl
@[simp] theorem exec_mdrain0 (s : State) : exec (.mdrain0) s = execMdrain0 s := rfl
@[simp] theorem exec_mdrain1 (s : State) : exec (.mdrain1) s = execMdrain1 s := rfl
@[simp] theorem exec_mldb0 (wb : BitVec 1) (s : State) : exec (.mldb0 wb) s = execMldb0 wb s := rfl
@[simp] theorem exec_mldb1 (wb : BitVec 1) (s : State) : exec (.mldb1 wb) s = execMldb1 wb s := rfl
@[simp] theorem exec_mma0 (nm1 row0 : BitVec 6) (ovw scl wb : BitVec 1) (s : State) : exec (.mma0 nm1 row0 ovw scl wb) s = execMma0 nm1 row0 ovw scl wb s := rfl
@[simp] theorem exec_mma1 (nm1 row0 : BitVec 6) (ovw scl wb : BitVec 1) (s : State) : exec (.mma1 nm1 row0 ovw scl wb) s = execMma1 nm1 row0 ovw scl wb s := rfl
@[simp] theorem exec_mzero0 (nm1 row0 : BitVec 6) (s : State) : exec (.mzero0 nm1 row0) s = execMzero0 nm1 row0 s := rfl
@[simp] theorem exec_mzero1 (nm1 row0 : BitVec 6) (s : State) : exec (.mzero1 nm1 row0) s = execMzero1 nm1 row0 s := rfl
@[simp] theorem exec_mskipa0 (nm1 : BitVec 6) (s : State) : exec (.mskipa0 nm1) s = execMskipa0 nm1 s := rfl
@[simp] theorem exec_mskipa1 (nm1 : BitVec 6) (s : State) : exec (.mskipa1 nm1) s = execMskipa1 nm1 s := rfl
@[simp] theorem exec_mstat0 (rd : BitVec 6) (s : State) : exec (.mstat0 rd) s = execMstat0 rd s := rfl
@[simp] theorem exec_mstat1 (rd : BitVec 6) (s : State) : exec (.mstat1 rd) s = execMstat1 rd s := rfl
@[simp] theorem exec_lds (size : BitVec 3) (rd base : BitVec 6) (off : BitVec 8) (s : State) : exec (.lds size rd base off) s = execLds size rd base off s := rfl
@[simp] theorem exec_ldsv (rd : BitVec 7) (base : BitVec 6) (off : BitVec 8) (s : State) : exec (.ldsv rd base off) s = execLdsv rd base off s := rfl
@[simp] theorem exec_ldsk (hi : BitVec 1) (rk : BitVec 4) (base : BitVec 6) (off : BitVec 8) (s : State) : exec (.ldsk hi rk base off) s = execLdsk hi rk base off s := rfl
@[simp] theorem exec_ldsx (rd : BitVec 7) (base : BitVec 6) (off : BitVec 8) (s : State) : exec (.ldsx rd base off) s = execLdsx rd base off s := rfl
@[simp] theorem exec_ldc (size : BitVec 3) (rd base : BitVec 6) (off : BitVec 8) (s : State) : exec (.ldc size rd base off) s = execLdc size rd base off s := rfl
@[simp] theorem exec_ldcv (rd : BitVec 7) (base : BitVec 6) (off : BitVec 8) (s : State) : exec (.ldcv rd base off) s = execLdcv rd base off s := rfl
@[simp] theorem exec_ldg (size : BitVec 3) (rd base : BitVec 6) (off : BitVec 8) (s : State) : exec (.ldg size rd base off) s = execLdg size rd base off s := rfl
@[simp] theorem exec_ldgv (rd : BitVec 7) (base : BitVec 6) (off : BitVec 8) (s : State) : exec (.ldgv rd base off) s = execLdgv rd base off s := rfl
@[simp] theorem exec_ldgx (rd : BitVec 7) (base : BitVec 6) (off : BitVec 8) (s : State) : exec (.ldgx rd base off) s = execLdgx rd base off s := rfl
@[simp] theorem exec_pref (base : BitVec 6) (off : BitVec 8) (s : State) : exec (.pref base off) s = execPref base off s := rfl
@[simp] theorem exec_sts (size : BitVec 3) (rd base : BitVec 6) (off : BitVec 8) (s : State) : exec (.sts size rd base off) s = execSts size rd base off s := rfl
@[simp] theorem exec_stsv (rd : BitVec 7) (base : BitVec 6) (off : BitVec 8) (s : State) : exec (.stsv rd base off) s = execStsv rd base off s := rfl
@[simp] theorem exec_stsk (hi : BitVec 1) (rk : BitVec 4) (base : BitVec 6) (off : BitVec 8) (s : State) : exec (.stsk hi rk base off) s = execStsk hi rk base off s := rfl
@[simp] theorem exec_stsx (rd : BitVec 7) (base : BitVec 6) (off : BitVec 8) (s : State) : exec (.stsx rd base off) s = execStsx rd base off s := rfl
@[simp] theorem exec_stc (size : BitVec 3) (rd base : BitVec 6) (off : BitVec 8) (s : State) : exec (.stc size rd base off) s = execStc size rd base off s := rfl
@[simp] theorem exec_stcv (rd : BitVec 7) (base : BitVec 6) (off : BitVec 8) (s : State) : exec (.stcv rd base off) s = execStcv rd base off s := rfl
@[simp] theorem exec_stg (size : BitVec 3) (rd base : BitVec 6) (off : BitVec 8) (s : State) : exec (.stg size rd base off) s = execStg size rd base off s := rfl
@[simp] theorem exec_stgv (rd : BitVec 7) (base : BitVec 6) (off : BitVec 8) (s : State) : exec (.stgv rd base off) s = execStgv rd base off s := rfl
@[simp] theorem exec_stgn (rd : BitVec 7) (base : BitVec 6) (norm : BitVec 8) (s : State) : exec (.stgn rd base norm) s = execStgn rd base norm s := rfl
@[simp] theorem exec_stgx (rd : BitVec 7) (base : BitVec 6) (off : BitVec 8) (s : State) : exec (.stgx rd base off) s = execStgx rd base off s := rfl
@[simp] theorem exec_cpy (opa : BitVec 6) (inCluster : BitVec 1) (chan : BitVec 2) (s : State) : exec (.cpy opa inCluster chan) s = execCpy opa inCluster chan s := rfl
@[simp] theorem exec_gath (opa : BitVec 6) (inCluster : BitVec 1) (chan : BitVec 2) (s : State) : exec (.gath opa inCluster chan) s = execGath opa inCluster chan s := rfl
@[simp] theorem exec_stash (opa opb bar : BitVec 6) (mode : BitVec 3) (s : State) : exec (.stash opa opb bar mode) s = execStash opa opb bar mode s := rfl
@[simp] theorem exec_sfetch (opa opb bar : BitVec 6) (s : State) : exec (.sfetch opa opb bar) s = execSfetch opa opb bar s := rfl
@[simp] theorem exec_sprobe (opa opb : BitVec 6) (s : State) : exec (.sprobe opa opb) s = execSprobe opa opb s := rfl
@[simp] theorem exec_sfree (opb : BitVec 6) (s : State) : exec (.sfree opb) s = execSfree opb s := rfl
@[simp] theorem exec_chsend (opa opb chan : BitVec 6) (s : State) : exec (.chsend opa opb chan) s = execChsend opa opb chan s := rfl
@[simp] theorem exec_chpost (opa chan : BitVec 6) (s : State) : exec (.chpost opa chan) s = execChpost opa chan s := rfl
@[simp] theorem exec_chack (opb chan : BitVec 6) (s : State) : exec (.chack opb chan) s = execChack opb chan s := rfl
@[simp] theorem exec_coll (opa bar : BitVec 6) (s : State) : exec (.coll opa bar) s = execColl opa bar s := rfl
@[simp] theorem exec_shopen (opa opb : BitVec 6) (s : State) : exec (.shopen opa opb) s = execShopen opa opb s := rfl
@[simp] theorem exec_publish (opa : BitVec 6) (scope : BitVec 3) (s : State) : exec (.publish opa scope) s = execPublish opa scope s := rfl
@[simp] theorem exec_ckpt (opb : BitVec 6) (scope : BitVec 3) (s : State) : exec (.ckpt opb scope) s = execCkpt opb scope s := rfl
@[simp] theorem exec_replay (opb : BitVec 6) (s : State) : exec (.replay opb) s = execReplay opb s := rfl
@[simp] theorem exec_split (opa : BitVec 6) (s : State) : exec (.split opa) s = execSplit opa s := rfl
@[simp] theorem exec_wpwait (opa : BitVec 6) (chan : BitVec 2) (s : State) : exec (.wpwait opa chan) s = execWpwait opa chan s := rfl
@[simp] theorem exec_nrmrd (opa : BitVec 6) (wantE : BitVec 1) (norm : BitVec 8) (s : State) : exec (.nrmrd opa wantE norm) s = execNrmrd opa wantE norm s := rfl
@[simp] theorem exec_nrmclr (norm : BitVec 8) (s : State) : exec (.nrmclr norm) s = execNrmclr norm s := rfl
@[simp] theorem exec_nrmset (opa : BitVec 6) (norm : BitVec 8) (s : State) : exec (.nrmset opa norm) s = execNrmset opa norm s := rfl
@[simp] theorem exec_deq (grp : BitVec 4) (wq : BitVec 6) (s : State) : exec (.deq grp wq) s = execDeq grp wq s := rfl
@[simp] theorem exec_deqt (grp : BitVec 4) (wq : BitVec 6) (s : State) : exec (.deqt grp wq) s = execDeqt grp wq s := rfl
@[simp] theorem exec_enq (grp : BitVec 4) (wq : BitVec 6) (s : State) : exec (.enq grp wq) s = execEnq grp wq s := rfl
@[simp] theorem exec_qclose (wq : BitVec 6) (s : State) : exec (.qclose wq) s = execQclose wq s := rfl
@[simp] theorem exec_binit (opa bar : BitVec 6) (s : State) : exec (.binit opa bar) s = execBinit opa bar s := rfl
@[simp] theorem exec_barr (bar : BitVec 6) (s : State) : exec (.barr bar) s = execBarr bar s := rfl
@[simp] theorem exec_bexp (opa bar : BitVec 6) (s : State) : exec (.bexp opa bar) s = execBexp opa bar s := rfl
@[simp] theorem exec_bwait (opa : BitVec 6) (te : BitVec 1) (bar : BitVec 6) (s : State) : exec (.bwait opa te bar) s = execBwait opa te bar s := rfl
@[simp] theorem exec_bpoll (opa bar : BitVec 6) (s : State) : exec (.bpoll opa bar) s = execBpoll opa bar s := rfl
@[simp] theorem exec_fence (order : BitVec 2) (scope : BitVec 3) (s : State) : exec (.fence order scope) s = execFence order scope s := rfl
@[simp] theorem exec_qalign (s : State) : exec (.qalign) s = execQalign s := rfl
@[simp] theorem exec_amo (order : BitVec 2) (opa opb : BitVec 6) (nr : BitVec 1) (scope : BitVec 3) (size : BitVec 1) (fn : BitVec 4) (s : State) : exec (.amo order opa opb nr scope size fn) s = execAmo order opa opb nr scope size fn s := rfl
@[simp] theorem exec_phadv (s : State) : exec (.phadv) s = execPhadv s := rfl
@[simp] theorem exec_csrr (opa : BitVec 6) (csr : BitVec 12) (s : State) : exec (.csrr opa csr) s = execCsrr opa csr s := rfl
@[simp] theorem exec_csrw (opa : BitVec 6) (csr : BitVec 12) (s : State) : exec (.csrw opa csr) s = execCsrw opa csr s := rfl
@[simp] theorem exec_csrs (opa : BitVec 6) (csr : BitVec 12) (s : State) : exec (.csrs opa csr) s = execCsrs opa csr s := rfl
@[simp] theorem exec_csrc (opa : BitVec 6) (csr : BitVec 12) (s : State) : exec (.csrc opa csr) s = execCsrc opa csr s := rfl
@[simp] theorem exec_tret (s : State) : exec (.tret) s = execTret s := rfl
@[simp] theorem exec_ctxsw (s : State) : exec (.ctxsw) s = execCtxsw s := rfl
@[simp] theorem exec_swpout (opa : BitVec 6) (s : State) : exec (.swpout opa) s = execSwpout opa s := rfl
@[simp] theorem exec_swpin (opa : BitVec 6) (s : State) : exec (.swpin opa) s = execSwpin opa s := rfl
@[simp] theorem exec_seedld (opa opb : BitVec 6) (seed : BitVec 4) (s : State) : exec (.seedld opa opb seed) s = execSeedld opa opb seed s := rfl
@[simp] theorem exec_genld (opa opb : BitVec 6) (gen : BitVec 2) (s : State) : exec (.genld opa opb gen) s = execGenld opa opb gen s := rfl
@[simp] theorem exec_svc (code : BitVec 15) (s : State) : exec (.svc code) s = execSvc code s := rfl
@[simp] theorem exec_extinv (opa opb : BitVec 6) (s : State) : exec (.extinv opa opb) s = execExtinv opa opb s := rfl
@[simp] theorem exec_migr (opa : BitVec 6) (s : State) : exec (.migr opa) s = execMigr opa s := rfl
@[simp] theorem exec_balloonAddb (opa : BitVec 6) (s : State) : exec (.balloonAddb opa) s = execBalloonAddb opa s := rfl
@[simp] theorem exec_balloonAddt (opa : BitVec 6) (s : State) : exec (.balloonAddt opa) s = execBalloonAddt opa s := rfl
@[simp] theorem exec_balloonDeflate (opa : BitVec 6) (s : State) : exec (.balloonDeflate opa) s = execBalloonDeflate opa s := rfl
@[simp] theorem exec_balloonClrb (opa : BitVec 6) (s : State) : exec (.balloonClrb opa) s = execBalloonClrb opa s := rfl
@[simp] theorem exec_balloonClrt (opa : BitVec 6) (s : State) : exec (.balloonClrt opa) s = execBalloonClrt opa s := rfl
@[simp] theorem exec_idle (s : State) : exec (.idle) s = execIdle s := rfl
@[simp] theorem exec_runAheadPreissue (core addr size : Nat) (s : State) : exec (.runAheadPreissue core addr size) s = execRunAheadPreissue core addr size s := rfl
@[simp] theorem exec_segmentExpand (core segment : Nat) (s : State) : exec (.segmentExpand core segment) s = execSegmentExpand core segment s := rfl
@[simp] theorem exec_postedTrapTake (core bank : Nat) (s : State) : exec (.postedTrapTake core bank) s = execPostedTrapTake core bank s := rfl
@[simp] theorem exec_loadPerform (core bank index piece : Nat) (outside : List (Bool × Nat × BitVec 8)) (s : State) : exec (.loadPerform core bank index piece outside) s = execLoadPerform core bank index piece outside s := rfl
@[simp] theorem exec_storePerform (core bank index piece : Nat) (s : State) : exec (.storePerform core bank index piece) s = execStorePerform core bank index piece s := rfl
@[simp] theorem exec_amoPerform (core bank index : Nat) (outside : List (Bool × Nat × BitVec 8)) (s : State) : exec (.amoPerform core bank index outside) s = execAmoPerform core bank index outside s := rfl
@[simp] theorem exec_markerEffect (core bank index : Nat) (s : State) : exec (.markerEffect core bank index) s = execMarkerEffect core bank index s := rfl
@[simp] theorem exec_l2LineEvict (cluster line : Nat) (s : State) : exec (.l2LineEvict cluster line) s = execL2LineEvict cluster line s := rfl
@[simp] theorem exec_drainComplete (core : Nat) (s : State) : exec (.drainComplete core) s = execDrainComplete core s := rfl
@[simp] theorem exec_haltReport (core bank : Nat) (s : State) : exec (.haltReport core bank) s = execHaltReport core bank s := rfl
@[simp] theorem exec_preemptArrive (core bank : Nat) (s : State) : exec (.preemptArrive core bank) s = execPreemptArrive core bank s := rfl
@[simp] theorem exec_swapOutComplete (partition bank : Nat) (s : State) : exec (.swapOutComplete partition bank) s = execSwapOutComplete partition bank s := rfl
@[simp] theorem exec_swapInComplete (partition bank : Nat) (s : State) : exec (.swapInComplete partition bank) s = execSwapInComplete partition bank s := rfl
@[simp] theorem exec_schedulerRound (stage : Nat) (s : State) : exec (.schedulerRound stage) s = execSchedulerRound stage s := rfl
@[simp] theorem exec_enqRecordEnter (core bank index : Nat) (s : State) : exec (.enqRecordEnter core bank index) s = execEnqRecordEnter core bank index s := rfl
@[simp] theorem exec_barrArrive (core bank index : Nat) (s : State) : exec (.barrArrive core bank index) s = execBarrArrive core bank index s := rfl
@[simp] theorem exec_copyBlockProgress (core chan units : Nat) (outside : List (Bool × Nat × BitVec 8)) (s : State) : exec (.copyBlockProgress core chan units outside) s = execCopyBlockProgress core chan units outside s := rfl
@[simp] theorem exec_chainBlockEnd (core chan : Nat) (s : State) : exec (.chainBlockEnd core chan) s = execChainBlockEnd core chan s := rfl
@[simp] theorem exec_fifoDelivery (core chan : Nat) (s : State) : exec (.fifoDelivery core chan) s = execFifoDelivery core chan s := rfl
@[simp] theorem exec_engineCountFix (engine a b : Nat) (s : State) : exec (.engineCountFix engine a b) s = execEngineCountFix engine a b s := rfl
@[simp] theorem exec_ccctlAbort (core chan : Nat) (s : State) : exec (.ccctlAbort core chan) s = execCcctlAbort core chan s := rfl
@[simp] theorem exec_stashCmdTake (core : Nat) (s : State) : exec (.stashCmdTake core) s = execStashCmdTake core s := rfl
@[simp] theorem exec_stashOffloadComplete (die key : Nat) (s : State) : exec (.stashOffloadComplete die key) s = execStashOffloadComplete die key s := rfl
@[simp] theorem exec_stashDropComplete (die key : Nat) (s : State) : exec (.stashDropComplete die key) s = execStashDropComplete die key s := rfl
@[simp] theorem exec_stashKeepComplete (die key : Nat) (s : State) : exec (.stashKeepComplete die key) s = execStashKeepComplete die key s := rfl
@[simp] theorem exec_stashFetchComplete (die key : Nat) (s : State) : exec (.stashFetchComplete die key) s = execStashFetchComplete die key s := rfl
@[simp] theorem exec_spillLinkAbort (die key : Nat) (s : State) : exec (.spillLinkAbort die key) s = execSpillLinkAbort die key s := rfl
@[simp] theorem exec_sfreeComplete (die key : Nat) (s : State) : exec (.sfreeComplete die key) s = execSfreeComplete die key s := rfl
@[simp] theorem exec_ckptRecordComplete (core bank : Nat) (s : State) : exec (.ckptRecordComplete core bank) s = execCkptRecordComplete core bank s := rfl
@[simp] theorem exec_replayRemoteRestore (core bank : Nat) (s : State) : exec (.replayRemoteRestore core bank) s = execReplayRemoteRestore core bank s := rfl
@[simp] theorem exec_packetDepart (chan : Nat) (s : State) : exec (.packetDepart chan) s = execPacketDepart chan s := rfl
@[simp] theorem exec_packetDeposit (chan seq step tag kind offset pad : Nat) (data : List (BitVec 8)) (s : State) : exec (.packetDeposit chan seq step tag kind offset pad data) s = execPacketDeposit chan seq step tag kind offset pad data s := rfl
@[simp] theorem exec_windowFlitReceive (chan : Nat) (isWindow : Bool) (value : Nat) (s : State) : exec (.windowFlitReceive chan isWindow value) s = execWindowFlitReceive chan isWindow value s := rfl
@[simp] theorem exec_packetAckReceive (chan seq : Nat) (s : State) : exec (.packetAckReceive chan seq) s = execPacketAckReceive chan seq s := rfl
@[simp] theorem exec_chackEffect (core bank index : Nat) (s : State) : exec (.chackEffect core bank index) s = execChackEffect core bank index s := rfl
@[simp] theorem exec_bucketStart (position : Nat) (s : State) : exec (.bucketStart position) s = execBucketStart position s := rfl
@[simp] theorem exec_chunkReceive (step bucket half chunk count : Nat) (final : Bool) (values : List Nat) (s : State) : exec (.chunkReceive step bucket half chunk count final values) s = execChunkReceive step bucket half chunk count final values s := rfl
@[simp] theorem exec_completionMarkReceive (step bucket rank port : Nat) (s : State) : exec (.completionMarkReceive step bucket rank port) s = execCompletionMarkReceive step bucket rank port s := rfl
@[simp] theorem exec_failureMarkReceive (step bucket cause rank port : Nat) (s : State) : exec (.failureMarkReceive step bucket cause rank port) s = execFailureMarkReceive step bucket cause rank port s := rfl
@[simp] theorem exec_ringSettle (position : Nat) (reports : List Bool) (s : State) : exec (.ringSettle position reports) s = execRingSettle position reports s := rfl
@[simp] theorem exec_shopenEffect (core bank index : Nat) (s : State) : exec (.shopenEffect core bank index) s = execShopenEffect core bank index s := rfl
@[simp] theorem exec_publishEffect (core bank index : Nat) (s : State) : exec (.publishEffect core bank index) s = execPublishEffect core bank index s := rfl
@[simp] theorem exec_splitArrive (core bank index : Nat) (s : State) : exec (.splitArrive core bank index) s = execSplitArrive core bank index s := rfl
@[simp] theorem exec_splitDrainEnd (cluster : Nat) (s : State) : exec (.splitDrainEnd cluster) s = execSplitDrainEnd cluster s := rfl
@[simp] theorem exec_balloonClaim (die : Nat) (s : State) : exec (.balloonClaim die) s = execBalloonClaim die s := rfl
@[simp] theorem exec_evictionStart (die : Nat) (s : State) : exec (.evictionStart die) s = execEvictionStart die s := rfl
@[simp] theorem exec_evictionComplete (die page : Nat) (s : State) : exec (.evictionComplete die page) s = execEvictionComplete die page s := rfl
@[simp] theorem exec_pageRecall (die : Nat) (s : State) : exec (.pageRecall die) s = execPageRecall die s := rfl
@[simp] theorem exec_spaceAnswer (die : Nat) (s : State) : exec (.spaceAnswer die) s = execSpaceAnswer die s := rfl
@[simp] theorem exec_accessCountHalve (die : Nat) (s : State) : exec (.accessCountHalve die) s = execAccessCountHalve die s := rfl
@[simp] theorem exec_migrationPass (index : Nat) (noSpace : Bool) (s : State) : exec (.migrationPass index noSpace) s = execMigrationPass index noSpace s := rfl
@[simp] theorem exec_executiveFrame (die : Nat) (s : State) : exec (.executiveFrame die) s = execExecutiveFrame die s := rfl
@[simp] theorem exec_queueNotify (offset width value : Nat) (stored : List (Nat × BitVec 8)) (maps : List (Nat × Nat × Nat)) (taken : Nat) (s : State) : exec (.queueNotify offset width value stored maps taken) s = execQueueNotify offset width value stored maps taken s := rfl
@[simp] theorem exec_prgResponse (group code : Nat) (s : State) : exec (.prgResponse group code) s = execPrgResponse group code s := rfl
@[simp] theorem exec_atsTranslationReturn (group : Nat) (pages : List (Nat × Nat × Bool)) (s : State) : exec (.atsTranslationReturn group pages) s = execAtsTranslationReturn group pages s := rfl
@[simp] theorem exec_atsInvalidation (pasid base len tag : Nat) (s : State) : exec (.atsInvalidation pasid base len tag) s = execAtsInvalidation pasid base len tag s := rfl
@[simp] theorem exec_hostWindowWrite (addr : Nat) (data : List (BitVec 8)) (s : State) : exec (.hostWindowWrite addr data) s = execHostWindowWrite addr data s := rfl
@[simp] theorem exec_hostWindowRead (addr : BarAddress) (len : Nat) (s : State) : exec (.hostWindowRead addr len) s = execHostWindowRead addr len s := rfl
@[simp] theorem exec_invoke (queue seq : Nat) (s : State) : exec (.invoke queue seq) s = execInvoke queue seq s := rfl
@[simp] theorem exec_load (queue seq : Nat) (s : State) : exec (.load queue seq) s = execLoad queue seq s := rfl
@[simp] theorem exec_unload (queue seq : Nat) (s : State) : exec (.unload queue seq) s = execUnload queue seq s := rfl
@[simp] theorem exec_version (queue seq : Nat) (s : State) : exec (.version queue seq) s = execVersion queue seq s := rfl
@[simp] theorem exec_stagecfg (queue seq : Nat) (s : State) : exec (.stagecfg queue seq) s = execStagecfg queue seq s := rfl
@[simp] theorem exec_devcfg (queue seq : Nat) (s : State) : exec (.devcfg queue seq) s = execDevcfg queue seq s := rfl
@[simp] theorem exec_tagset (queue seq : Nat) (s : State) : exec (.tagset queue seq) s = execTagset queue seq s := rfl
@[simp] theorem exec_snapshot (queue seq : Nat) (s : State) : exec (.snapshot queue seq) s = execSnapshot queue seq s := rfl
@[simp] theorem exec_snapshotSend (job : Nat) (s : State) : exec (.snapshotSend job) s = execSnapshotSend job s := rfl
@[simp] theorem exec_holderDigestReceive (job holder : Nat) (digest : BitVec 256) (s : State) : exec (.holderDigestReceive job holder digest) s = execHolderDigestReceive job holder digest s := rfl
@[simp] theorem exec_pageans (queue seq : Nat) (s : State) : exec (.pageans queue seq) s = execPageans queue seq s := rfl
@[simp] theorem exec_pasiddown (queue seq : Nat) (s : State) : exec (.pasiddown queue seq) s = execPasiddown queue seq s := rfl
@[simp] theorem exec_teardownCancel (pasid : Nat) (s : State) : exec (.teardownCancel pasid) s = execTeardownCancel pasid s := rfl
@[simp] theorem exec_teardownTimeout (pasid : Nat) (s : State) : exec (.teardownTimeout pasid) s = execTeardownTimeout pasid s := rfl
@[simp] theorem exec_preempt (queue seq : Nat) (s : State) : exec (.preempt queue seq) s = execPreempt queue seq s := rfl
@[simp] theorem exec_restore (queue seq : Nat) (s : State) : exec (.restore queue seq) s = execRestore queue seq s := rfl
@[simp] theorem exec_qcreate (queue seq : Nat) (s : State) : exec (.qcreate queue seq) s = execQcreate queue seq s := rfl
@[simp] theorem exec_qdelete (queue seq : Nat) (s : State) : exec (.qdelete queue seq) s = execQdelete queue seq s := rfl
@[simp] theorem exec_reset (s : State) : exec (.reset) s = execReset s := rfl
@[simp] theorem exec_recoveryMailboxWrite (image : List (BitVec 8)) (len : Nat) (s : State) : exec (.recoveryMailboxWrite image len) s = execRecoveryMailboxWrite image len s := rfl
@[simp] theorem exec_singlePartReset (part : Nat) (lostA lostB : List (Nat × Nat)) (s : State) : exec (.singlePartReset part lostA lostB) s = execSinglePartReset part lostA lostB s := rfl
@[simp] theorem exec_dieFatalFault (die : Nat) (s : State) : exec (.dieFatalFault die) s = execDieFatalFault die s := rfl
@[simp] theorem exec_portRetrain (port : Nat) (s : State) : exec (.portRetrain port) s = execPortRetrain port s := rfl
@[simp] theorem exec_portUp (port : Nat) (s : State) : exec (.portUp port) s = execPortUp port s := rfl
@[simp] theorem exec_portDown (port : Nat) (pattern : Bool) (s : State) : exec (.portDown port pattern) s = execPortDown port pattern s := rfl
@[simp] theorem exec_linkFlitRetry (port : Nat) (s : State) : exec (.linkFlitRetry port) s = execLinkFlitRetry port s := rfl
@[simp] theorem exec_deviceFailureDeclare (sign : FailureSign) (s : State) : exec (.deviceFailureDeclare sign) s = execDeviceFailureDeclare sign s := rfl
@[simp] theorem exec_domainAccessTimeout (core bank index : Nat) (s : State) : exec (.domainAccessTimeout core bank index) s = execDomainAccessTimeout core bank index s := rfl
@[simp] theorem exec_rollback (job step : Nat) (done : Bool) (s : State) : exec (.rollback job step done) s = execRollback job step done s := rfl
@[simp] theorem exec_fillChunkAck (chunk : Nat) (part : FillPart) (last : Bool) (digest : BitVec 256) (lost : Bool) (s : State) : exec (.fillChunkAck chunk part last digest lost) s = execFillChunkAck chunk part last digest lost s := rfl
@[simp] theorem exec_phaseFlitSend (s : State) : exec (.phaseFlitSend) s = execPhaseFlitSend s := rfl
@[simp] theorem exec_phaseFlitReceive (port value : Nat) (s : State) : exec (.phaseFlitReceive port value) s = execPhaseFlitReceive port value s := rfl
@[simp] theorem exec_powerArbitration (draw : List Nat) (demand : List Nat) (hold : List (Nat × Nat)) (s : State) : exec (.powerArbitration draw demand hold) s = execPowerArbitration draw demand hold s := rfl
@[simp] theorem exec_spdmGetVersion (request : List (BitVec 8)) (s : State) : exec (.spdmGetVersion request) s = execSpdmGetVersion request s := rfl
@[simp] theorem exec_spdmGetCapabilities (request : List (BitVec 8)) (s : State) : exec (.spdmGetCapabilities request) s = execSpdmGetCapabilities request s := rfl
@[simp] theorem exec_spdmNegotiateAlgorithms (request : List (BitVec 8)) (s : State) : exec (.spdmNegotiateAlgorithms request) s = execSpdmNegotiateAlgorithms request s := rfl
@[simp] theorem exec_spdmGetDigests (request : List (BitVec 8)) (s : State) : exec (.spdmGetDigests request) s = execSpdmGetDigests request s := rfl
@[simp] theorem exec_spdmGetCertificate (request : List (BitVec 8)) (s : State) : exec (.spdmGetCertificate request) s = execSpdmGetCertificate request s := rfl
@[simp] theorem exec_spdmChallenge (request : List (BitVec 8)) (s : State) : exec (.spdmChallenge request) s = execSpdmChallenge request s := rfl
@[simp] theorem exec_spdmGetMeasurements (request : List (BitVec 8)) (s : State) : exec (.spdmGetMeasurements request) s = execSpdmGetMeasurements request s := rfl
@[simp] theorem exec_cmpctlWrite (die : Nat) (value : BitVec 64) (s : State) : exec (.cmpctlWrite die value) s = execCmpctlWrite die value s := rfl
@[simp] theorem exec_cmpwmWrite (die : Nat) (value : BitVec 64) (s : State) : exec (.cmpwmWrite die value) s = execCmpwmWrite die value s := rfl
@[simp] theorem exec_cmpstatRefusedClear (die : Nat) (s : State) : exec (.cmpstatRefusedClear die) s = execCmpstatRefusedClear die s := rfl
@[simp] theorem exec_stashRegionWrite (die reg : Nat) (value : BitVec 64) (s : State) : exec (.stashRegionWrite die reg value) s = execStashRegionWrite die reg value s := rfl
@[simp] theorem exec_wakeWrite (core : Nat) (s : State) : exec (.wakeWrite core) s = execWakeWrite core s := rfl
@[simp] theorem exec_barwWrite (cluster reg : Nat) (value : BitVec 64) (s : State) : exec (.barwWrite cluster reg value) s = execBarwWrite cluster reg value s := rfl
@[simp] theorem exec_ringcfgWrite (value : BitVec 64) (s : State) : exec (.ringcfgWrite value) s = execRingcfgWrite value s := rfl
@[simp] theorem exec_rportWrite (port : Nat) (value : BitVec 64) (s : State) : exec (.rportWrite port value) s = execRportWrite port value s := rfl
@[simp] theorem exec_arbctlWrite (value : BitVec 64) (s : State) : exec (.arbctlWrite value) s = execArbctlWrite value s := rfl
@[simp] theorem exec_pwrctlWrite (reg : Nat) (value : BitVec 64) (s : State) : exec (.pwrctlWrite reg value) s = execPwrctlWrite reg value s := rfl
@[simp] theorem exec_tcoordWrite (value : BitVec 64) (s : State) : exec (.tcoordWrite value) s = execTcoordWrite value s := rfl
@[simp] theorem exec_registerWrite (die reg : Nat) (value : BitVec 64) (s : State) : exec (.registerWrite die reg value) s = execRegisterWrite die reg value s := rfl
@[simp] theorem exec_nonInstructionEncoding (cause pos : Nat) (s : State) : exec (.nonInstructionEncoding cause pos) s = execNonInstructionEncoding cause pos s := rfl
@[simp] theorem exec_translationWalkComplete (invocation : Nat) (ats : List (Nat × Nat × Bool)) (s : State) : exec (.translationWalkComplete invocation ats) s = execTranslationWalkComplete invocation ats s := rfl
@[simp] theorem exec_priReenable (allocation : Nat) (s : State) : exec (.priReenable allocation) s = execPriReenable allocation s := rfl

end Sys2Proof.Machine
end

