-- ==== Sys2Proof/Laws/Memory.lean ====
section
/-! SUPPORT. Tables and memory: a read after a write, what a write leaves alone, and the canonical form that every write keeps. -/

namespace Sys2Proof.Machine

open Host

/-! ## Tables -/

@[simp] theorem tget_tset_self {α : Type} (d : α) (k : Nat) (v : α) (t : Table α) : tget d k (tset k v t) = v := by
  induction t with
  | nil => simp [tset, tget]
  | cons p r ih =>
    obtain ⟨j, w⟩ := p
    simp only [tset]
    split
    · simp [tget]
    · split
      · simp [tget]
      · rename_i h
        simp [tget, Ne.symm h, ih]

theorem tget_tset_ne {α : Type} (d : α) {j k : Nat} (h : j ≠ k) (v : α) (t : Table α) : tget d j (tset k v t) = tget d j t := by
  induction t with
  | nil => simp [tset, tget, Ne.symm h]
  | cons p r ih =>
    obtain ⟨i, w⟩ := p
    simp only [tset]
    split
    · simp [tget, Ne.symm h]
    · split
      · rename_i e
        subst e
        simp [tget, Ne.symm h]
      · simp [tget, ih]

theorem tget_tset {α : Type} (d : α) (j k : Nat) (v : α) (t : Table α) :
    tget d j (tset k v t) = if j = k then v else tget d j t := by
  split
  · next h => rw [h, tget_tset_self]
  · next h => exact tget_tset_ne d h v t

@[simp] theorem tfind_tset_self {α : Type} (k : Nat) (v : α) (t : Table α) : tfind k (tset k v t) = some v := by
  induction t with
  | nil => simp [tset, tfind]
  | cons p r ih =>
    obtain ⟨j, w⟩ := p
    simp only [tset]
    split
    · simp [tfind]
    · split
      · simp [tfind]
      · rename_i h
        simp [tfind, Ne.symm h, ih]

theorem tfind_tset_ne {α : Type} {j k : Nat} (h : j ≠ k) (v : α) (t : Table α) : tfind j (tset k v t) = tfind j t := by
  induction t with
  | nil => simp [tset, tfind, Ne.symm h]
  | cons p r ih =>
    obtain ⟨i, w⟩ := p
    simp only [tset]
    split
    · simp [tfind, Ne.symm h]
    · split
      · rename_i e
        subst e
        simp [tfind, Ne.symm h]
      · simp [tfind, ih]

theorem tget_eq_tfind {α : Type} (d : α) (k : Nat) (t : Table α) : tget d k t = (tfind k t).getD d := by
  induction t with
  | nil => rfl
  | cons p r ih =>
    obtain ⟨j, w⟩ := p
    simp only [tget, tfind]
    split <;> simp [ih]

/-- A write keeps the canonical form of a table. -/
theorem tableFrom_tset {α : Type} (k : Nat) (v : α) (t : Table α) (lo : Nat) (hk : lo ≤ k) (h : tableFrom lo t = true) :
    tableFrom lo (tset k v t) = true := by
  induction t generalizing lo with
  | nil => simp [tset, tableFrom, hk]
  | cons p r ih =>
    obtain ⟨j, w⟩ := p
    simp only [tableFrom, Bool.and_eq_true, decide_eq_true_eq] at h
    simp only [tset]
    split
    · next hj => simp [tableFrom, hk, h.2, Nat.succ_le_of_lt hj]
    · split
      · next e => subst e; simp [tableFrom, hk, h.2]
      · simp only [tableFrom, Bool.and_eq_true, decide_eq_true_eq]
        exact ⟨h.1, ih (j + 1) (by omega) h.2⟩

theorem tableWf_tset {α : Type} (k : Nat) (v : α) (t : Table α) (h : tableWf t = true) : tableWf (tset k v t) = true :=
  tableFrom_tset k v t 0 (Nat.zero_le _) h

/-! ## One byte -/

theorem mget_mdel_self (a : Nat) (m : List Cell) : mget a (mdel a m) = 0 := by
  induction m with
  | nil => rfl
  | cons p r ih =>
    obtain ⟨j, w⟩ := p
    simp only [mdel]
    split
    · exact ih
    · next h => simp [mget, h, ih]

theorem mget_mdel_ne {a b : Nat} (h : b ≠ a) (m : List Cell) : mget b (mdel a m) = mget b m := by
  induction m with
  | nil => rfl
  | cons p r ih =>
    obtain ⟨j, w⟩ := p
    simp only [mdel]
    split
    · next e => subst e; simp [mget, Ne.symm h, ih]
    · simp [mget, ih]

theorem mget_minsert_self (a : Nat) (v : Byte) (m : List Cell) : mget a (minsert a v m) = v := by
  induction m with
  | nil => simp [minsert, mget]
  | cons p r ih =>
    obtain ⟨j, w⟩ := p
    simp only [minsert]
    split
    · simp [mget]
    · split
      · simp [mget]
      · next e => simp [mget, Ne.symm e, ih]

theorem mget_minsert_ne {a b : Nat} (h : b ≠ a) (v : Byte) (m : List Cell) : mget b (minsert a v m) = mget b m := by
  induction m with
  | nil => simp [minsert, mget, Ne.symm h]
  | cons p r ih =>
    obtain ⟨j, w⟩ := p
    simp only [minsert]
    split
    · simp [mget, Ne.symm h]
    · split
      · next e => subst e; simp [mget, Ne.symm h]
      · simp [mget, ih]

/-- A read after a write to the same address gives the byte written. -/
@[simp] theorem mget_mset_self (a : Nat) (v : Byte) (m : List Cell) : mget a (mset a v m) = v := by
  unfold mset
  split
  · next h => rw [mget_mdel_self, h]
  · exact mget_minsert_self a v m

/-- A write leaves every other address alone. -/
theorem mget_mset_ne {a b : Nat} (h : b ≠ a) (v : Byte) (m : List Cell) : mget b (mset a v m) = mget b m := by
  unfold mset
  split
  · exact mget_mdel_ne h m
  · exact mget_minsert_ne h v m

/-! ## The canonical form -/

theorem memoryFrom_mono {lo hi : Nat} (h : lo ≤ hi) {m : List Cell} (hm : memoryFrom hi m = true) : memoryFrom lo m = true := by
  cases m with
  | nil => rfl
  | cons p r =>
    obtain ⟨j, w⟩ := p
    simp only [memoryFrom, Bool.and_eq_true, decide_eq_true_eq] at hm ⊢
    exact ⟨⟨by omega, hm.1.2⟩, hm.2⟩

theorem memoryFrom_mdel (a : Nat) (m : List Cell) (lo : Nat) (h : memoryFrom lo m = true) : memoryFrom lo (mdel a m) = true := by
  induction m generalizing lo with
  | nil => rfl
  | cons p r ih =>
    obtain ⟨j, w⟩ := p
    simp only [memoryFrom, Bool.and_eq_true, decide_eq_true_eq] at h
    simp only [mdel]
    split
    · exact memoryFrom_mono (by omega) (ih (j + 1) h.2)
    · simp only [memoryFrom, Bool.and_eq_true, decide_eq_true_eq]
      exact ⟨h.1, ih (j + 1) h.2⟩

theorem memoryFrom_minsert (a : Nat) (v : Byte) (hv : v ≠ 0) (m : List Cell) (lo : Nat) (ha : lo ≤ a) (h : memoryFrom lo m = true) :
    memoryFrom lo (minsert a v m) = true := by
  have hv' : (v != 0) = true := by simpa using hv
  induction m generalizing lo with
  | nil => simp only [minsert, memoryFrom, decide_eq_true ha, hv', Bool.and_self]
  | cons p r ih =>
    obtain ⟨j, w⟩ := p
    simp only [memoryFrom, Bool.and_eq_true, decide_eq_true_eq] at h
    simp only [minsert]
    split
    · next hj =>
      simp only [memoryFrom, Bool.and_eq_true, decide_eq_true_eq]
      exact ⟨⟨ha, hv'⟩, ⟨hj, h.1.2⟩, h.2⟩
    · split
      · next e =>
        subst e
        simp only [memoryFrom, Bool.and_eq_true, decide_eq_true_eq]
        exact ⟨⟨ha, hv'⟩, h.2⟩
      · simp only [memoryFrom, Bool.and_eq_true, decide_eq_true_eq]
        exact ⟨h.1, ih (j + 1) (by omega) h.2⟩

/-- A write of one byte keeps the canonical form. -/
theorem wf_mset (a : Nat) (v : Byte) (m : List Cell) (h : Memory.wf m = true) : Memory.wf (mset a v m) = true := by
  unfold mset
  split
  · exact memoryFrom_mdel a m 0 h
  · next hv => exact memoryFrom_minsert a v hv m 0 (Nat.zero_le _) h

/-- A write of several bytes keeps the canonical form. -/
theorem wf_mput (l : List Byte) (a : Nat) (m : List Cell) (h : Memory.wf m = true) : Memory.wf (mput m a l) = true := by
  induction l generalizing a m with
  | nil => exact h
  | cons b r ih => exact ih (a + 1) (mset a b m) (wf_mset a b m h)

/-- A write of a number keeps the canonical form. -/
theorem wf_mwrite (m : List Cell) (a n x : Nat) (h : Memory.wf m = true) : Memory.wf (mwrite m a n x) = true := wf_mput _ a m h

/-- Taking cells out keeps the canonical form. -/
theorem wf_filter (p : Cell → Bool) (m : List Cell) (h : Memory.wf m = true) : Memory.wf (m.filter p) = true := by
  suffices ∀ lo, memoryFrom lo m = true → memoryFrom lo (m.filter p) = true from this 0 h
  clear h
  induction m with
  | nil => intro lo _; rfl
  | cons c r ih =>
    obtain ⟨j, w⟩ := c
    intro lo h
    simp only [memoryFrom, Bool.and_eq_true, decide_eq_true_eq] at h
    rw [List.filter_cons]
    split
    · simp only [memoryFrom, Bool.and_eq_true, decide_eq_true_eq]
      exact ⟨h.1, ih _ h.2⟩
    · exact memoryFrom_mono (by omega) (ih _ h.2)

/-! ## Several bytes -/

/-- Addresses outside those written read as before. -/
theorem mget_mput_outside (l : List Byte) (a : Nat) (m : List Cell) {b : Nat} (h : b < a ∨ a + l.length ≤ b) :
    mget b (mput m a l) = mget b m := by
  induction l generalizing a m with
  | nil => rfl
  | cons x r ih =>
    simp only [List.length_cons] at h
    simp only [mput]
    rw [ih (a + 1) (mset a x m) (by omega), mget_mset_ne (by omega)]

/-- The addresses written read as the bytes written. -/
theorem mget_mput_inside (l : List Byte) (a : Nat) (m : List Cell) {j : Nat} (h : j < l.length) : mget (a + j) (mput m a l) = l[j] := by
  induction l generalizing a m j with
  | nil => simp at h
  | cons x r ih =>
    simp only [mput]
    cases j with
    | zero => rw [Nat.add_zero, mget_mput_outside r (a + 1) _ (by omega), mget_mset_self]; rfl
    | succ j =>
      have := ih (a + 1) (mset a x m) (j := j) (by simpa using h)
      rw [show a + (j + 1) = a + 1 + j by omega, this]
      rfl

@[simp] theorem natBytes_length (n x : Nat) : (natBytes n x).length = n := by
  induction n generalizing x with
  | zero => rfl
  | succ n ih => simp [natBytes, ih]

theorem natBytes_getElem (n x j : Nat) (h : j < (natBytes n x).length) : (natBytes n x)[j] = BitVec.ofNat 8 (x / 256 ^ j) := by
  induction n generalizing x j with
  | zero => simp [natBytes] at h
  | succ n ih =>
    cases j with
    | zero => simp [natBytes]
    | succ j =>
      simp only [natBytes, List.getElem_cons_succ]
      rw [ih (x / 256) j (by simpa [natBytes] using h), Nat.div_div_eq_div_mul, Nat.pow_succ, Nat.mul_comm]

@[simp] theorem mbytes_length (m : List Cell) (a n : Nat) : (mbytes m a n).length = n := by
  induction n generalizing a with
  | zero => rfl
  | succ n ih => simp [mbytes, ih]

theorem mbytes_getElem (m : List Cell) (a n j : Nat) (h : j < (mbytes m a n).length) : (mbytes m a n)[j] = mget (a + j) m := by
  induction n generalizing a j with
  | zero => simp [mbytes] at h
  | succ n ih =>
    cases j with
    | zero => simp [mbytes]
    | succ j =>
      simp only [mbytes, List.getElem_cons_succ]
      rw [ih (a + 1) j (by simpa [mbytes] using h)]
      congr 1
      omega

/-- The bytes of a number written read back as they are. -/
theorem mget_mwrite_inside (m : List Cell) (a n x : Nat) {j : Nat} (h : j < n) :
    mget (a + j) (mwrite m a n x) = BitVec.ofNat 8 (x / 256 ^ j) := by
  unfold mwrite
  rw [mget_mput_inside _ _ _ (by simpa using h), natBytes_getElem]

/-- A number written leaves the addresses outside it alone. -/
theorem mget_mwrite_outside (m : List Cell) (a n x : Nat) {b : Nat} (h : b < a ∨ a + n ≤ b) : mget b (mwrite m a n x) = mget b m :=
  mget_mput_outside _ _ _ (by simpa using h)

theorem bytesNat_natBytes (n x : Nat) : bytesNat (natBytes n x) = x % 256 ^ n := by
  induction n generalizing x with
  | zero => simp [natBytes, bytesNat, Nat.mod_one]
  | succ n ih =>
    have e : 256 ^ (n + 1) = 256 * 256 ^ n := by rw [Nat.pow_succ, Nat.mul_comm]
    rw [natBytes, bytesNat, ih, e, Nat.mod_mul, BitVec.toNat_ofNat]

theorem bytesNat_lt (l : List Byte) : bytesNat l < 256 ^ l.length := by
  induction l with
  | nil => simp [bytesNat]
  | cons b r ih =>
    have := b.isLt
    simp only [bytesNat, List.length_cons, Nat.pow_succ]
    omega

/-- A read depends on the bytes it reads alone. -/
theorem mread_congr {m m' : List Cell} {a n : Nat} (h : ∀ j < n, mget (a + j) m = mget (a + j) m') : mread m a n = mread m' a n := by
  unfold mread
  congr 1
  apply List.ext_getElem (by simp)
  intro j h1 h2
  rw [mbytes_getElem, mbytes_getElem]
  exact h j (by simpa using h1)

/-- A read after a write of the same bytes gives the number written. -/
theorem mread_mwrite_self (m : List Cell) (a n x : Nat) : mread (mwrite m a n x) a n = x % 256 ^ n := by
  rw [← bytesNat_natBytes]
  unfold mread
  congr 1
  apply List.ext_getElem (by simp)
  intro j h1 h2
  rw [mbytes_getElem, natBytes_getElem, mget_mwrite_inside _ _ _ _ (by simpa using h1)]

end Sys2Proof.Machine
end

