-- ==== Sys2Proof/Laws/State.lean ====
section
/-! SUPPORT. One lemma per field per update of the state, so that no proof unfolds a record update; and what a core, a bank, a cluster or a
die reads as after one is replaced. -/

namespace Sys2Proof.Machine

/-! ## Fields of the state that an update leaves alone -/

@[simp] theorem State.setCore_clk (s : State) (c : Nat) (x : Core) : (s.setCore c x).clk = s.clk := rfl
@[simp] theorem State.setCore_failed (s : State) (c : Nat) (x : Core) : (s.setCore c x).failed = s.failed := rfl
@[simp] theorem State.setCore_ctx (s : State) (c : Nat) (x : Core) : (s.setCore c x).ctx = s.ctx := rfl
@[simp] theorem State.setCore_script (s : State) (c : Nat) (x : Core) : (s.setCore c x).script = s.script := rfl
@[simp] theorem State.setCore_paced (s : State) (c : Nat) (x : Core) : (s.setCore c x).paced = s.paced := rfl
@[simp] theorem State.setCore_calendar (s : State) (c : Nat) (x : Core) : (s.setCore c x).calendar = s.calendar := rfl
@[simp] theorem State.setCore_draws (s : State) (c : Nat) (x : Core) : (s.setCore c x).draws = s.draws := rfl
@[simp] theorem State.setCore_clusters (s : State) (c : Nat) (x : Core) : (s.setCore c x).clusters = s.clusters := rfl
@[simp] theorem State.setCore_slots (s : State) (c : Nat) (x : Core) : (s.setCore c x).slots = s.slots := rfl
@[simp] theorem State.setCore_dies (s : State) (c : Nat) (x : Core) : (s.setCore c x).dies = s.dies := rfl
@[simp] theorem State.setCore_norms (s : State) (c : Nat) (x : Core) : (s.setCore c x).norms = s.norms := rfl
@[simp] theorem State.setCore_signal (s : State) (c : Nat) (x : Core) : (s.setCore c x).signal = s.signal := rfl
@[simp] theorem State.setCore_stages (s : State) (c : Nat) (x : Core) : (s.setCore c x).stages = s.stages := rfl
@[simp] theorem State.setCore_queues (s : State) (c : Nat) (x : Core) : (s.setCore c x).queues = s.queues := rfl
@[simp] theorem State.setCore_tensors (s : State) (c : Nat) (x : Core) : (s.setCore c x).tensors = s.tensors := rfl
@[simp] theorem State.setCore_buckets (s : State) (c : Nat) (x : Core) : (s.setCore c x).buckets = s.buckets := rfl
@[simp] theorem State.setCore_remembered (s : State) (c : Nat) (x : Core) : (s.setCore c x).remembered = s.remembered := rfl
@[simp] theorem State.setCore_contributions (s : State) (c : Nat) (x : Core) : (s.setCore c x).contributions = s.contributions := rfl
@[simp] theorem State.setCore_earlyFailures (s : State) (c : Nat) (x : Core) : (s.setCore c x).earlyFailures = s.earlyFailures := rfl
@[simp] theorem State.setCore_markCopies (s : State) (c : Nat) (x : Core) : (s.setCore c x).markCopies = s.markCopies := rfl
@[simp] theorem State.setCore_failedBuckets (s : State) (c : Nat) (x : Core) : (s.setCore c x).failedBuckets = s.failedBuckets := rfl
@[simp] theorem State.setCore_regs (s : State) (c : Nat) (x : Core) : (s.setCore c x).regs = s.regs := rfl
@[simp] theorem State.setCore_ports (s : State) (c : Nat) (x : Core) : (s.setCore c x).ports = s.ports := rfl
@[simp] theorem State.setCore_retries (s : State) (c : Nat) (x : Core) : (s.setCore c x).retries = s.retries := rfl
@[simp] theorem State.setCore_held (s : State) (c : Nat) (x : Core) : (s.setCore c x).held = s.held := rfl
@[simp] theorem State.setCore_commands (s : State) (c : Nat) (x : Core) : (s.setCore c x).commands = s.commands := rfl
@[simp] theorem State.setCore_nextEntry (s : State) (c : Nat) (x : Core) : (s.setCore c x).nextEntry = s.nextEntry := rfl
@[simp] theorem State.setCore_reports (s : State) (c : Nat) (x : Core) : (s.setCore c x).reports = s.reports := rfl
@[simp] theorem State.setCore_extents (s : State) (c : Nat) (x : Core) : (s.setCore c x).extents = s.extents := rfl
@[simp] theorem State.setCore_invocations (s : State) (c : Nat) (x : Core) : (s.setCore c x).invocations = s.invocations := rfl
@[simp] theorem State.setCore_nextInvocation (s : State) (c : Nat) (x : Core) : (s.setCore c x).nextInvocation = s.nextInvocation := rfl
@[simp] theorem State.setCore_faults (s : State) (c : Nat) (x : Core) : (s.setCore c x).faults = s.faults := rfl
@[simp] theorem State.setCore_owedMarks (s : State) (c : Nat) (x : Core) : (s.setCore c x).owedMarks = s.owedMarks := rfl
@[simp] theorem State.setCore_invalidations (s : State) (c : Nat) (x : Core) : (s.setCore c x).invalidations = s.invalidations := rfl
@[simp] theorem State.setCore_engineWaits (s : State) (c : Nat) (x : Core) : (s.setCore c x).engineWaits = s.engineWaits := rfl
@[simp] theorem State.setCore_nextGroup (s : State) (c : Nat) (x : Core) : (s.setCore c x).nextGroup = s.nextGroup := rfl
@[simp] theorem State.setCore_priEnabled (s : State) (c : Nat) (x : Core) : (s.setCore c x).priEnabled = s.priEnabled := rfl
@[simp] theorem State.setCore_priAllocation (s : State) (c : Nat) (x : Core) : (s.setCore c x).priAllocation = s.priAllocation := rfl
@[simp] theorem State.setCore_teardowns (s : State) (c : Nat) (x : Core) : (s.setCore c x).teardowns = s.teardowns := rfl
@[simp] theorem State.setCore_downPasids (s : State) (c : Nat) (x : Core) : (s.setCore c x).downPasids = s.downPasids := rfl
@[simp] theorem State.setCore_migrations (s : State) (c : Nat) (x : Core) : (s.setCore c x).migrations = s.migrations := rfl
@[simp] theorem State.setCore_swaps (s : State) (c : Nat) (x : Core) : (s.setCore c x).swaps = s.swaps := rfl
@[simp] theorem State.setCore_jobs (s : State) (c : Nat) (x : Core) : (s.setCore c x).jobs = s.jobs := rfl
@[simp] theorem State.setCore_deviceRanges (s : State) (c : Nat) (x : Core) : (s.setCore c x).deviceRanges = s.deviceRanges := rfl
@[simp] theorem State.setCore_fill (s : State) (c : Nat) (x : Core) : (s.setCore c x).fill = s.fill := rfl
@[simp] theorem State.setCore_hostMem (s : State) (c : Nat) (x : Core) : (s.setCore c x).hostMem = s.hostMem := rfl
@[simp] theorem State.setCore_otherMem (s : State) (c : Nat) (x : Core) : (s.setCore c x).otherMem = s.otherMem := rfl
@[simp] theorem State.setCore_otherTags (s : State) (c : Nat) (x : Core) : (s.setCore c x).otherTags = s.otherTags := rfl
@[simp] theorem State.setCore_otherMaps (s : State) (c : Nat) (x : Core) : (s.setCore c x).otherMaps = s.otherMaps := rfl
@[simp] theorem State.setCore_moved (s : State) (c : Nat) (x : Core) : (s.setCore c x).moved = s.moved := rfl
@[simp] theorem State.setCore_hostWrites (s : State) (c : Nat) (x : Core) : (s.setCore c x).hostWrites = s.hostWrites := rfl
@[simp] theorem State.setCore_hostQueues (s : State) (c : Nat) (x : Core) : (s.setCore c x).hostQueues = s.hostQueues := rfl
@[simp] theorem State.setCore_hostSlots (s : State) (c : Nat) (x : Core) : (s.setCore c x).hostSlots = s.hostSlots := rfl
@[simp] theorem State.setCore_lastMapped (s : State) (c : Nat) (x : Core) : (s.setCore c x).lastMapped = s.lastMapped := rfl
@[simp] theorem State.setCore_journal (s : State) (c : Nat) (x : Core) : (s.setCore c x).journal = s.journal := rfl
@[simp] theorem State.setCore_mirror (s : State) (c : Nat) (x : Core) : (s.setCore c x).mirror = s.mirror := rfl
@[simp] theorem State.setCore_hostMaps (s : State) (c : Nat) (x : Core) : (s.setCore c x).hostMaps = s.hostMaps := rfl
@[simp] theorem State.setCore_devStatus (s : State) (c : Nat) (x : Core) : (s.setCore c x).devStatus = s.devStatus := rfl
@[simp] theorem State.setCore_flash (s : State) (c : Nat) (x : Core) : (s.setCore c x).flash = s.flash := rfl
@[simp] theorem State.setCore_mailbox (s : State) (c : Nat) (x : Core) : (s.setCore c x).mailbox = s.mailbox := rfl
@[simp] theorem State.setCore_firmware (s : State) (c : Nat) (x : Core) : (s.setCore c x).firmware = s.firmware := rfl
@[simp] theorem State.setCore_withies (s : State) (c : Nat) (x : Core) : (s.setCore c x).withies = s.withies := rfl
@[simp] theorem State.setCore_frames (s : State) (c : Nat) (x : Core) : (s.setCore c x).frames = s.frames := rfl
@[simp] theorem State.setCore_lastArbitration (s : State) (c : Nat) (x : Core) : (s.setCore c x).lastArbitration = s.lastArbitration := rfl
@[simp] theorem State.setCore_lastPhase (s : State) (c : Nat) (x : Core) : (s.setCore c x).lastPhase = s.lastPhase := rfl
@[simp] theorem State.setCore_sent (s : State) (c : Nat) (x : Core) : (s.setCore c x).sent = s.sent := rfl
@[simp] theorem State.setCore_spdm (s : State) (c : Nat) (x : Core) : (s.setCore c x).spdm = s.spdm := rfl

@[simp] theorem State.setBank_clk (s : State) (c b : Nat) (k : Bank) : (s.setBank c b k).clk = s.clk := rfl
@[simp] theorem State.setBank_failed (s : State) (c b : Nat) (k : Bank) : (s.setBank c b k).failed = s.failed := rfl
@[simp] theorem State.setBank_ctx (s : State) (c b : Nat) (k : Bank) : (s.setBank c b k).ctx = s.ctx := rfl
@[simp] theorem State.setBank_script (s : State) (c b : Nat) (k : Bank) : (s.setBank c b k).script = s.script := rfl
@[simp] theorem State.setBank_paced (s : State) (c b : Nat) (k : Bank) : (s.setBank c b k).paced = s.paced := rfl
@[simp] theorem State.setBank_calendar (s : State) (c b : Nat) (k : Bank) : (s.setBank c b k).calendar = s.calendar := rfl
@[simp] theorem State.setBank_draws (s : State) (c b : Nat) (k : Bank) : (s.setBank c b k).draws = s.draws := rfl
@[simp] theorem State.setBank_clusters (s : State) (c b : Nat) (k : Bank) : (s.setBank c b k).clusters = s.clusters := rfl
@[simp] theorem State.setBank_slots (s : State) (c b : Nat) (k : Bank) : (s.setBank c b k).slots = s.slots := rfl
@[simp] theorem State.setBank_dies (s : State) (c b : Nat) (k : Bank) : (s.setBank c b k).dies = s.dies := rfl
@[simp] theorem State.setBank_norms (s : State) (c b : Nat) (k : Bank) : (s.setBank c b k).norms = s.norms := rfl
@[simp] theorem State.setBank_signal (s : State) (c b : Nat) (k : Bank) : (s.setBank c b k).signal = s.signal := rfl
@[simp] theorem State.setBank_stages (s : State) (c b : Nat) (k : Bank) : (s.setBank c b k).stages = s.stages := rfl
@[simp] theorem State.setBank_queues (s : State) (c b : Nat) (k : Bank) : (s.setBank c b k).queues = s.queues := rfl
@[simp] theorem State.setBank_tensors (s : State) (c b : Nat) (k : Bank) : (s.setBank c b k).tensors = s.tensors := rfl
@[simp] theorem State.setBank_buckets (s : State) (c b : Nat) (k : Bank) : (s.setBank c b k).buckets = s.buckets := rfl
@[simp] theorem State.setBank_remembered (s : State) (c b : Nat) (k : Bank) : (s.setBank c b k).remembered = s.remembered := rfl
@[simp] theorem State.setBank_contributions (s : State) (c b : Nat) (k : Bank) : (s.setBank c b k).contributions = s.contributions := rfl
@[simp] theorem State.setBank_earlyFailures (s : State) (c b : Nat) (k : Bank) : (s.setBank c b k).earlyFailures = s.earlyFailures := rfl
@[simp] theorem State.setBank_markCopies (s : State) (c b : Nat) (k : Bank) : (s.setBank c b k).markCopies = s.markCopies := rfl
@[simp] theorem State.setBank_failedBuckets (s : State) (c b : Nat) (k : Bank) : (s.setBank c b k).failedBuckets = s.failedBuckets := rfl
@[simp] theorem State.setBank_regs (s : State) (c b : Nat) (k : Bank) : (s.setBank c b k).regs = s.regs := rfl
@[simp] theorem State.setBank_ports (s : State) (c b : Nat) (k : Bank) : (s.setBank c b k).ports = s.ports := rfl
@[simp] theorem State.setBank_retries (s : State) (c b : Nat) (k : Bank) : (s.setBank c b k).retries = s.retries := rfl
@[simp] theorem State.setBank_held (s : State) (c b : Nat) (k : Bank) : (s.setBank c b k).held = s.held := rfl
@[simp] theorem State.setBank_commands (s : State) (c b : Nat) (k : Bank) : (s.setBank c b k).commands = s.commands := rfl
@[simp] theorem State.setBank_nextEntry (s : State) (c b : Nat) (k : Bank) : (s.setBank c b k).nextEntry = s.nextEntry := rfl
@[simp] theorem State.setBank_reports (s : State) (c b : Nat) (k : Bank) : (s.setBank c b k).reports = s.reports := rfl
@[simp] theorem State.setBank_extents (s : State) (c b : Nat) (k : Bank) : (s.setBank c b k).extents = s.extents := rfl
@[simp] theorem State.setBank_invocations (s : State) (c b : Nat) (k : Bank) : (s.setBank c b k).invocations = s.invocations := rfl
@[simp] theorem State.setBank_nextInvocation (s : State) (c b : Nat) (k : Bank) : (s.setBank c b k).nextInvocation = s.nextInvocation := rfl
@[simp] theorem State.setBank_faults (s : State) (c b : Nat) (k : Bank) : (s.setBank c b k).faults = s.faults := rfl
@[simp] theorem State.setBank_owedMarks (s : State) (c b : Nat) (k : Bank) : (s.setBank c b k).owedMarks = s.owedMarks := rfl
@[simp] theorem State.setBank_invalidations (s : State) (c b : Nat) (k : Bank) : (s.setBank c b k).invalidations = s.invalidations := rfl
@[simp] theorem State.setBank_engineWaits (s : State) (c b : Nat) (k : Bank) : (s.setBank c b k).engineWaits = s.engineWaits := rfl
@[simp] theorem State.setBank_nextGroup (s : State) (c b : Nat) (k : Bank) : (s.setBank c b k).nextGroup = s.nextGroup := rfl
@[simp] theorem State.setBank_priEnabled (s : State) (c b : Nat) (k : Bank) : (s.setBank c b k).priEnabled = s.priEnabled := rfl
@[simp] theorem State.setBank_priAllocation (s : State) (c b : Nat) (k : Bank) : (s.setBank c b k).priAllocation = s.priAllocation := rfl
@[simp] theorem State.setBank_teardowns (s : State) (c b : Nat) (k : Bank) : (s.setBank c b k).teardowns = s.teardowns := rfl
@[simp] theorem State.setBank_downPasids (s : State) (c b : Nat) (k : Bank) : (s.setBank c b k).downPasids = s.downPasids := rfl
@[simp] theorem State.setBank_migrations (s : State) (c b : Nat) (k : Bank) : (s.setBank c b k).migrations = s.migrations := rfl
@[simp] theorem State.setBank_swaps (s : State) (c b : Nat) (k : Bank) : (s.setBank c b k).swaps = s.swaps := rfl
@[simp] theorem State.setBank_jobs (s : State) (c b : Nat) (k : Bank) : (s.setBank c b k).jobs = s.jobs := rfl
@[simp] theorem State.setBank_deviceRanges (s : State) (c b : Nat) (k : Bank) : (s.setBank c b k).deviceRanges = s.deviceRanges := rfl
@[simp] theorem State.setBank_fill (s : State) (c b : Nat) (k : Bank) : (s.setBank c b k).fill = s.fill := rfl
@[simp] theorem State.setBank_hostMem (s : State) (c b : Nat) (k : Bank) : (s.setBank c b k).hostMem = s.hostMem := rfl
@[simp] theorem State.setBank_otherMem (s : State) (c b : Nat) (k : Bank) : (s.setBank c b k).otherMem = s.otherMem := rfl
@[simp] theorem State.setBank_otherTags (s : State) (c b : Nat) (k : Bank) : (s.setBank c b k).otherTags = s.otherTags := rfl
@[simp] theorem State.setBank_otherMaps (s : State) (c b : Nat) (k : Bank) : (s.setBank c b k).otherMaps = s.otherMaps := rfl
@[simp] theorem State.setBank_moved (s : State) (c b : Nat) (k : Bank) : (s.setBank c b k).moved = s.moved := rfl
@[simp] theorem State.setBank_hostWrites (s : State) (c b : Nat) (k : Bank) : (s.setBank c b k).hostWrites = s.hostWrites := rfl
@[simp] theorem State.setBank_hostQueues (s : State) (c b : Nat) (k : Bank) : (s.setBank c b k).hostQueues = s.hostQueues := rfl
@[simp] theorem State.setBank_hostSlots (s : State) (c b : Nat) (k : Bank) : (s.setBank c b k).hostSlots = s.hostSlots := rfl
@[simp] theorem State.setBank_lastMapped (s : State) (c b : Nat) (k : Bank) : (s.setBank c b k).lastMapped = s.lastMapped := rfl
@[simp] theorem State.setBank_journal (s : State) (c b : Nat) (k : Bank) : (s.setBank c b k).journal = s.journal := rfl
@[simp] theorem State.setBank_mirror (s : State) (c b : Nat) (k : Bank) : (s.setBank c b k).mirror = s.mirror := rfl
@[simp] theorem State.setBank_hostMaps (s : State) (c b : Nat) (k : Bank) : (s.setBank c b k).hostMaps = s.hostMaps := rfl
@[simp] theorem State.setBank_devStatus (s : State) (c b : Nat) (k : Bank) : (s.setBank c b k).devStatus = s.devStatus := rfl
@[simp] theorem State.setBank_flash (s : State) (c b : Nat) (k : Bank) : (s.setBank c b k).flash = s.flash := rfl
@[simp] theorem State.setBank_mailbox (s : State) (c b : Nat) (k : Bank) : (s.setBank c b k).mailbox = s.mailbox := rfl
@[simp] theorem State.setBank_firmware (s : State) (c b : Nat) (k : Bank) : (s.setBank c b k).firmware = s.firmware := rfl
@[simp] theorem State.setBank_withies (s : State) (c b : Nat) (k : Bank) : (s.setBank c b k).withies = s.withies := rfl
@[simp] theorem State.setBank_frames (s : State) (c b : Nat) (k : Bank) : (s.setBank c b k).frames = s.frames := rfl
@[simp] theorem State.setBank_lastArbitration (s : State) (c b : Nat) (k : Bank) : (s.setBank c b k).lastArbitration = s.lastArbitration := rfl
@[simp] theorem State.setBank_lastPhase (s : State) (c b : Nat) (k : Bank) : (s.setBank c b k).lastPhase = s.lastPhase := rfl
@[simp] theorem State.setBank_sent (s : State) (c b : Nat) (k : Bank) : (s.setBank c b k).sent = s.sent := rfl
@[simp] theorem State.setBank_spdm (s : State) (c b : Nat) (k : Bank) : (s.setBank c b k).spdm = s.spdm := rfl

@[simp] theorem State.setCur_clk (s : State) (k : Bank) : (s.setCur k).clk = s.clk := rfl
@[simp] theorem State.setCur_failed (s : State) (k : Bank) : (s.setCur k).failed = s.failed := rfl
@[simp] theorem State.setCur_ctx (s : State) (k : Bank) : (s.setCur k).ctx = s.ctx := rfl
@[simp] theorem State.setCur_script (s : State) (k : Bank) : (s.setCur k).script = s.script := rfl
@[simp] theorem State.setCur_paced (s : State) (k : Bank) : (s.setCur k).paced = s.paced := rfl
@[simp] theorem State.setCur_calendar (s : State) (k : Bank) : (s.setCur k).calendar = s.calendar := rfl
@[simp] theorem State.setCur_draws (s : State) (k : Bank) : (s.setCur k).draws = s.draws := rfl
@[simp] theorem State.setCur_clusters (s : State) (k : Bank) : (s.setCur k).clusters = s.clusters := rfl
@[simp] theorem State.setCur_slots (s : State) (k : Bank) : (s.setCur k).slots = s.slots := rfl
@[simp] theorem State.setCur_dies (s : State) (k : Bank) : (s.setCur k).dies = s.dies := rfl
@[simp] theorem State.setCur_norms (s : State) (k : Bank) : (s.setCur k).norms = s.norms := rfl
@[simp] theorem State.setCur_signal (s : State) (k : Bank) : (s.setCur k).signal = s.signal := rfl
@[simp] theorem State.setCur_stages (s : State) (k : Bank) : (s.setCur k).stages = s.stages := rfl
@[simp] theorem State.setCur_queues (s : State) (k : Bank) : (s.setCur k).queues = s.queues := rfl
@[simp] theorem State.setCur_tensors (s : State) (k : Bank) : (s.setCur k).tensors = s.tensors := rfl
@[simp] theorem State.setCur_buckets (s : State) (k : Bank) : (s.setCur k).buckets = s.buckets := rfl
@[simp] theorem State.setCur_remembered (s : State) (k : Bank) : (s.setCur k).remembered = s.remembered := rfl
@[simp] theorem State.setCur_contributions (s : State) (k : Bank) : (s.setCur k).contributions = s.contributions := rfl
@[simp] theorem State.setCur_earlyFailures (s : State) (k : Bank) : (s.setCur k).earlyFailures = s.earlyFailures := rfl
@[simp] theorem State.setCur_markCopies (s : State) (k : Bank) : (s.setCur k).markCopies = s.markCopies := rfl
@[simp] theorem State.setCur_failedBuckets (s : State) (k : Bank) : (s.setCur k).failedBuckets = s.failedBuckets := rfl
@[simp] theorem State.setCur_regs (s : State) (k : Bank) : (s.setCur k).regs = s.regs := rfl
@[simp] theorem State.setCur_ports (s : State) (k : Bank) : (s.setCur k).ports = s.ports := rfl
@[simp] theorem State.setCur_retries (s : State) (k : Bank) : (s.setCur k).retries = s.retries := rfl
@[simp] theorem State.setCur_held (s : State) (k : Bank) : (s.setCur k).held = s.held := rfl
@[simp] theorem State.setCur_commands (s : State) (k : Bank) : (s.setCur k).commands = s.commands := rfl
@[simp] theorem State.setCur_nextEntry (s : State) (k : Bank) : (s.setCur k).nextEntry = s.nextEntry := rfl
@[simp] theorem State.setCur_reports (s : State) (k : Bank) : (s.setCur k).reports = s.reports := rfl
@[simp] theorem State.setCur_extents (s : State) (k : Bank) : (s.setCur k).extents = s.extents := rfl
@[simp] theorem State.setCur_invocations (s : State) (k : Bank) : (s.setCur k).invocations = s.invocations := rfl
@[simp] theorem State.setCur_nextInvocation (s : State) (k : Bank) : (s.setCur k).nextInvocation = s.nextInvocation := rfl
@[simp] theorem State.setCur_faults (s : State) (k : Bank) : (s.setCur k).faults = s.faults := rfl
@[simp] theorem State.setCur_owedMarks (s : State) (k : Bank) : (s.setCur k).owedMarks = s.owedMarks := rfl
@[simp] theorem State.setCur_invalidations (s : State) (k : Bank) : (s.setCur k).invalidations = s.invalidations := rfl
@[simp] theorem State.setCur_engineWaits (s : State) (k : Bank) : (s.setCur k).engineWaits = s.engineWaits := rfl
@[simp] theorem State.setCur_nextGroup (s : State) (k : Bank) : (s.setCur k).nextGroup = s.nextGroup := rfl
@[simp] theorem State.setCur_priEnabled (s : State) (k : Bank) : (s.setCur k).priEnabled = s.priEnabled := rfl
@[simp] theorem State.setCur_priAllocation (s : State) (k : Bank) : (s.setCur k).priAllocation = s.priAllocation := rfl
@[simp] theorem State.setCur_teardowns (s : State) (k : Bank) : (s.setCur k).teardowns = s.teardowns := rfl
@[simp] theorem State.setCur_downPasids (s : State) (k : Bank) : (s.setCur k).downPasids = s.downPasids := rfl
@[simp] theorem State.setCur_migrations (s : State) (k : Bank) : (s.setCur k).migrations = s.migrations := rfl
@[simp] theorem State.setCur_swaps (s : State) (k : Bank) : (s.setCur k).swaps = s.swaps := rfl
@[simp] theorem State.setCur_jobs (s : State) (k : Bank) : (s.setCur k).jobs = s.jobs := rfl
@[simp] theorem State.setCur_deviceRanges (s : State) (k : Bank) : (s.setCur k).deviceRanges = s.deviceRanges := rfl
@[simp] theorem State.setCur_fill (s : State) (k : Bank) : (s.setCur k).fill = s.fill := rfl
@[simp] theorem State.setCur_hostMem (s : State) (k : Bank) : (s.setCur k).hostMem = s.hostMem := rfl
@[simp] theorem State.setCur_otherMem (s : State) (k : Bank) : (s.setCur k).otherMem = s.otherMem := rfl
@[simp] theorem State.setCur_otherTags (s : State) (k : Bank) : (s.setCur k).otherTags = s.otherTags := rfl
@[simp] theorem State.setCur_otherMaps (s : State) (k : Bank) : (s.setCur k).otherMaps = s.otherMaps := rfl
@[simp] theorem State.setCur_moved (s : State) (k : Bank) : (s.setCur k).moved = s.moved := rfl
@[simp] theorem State.setCur_hostWrites (s : State) (k : Bank) : (s.setCur k).hostWrites = s.hostWrites := rfl
@[simp] theorem State.setCur_hostQueues (s : State) (k : Bank) : (s.setCur k).hostQueues = s.hostQueues := rfl
@[simp] theorem State.setCur_hostSlots (s : State) (k : Bank) : (s.setCur k).hostSlots = s.hostSlots := rfl
@[simp] theorem State.setCur_lastMapped (s : State) (k : Bank) : (s.setCur k).lastMapped = s.lastMapped := rfl
@[simp] theorem State.setCur_journal (s : State) (k : Bank) : (s.setCur k).journal = s.journal := rfl
@[simp] theorem State.setCur_mirror (s : State) (k : Bank) : (s.setCur k).mirror = s.mirror := rfl
@[simp] theorem State.setCur_hostMaps (s : State) (k : Bank) : (s.setCur k).hostMaps = s.hostMaps := rfl
@[simp] theorem State.setCur_devStatus (s : State) (k : Bank) : (s.setCur k).devStatus = s.devStatus := rfl
@[simp] theorem State.setCur_flash (s : State) (k : Bank) : (s.setCur k).flash = s.flash := rfl
@[simp] theorem State.setCur_mailbox (s : State) (k : Bank) : (s.setCur k).mailbox = s.mailbox := rfl
@[simp] theorem State.setCur_firmware (s : State) (k : Bank) : (s.setCur k).firmware = s.firmware := rfl
@[simp] theorem State.setCur_withies (s : State) (k : Bank) : (s.setCur k).withies = s.withies := rfl
@[simp] theorem State.setCur_frames (s : State) (k : Bank) : (s.setCur k).frames = s.frames := rfl
@[simp] theorem State.setCur_lastArbitration (s : State) (k : Bank) : (s.setCur k).lastArbitration = s.lastArbitration := rfl
@[simp] theorem State.setCur_lastPhase (s : State) (k : Bank) : (s.setCur k).lastPhase = s.lastPhase := rfl
@[simp] theorem State.setCur_sent (s : State) (k : Bank) : (s.setCur k).sent = s.sent := rfl
@[simp] theorem State.setCur_spdm (s : State) (k : Bank) : (s.setCur k).spdm = s.spdm := rfl

@[simp] theorem State.setCluster_clk (s : State) (k : Nat) (x : Cluster) : (s.setCluster k x).clk = s.clk := rfl
@[simp] theorem State.setCluster_failed (s : State) (k : Nat) (x : Cluster) : (s.setCluster k x).failed = s.failed := rfl
@[simp] theorem State.setCluster_ctx (s : State) (k : Nat) (x : Cluster) : (s.setCluster k x).ctx = s.ctx := rfl
@[simp] theorem State.setCluster_script (s : State) (k : Nat) (x : Cluster) : (s.setCluster k x).script = s.script := rfl
@[simp] theorem State.setCluster_paced (s : State) (k : Nat) (x : Cluster) : (s.setCluster k x).paced = s.paced := rfl
@[simp] theorem State.setCluster_calendar (s : State) (k : Nat) (x : Cluster) : (s.setCluster k x).calendar = s.calendar := rfl
@[simp] theorem State.setCluster_draws (s : State) (k : Nat) (x : Cluster) : (s.setCluster k x).draws = s.draws := rfl
@[simp] theorem State.setCluster_cores (s : State) (k : Nat) (x : Cluster) : (s.setCluster k x).cores = s.cores := rfl
@[simp] theorem State.setCluster_slots (s : State) (k : Nat) (x : Cluster) : (s.setCluster k x).slots = s.slots := rfl
@[simp] theorem State.setCluster_dies (s : State) (k : Nat) (x : Cluster) : (s.setCluster k x).dies = s.dies := rfl
@[simp] theorem State.setCluster_norms (s : State) (k : Nat) (x : Cluster) : (s.setCluster k x).norms = s.norms := rfl
@[simp] theorem State.setCluster_signal (s : State) (k : Nat) (x : Cluster) : (s.setCluster k x).signal = s.signal := rfl
@[simp] theorem State.setCluster_stages (s : State) (k : Nat) (x : Cluster) : (s.setCluster k x).stages = s.stages := rfl
@[simp] theorem State.setCluster_queues (s : State) (k : Nat) (x : Cluster) : (s.setCluster k x).queues = s.queues := rfl
@[simp] theorem State.setCluster_tensors (s : State) (k : Nat) (x : Cluster) : (s.setCluster k x).tensors = s.tensors := rfl
@[simp] theorem State.setCluster_buckets (s : State) (k : Nat) (x : Cluster) : (s.setCluster k x).buckets = s.buckets := rfl
@[simp] theorem State.setCluster_remembered (s : State) (k : Nat) (x : Cluster) : (s.setCluster k x).remembered = s.remembered := rfl
@[simp] theorem State.setCluster_contributions (s : State) (k : Nat) (x : Cluster) : (s.setCluster k x).contributions = s.contributions := rfl
@[simp] theorem State.setCluster_earlyFailures (s : State) (k : Nat) (x : Cluster) : (s.setCluster k x).earlyFailures = s.earlyFailures := rfl
@[simp] theorem State.setCluster_markCopies (s : State) (k : Nat) (x : Cluster) : (s.setCluster k x).markCopies = s.markCopies := rfl
@[simp] theorem State.setCluster_failedBuckets (s : State) (k : Nat) (x : Cluster) : (s.setCluster k x).failedBuckets = s.failedBuckets := rfl
@[simp] theorem State.setCluster_regs (s : State) (k : Nat) (x : Cluster) : (s.setCluster k x).regs = s.regs := rfl
@[simp] theorem State.setCluster_ports (s : State) (k : Nat) (x : Cluster) : (s.setCluster k x).ports = s.ports := rfl
@[simp] theorem State.setCluster_retries (s : State) (k : Nat) (x : Cluster) : (s.setCluster k x).retries = s.retries := rfl
@[simp] theorem State.setCluster_held (s : State) (k : Nat) (x : Cluster) : (s.setCluster k x).held = s.held := rfl
@[simp] theorem State.setCluster_commands (s : State) (k : Nat) (x : Cluster) : (s.setCluster k x).commands = s.commands := rfl
@[simp] theorem State.setCluster_nextEntry (s : State) (k : Nat) (x : Cluster) : (s.setCluster k x).nextEntry = s.nextEntry := rfl
@[simp] theorem State.setCluster_reports (s : State) (k : Nat) (x : Cluster) : (s.setCluster k x).reports = s.reports := rfl
@[simp] theorem State.setCluster_extents (s : State) (k : Nat) (x : Cluster) : (s.setCluster k x).extents = s.extents := rfl
@[simp] theorem State.setCluster_invocations (s : State) (k : Nat) (x : Cluster) : (s.setCluster k x).invocations = s.invocations := rfl
@[simp] theorem State.setCluster_nextInvocation (s : State) (k : Nat) (x : Cluster) : (s.setCluster k x).nextInvocation = s.nextInvocation := rfl
@[simp] theorem State.setCluster_faults (s : State) (k : Nat) (x : Cluster) : (s.setCluster k x).faults = s.faults := rfl
@[simp] theorem State.setCluster_owedMarks (s : State) (k : Nat) (x : Cluster) : (s.setCluster k x).owedMarks = s.owedMarks := rfl
@[simp] theorem State.setCluster_invalidations (s : State) (k : Nat) (x : Cluster) : (s.setCluster k x).invalidations = s.invalidations := rfl
@[simp] theorem State.setCluster_engineWaits (s : State) (k : Nat) (x : Cluster) : (s.setCluster k x).engineWaits = s.engineWaits := rfl
@[simp] theorem State.setCluster_nextGroup (s : State) (k : Nat) (x : Cluster) : (s.setCluster k x).nextGroup = s.nextGroup := rfl
@[simp] theorem State.setCluster_priEnabled (s : State) (k : Nat) (x : Cluster) : (s.setCluster k x).priEnabled = s.priEnabled := rfl
@[simp] theorem State.setCluster_priAllocation (s : State) (k : Nat) (x : Cluster) : (s.setCluster k x).priAllocation = s.priAllocation := rfl
@[simp] theorem State.setCluster_teardowns (s : State) (k : Nat) (x : Cluster) : (s.setCluster k x).teardowns = s.teardowns := rfl
@[simp] theorem State.setCluster_downPasids (s : State) (k : Nat) (x : Cluster) : (s.setCluster k x).downPasids = s.downPasids := rfl
@[simp] theorem State.setCluster_migrations (s : State) (k : Nat) (x : Cluster) : (s.setCluster k x).migrations = s.migrations := rfl
@[simp] theorem State.setCluster_swaps (s : State) (k : Nat) (x : Cluster) : (s.setCluster k x).swaps = s.swaps := rfl
@[simp] theorem State.setCluster_jobs (s : State) (k : Nat) (x : Cluster) : (s.setCluster k x).jobs = s.jobs := rfl
@[simp] theorem State.setCluster_deviceRanges (s : State) (k : Nat) (x : Cluster) : (s.setCluster k x).deviceRanges = s.deviceRanges := rfl
@[simp] theorem State.setCluster_fill (s : State) (k : Nat) (x : Cluster) : (s.setCluster k x).fill = s.fill := rfl
@[simp] theorem State.setCluster_hostMem (s : State) (k : Nat) (x : Cluster) : (s.setCluster k x).hostMem = s.hostMem := rfl
@[simp] theorem State.setCluster_otherMem (s : State) (k : Nat) (x : Cluster) : (s.setCluster k x).otherMem = s.otherMem := rfl
@[simp] theorem State.setCluster_otherTags (s : State) (k : Nat) (x : Cluster) : (s.setCluster k x).otherTags = s.otherTags := rfl
@[simp] theorem State.setCluster_otherMaps (s : State) (k : Nat) (x : Cluster) : (s.setCluster k x).otherMaps = s.otherMaps := rfl
@[simp] theorem State.setCluster_moved (s : State) (k : Nat) (x : Cluster) : (s.setCluster k x).moved = s.moved := rfl
@[simp] theorem State.setCluster_hostWrites (s : State) (k : Nat) (x : Cluster) : (s.setCluster k x).hostWrites = s.hostWrites := rfl
@[simp] theorem State.setCluster_hostQueues (s : State) (k : Nat) (x : Cluster) : (s.setCluster k x).hostQueues = s.hostQueues := rfl
@[simp] theorem State.setCluster_hostSlots (s : State) (k : Nat) (x : Cluster) : (s.setCluster k x).hostSlots = s.hostSlots := rfl
@[simp] theorem State.setCluster_lastMapped (s : State) (k : Nat) (x : Cluster) : (s.setCluster k x).lastMapped = s.lastMapped := rfl
@[simp] theorem State.setCluster_journal (s : State) (k : Nat) (x : Cluster) : (s.setCluster k x).journal = s.journal := rfl
@[simp] theorem State.setCluster_mirror (s : State) (k : Nat) (x : Cluster) : (s.setCluster k x).mirror = s.mirror := rfl
@[simp] theorem State.setCluster_hostMaps (s : State) (k : Nat) (x : Cluster) : (s.setCluster k x).hostMaps = s.hostMaps := rfl
@[simp] theorem State.setCluster_devStatus (s : State) (k : Nat) (x : Cluster) : (s.setCluster k x).devStatus = s.devStatus := rfl
@[simp] theorem State.setCluster_flash (s : State) (k : Nat) (x : Cluster) : (s.setCluster k x).flash = s.flash := rfl
@[simp] theorem State.setCluster_mailbox (s : State) (k : Nat) (x : Cluster) : (s.setCluster k x).mailbox = s.mailbox := rfl
@[simp] theorem State.setCluster_firmware (s : State) (k : Nat) (x : Cluster) : (s.setCluster k x).firmware = s.firmware := rfl
@[simp] theorem State.setCluster_withies (s : State) (k : Nat) (x : Cluster) : (s.setCluster k x).withies = s.withies := rfl
@[simp] theorem State.setCluster_frames (s : State) (k : Nat) (x : Cluster) : (s.setCluster k x).frames = s.frames := rfl
@[simp] theorem State.setCluster_lastArbitration (s : State) (k : Nat) (x : Cluster) : (s.setCluster k x).lastArbitration = s.lastArbitration := rfl
@[simp] theorem State.setCluster_lastPhase (s : State) (k : Nat) (x : Cluster) : (s.setCluster k x).lastPhase = s.lastPhase := rfl
@[simp] theorem State.setCluster_sent (s : State) (k : Nat) (x : Cluster) : (s.setCluster k x).sent = s.sent := rfl
@[simp] theorem State.setCluster_spdm (s : State) (k : Nat) (x : Cluster) : (s.setCluster k x).spdm = s.spdm := rfl

@[simp] theorem State.setDie_clk (s : State) (d : Nat) (x : Die) : (s.setDie d x).clk = s.clk := rfl
@[simp] theorem State.setDie_failed (s : State) (d : Nat) (x : Die) : (s.setDie d x).failed = s.failed := rfl
@[simp] theorem State.setDie_ctx (s : State) (d : Nat) (x : Die) : (s.setDie d x).ctx = s.ctx := rfl
@[simp] theorem State.setDie_script (s : State) (d : Nat) (x : Die) : (s.setDie d x).script = s.script := rfl
@[simp] theorem State.setDie_paced (s : State) (d : Nat) (x : Die) : (s.setDie d x).paced = s.paced := rfl
@[simp] theorem State.setDie_calendar (s : State) (d : Nat) (x : Die) : (s.setDie d x).calendar = s.calendar := rfl
@[simp] theorem State.setDie_draws (s : State) (d : Nat) (x : Die) : (s.setDie d x).draws = s.draws := rfl
@[simp] theorem State.setDie_cores (s : State) (d : Nat) (x : Die) : (s.setDie d x).cores = s.cores := rfl
@[simp] theorem State.setDie_clusters (s : State) (d : Nat) (x : Die) : (s.setDie d x).clusters = s.clusters := rfl
@[simp] theorem State.setDie_slots (s : State) (d : Nat) (x : Die) : (s.setDie d x).slots = s.slots := rfl
@[simp] theorem State.setDie_norms (s : State) (d : Nat) (x : Die) : (s.setDie d x).norms = s.norms := rfl
@[simp] theorem State.setDie_signal (s : State) (d : Nat) (x : Die) : (s.setDie d x).signal = s.signal := rfl
@[simp] theorem State.setDie_stages (s : State) (d : Nat) (x : Die) : (s.setDie d x).stages = s.stages := rfl
@[simp] theorem State.setDie_queues (s : State) (d : Nat) (x : Die) : (s.setDie d x).queues = s.queues := rfl
@[simp] theorem State.setDie_tensors (s : State) (d : Nat) (x : Die) : (s.setDie d x).tensors = s.tensors := rfl
@[simp] theorem State.setDie_buckets (s : State) (d : Nat) (x : Die) : (s.setDie d x).buckets = s.buckets := rfl
@[simp] theorem State.setDie_remembered (s : State) (d : Nat) (x : Die) : (s.setDie d x).remembered = s.remembered := rfl
@[simp] theorem State.setDie_contributions (s : State) (d : Nat) (x : Die) : (s.setDie d x).contributions = s.contributions := rfl
@[simp] theorem State.setDie_earlyFailures (s : State) (d : Nat) (x : Die) : (s.setDie d x).earlyFailures = s.earlyFailures := rfl
@[simp] theorem State.setDie_markCopies (s : State) (d : Nat) (x : Die) : (s.setDie d x).markCopies = s.markCopies := rfl
@[simp] theorem State.setDie_failedBuckets (s : State) (d : Nat) (x : Die) : (s.setDie d x).failedBuckets = s.failedBuckets := rfl
@[simp] theorem State.setDie_regs (s : State) (d : Nat) (x : Die) : (s.setDie d x).regs = s.regs := rfl
@[simp] theorem State.setDie_ports (s : State) (d : Nat) (x : Die) : (s.setDie d x).ports = s.ports := rfl
@[simp] theorem State.setDie_retries (s : State) (d : Nat) (x : Die) : (s.setDie d x).retries = s.retries := rfl
@[simp] theorem State.setDie_held (s : State) (d : Nat) (x : Die) : (s.setDie d x).held = s.held := rfl
@[simp] theorem State.setDie_commands (s : State) (d : Nat) (x : Die) : (s.setDie d x).commands = s.commands := rfl
@[simp] theorem State.setDie_nextEntry (s : State) (d : Nat) (x : Die) : (s.setDie d x).nextEntry = s.nextEntry := rfl
@[simp] theorem State.setDie_reports (s : State) (d : Nat) (x : Die) : (s.setDie d x).reports = s.reports := rfl
@[simp] theorem State.setDie_extents (s : State) (d : Nat) (x : Die) : (s.setDie d x).extents = s.extents := rfl
@[simp] theorem State.setDie_invocations (s : State) (d : Nat) (x : Die) : (s.setDie d x).invocations = s.invocations := rfl
@[simp] theorem State.setDie_nextInvocation (s : State) (d : Nat) (x : Die) : (s.setDie d x).nextInvocation = s.nextInvocation := rfl
@[simp] theorem State.setDie_faults (s : State) (d : Nat) (x : Die) : (s.setDie d x).faults = s.faults := rfl
@[simp] theorem State.setDie_owedMarks (s : State) (d : Nat) (x : Die) : (s.setDie d x).owedMarks = s.owedMarks := rfl
@[simp] theorem State.setDie_invalidations (s : State) (d : Nat) (x : Die) : (s.setDie d x).invalidations = s.invalidations := rfl
@[simp] theorem State.setDie_engineWaits (s : State) (d : Nat) (x : Die) : (s.setDie d x).engineWaits = s.engineWaits := rfl
@[simp] theorem State.setDie_nextGroup (s : State) (d : Nat) (x : Die) : (s.setDie d x).nextGroup = s.nextGroup := rfl
@[simp] theorem State.setDie_priEnabled (s : State) (d : Nat) (x : Die) : (s.setDie d x).priEnabled = s.priEnabled := rfl
@[simp] theorem State.setDie_priAllocation (s : State) (d : Nat) (x : Die) : (s.setDie d x).priAllocation = s.priAllocation := rfl
@[simp] theorem State.setDie_teardowns (s : State) (d : Nat) (x : Die) : (s.setDie d x).teardowns = s.teardowns := rfl
@[simp] theorem State.setDie_downPasids (s : State) (d : Nat) (x : Die) : (s.setDie d x).downPasids = s.downPasids := rfl
@[simp] theorem State.setDie_migrations (s : State) (d : Nat) (x : Die) : (s.setDie d x).migrations = s.migrations := rfl
@[simp] theorem State.setDie_swaps (s : State) (d : Nat) (x : Die) : (s.setDie d x).swaps = s.swaps := rfl
@[simp] theorem State.setDie_jobs (s : State) (d : Nat) (x : Die) : (s.setDie d x).jobs = s.jobs := rfl
@[simp] theorem State.setDie_deviceRanges (s : State) (d : Nat) (x : Die) : (s.setDie d x).deviceRanges = s.deviceRanges := rfl
@[simp] theorem State.setDie_fill (s : State) (d : Nat) (x : Die) : (s.setDie d x).fill = s.fill := rfl
@[simp] theorem State.setDie_hostMem (s : State) (d : Nat) (x : Die) : (s.setDie d x).hostMem = s.hostMem := rfl
@[simp] theorem State.setDie_otherMem (s : State) (d : Nat) (x : Die) : (s.setDie d x).otherMem = s.otherMem := rfl
@[simp] theorem State.setDie_otherTags (s : State) (d : Nat) (x : Die) : (s.setDie d x).otherTags = s.otherTags := rfl
@[simp] theorem State.setDie_otherMaps (s : State) (d : Nat) (x : Die) : (s.setDie d x).otherMaps = s.otherMaps := rfl
@[simp] theorem State.setDie_moved (s : State) (d : Nat) (x : Die) : (s.setDie d x).moved = s.moved := rfl
@[simp] theorem State.setDie_hostWrites (s : State) (d : Nat) (x : Die) : (s.setDie d x).hostWrites = s.hostWrites := rfl
@[simp] theorem State.setDie_hostQueues (s : State) (d : Nat) (x : Die) : (s.setDie d x).hostQueues = s.hostQueues := rfl
@[simp] theorem State.setDie_hostSlots (s : State) (d : Nat) (x : Die) : (s.setDie d x).hostSlots = s.hostSlots := rfl
@[simp] theorem State.setDie_lastMapped (s : State) (d : Nat) (x : Die) : (s.setDie d x).lastMapped = s.lastMapped := rfl
@[simp] theorem State.setDie_journal (s : State) (d : Nat) (x : Die) : (s.setDie d x).journal = s.journal := rfl
@[simp] theorem State.setDie_mirror (s : State) (d : Nat) (x : Die) : (s.setDie d x).mirror = s.mirror := rfl
@[simp] theorem State.setDie_hostMaps (s : State) (d : Nat) (x : Die) : (s.setDie d x).hostMaps = s.hostMaps := rfl
@[simp] theorem State.setDie_devStatus (s : State) (d : Nat) (x : Die) : (s.setDie d x).devStatus = s.devStatus := rfl
@[simp] theorem State.setDie_flash (s : State) (d : Nat) (x : Die) : (s.setDie d x).flash = s.flash := rfl
@[simp] theorem State.setDie_mailbox (s : State) (d : Nat) (x : Die) : (s.setDie d x).mailbox = s.mailbox := rfl
@[simp] theorem State.setDie_firmware (s : State) (d : Nat) (x : Die) : (s.setDie d x).firmware = s.firmware := rfl
@[simp] theorem State.setDie_withies (s : State) (d : Nat) (x : Die) : (s.setDie d x).withies = s.withies := rfl
@[simp] theorem State.setDie_frames (s : State) (d : Nat) (x : Die) : (s.setDie d x).frames = s.frames := rfl
@[simp] theorem State.setDie_lastArbitration (s : State) (d : Nat) (x : Die) : (s.setDie d x).lastArbitration = s.lastArbitration := rfl
@[simp] theorem State.setDie_lastPhase (s : State) (d : Nat) (x : Die) : (s.setDie d x).lastPhase = s.lastPhase := rfl
@[simp] theorem State.setDie_sent (s : State) (d : Nat) (x : Die) : (s.setDie d x).sent = s.sent := rfl
@[simp] theorem State.setDie_spdm (s : State) (d : Nat) (x : Die) : (s.setDie d x).spdm = s.spdm := rfl

@[simp] theorem State.setStage_clk (s : State) (i : Nat) (x : Stage) : (s.setStage i x).clk = s.clk := rfl
@[simp] theorem State.setStage_failed (s : State) (i : Nat) (x : Stage) : (s.setStage i x).failed = s.failed := rfl
@[simp] theorem State.setStage_ctx (s : State) (i : Nat) (x : Stage) : (s.setStage i x).ctx = s.ctx := rfl
@[simp] theorem State.setStage_script (s : State) (i : Nat) (x : Stage) : (s.setStage i x).script = s.script := rfl
@[simp] theorem State.setStage_paced (s : State) (i : Nat) (x : Stage) : (s.setStage i x).paced = s.paced := rfl
@[simp] theorem State.setStage_calendar (s : State) (i : Nat) (x : Stage) : (s.setStage i x).calendar = s.calendar := rfl
@[simp] theorem State.setStage_draws (s : State) (i : Nat) (x : Stage) : (s.setStage i x).draws = s.draws := rfl
@[simp] theorem State.setStage_cores (s : State) (i : Nat) (x : Stage) : (s.setStage i x).cores = s.cores := rfl
@[simp] theorem State.setStage_clusters (s : State) (i : Nat) (x : Stage) : (s.setStage i x).clusters = s.clusters := rfl
@[simp] theorem State.setStage_slots (s : State) (i : Nat) (x : Stage) : (s.setStage i x).slots = s.slots := rfl
@[simp] theorem State.setStage_dies (s : State) (i : Nat) (x : Stage) : (s.setStage i x).dies = s.dies := rfl
@[simp] theorem State.setStage_norms (s : State) (i : Nat) (x : Stage) : (s.setStage i x).norms = s.norms := rfl
@[simp] theorem State.setStage_signal (s : State) (i : Nat) (x : Stage) : (s.setStage i x).signal = s.signal := rfl
@[simp] theorem State.setStage_queues (s : State) (i : Nat) (x : Stage) : (s.setStage i x).queues = s.queues := rfl
@[simp] theorem State.setStage_tensors (s : State) (i : Nat) (x : Stage) : (s.setStage i x).tensors = s.tensors := rfl
@[simp] theorem State.setStage_buckets (s : State) (i : Nat) (x : Stage) : (s.setStage i x).buckets = s.buckets := rfl
@[simp] theorem State.setStage_remembered (s : State) (i : Nat) (x : Stage) : (s.setStage i x).remembered = s.remembered := rfl
@[simp] theorem State.setStage_contributions (s : State) (i : Nat) (x : Stage) : (s.setStage i x).contributions = s.contributions := rfl
@[simp] theorem State.setStage_earlyFailures (s : State) (i : Nat) (x : Stage) : (s.setStage i x).earlyFailures = s.earlyFailures := rfl
@[simp] theorem State.setStage_markCopies (s : State) (i : Nat) (x : Stage) : (s.setStage i x).markCopies = s.markCopies := rfl
@[simp] theorem State.setStage_failedBuckets (s : State) (i : Nat) (x : Stage) : (s.setStage i x).failedBuckets = s.failedBuckets := rfl
@[simp] theorem State.setStage_regs (s : State) (i : Nat) (x : Stage) : (s.setStage i x).regs = s.regs := rfl
@[simp] theorem State.setStage_ports (s : State) (i : Nat) (x : Stage) : (s.setStage i x).ports = s.ports := rfl
@[simp] theorem State.setStage_retries (s : State) (i : Nat) (x : Stage) : (s.setStage i x).retries = s.retries := rfl
@[simp] theorem State.setStage_held (s : State) (i : Nat) (x : Stage) : (s.setStage i x).held = s.held := rfl
@[simp] theorem State.setStage_commands (s : State) (i : Nat) (x : Stage) : (s.setStage i x).commands = s.commands := rfl
@[simp] theorem State.setStage_nextEntry (s : State) (i : Nat) (x : Stage) : (s.setStage i x).nextEntry = s.nextEntry := rfl
@[simp] theorem State.setStage_reports (s : State) (i : Nat) (x : Stage) : (s.setStage i x).reports = s.reports := rfl
@[simp] theorem State.setStage_extents (s : State) (i : Nat) (x : Stage) : (s.setStage i x).extents = s.extents := rfl
@[simp] theorem State.setStage_invocations (s : State) (i : Nat) (x : Stage) : (s.setStage i x).invocations = s.invocations := rfl
@[simp] theorem State.setStage_nextInvocation (s : State) (i : Nat) (x : Stage) : (s.setStage i x).nextInvocation = s.nextInvocation := rfl
@[simp] theorem State.setStage_faults (s : State) (i : Nat) (x : Stage) : (s.setStage i x).faults = s.faults := rfl
@[simp] theorem State.setStage_owedMarks (s : State) (i : Nat) (x : Stage) : (s.setStage i x).owedMarks = s.owedMarks := rfl
@[simp] theorem State.setStage_invalidations (s : State) (i : Nat) (x : Stage) : (s.setStage i x).invalidations = s.invalidations := rfl
@[simp] theorem State.setStage_engineWaits (s : State) (i : Nat) (x : Stage) : (s.setStage i x).engineWaits = s.engineWaits := rfl
@[simp] theorem State.setStage_nextGroup (s : State) (i : Nat) (x : Stage) : (s.setStage i x).nextGroup = s.nextGroup := rfl
@[simp] theorem State.setStage_priEnabled (s : State) (i : Nat) (x : Stage) : (s.setStage i x).priEnabled = s.priEnabled := rfl
@[simp] theorem State.setStage_priAllocation (s : State) (i : Nat) (x : Stage) : (s.setStage i x).priAllocation = s.priAllocation := rfl
@[simp] theorem State.setStage_teardowns (s : State) (i : Nat) (x : Stage) : (s.setStage i x).teardowns = s.teardowns := rfl
@[simp] theorem State.setStage_downPasids (s : State) (i : Nat) (x : Stage) : (s.setStage i x).downPasids = s.downPasids := rfl
@[simp] theorem State.setStage_migrations (s : State) (i : Nat) (x : Stage) : (s.setStage i x).migrations = s.migrations := rfl
@[simp] theorem State.setStage_swaps (s : State) (i : Nat) (x : Stage) : (s.setStage i x).swaps = s.swaps := rfl
@[simp] theorem State.setStage_jobs (s : State) (i : Nat) (x : Stage) : (s.setStage i x).jobs = s.jobs := rfl
@[simp] theorem State.setStage_deviceRanges (s : State) (i : Nat) (x : Stage) : (s.setStage i x).deviceRanges = s.deviceRanges := rfl
@[simp] theorem State.setStage_fill (s : State) (i : Nat) (x : Stage) : (s.setStage i x).fill = s.fill := rfl
@[simp] theorem State.setStage_hostMem (s : State) (i : Nat) (x : Stage) : (s.setStage i x).hostMem = s.hostMem := rfl
@[simp] theorem State.setStage_otherMem (s : State) (i : Nat) (x : Stage) : (s.setStage i x).otherMem = s.otherMem := rfl
@[simp] theorem State.setStage_otherTags (s : State) (i : Nat) (x : Stage) : (s.setStage i x).otherTags = s.otherTags := rfl
@[simp] theorem State.setStage_otherMaps (s : State) (i : Nat) (x : Stage) : (s.setStage i x).otherMaps = s.otherMaps := rfl
@[simp] theorem State.setStage_moved (s : State) (i : Nat) (x : Stage) : (s.setStage i x).moved = s.moved := rfl
@[simp] theorem State.setStage_hostWrites (s : State) (i : Nat) (x : Stage) : (s.setStage i x).hostWrites = s.hostWrites := rfl
@[simp] theorem State.setStage_hostQueues (s : State) (i : Nat) (x : Stage) : (s.setStage i x).hostQueues = s.hostQueues := rfl
@[simp] theorem State.setStage_hostSlots (s : State) (i : Nat) (x : Stage) : (s.setStage i x).hostSlots = s.hostSlots := rfl
@[simp] theorem State.setStage_lastMapped (s : State) (i : Nat) (x : Stage) : (s.setStage i x).lastMapped = s.lastMapped := rfl
@[simp] theorem State.setStage_journal (s : State) (i : Nat) (x : Stage) : (s.setStage i x).journal = s.journal := rfl
@[simp] theorem State.setStage_mirror (s : State) (i : Nat) (x : Stage) : (s.setStage i x).mirror = s.mirror := rfl
@[simp] theorem State.setStage_hostMaps (s : State) (i : Nat) (x : Stage) : (s.setStage i x).hostMaps = s.hostMaps := rfl
@[simp] theorem State.setStage_devStatus (s : State) (i : Nat) (x : Stage) : (s.setStage i x).devStatus = s.devStatus := rfl
@[simp] theorem State.setStage_flash (s : State) (i : Nat) (x : Stage) : (s.setStage i x).flash = s.flash := rfl
@[simp] theorem State.setStage_mailbox (s : State) (i : Nat) (x : Stage) : (s.setStage i x).mailbox = s.mailbox := rfl
@[simp] theorem State.setStage_firmware (s : State) (i : Nat) (x : Stage) : (s.setStage i x).firmware = s.firmware := rfl
@[simp] theorem State.setStage_withies (s : State) (i : Nat) (x : Stage) : (s.setStage i x).withies = s.withies := rfl
@[simp] theorem State.setStage_frames (s : State) (i : Nat) (x : Stage) : (s.setStage i x).frames = s.frames := rfl
@[simp] theorem State.setStage_lastArbitration (s : State) (i : Nat) (x : Stage) : (s.setStage i x).lastArbitration = s.lastArbitration := rfl
@[simp] theorem State.setStage_lastPhase (s : State) (i : Nat) (x : Stage) : (s.setStage i x).lastPhase = s.lastPhase := rfl
@[simp] theorem State.setStage_sent (s : State) (i : Nat) (x : Stage) : (s.setStage i x).sent = s.sent := rfl
@[simp] theorem State.setStage_spdm (s : State) (i : Nat) (x : Stage) : (s.setStage i x).spdm = s.spdm := rfl

@[simp] theorem State.setWq_clk (s : State) (q : Nat) (x : WorkQueue) : (s.setWq q x).clk = s.clk := rfl
@[simp] theorem State.setWq_failed (s : State) (q : Nat) (x : WorkQueue) : (s.setWq q x).failed = s.failed := rfl
@[simp] theorem State.setWq_ctx (s : State) (q : Nat) (x : WorkQueue) : (s.setWq q x).ctx = s.ctx := rfl
@[simp] theorem State.setWq_script (s : State) (q : Nat) (x : WorkQueue) : (s.setWq q x).script = s.script := rfl
@[simp] theorem State.setWq_paced (s : State) (q : Nat) (x : WorkQueue) : (s.setWq q x).paced = s.paced := rfl
@[simp] theorem State.setWq_calendar (s : State) (q : Nat) (x : WorkQueue) : (s.setWq q x).calendar = s.calendar := rfl
@[simp] theorem State.setWq_draws (s : State) (q : Nat) (x : WorkQueue) : (s.setWq q x).draws = s.draws := rfl
@[simp] theorem State.setWq_cores (s : State) (q : Nat) (x : WorkQueue) : (s.setWq q x).cores = s.cores := rfl
@[simp] theorem State.setWq_clusters (s : State) (q : Nat) (x : WorkQueue) : (s.setWq q x).clusters = s.clusters := rfl
@[simp] theorem State.setWq_slots (s : State) (q : Nat) (x : WorkQueue) : (s.setWq q x).slots = s.slots := rfl
@[simp] theorem State.setWq_dies (s : State) (q : Nat) (x : WorkQueue) : (s.setWq q x).dies = s.dies := rfl
@[simp] theorem State.setWq_norms (s : State) (q : Nat) (x : WorkQueue) : (s.setWq q x).norms = s.norms := rfl
@[simp] theorem State.setWq_signal (s : State) (q : Nat) (x : WorkQueue) : (s.setWq q x).signal = s.signal := rfl
@[simp] theorem State.setWq_stages (s : State) (q : Nat) (x : WorkQueue) : (s.setWq q x).stages = s.stages := rfl
@[simp] theorem State.setWq_tensors (s : State) (q : Nat) (x : WorkQueue) : (s.setWq q x).tensors = s.tensors := rfl
@[simp] theorem State.setWq_buckets (s : State) (q : Nat) (x : WorkQueue) : (s.setWq q x).buckets = s.buckets := rfl
@[simp] theorem State.setWq_remembered (s : State) (q : Nat) (x : WorkQueue) : (s.setWq q x).remembered = s.remembered := rfl
@[simp] theorem State.setWq_contributions (s : State) (q : Nat) (x : WorkQueue) : (s.setWq q x).contributions = s.contributions := rfl
@[simp] theorem State.setWq_earlyFailures (s : State) (q : Nat) (x : WorkQueue) : (s.setWq q x).earlyFailures = s.earlyFailures := rfl
@[simp] theorem State.setWq_markCopies (s : State) (q : Nat) (x : WorkQueue) : (s.setWq q x).markCopies = s.markCopies := rfl
@[simp] theorem State.setWq_failedBuckets (s : State) (q : Nat) (x : WorkQueue) : (s.setWq q x).failedBuckets = s.failedBuckets := rfl
@[simp] theorem State.setWq_regs (s : State) (q : Nat) (x : WorkQueue) : (s.setWq q x).regs = s.regs := rfl
@[simp] theorem State.setWq_ports (s : State) (q : Nat) (x : WorkQueue) : (s.setWq q x).ports = s.ports := rfl
@[simp] theorem State.setWq_retries (s : State) (q : Nat) (x : WorkQueue) : (s.setWq q x).retries = s.retries := rfl
@[simp] theorem State.setWq_held (s : State) (q : Nat) (x : WorkQueue) : (s.setWq q x).held = s.held := rfl
@[simp] theorem State.setWq_commands (s : State) (q : Nat) (x : WorkQueue) : (s.setWq q x).commands = s.commands := rfl
@[simp] theorem State.setWq_nextEntry (s : State) (q : Nat) (x : WorkQueue) : (s.setWq q x).nextEntry = s.nextEntry := rfl
@[simp] theorem State.setWq_reports (s : State) (q : Nat) (x : WorkQueue) : (s.setWq q x).reports = s.reports := rfl
@[simp] theorem State.setWq_extents (s : State) (q : Nat) (x : WorkQueue) : (s.setWq q x).extents = s.extents := rfl
@[simp] theorem State.setWq_invocations (s : State) (q : Nat) (x : WorkQueue) : (s.setWq q x).invocations = s.invocations := rfl
@[simp] theorem State.setWq_nextInvocation (s : State) (q : Nat) (x : WorkQueue) : (s.setWq q x).nextInvocation = s.nextInvocation := rfl
@[simp] theorem State.setWq_faults (s : State) (q : Nat) (x : WorkQueue) : (s.setWq q x).faults = s.faults := rfl
@[simp] theorem State.setWq_owedMarks (s : State) (q : Nat) (x : WorkQueue) : (s.setWq q x).owedMarks = s.owedMarks := rfl
@[simp] theorem State.setWq_invalidations (s : State) (q : Nat) (x : WorkQueue) : (s.setWq q x).invalidations = s.invalidations := rfl
@[simp] theorem State.setWq_engineWaits (s : State) (q : Nat) (x : WorkQueue) : (s.setWq q x).engineWaits = s.engineWaits := rfl
@[simp] theorem State.setWq_nextGroup (s : State) (q : Nat) (x : WorkQueue) : (s.setWq q x).nextGroup = s.nextGroup := rfl
@[simp] theorem State.setWq_priEnabled (s : State) (q : Nat) (x : WorkQueue) : (s.setWq q x).priEnabled = s.priEnabled := rfl
@[simp] theorem State.setWq_priAllocation (s : State) (q : Nat) (x : WorkQueue) : (s.setWq q x).priAllocation = s.priAllocation := rfl
@[simp] theorem State.setWq_teardowns (s : State) (q : Nat) (x : WorkQueue) : (s.setWq q x).teardowns = s.teardowns := rfl
@[simp] theorem State.setWq_downPasids (s : State) (q : Nat) (x : WorkQueue) : (s.setWq q x).downPasids = s.downPasids := rfl
@[simp] theorem State.setWq_migrations (s : State) (q : Nat) (x : WorkQueue) : (s.setWq q x).migrations = s.migrations := rfl
@[simp] theorem State.setWq_swaps (s : State) (q : Nat) (x : WorkQueue) : (s.setWq q x).swaps = s.swaps := rfl
@[simp] theorem State.setWq_jobs (s : State) (q : Nat) (x : WorkQueue) : (s.setWq q x).jobs = s.jobs := rfl
@[simp] theorem State.setWq_deviceRanges (s : State) (q : Nat) (x : WorkQueue) : (s.setWq q x).deviceRanges = s.deviceRanges := rfl
@[simp] theorem State.setWq_fill (s : State) (q : Nat) (x : WorkQueue) : (s.setWq q x).fill = s.fill := rfl
@[simp] theorem State.setWq_hostMem (s : State) (q : Nat) (x : WorkQueue) : (s.setWq q x).hostMem = s.hostMem := rfl
@[simp] theorem State.setWq_otherMem (s : State) (q : Nat) (x : WorkQueue) : (s.setWq q x).otherMem = s.otherMem := rfl
@[simp] theorem State.setWq_otherTags (s : State) (q : Nat) (x : WorkQueue) : (s.setWq q x).otherTags = s.otherTags := rfl
@[simp] theorem State.setWq_otherMaps (s : State) (q : Nat) (x : WorkQueue) : (s.setWq q x).otherMaps = s.otherMaps := rfl
@[simp] theorem State.setWq_moved (s : State) (q : Nat) (x : WorkQueue) : (s.setWq q x).moved = s.moved := rfl
@[simp] theorem State.setWq_hostWrites (s : State) (q : Nat) (x : WorkQueue) : (s.setWq q x).hostWrites = s.hostWrites := rfl
@[simp] theorem State.setWq_hostQueues (s : State) (q : Nat) (x : WorkQueue) : (s.setWq q x).hostQueues = s.hostQueues := rfl
@[simp] theorem State.setWq_hostSlots (s : State) (q : Nat) (x : WorkQueue) : (s.setWq q x).hostSlots = s.hostSlots := rfl
@[simp] theorem State.setWq_lastMapped (s : State) (q : Nat) (x : WorkQueue) : (s.setWq q x).lastMapped = s.lastMapped := rfl
@[simp] theorem State.setWq_journal (s : State) (q : Nat) (x : WorkQueue) : (s.setWq q x).journal = s.journal := rfl
@[simp] theorem State.setWq_mirror (s : State) (q : Nat) (x : WorkQueue) : (s.setWq q x).mirror = s.mirror := rfl
@[simp] theorem State.setWq_hostMaps (s : State) (q : Nat) (x : WorkQueue) : (s.setWq q x).hostMaps = s.hostMaps := rfl
@[simp] theorem State.setWq_devStatus (s : State) (q : Nat) (x : WorkQueue) : (s.setWq q x).devStatus = s.devStatus := rfl
@[simp] theorem State.setWq_flash (s : State) (q : Nat) (x : WorkQueue) : (s.setWq q x).flash = s.flash := rfl
@[simp] theorem State.setWq_mailbox (s : State) (q : Nat) (x : WorkQueue) : (s.setWq q x).mailbox = s.mailbox := rfl
@[simp] theorem State.setWq_firmware (s : State) (q : Nat) (x : WorkQueue) : (s.setWq q x).firmware = s.firmware := rfl
@[simp] theorem State.setWq_withies (s : State) (q : Nat) (x : WorkQueue) : (s.setWq q x).withies = s.withies := rfl
@[simp] theorem State.setWq_frames (s : State) (q : Nat) (x : WorkQueue) : (s.setWq q x).frames = s.frames := rfl
@[simp] theorem State.setWq_lastArbitration (s : State) (q : Nat) (x : WorkQueue) : (s.setWq q x).lastArbitration = s.lastArbitration := rfl
@[simp] theorem State.setWq_lastPhase (s : State) (q : Nat) (x : WorkQueue) : (s.setWq q x).lastPhase = s.lastPhase := rfl
@[simp] theorem State.setWq_sent (s : State) (q : Nat) (x : WorkQueue) : (s.setWq q x).sent = s.sent := rfl
@[simp] theorem State.setWq_spdm (s : State) (q : Nat) (x : WorkQueue) : (s.setWq q x).spdm = s.spdm := rfl

@[simp] theorem State.setTensor_clk (s : State) (n : Nat) (t : TensorChannel) : (s.setTensor n t).clk = s.clk := rfl
@[simp] theorem State.setTensor_failed (s : State) (n : Nat) (t : TensorChannel) : (s.setTensor n t).failed = s.failed := rfl
@[simp] theorem State.setTensor_ctx (s : State) (n : Nat) (t : TensorChannel) : (s.setTensor n t).ctx = s.ctx := rfl
@[simp] theorem State.setTensor_script (s : State) (n : Nat) (t : TensorChannel) : (s.setTensor n t).script = s.script := rfl
@[simp] theorem State.setTensor_paced (s : State) (n : Nat) (t : TensorChannel) : (s.setTensor n t).paced = s.paced := rfl
@[simp] theorem State.setTensor_calendar (s : State) (n : Nat) (t : TensorChannel) : (s.setTensor n t).calendar = s.calendar := rfl
@[simp] theorem State.setTensor_draws (s : State) (n : Nat) (t : TensorChannel) : (s.setTensor n t).draws = s.draws := rfl
@[simp] theorem State.setTensor_cores (s : State) (n : Nat) (t : TensorChannel) : (s.setTensor n t).cores = s.cores := rfl
@[simp] theorem State.setTensor_clusters (s : State) (n : Nat) (t : TensorChannel) : (s.setTensor n t).clusters = s.clusters := rfl
@[simp] theorem State.setTensor_slots (s : State) (n : Nat) (t : TensorChannel) : (s.setTensor n t).slots = s.slots := rfl
@[simp] theorem State.setTensor_dies (s : State) (n : Nat) (t : TensorChannel) : (s.setTensor n t).dies = s.dies := rfl
@[simp] theorem State.setTensor_norms (s : State) (n : Nat) (t : TensorChannel) : (s.setTensor n t).norms = s.norms := rfl
@[simp] theorem State.setTensor_signal (s : State) (n : Nat) (t : TensorChannel) : (s.setTensor n t).signal = s.signal := rfl
@[simp] theorem State.setTensor_stages (s : State) (n : Nat) (t : TensorChannel) : (s.setTensor n t).stages = s.stages := rfl
@[simp] theorem State.setTensor_queues (s : State) (n : Nat) (t : TensorChannel) : (s.setTensor n t).queues = s.queues := rfl
@[simp] theorem State.setTensor_buckets (s : State) (n : Nat) (t : TensorChannel) : (s.setTensor n t).buckets = s.buckets := rfl
@[simp] theorem State.setTensor_remembered (s : State) (n : Nat) (t : TensorChannel) : (s.setTensor n t).remembered = s.remembered := rfl
@[simp] theorem State.setTensor_contributions (s : State) (n : Nat) (t : TensorChannel) : (s.setTensor n t).contributions = s.contributions := rfl
@[simp] theorem State.setTensor_earlyFailures (s : State) (n : Nat) (t : TensorChannel) : (s.setTensor n t).earlyFailures = s.earlyFailures := rfl
@[simp] theorem State.setTensor_markCopies (s : State) (n : Nat) (t : TensorChannel) : (s.setTensor n t).markCopies = s.markCopies := rfl
@[simp] theorem State.setTensor_failedBuckets (s : State) (n : Nat) (t : TensorChannel) : (s.setTensor n t).failedBuckets = s.failedBuckets := rfl
@[simp] theorem State.setTensor_regs (s : State) (n : Nat) (t : TensorChannel) : (s.setTensor n t).regs = s.regs := rfl
@[simp] theorem State.setTensor_ports (s : State) (n : Nat) (t : TensorChannel) : (s.setTensor n t).ports = s.ports := rfl
@[simp] theorem State.setTensor_retries (s : State) (n : Nat) (t : TensorChannel) : (s.setTensor n t).retries = s.retries := rfl
@[simp] theorem State.setTensor_held (s : State) (n : Nat) (t : TensorChannel) : (s.setTensor n t).held = s.held := rfl
@[simp] theorem State.setTensor_commands (s : State) (n : Nat) (t : TensorChannel) : (s.setTensor n t).commands = s.commands := rfl
@[simp] theorem State.setTensor_nextEntry (s : State) (n : Nat) (t : TensorChannel) : (s.setTensor n t).nextEntry = s.nextEntry := rfl
@[simp] theorem State.setTensor_reports (s : State) (n : Nat) (t : TensorChannel) : (s.setTensor n t).reports = s.reports := rfl
@[simp] theorem State.setTensor_extents (s : State) (n : Nat) (t : TensorChannel) : (s.setTensor n t).extents = s.extents := rfl
@[simp] theorem State.setTensor_invocations (s : State) (n : Nat) (t : TensorChannel) : (s.setTensor n t).invocations = s.invocations := rfl
@[simp] theorem State.setTensor_nextInvocation (s : State) (n : Nat) (t : TensorChannel) : (s.setTensor n t).nextInvocation = s.nextInvocation := rfl
@[simp] theorem State.setTensor_faults (s : State) (n : Nat) (t : TensorChannel) : (s.setTensor n t).faults = s.faults := rfl
@[simp] theorem State.setTensor_owedMarks (s : State) (n : Nat) (t : TensorChannel) : (s.setTensor n t).owedMarks = s.owedMarks := rfl
@[simp] theorem State.setTensor_invalidations (s : State) (n : Nat) (t : TensorChannel) : (s.setTensor n t).invalidations = s.invalidations := rfl
@[simp] theorem State.setTensor_engineWaits (s : State) (n : Nat) (t : TensorChannel) : (s.setTensor n t).engineWaits = s.engineWaits := rfl
@[simp] theorem State.setTensor_nextGroup (s : State) (n : Nat) (t : TensorChannel) : (s.setTensor n t).nextGroup = s.nextGroup := rfl
@[simp] theorem State.setTensor_priEnabled (s : State) (n : Nat) (t : TensorChannel) : (s.setTensor n t).priEnabled = s.priEnabled := rfl
@[simp] theorem State.setTensor_priAllocation (s : State) (n : Nat) (t : TensorChannel) : (s.setTensor n t).priAllocation = s.priAllocation := rfl
@[simp] theorem State.setTensor_teardowns (s : State) (n : Nat) (t : TensorChannel) : (s.setTensor n t).teardowns = s.teardowns := rfl
@[simp] theorem State.setTensor_downPasids (s : State) (n : Nat) (t : TensorChannel) : (s.setTensor n t).downPasids = s.downPasids := rfl
@[simp] theorem State.setTensor_migrations (s : State) (n : Nat) (t : TensorChannel) : (s.setTensor n t).migrations = s.migrations := rfl
@[simp] theorem State.setTensor_swaps (s : State) (n : Nat) (t : TensorChannel) : (s.setTensor n t).swaps = s.swaps := rfl
@[simp] theorem State.setTensor_jobs (s : State) (n : Nat) (t : TensorChannel) : (s.setTensor n t).jobs = s.jobs := rfl
@[simp] theorem State.setTensor_deviceRanges (s : State) (n : Nat) (t : TensorChannel) : (s.setTensor n t).deviceRanges = s.deviceRanges := rfl
@[simp] theorem State.setTensor_fill (s : State) (n : Nat) (t : TensorChannel) : (s.setTensor n t).fill = s.fill := rfl
@[simp] theorem State.setTensor_hostMem (s : State) (n : Nat) (t : TensorChannel) : (s.setTensor n t).hostMem = s.hostMem := rfl
@[simp] theorem State.setTensor_otherMem (s : State) (n : Nat) (t : TensorChannel) : (s.setTensor n t).otherMem = s.otherMem := rfl
@[simp] theorem State.setTensor_otherTags (s : State) (n : Nat) (t : TensorChannel) : (s.setTensor n t).otherTags = s.otherTags := rfl
@[simp] theorem State.setTensor_otherMaps (s : State) (n : Nat) (t : TensorChannel) : (s.setTensor n t).otherMaps = s.otherMaps := rfl
@[simp] theorem State.setTensor_moved (s : State) (n : Nat) (t : TensorChannel) : (s.setTensor n t).moved = s.moved := rfl
@[simp] theorem State.setTensor_hostWrites (s : State) (n : Nat) (t : TensorChannel) : (s.setTensor n t).hostWrites = s.hostWrites := rfl
@[simp] theorem State.setTensor_hostQueues (s : State) (n : Nat) (t : TensorChannel) : (s.setTensor n t).hostQueues = s.hostQueues := rfl
@[simp] theorem State.setTensor_hostSlots (s : State) (n : Nat) (t : TensorChannel) : (s.setTensor n t).hostSlots = s.hostSlots := rfl
@[simp] theorem State.setTensor_lastMapped (s : State) (n : Nat) (t : TensorChannel) : (s.setTensor n t).lastMapped = s.lastMapped := rfl
@[simp] theorem State.setTensor_journal (s : State) (n : Nat) (t : TensorChannel) : (s.setTensor n t).journal = s.journal := rfl
@[simp] theorem State.setTensor_mirror (s : State) (n : Nat) (t : TensorChannel) : (s.setTensor n t).mirror = s.mirror := rfl
@[simp] theorem State.setTensor_hostMaps (s : State) (n : Nat) (t : TensorChannel) : (s.setTensor n t).hostMaps = s.hostMaps := rfl
@[simp] theorem State.setTensor_devStatus (s : State) (n : Nat) (t : TensorChannel) : (s.setTensor n t).devStatus = s.devStatus := rfl
@[simp] theorem State.setTensor_flash (s : State) (n : Nat) (t : TensorChannel) : (s.setTensor n t).flash = s.flash := rfl
@[simp] theorem State.setTensor_mailbox (s : State) (n : Nat) (t : TensorChannel) : (s.setTensor n t).mailbox = s.mailbox := rfl
@[simp] theorem State.setTensor_firmware (s : State) (n : Nat) (t : TensorChannel) : (s.setTensor n t).firmware = s.firmware := rfl
@[simp] theorem State.setTensor_withies (s : State) (n : Nat) (t : TensorChannel) : (s.setTensor n t).withies = s.withies := rfl
@[simp] theorem State.setTensor_frames (s : State) (n : Nat) (t : TensorChannel) : (s.setTensor n t).frames = s.frames := rfl
@[simp] theorem State.setTensor_lastArbitration (s : State) (n : Nat) (t : TensorChannel) : (s.setTensor n t).lastArbitration = s.lastArbitration := rfl
@[simp] theorem State.setTensor_lastPhase (s : State) (n : Nat) (t : TensorChannel) : (s.setTensor n t).lastPhase = s.lastPhase := rfl
@[simp] theorem State.setTensor_sent (s : State) (n : Nat) (t : TensorChannel) : (s.setTensor n t).sent = s.sent := rfl
@[simp] theorem State.setTensor_spdm (s : State) (n : Nat) (t : TensorChannel) : (s.setTensor n t).spdm = s.spdm := rfl

@[simp] theorem State.setBucket_clk (s : State) (i : Nat) (b : Bucket) : (s.setBucket i b).clk = s.clk := rfl
@[simp] theorem State.setBucket_failed (s : State) (i : Nat) (b : Bucket) : (s.setBucket i b).failed = s.failed := rfl
@[simp] theorem State.setBucket_ctx (s : State) (i : Nat) (b : Bucket) : (s.setBucket i b).ctx = s.ctx := rfl
@[simp] theorem State.setBucket_script (s : State) (i : Nat) (b : Bucket) : (s.setBucket i b).script = s.script := rfl
@[simp] theorem State.setBucket_paced (s : State) (i : Nat) (b : Bucket) : (s.setBucket i b).paced = s.paced := rfl
@[simp] theorem State.setBucket_calendar (s : State) (i : Nat) (b : Bucket) : (s.setBucket i b).calendar = s.calendar := rfl
@[simp] theorem State.setBucket_draws (s : State) (i : Nat) (b : Bucket) : (s.setBucket i b).draws = s.draws := rfl
@[simp] theorem State.setBucket_cores (s : State) (i : Nat) (b : Bucket) : (s.setBucket i b).cores = s.cores := rfl
@[simp] theorem State.setBucket_clusters (s : State) (i : Nat) (b : Bucket) : (s.setBucket i b).clusters = s.clusters := rfl
@[simp] theorem State.setBucket_slots (s : State) (i : Nat) (b : Bucket) : (s.setBucket i b).slots = s.slots := rfl
@[simp] theorem State.setBucket_dies (s : State) (i : Nat) (b : Bucket) : (s.setBucket i b).dies = s.dies := rfl
@[simp] theorem State.setBucket_norms (s : State) (i : Nat) (b : Bucket) : (s.setBucket i b).norms = s.norms := rfl
@[simp] theorem State.setBucket_signal (s : State) (i : Nat) (b : Bucket) : (s.setBucket i b).signal = s.signal := rfl
@[simp] theorem State.setBucket_stages (s : State) (i : Nat) (b : Bucket) : (s.setBucket i b).stages = s.stages := rfl
@[simp] theorem State.setBucket_queues (s : State) (i : Nat) (b : Bucket) : (s.setBucket i b).queues = s.queues := rfl
@[simp] theorem State.setBucket_tensors (s : State) (i : Nat) (b : Bucket) : (s.setBucket i b).tensors = s.tensors := rfl
@[simp] theorem State.setBucket_remembered (s : State) (i : Nat) (b : Bucket) : (s.setBucket i b).remembered = s.remembered := rfl
@[simp] theorem State.setBucket_contributions (s : State) (i : Nat) (b : Bucket) : (s.setBucket i b).contributions = s.contributions := rfl
@[simp] theorem State.setBucket_earlyFailures (s : State) (i : Nat) (b : Bucket) : (s.setBucket i b).earlyFailures = s.earlyFailures := rfl
@[simp] theorem State.setBucket_markCopies (s : State) (i : Nat) (b : Bucket) : (s.setBucket i b).markCopies = s.markCopies := rfl
@[simp] theorem State.setBucket_failedBuckets (s : State) (i : Nat) (b : Bucket) : (s.setBucket i b).failedBuckets = s.failedBuckets := rfl
@[simp] theorem State.setBucket_regs (s : State) (i : Nat) (b : Bucket) : (s.setBucket i b).regs = s.regs := rfl
@[simp] theorem State.setBucket_ports (s : State) (i : Nat) (b : Bucket) : (s.setBucket i b).ports = s.ports := rfl
@[simp] theorem State.setBucket_retries (s : State) (i : Nat) (b : Bucket) : (s.setBucket i b).retries = s.retries := rfl
@[simp] theorem State.setBucket_held (s : State) (i : Nat) (b : Bucket) : (s.setBucket i b).held = s.held := rfl
@[simp] theorem State.setBucket_commands (s : State) (i : Nat) (b : Bucket) : (s.setBucket i b).commands = s.commands := rfl
@[simp] theorem State.setBucket_nextEntry (s : State) (i : Nat) (b : Bucket) : (s.setBucket i b).nextEntry = s.nextEntry := rfl
@[simp] theorem State.setBucket_reports (s : State) (i : Nat) (b : Bucket) : (s.setBucket i b).reports = s.reports := rfl
@[simp] theorem State.setBucket_extents (s : State) (i : Nat) (b : Bucket) : (s.setBucket i b).extents = s.extents := rfl
@[simp] theorem State.setBucket_invocations (s : State) (i : Nat) (b : Bucket) : (s.setBucket i b).invocations = s.invocations := rfl
@[simp] theorem State.setBucket_nextInvocation (s : State) (i : Nat) (b : Bucket) : (s.setBucket i b).nextInvocation = s.nextInvocation := rfl
@[simp] theorem State.setBucket_faults (s : State) (i : Nat) (b : Bucket) : (s.setBucket i b).faults = s.faults := rfl
@[simp] theorem State.setBucket_owedMarks (s : State) (i : Nat) (b : Bucket) : (s.setBucket i b).owedMarks = s.owedMarks := rfl
@[simp] theorem State.setBucket_invalidations (s : State) (i : Nat) (b : Bucket) : (s.setBucket i b).invalidations = s.invalidations := rfl
@[simp] theorem State.setBucket_engineWaits (s : State) (i : Nat) (b : Bucket) : (s.setBucket i b).engineWaits = s.engineWaits := rfl
@[simp] theorem State.setBucket_nextGroup (s : State) (i : Nat) (b : Bucket) : (s.setBucket i b).nextGroup = s.nextGroup := rfl
@[simp] theorem State.setBucket_priEnabled (s : State) (i : Nat) (b : Bucket) : (s.setBucket i b).priEnabled = s.priEnabled := rfl
@[simp] theorem State.setBucket_priAllocation (s : State) (i : Nat) (b : Bucket) : (s.setBucket i b).priAllocation = s.priAllocation := rfl
@[simp] theorem State.setBucket_teardowns (s : State) (i : Nat) (b : Bucket) : (s.setBucket i b).teardowns = s.teardowns := rfl
@[simp] theorem State.setBucket_downPasids (s : State) (i : Nat) (b : Bucket) : (s.setBucket i b).downPasids = s.downPasids := rfl
@[simp] theorem State.setBucket_migrations (s : State) (i : Nat) (b : Bucket) : (s.setBucket i b).migrations = s.migrations := rfl
@[simp] theorem State.setBucket_swaps (s : State) (i : Nat) (b : Bucket) : (s.setBucket i b).swaps = s.swaps := rfl
@[simp] theorem State.setBucket_jobs (s : State) (i : Nat) (b : Bucket) : (s.setBucket i b).jobs = s.jobs := rfl
@[simp] theorem State.setBucket_deviceRanges (s : State) (i : Nat) (b : Bucket) : (s.setBucket i b).deviceRanges = s.deviceRanges := rfl
@[simp] theorem State.setBucket_fill (s : State) (i : Nat) (b : Bucket) : (s.setBucket i b).fill = s.fill := rfl
@[simp] theorem State.setBucket_hostMem (s : State) (i : Nat) (b : Bucket) : (s.setBucket i b).hostMem = s.hostMem := rfl
@[simp] theorem State.setBucket_otherMem (s : State) (i : Nat) (b : Bucket) : (s.setBucket i b).otherMem = s.otherMem := rfl
@[simp] theorem State.setBucket_otherTags (s : State) (i : Nat) (b : Bucket) : (s.setBucket i b).otherTags = s.otherTags := rfl
@[simp] theorem State.setBucket_otherMaps (s : State) (i : Nat) (b : Bucket) : (s.setBucket i b).otherMaps = s.otherMaps := rfl
@[simp] theorem State.setBucket_moved (s : State) (i : Nat) (b : Bucket) : (s.setBucket i b).moved = s.moved := rfl
@[simp] theorem State.setBucket_hostWrites (s : State) (i : Nat) (b : Bucket) : (s.setBucket i b).hostWrites = s.hostWrites := rfl
@[simp] theorem State.setBucket_hostQueues (s : State) (i : Nat) (b : Bucket) : (s.setBucket i b).hostQueues = s.hostQueues := rfl
@[simp] theorem State.setBucket_hostSlots (s : State) (i : Nat) (b : Bucket) : (s.setBucket i b).hostSlots = s.hostSlots := rfl
@[simp] theorem State.setBucket_lastMapped (s : State) (i : Nat) (b : Bucket) : (s.setBucket i b).lastMapped = s.lastMapped := rfl
@[simp] theorem State.setBucket_journal (s : State) (i : Nat) (b : Bucket) : (s.setBucket i b).journal = s.journal := rfl
@[simp] theorem State.setBucket_mirror (s : State) (i : Nat) (b : Bucket) : (s.setBucket i b).mirror = s.mirror := rfl
@[simp] theorem State.setBucket_hostMaps (s : State) (i : Nat) (b : Bucket) : (s.setBucket i b).hostMaps = s.hostMaps := rfl
@[simp] theorem State.setBucket_devStatus (s : State) (i : Nat) (b : Bucket) : (s.setBucket i b).devStatus = s.devStatus := rfl
@[simp] theorem State.setBucket_flash (s : State) (i : Nat) (b : Bucket) : (s.setBucket i b).flash = s.flash := rfl
@[simp] theorem State.setBucket_mailbox (s : State) (i : Nat) (b : Bucket) : (s.setBucket i b).mailbox = s.mailbox := rfl
@[simp] theorem State.setBucket_firmware (s : State) (i : Nat) (b : Bucket) : (s.setBucket i b).firmware = s.firmware := rfl
@[simp] theorem State.setBucket_withies (s : State) (i : Nat) (b : Bucket) : (s.setBucket i b).withies = s.withies := rfl
@[simp] theorem State.setBucket_frames (s : State) (i : Nat) (b : Bucket) : (s.setBucket i b).frames = s.frames := rfl
@[simp] theorem State.setBucket_lastArbitration (s : State) (i : Nat) (b : Bucket) : (s.setBucket i b).lastArbitration = s.lastArbitration := rfl
@[simp] theorem State.setBucket_lastPhase (s : State) (i : Nat) (b : Bucket) : (s.setBucket i b).lastPhase = s.lastPhase := rfl
@[simp] theorem State.setBucket_sent (s : State) (i : Nat) (b : Bucket) : (s.setBucket i b).sent = s.sent := rfl
@[simp] theorem State.setBucket_spdm (s : State) (i : Nat) (b : Bucket) : (s.setBucket i b).spdm = s.spdm := rfl

@[simp] theorem State.setMigration_clk (s : State) (i : Nat) (m : Migration) : (s.setMigration i m).clk = s.clk := rfl
@[simp] theorem State.setMigration_failed (s : State) (i : Nat) (m : Migration) : (s.setMigration i m).failed = s.failed := rfl
@[simp] theorem State.setMigration_ctx (s : State) (i : Nat) (m : Migration) : (s.setMigration i m).ctx = s.ctx := rfl
@[simp] theorem State.setMigration_script (s : State) (i : Nat) (m : Migration) : (s.setMigration i m).script = s.script := rfl
@[simp] theorem State.setMigration_paced (s : State) (i : Nat) (m : Migration) : (s.setMigration i m).paced = s.paced := rfl
@[simp] theorem State.setMigration_calendar (s : State) (i : Nat) (m : Migration) : (s.setMigration i m).calendar = s.calendar := rfl
@[simp] theorem State.setMigration_draws (s : State) (i : Nat) (m : Migration) : (s.setMigration i m).draws = s.draws := rfl
@[simp] theorem State.setMigration_cores (s : State) (i : Nat) (m : Migration) : (s.setMigration i m).cores = s.cores := rfl
@[simp] theorem State.setMigration_clusters (s : State) (i : Nat) (m : Migration) : (s.setMigration i m).clusters = s.clusters := rfl
@[simp] theorem State.setMigration_slots (s : State) (i : Nat) (m : Migration) : (s.setMigration i m).slots = s.slots := rfl
@[simp] theorem State.setMigration_dies (s : State) (i : Nat) (m : Migration) : (s.setMigration i m).dies = s.dies := rfl
@[simp] theorem State.setMigration_norms (s : State) (i : Nat) (m : Migration) : (s.setMigration i m).norms = s.norms := rfl
@[simp] theorem State.setMigration_signal (s : State) (i : Nat) (m : Migration) : (s.setMigration i m).signal = s.signal := rfl
@[simp] theorem State.setMigration_stages (s : State) (i : Nat) (m : Migration) : (s.setMigration i m).stages = s.stages := rfl
@[simp] theorem State.setMigration_queues (s : State) (i : Nat) (m : Migration) : (s.setMigration i m).queues = s.queues := rfl
@[simp] theorem State.setMigration_tensors (s : State) (i : Nat) (m : Migration) : (s.setMigration i m).tensors = s.tensors := rfl
@[simp] theorem State.setMigration_buckets (s : State) (i : Nat) (m : Migration) : (s.setMigration i m).buckets = s.buckets := rfl
@[simp] theorem State.setMigration_remembered (s : State) (i : Nat) (m : Migration) : (s.setMigration i m).remembered = s.remembered := rfl
@[simp] theorem State.setMigration_contributions (s : State) (i : Nat) (m : Migration) : (s.setMigration i m).contributions = s.contributions := rfl
@[simp] theorem State.setMigration_earlyFailures (s : State) (i : Nat) (m : Migration) : (s.setMigration i m).earlyFailures = s.earlyFailures := rfl
@[simp] theorem State.setMigration_markCopies (s : State) (i : Nat) (m : Migration) : (s.setMigration i m).markCopies = s.markCopies := rfl
@[simp] theorem State.setMigration_failedBuckets (s : State) (i : Nat) (m : Migration) : (s.setMigration i m).failedBuckets = s.failedBuckets := rfl
@[simp] theorem State.setMigration_regs (s : State) (i : Nat) (m : Migration) : (s.setMigration i m).regs = s.regs := rfl
@[simp] theorem State.setMigration_ports (s : State) (i : Nat) (m : Migration) : (s.setMigration i m).ports = s.ports := rfl
@[simp] theorem State.setMigration_retries (s : State) (i : Nat) (m : Migration) : (s.setMigration i m).retries = s.retries := rfl
@[simp] theorem State.setMigration_held (s : State) (i : Nat) (m : Migration) : (s.setMigration i m).held = s.held := rfl
@[simp] theorem State.setMigration_commands (s : State) (i : Nat) (m : Migration) : (s.setMigration i m).commands = s.commands := rfl
@[simp] theorem State.setMigration_nextEntry (s : State) (i : Nat) (m : Migration) : (s.setMigration i m).nextEntry = s.nextEntry := rfl
@[simp] theorem State.setMigration_reports (s : State) (i : Nat) (m : Migration) : (s.setMigration i m).reports = s.reports := rfl
@[simp] theorem State.setMigration_extents (s : State) (i : Nat) (m : Migration) : (s.setMigration i m).extents = s.extents := rfl
@[simp] theorem State.setMigration_invocations (s : State) (i : Nat) (m : Migration) : (s.setMigration i m).invocations = s.invocations := rfl
@[simp] theorem State.setMigration_nextInvocation (s : State) (i : Nat) (m : Migration) : (s.setMigration i m).nextInvocation = s.nextInvocation := rfl
@[simp] theorem State.setMigration_faults (s : State) (i : Nat) (m : Migration) : (s.setMigration i m).faults = s.faults := rfl
@[simp] theorem State.setMigration_owedMarks (s : State) (i : Nat) (m : Migration) : (s.setMigration i m).owedMarks = s.owedMarks := rfl
@[simp] theorem State.setMigration_invalidations (s : State) (i : Nat) (m : Migration) : (s.setMigration i m).invalidations = s.invalidations := rfl
@[simp] theorem State.setMigration_engineWaits (s : State) (i : Nat) (m : Migration) : (s.setMigration i m).engineWaits = s.engineWaits := rfl
@[simp] theorem State.setMigration_nextGroup (s : State) (i : Nat) (m : Migration) : (s.setMigration i m).nextGroup = s.nextGroup := rfl
@[simp] theorem State.setMigration_priEnabled (s : State) (i : Nat) (m : Migration) : (s.setMigration i m).priEnabled = s.priEnabled := rfl
@[simp] theorem State.setMigration_priAllocation (s : State) (i : Nat) (m : Migration) : (s.setMigration i m).priAllocation = s.priAllocation := rfl
@[simp] theorem State.setMigration_teardowns (s : State) (i : Nat) (m : Migration) : (s.setMigration i m).teardowns = s.teardowns := rfl
@[simp] theorem State.setMigration_downPasids (s : State) (i : Nat) (m : Migration) : (s.setMigration i m).downPasids = s.downPasids := rfl
@[simp] theorem State.setMigration_swaps (s : State) (i : Nat) (m : Migration) : (s.setMigration i m).swaps = s.swaps := rfl
@[simp] theorem State.setMigration_jobs (s : State) (i : Nat) (m : Migration) : (s.setMigration i m).jobs = s.jobs := rfl
@[simp] theorem State.setMigration_deviceRanges (s : State) (i : Nat) (m : Migration) : (s.setMigration i m).deviceRanges = s.deviceRanges := rfl
@[simp] theorem State.setMigration_fill (s : State) (i : Nat) (m : Migration) : (s.setMigration i m).fill = s.fill := rfl
@[simp] theorem State.setMigration_hostMem (s : State) (i : Nat) (m : Migration) : (s.setMigration i m).hostMem = s.hostMem := rfl
@[simp] theorem State.setMigration_otherMem (s : State) (i : Nat) (m : Migration) : (s.setMigration i m).otherMem = s.otherMem := rfl
@[simp] theorem State.setMigration_otherTags (s : State) (i : Nat) (m : Migration) : (s.setMigration i m).otherTags = s.otherTags := rfl
@[simp] theorem State.setMigration_otherMaps (s : State) (i : Nat) (m : Migration) : (s.setMigration i m).otherMaps = s.otherMaps := rfl
@[simp] theorem State.setMigration_moved (s : State) (i : Nat) (m : Migration) : (s.setMigration i m).moved = s.moved := rfl
@[simp] theorem State.setMigration_hostWrites (s : State) (i : Nat) (m : Migration) : (s.setMigration i m).hostWrites = s.hostWrites := rfl
@[simp] theorem State.setMigration_hostQueues (s : State) (i : Nat) (m : Migration) : (s.setMigration i m).hostQueues = s.hostQueues := rfl
@[simp] theorem State.setMigration_hostSlots (s : State) (i : Nat) (m : Migration) : (s.setMigration i m).hostSlots = s.hostSlots := rfl
@[simp] theorem State.setMigration_lastMapped (s : State) (i : Nat) (m : Migration) : (s.setMigration i m).lastMapped = s.lastMapped := rfl
@[simp] theorem State.setMigration_journal (s : State) (i : Nat) (m : Migration) : (s.setMigration i m).journal = s.journal := rfl
@[simp] theorem State.setMigration_mirror (s : State) (i : Nat) (m : Migration) : (s.setMigration i m).mirror = s.mirror := rfl
@[simp] theorem State.setMigration_hostMaps (s : State) (i : Nat) (m : Migration) : (s.setMigration i m).hostMaps = s.hostMaps := rfl
@[simp] theorem State.setMigration_devStatus (s : State) (i : Nat) (m : Migration) : (s.setMigration i m).devStatus = s.devStatus := rfl
@[simp] theorem State.setMigration_flash (s : State) (i : Nat) (m : Migration) : (s.setMigration i m).flash = s.flash := rfl
@[simp] theorem State.setMigration_mailbox (s : State) (i : Nat) (m : Migration) : (s.setMigration i m).mailbox = s.mailbox := rfl
@[simp] theorem State.setMigration_firmware (s : State) (i : Nat) (m : Migration) : (s.setMigration i m).firmware = s.firmware := rfl
@[simp] theorem State.setMigration_withies (s : State) (i : Nat) (m : Migration) : (s.setMigration i m).withies = s.withies := rfl
@[simp] theorem State.setMigration_frames (s : State) (i : Nat) (m : Migration) : (s.setMigration i m).frames = s.frames := rfl
@[simp] theorem State.setMigration_lastArbitration (s : State) (i : Nat) (m : Migration) : (s.setMigration i m).lastArbitration = s.lastArbitration := rfl
@[simp] theorem State.setMigration_lastPhase (s : State) (i : Nat) (m : Migration) : (s.setMigration i m).lastPhase = s.lastPhase := rfl
@[simp] theorem State.setMigration_sent (s : State) (i : Nat) (m : Migration) : (s.setMigration i m).sent = s.sent := rfl
@[simp] theorem State.setMigration_spdm (s : State) (i : Nat) (m : Migration) : (s.setMigration i m).spdm = s.spdm := rfl

@[simp] theorem State.setHostQueue_clk (s : State) (q : Nat) (x : HostQueue) : (s.setHostQueue q x).clk = s.clk := rfl
@[simp] theorem State.setHostQueue_failed (s : State) (q : Nat) (x : HostQueue) : (s.setHostQueue q x).failed = s.failed := rfl
@[simp] theorem State.setHostQueue_ctx (s : State) (q : Nat) (x : HostQueue) : (s.setHostQueue q x).ctx = s.ctx := rfl
@[simp] theorem State.setHostQueue_script (s : State) (q : Nat) (x : HostQueue) : (s.setHostQueue q x).script = s.script := rfl
@[simp] theorem State.setHostQueue_paced (s : State) (q : Nat) (x : HostQueue) : (s.setHostQueue q x).paced = s.paced := rfl
@[simp] theorem State.setHostQueue_calendar (s : State) (q : Nat) (x : HostQueue) : (s.setHostQueue q x).calendar = s.calendar := rfl
@[simp] theorem State.setHostQueue_draws (s : State) (q : Nat) (x : HostQueue) : (s.setHostQueue q x).draws = s.draws := rfl
@[simp] theorem State.setHostQueue_cores (s : State) (q : Nat) (x : HostQueue) : (s.setHostQueue q x).cores = s.cores := rfl
@[simp] theorem State.setHostQueue_clusters (s : State) (q : Nat) (x : HostQueue) : (s.setHostQueue q x).clusters = s.clusters := rfl
@[simp] theorem State.setHostQueue_slots (s : State) (q : Nat) (x : HostQueue) : (s.setHostQueue q x).slots = s.slots := rfl
@[simp] theorem State.setHostQueue_dies (s : State) (q : Nat) (x : HostQueue) : (s.setHostQueue q x).dies = s.dies := rfl
@[simp] theorem State.setHostQueue_norms (s : State) (q : Nat) (x : HostQueue) : (s.setHostQueue q x).norms = s.norms := rfl
@[simp] theorem State.setHostQueue_signal (s : State) (q : Nat) (x : HostQueue) : (s.setHostQueue q x).signal = s.signal := rfl
@[simp] theorem State.setHostQueue_stages (s : State) (q : Nat) (x : HostQueue) : (s.setHostQueue q x).stages = s.stages := rfl
@[simp] theorem State.setHostQueue_queues (s : State) (q : Nat) (x : HostQueue) : (s.setHostQueue q x).queues = s.queues := rfl
@[simp] theorem State.setHostQueue_tensors (s : State) (q : Nat) (x : HostQueue) : (s.setHostQueue q x).tensors = s.tensors := rfl
@[simp] theorem State.setHostQueue_buckets (s : State) (q : Nat) (x : HostQueue) : (s.setHostQueue q x).buckets = s.buckets := rfl
@[simp] theorem State.setHostQueue_remembered (s : State) (q : Nat) (x : HostQueue) : (s.setHostQueue q x).remembered = s.remembered := rfl
@[simp] theorem State.setHostQueue_contributions (s : State) (q : Nat) (x : HostQueue) : (s.setHostQueue q x).contributions = s.contributions := rfl
@[simp] theorem State.setHostQueue_earlyFailures (s : State) (q : Nat) (x : HostQueue) : (s.setHostQueue q x).earlyFailures = s.earlyFailures := rfl
@[simp] theorem State.setHostQueue_markCopies (s : State) (q : Nat) (x : HostQueue) : (s.setHostQueue q x).markCopies = s.markCopies := rfl
@[simp] theorem State.setHostQueue_failedBuckets (s : State) (q : Nat) (x : HostQueue) : (s.setHostQueue q x).failedBuckets = s.failedBuckets := rfl
@[simp] theorem State.setHostQueue_regs (s : State) (q : Nat) (x : HostQueue) : (s.setHostQueue q x).regs = s.regs := rfl
@[simp] theorem State.setHostQueue_ports (s : State) (q : Nat) (x : HostQueue) : (s.setHostQueue q x).ports = s.ports := rfl
@[simp] theorem State.setHostQueue_retries (s : State) (q : Nat) (x : HostQueue) : (s.setHostQueue q x).retries = s.retries := rfl
@[simp] theorem State.setHostQueue_held (s : State) (q : Nat) (x : HostQueue) : (s.setHostQueue q x).held = s.held := rfl
@[simp] theorem State.setHostQueue_commands (s : State) (q : Nat) (x : HostQueue) : (s.setHostQueue q x).commands = s.commands := rfl
@[simp] theorem State.setHostQueue_nextEntry (s : State) (q : Nat) (x : HostQueue) : (s.setHostQueue q x).nextEntry = s.nextEntry := rfl
@[simp] theorem State.setHostQueue_reports (s : State) (q : Nat) (x : HostQueue) : (s.setHostQueue q x).reports = s.reports := rfl
@[simp] theorem State.setHostQueue_extents (s : State) (q : Nat) (x : HostQueue) : (s.setHostQueue q x).extents = s.extents := rfl
@[simp] theorem State.setHostQueue_invocations (s : State) (q : Nat) (x : HostQueue) : (s.setHostQueue q x).invocations = s.invocations := rfl
@[simp] theorem State.setHostQueue_nextInvocation (s : State) (q : Nat) (x : HostQueue) : (s.setHostQueue q x).nextInvocation = s.nextInvocation := rfl
@[simp] theorem State.setHostQueue_faults (s : State) (q : Nat) (x : HostQueue) : (s.setHostQueue q x).faults = s.faults := rfl
@[simp] theorem State.setHostQueue_owedMarks (s : State) (q : Nat) (x : HostQueue) : (s.setHostQueue q x).owedMarks = s.owedMarks := rfl
@[simp] theorem State.setHostQueue_invalidations (s : State) (q : Nat) (x : HostQueue) : (s.setHostQueue q x).invalidations = s.invalidations := rfl
@[simp] theorem State.setHostQueue_engineWaits (s : State) (q : Nat) (x : HostQueue) : (s.setHostQueue q x).engineWaits = s.engineWaits := rfl
@[simp] theorem State.setHostQueue_nextGroup (s : State) (q : Nat) (x : HostQueue) : (s.setHostQueue q x).nextGroup = s.nextGroup := rfl
@[simp] theorem State.setHostQueue_priEnabled (s : State) (q : Nat) (x : HostQueue) : (s.setHostQueue q x).priEnabled = s.priEnabled := rfl
@[simp] theorem State.setHostQueue_priAllocation (s : State) (q : Nat) (x : HostQueue) : (s.setHostQueue q x).priAllocation = s.priAllocation := rfl
@[simp] theorem State.setHostQueue_teardowns (s : State) (q : Nat) (x : HostQueue) : (s.setHostQueue q x).teardowns = s.teardowns := rfl
@[simp] theorem State.setHostQueue_downPasids (s : State) (q : Nat) (x : HostQueue) : (s.setHostQueue q x).downPasids = s.downPasids := rfl
@[simp] theorem State.setHostQueue_migrations (s : State) (q : Nat) (x : HostQueue) : (s.setHostQueue q x).migrations = s.migrations := rfl
@[simp] theorem State.setHostQueue_swaps (s : State) (q : Nat) (x : HostQueue) : (s.setHostQueue q x).swaps = s.swaps := rfl
@[simp] theorem State.setHostQueue_jobs (s : State) (q : Nat) (x : HostQueue) : (s.setHostQueue q x).jobs = s.jobs := rfl
@[simp] theorem State.setHostQueue_deviceRanges (s : State) (q : Nat) (x : HostQueue) : (s.setHostQueue q x).deviceRanges = s.deviceRanges := rfl
@[simp] theorem State.setHostQueue_fill (s : State) (q : Nat) (x : HostQueue) : (s.setHostQueue q x).fill = s.fill := rfl
@[simp] theorem State.setHostQueue_hostMem (s : State) (q : Nat) (x : HostQueue) : (s.setHostQueue q x).hostMem = s.hostMem := rfl
@[simp] theorem State.setHostQueue_otherMem (s : State) (q : Nat) (x : HostQueue) : (s.setHostQueue q x).otherMem = s.otherMem := rfl
@[simp] theorem State.setHostQueue_otherTags (s : State) (q : Nat) (x : HostQueue) : (s.setHostQueue q x).otherTags = s.otherTags := rfl
@[simp] theorem State.setHostQueue_otherMaps (s : State) (q : Nat) (x : HostQueue) : (s.setHostQueue q x).otherMaps = s.otherMaps := rfl
@[simp] theorem State.setHostQueue_moved (s : State) (q : Nat) (x : HostQueue) : (s.setHostQueue q x).moved = s.moved := rfl
@[simp] theorem State.setHostQueue_hostWrites (s : State) (q : Nat) (x : HostQueue) : (s.setHostQueue q x).hostWrites = s.hostWrites := rfl
@[simp] theorem State.setHostQueue_hostSlots (s : State) (q : Nat) (x : HostQueue) : (s.setHostQueue q x).hostSlots = s.hostSlots := rfl
@[simp] theorem State.setHostQueue_lastMapped (s : State) (q : Nat) (x : HostQueue) : (s.setHostQueue q x).lastMapped = s.lastMapped := rfl
@[simp] theorem State.setHostQueue_journal (s : State) (q : Nat) (x : HostQueue) : (s.setHostQueue q x).journal = s.journal := rfl
@[simp] theorem State.setHostQueue_mirror (s : State) (q : Nat) (x : HostQueue) : (s.setHostQueue q x).mirror = s.mirror := rfl
@[simp] theorem State.setHostQueue_hostMaps (s : State) (q : Nat) (x : HostQueue) : (s.setHostQueue q x).hostMaps = s.hostMaps := rfl
@[simp] theorem State.setHostQueue_devStatus (s : State) (q : Nat) (x : HostQueue) : (s.setHostQueue q x).devStatus = s.devStatus := rfl
@[simp] theorem State.setHostQueue_flash (s : State) (q : Nat) (x : HostQueue) : (s.setHostQueue q x).flash = s.flash := rfl
@[simp] theorem State.setHostQueue_mailbox (s : State) (q : Nat) (x : HostQueue) : (s.setHostQueue q x).mailbox = s.mailbox := rfl
@[simp] theorem State.setHostQueue_firmware (s : State) (q : Nat) (x : HostQueue) : (s.setHostQueue q x).firmware = s.firmware := rfl
@[simp] theorem State.setHostQueue_withies (s : State) (q : Nat) (x : HostQueue) : (s.setHostQueue q x).withies = s.withies := rfl
@[simp] theorem State.setHostQueue_frames (s : State) (q : Nat) (x : HostQueue) : (s.setHostQueue q x).frames = s.frames := rfl
@[simp] theorem State.setHostQueue_lastArbitration (s : State) (q : Nat) (x : HostQueue) : (s.setHostQueue q x).lastArbitration = s.lastArbitration := rfl
@[simp] theorem State.setHostQueue_lastPhase (s : State) (q : Nat) (x : HostQueue) : (s.setHostQueue q x).lastPhase = s.lastPhase := rfl
@[simp] theorem State.setHostQueue_sent (s : State) (q : Nat) (x : HostQueue) : (s.setHostQueue q x).sent = s.sent := rfl
@[simp] theorem State.setHostQueue_spdm (s : State) (q : Nat) (x : HostQueue) : (s.setHostQueue q x).spdm = s.spdm := rfl

@[simp] theorem State.send_clk (s : State) (f : Flit) : (s.send f).clk = s.clk := by
  unfold State.send
  repeat first | rfl | split
@[simp] theorem State.send_failed (s : State) (f : Flit) : (s.send f).failed = s.failed := by
  unfold State.send
  repeat first | rfl | split
@[simp] theorem State.send_ctx (s : State) (f : Flit) : (s.send f).ctx = s.ctx := by
  unfold State.send
  repeat first | rfl | split
@[simp] theorem State.send_script (s : State) (f : Flit) : (s.send f).script = s.script := by
  unfold State.send
  repeat first | rfl | split
@[simp] theorem State.send_paced (s : State) (f : Flit) : (s.send f).paced = s.paced := by
  unfold State.send
  repeat first | rfl | split
@[simp] theorem State.send_calendar (s : State) (f : Flit) : (s.send f).calendar = s.calendar := by
  unfold State.send
  repeat first | rfl | split
@[simp] theorem State.send_draws (s : State) (f : Flit) : (s.send f).draws = s.draws := by
  unfold State.send
  repeat first | rfl | split
@[simp] theorem State.send_cores (s : State) (f : Flit) : (s.send f).cores = s.cores := by
  unfold State.send
  repeat first | rfl | split
@[simp] theorem State.send_clusters (s : State) (f : Flit) : (s.send f).clusters = s.clusters := by
  unfold State.send
  repeat first | rfl | split
@[simp] theorem State.send_slots (s : State) (f : Flit) : (s.send f).slots = s.slots := by
  unfold State.send
  repeat first | rfl | split
@[simp] theorem State.send_dies (s : State) (f : Flit) : (s.send f).dies = s.dies := by
  unfold State.send
  repeat first | rfl | split
@[simp] theorem State.send_norms (s : State) (f : Flit) : (s.send f).norms = s.norms := by
  unfold State.send
  repeat first | rfl | split
@[simp] theorem State.send_signal (s : State) (f : Flit) : (s.send f).signal = s.signal := by
  unfold State.send
  repeat first | rfl | split
@[simp] theorem State.send_stages (s : State) (f : Flit) : (s.send f).stages = s.stages := by
  unfold State.send
  repeat first | rfl | split
@[simp] theorem State.send_queues (s : State) (f : Flit) : (s.send f).queues = s.queues := by
  unfold State.send
  repeat first | rfl | split
@[simp] theorem State.send_tensors (s : State) (f : Flit) : (s.send f).tensors = s.tensors := by
  unfold State.send
  repeat first | rfl | split
@[simp] theorem State.send_buckets (s : State) (f : Flit) : (s.send f).buckets = s.buckets := by
  unfold State.send
  repeat first | rfl | split
@[simp] theorem State.send_remembered (s : State) (f : Flit) : (s.send f).remembered = s.remembered := by
  unfold State.send
  repeat first | rfl | split
@[simp] theorem State.send_contributions (s : State) (f : Flit) : (s.send f).contributions = s.contributions := by
  unfold State.send
  repeat first | rfl | split
@[simp] theorem State.send_earlyFailures (s : State) (f : Flit) : (s.send f).earlyFailures = s.earlyFailures := by
  unfold State.send
  repeat first | rfl | split
@[simp] theorem State.send_markCopies (s : State) (f : Flit) : (s.send f).markCopies = s.markCopies := by
  unfold State.send
  repeat first | rfl | split
@[simp] theorem State.send_failedBuckets (s : State) (f : Flit) : (s.send f).failedBuckets = s.failedBuckets := by
  unfold State.send
  repeat first | rfl | split
@[simp] theorem State.send_regs (s : State) (f : Flit) : (s.send f).regs = s.regs := by
  unfold State.send
  repeat first | rfl | split
@[simp] theorem State.send_ports (s : State) (f : Flit) : (s.send f).ports = s.ports := by
  unfold State.send
  repeat first | rfl | split
@[simp] theorem State.send_commands (s : State) (f : Flit) : (s.send f).commands = s.commands := by
  unfold State.send
  repeat first | rfl | split
@[simp] theorem State.send_nextEntry (s : State) (f : Flit) : (s.send f).nextEntry = s.nextEntry := by
  unfold State.send
  repeat first | rfl | split
@[simp] theorem State.send_reports (s : State) (f : Flit) : (s.send f).reports = s.reports := by
  unfold State.send
  repeat first | rfl | split
@[simp] theorem State.send_extents (s : State) (f : Flit) : (s.send f).extents = s.extents := by
  unfold State.send
  repeat first | rfl | split
@[simp] theorem State.send_invocations (s : State) (f : Flit) : (s.send f).invocations = s.invocations := by
  unfold State.send
  repeat first | rfl | split
@[simp] theorem State.send_nextInvocation (s : State) (f : Flit) : (s.send f).nextInvocation = s.nextInvocation := by
  unfold State.send
  repeat first | rfl | split
@[simp] theorem State.send_faults (s : State) (f : Flit) : (s.send f).faults = s.faults := by
  unfold State.send
  repeat first | rfl | split
@[simp] theorem State.send_owedMarks (s : State) (f : Flit) : (s.send f).owedMarks = s.owedMarks := by
  unfold State.send
  repeat first | rfl | split
@[simp] theorem State.send_invalidations (s : State) (f : Flit) : (s.send f).invalidations = s.invalidations := by
  unfold State.send
  repeat first | rfl | split
@[simp] theorem State.send_engineWaits (s : State) (f : Flit) : (s.send f).engineWaits = s.engineWaits := by
  unfold State.send
  repeat first | rfl | split
@[simp] theorem State.send_nextGroup (s : State) (f : Flit) : (s.send f).nextGroup = s.nextGroup := by
  unfold State.send
  repeat first | rfl | split
@[simp] theorem State.send_priEnabled (s : State) (f : Flit) : (s.send f).priEnabled = s.priEnabled := by
  unfold State.send
  repeat first | rfl | split
@[simp] theorem State.send_priAllocation (s : State) (f : Flit) : (s.send f).priAllocation = s.priAllocation := by
  unfold State.send
  repeat first | rfl | split
@[simp] theorem State.send_teardowns (s : State) (f : Flit) : (s.send f).teardowns = s.teardowns := by
  unfold State.send
  repeat first | rfl | split
@[simp] theorem State.send_downPasids (s : State) (f : Flit) : (s.send f).downPasids = s.downPasids := by
  unfold State.send
  repeat first | rfl | split
@[simp] theorem State.send_migrations (s : State) (f : Flit) : (s.send f).migrations = s.migrations := by
  unfold State.send
  repeat first | rfl | split
@[simp] theorem State.send_swaps (s : State) (f : Flit) : (s.send f).swaps = s.swaps := by
  unfold State.send
  repeat first | rfl | split
@[simp] theorem State.send_jobs (s : State) (f : Flit) : (s.send f).jobs = s.jobs := by
  unfold State.send
  repeat first | rfl | split
@[simp] theorem State.send_deviceRanges (s : State) (f : Flit) : (s.send f).deviceRanges = s.deviceRanges := by
  unfold State.send
  repeat first | rfl | split
@[simp] theorem State.send_fill (s : State) (f : Flit) : (s.send f).fill = s.fill := by
  unfold State.send
  repeat first | rfl | split
@[simp] theorem State.send_hostMem (s : State) (f : Flit) : (s.send f).hostMem = s.hostMem := by
  unfold State.send
  repeat first | rfl | split
@[simp] theorem State.send_otherMem (s : State) (f : Flit) : (s.send f).otherMem = s.otherMem := by
  unfold State.send
  repeat first | rfl | split
@[simp] theorem State.send_otherTags (s : State) (f : Flit) : (s.send f).otherTags = s.otherTags := by
  unfold State.send
  repeat first | rfl | split
@[simp] theorem State.send_otherMaps (s : State) (f : Flit) : (s.send f).otherMaps = s.otherMaps := by
  unfold State.send
  repeat first | rfl | split
@[simp] theorem State.send_moved (s : State) (f : Flit) : (s.send f).moved = s.moved := by
  unfold State.send
  repeat first | rfl | split
@[simp] theorem State.send_hostWrites (s : State) (f : Flit) : (s.send f).hostWrites = s.hostWrites := by
  unfold State.send
  repeat first | rfl | split
@[simp] theorem State.send_hostQueues (s : State) (f : Flit) : (s.send f).hostQueues = s.hostQueues := by
  unfold State.send
  repeat first | rfl | split
@[simp] theorem State.send_hostSlots (s : State) (f : Flit) : (s.send f).hostSlots = s.hostSlots := by
  unfold State.send
  repeat first | rfl | split
@[simp] theorem State.send_lastMapped (s : State) (f : Flit) : (s.send f).lastMapped = s.lastMapped := by
  unfold State.send
  repeat first | rfl | split
@[simp] theorem State.send_journal (s : State) (f : Flit) : (s.send f).journal = s.journal := by
  unfold State.send
  repeat first | rfl | split
@[simp] theorem State.send_mirror (s : State) (f : Flit) : (s.send f).mirror = s.mirror := by
  unfold State.send
  repeat first | rfl | split
@[simp] theorem State.send_hostMaps (s : State) (f : Flit) : (s.send f).hostMaps = s.hostMaps := by
  unfold State.send
  repeat first | rfl | split
@[simp] theorem State.send_devStatus (s : State) (f : Flit) : (s.send f).devStatus = s.devStatus := by
  unfold State.send
  repeat first | rfl | split
@[simp] theorem State.send_flash (s : State) (f : Flit) : (s.send f).flash = s.flash := by
  unfold State.send
  repeat first | rfl | split
@[simp] theorem State.send_mailbox (s : State) (f : Flit) : (s.send f).mailbox = s.mailbox := by
  unfold State.send
  repeat first | rfl | split
@[simp] theorem State.send_firmware (s : State) (f : Flit) : (s.send f).firmware = s.firmware := by
  unfold State.send
  repeat first | rfl | split
@[simp] theorem State.send_withies (s : State) (f : Flit) : (s.send f).withies = s.withies := by
  unfold State.send
  repeat first | rfl | split
@[simp] theorem State.send_frames (s : State) (f : Flit) : (s.send f).frames = s.frames := by
  unfold State.send
  repeat first | rfl | split
@[simp] theorem State.send_lastArbitration (s : State) (f : Flit) : (s.send f).lastArbitration = s.lastArbitration := by
  unfold State.send
  repeat first | rfl | split
@[simp] theorem State.send_lastPhase (s : State) (f : Flit) : (s.send f).lastPhase = s.lastPhase := by
  unfold State.send
  repeat first | rfl | split
@[simp] theorem State.send_spdm (s : State) (f : Flit) : (s.send f).spdm = s.spdm := by
  unfold State.send
  repeat first | rfl | split

@[simp] theorem State.schedule_clk (s : State) (clk : Nat) (d : Due) : (s.schedule clk d).clk = s.clk := rfl
@[simp] theorem State.schedule_failed (s : State) (clk : Nat) (d : Due) : (s.schedule clk d).failed = s.failed := rfl
@[simp] theorem State.schedule_ctx (s : State) (clk : Nat) (d : Due) : (s.schedule clk d).ctx = s.ctx := rfl
@[simp] theorem State.schedule_script (s : State) (clk : Nat) (d : Due) : (s.schedule clk d).script = s.script := rfl
@[simp] theorem State.schedule_paced (s : State) (clk : Nat) (d : Due) : (s.schedule clk d).paced = s.paced := rfl
@[simp] theorem State.schedule_draws (s : State) (clk : Nat) (d : Due) : (s.schedule clk d).draws = s.draws := rfl
@[simp] theorem State.schedule_cores (s : State) (clk : Nat) (d : Due) : (s.schedule clk d).cores = s.cores := rfl
@[simp] theorem State.schedule_clusters (s : State) (clk : Nat) (d : Due) : (s.schedule clk d).clusters = s.clusters := rfl
@[simp] theorem State.schedule_slots (s : State) (clk : Nat) (d : Due) : (s.schedule clk d).slots = s.slots := rfl
@[simp] theorem State.schedule_dies (s : State) (clk : Nat) (d : Due) : (s.schedule clk d).dies = s.dies := rfl
@[simp] theorem State.schedule_norms (s : State) (clk : Nat) (d : Due) : (s.schedule clk d).norms = s.norms := rfl
@[simp] theorem State.schedule_signal (s : State) (clk : Nat) (d : Due) : (s.schedule clk d).signal = s.signal := rfl
@[simp] theorem State.schedule_stages (s : State) (clk : Nat) (d : Due) : (s.schedule clk d).stages = s.stages := rfl
@[simp] theorem State.schedule_queues (s : State) (clk : Nat) (d : Due) : (s.schedule clk d).queues = s.queues := rfl
@[simp] theorem State.schedule_tensors (s : State) (clk : Nat) (d : Due) : (s.schedule clk d).tensors = s.tensors := rfl
@[simp] theorem State.schedule_buckets (s : State) (clk : Nat) (d : Due) : (s.schedule clk d).buckets = s.buckets := rfl
@[simp] theorem State.schedule_remembered (s : State) (clk : Nat) (d : Due) : (s.schedule clk d).remembered = s.remembered := rfl
@[simp] theorem State.schedule_contributions (s : State) (clk : Nat) (d : Due) : (s.schedule clk d).contributions = s.contributions := rfl
@[simp] theorem State.schedule_earlyFailures (s : State) (clk : Nat) (d : Due) : (s.schedule clk d).earlyFailures = s.earlyFailures := rfl
@[simp] theorem State.schedule_markCopies (s : State) (clk : Nat) (d : Due) : (s.schedule clk d).markCopies = s.markCopies := rfl
@[simp] theorem State.schedule_failedBuckets (s : State) (clk : Nat) (d : Due) : (s.schedule clk d).failedBuckets = s.failedBuckets := rfl
@[simp] theorem State.schedule_regs (s : State) (clk : Nat) (d : Due) : (s.schedule clk d).regs = s.regs := rfl
@[simp] theorem State.schedule_ports (s : State) (clk : Nat) (d : Due) : (s.schedule clk d).ports = s.ports := rfl
@[simp] theorem State.schedule_retries (s : State) (clk : Nat) (d : Due) : (s.schedule clk d).retries = s.retries := rfl
@[simp] theorem State.schedule_held (s : State) (clk : Nat) (d : Due) : (s.schedule clk d).held = s.held := rfl
@[simp] theorem State.schedule_commands (s : State) (clk : Nat) (d : Due) : (s.schedule clk d).commands = s.commands := rfl
@[simp] theorem State.schedule_nextEntry (s : State) (clk : Nat) (d : Due) : (s.schedule clk d).nextEntry = s.nextEntry := rfl
@[simp] theorem State.schedule_reports (s : State) (clk : Nat) (d : Due) : (s.schedule clk d).reports = s.reports := rfl
@[simp] theorem State.schedule_extents (s : State) (clk : Nat) (d : Due) : (s.schedule clk d).extents = s.extents := rfl
@[simp] theorem State.schedule_invocations (s : State) (clk : Nat) (d : Due) : (s.schedule clk d).invocations = s.invocations := rfl
@[simp] theorem State.schedule_nextInvocation (s : State) (clk : Nat) (d : Due) : (s.schedule clk d).nextInvocation = s.nextInvocation := rfl
@[simp] theorem State.schedule_faults (s : State) (clk : Nat) (d : Due) : (s.schedule clk d).faults = s.faults := rfl
@[simp] theorem State.schedule_owedMarks (s : State) (clk : Nat) (d : Due) : (s.schedule clk d).owedMarks = s.owedMarks := rfl
@[simp] theorem State.schedule_invalidations (s : State) (clk : Nat) (d : Due) : (s.schedule clk d).invalidations = s.invalidations := rfl
@[simp] theorem State.schedule_engineWaits (s : State) (clk : Nat) (d : Due) : (s.schedule clk d).engineWaits = s.engineWaits := rfl
@[simp] theorem State.schedule_nextGroup (s : State) (clk : Nat) (d : Due) : (s.schedule clk d).nextGroup = s.nextGroup := rfl
@[simp] theorem State.schedule_priEnabled (s : State) (clk : Nat) (d : Due) : (s.schedule clk d).priEnabled = s.priEnabled := rfl
@[simp] theorem State.schedule_priAllocation (s : State) (clk : Nat) (d : Due) : (s.schedule clk d).priAllocation = s.priAllocation := rfl
@[simp] theorem State.schedule_teardowns (s : State) (clk : Nat) (d : Due) : (s.schedule clk d).teardowns = s.teardowns := rfl
@[simp] theorem State.schedule_downPasids (s : State) (clk : Nat) (d : Due) : (s.schedule clk d).downPasids = s.downPasids := rfl
@[simp] theorem State.schedule_migrations (s : State) (clk : Nat) (d : Due) : (s.schedule clk d).migrations = s.migrations := rfl
@[simp] theorem State.schedule_swaps (s : State) (clk : Nat) (d : Due) : (s.schedule clk d).swaps = s.swaps := rfl
@[simp] theorem State.schedule_jobs (s : State) (clk : Nat) (d : Due) : (s.schedule clk d).jobs = s.jobs := rfl
@[simp] theorem State.schedule_deviceRanges (s : State) (clk : Nat) (d : Due) : (s.schedule clk d).deviceRanges = s.deviceRanges := rfl
@[simp] theorem State.schedule_fill (s : State) (clk : Nat) (d : Due) : (s.schedule clk d).fill = s.fill := rfl
@[simp] theorem State.schedule_hostMem (s : State) (clk : Nat) (d : Due) : (s.schedule clk d).hostMem = s.hostMem := rfl
@[simp] theorem State.schedule_otherMem (s : State) (clk : Nat) (d : Due) : (s.schedule clk d).otherMem = s.otherMem := rfl
@[simp] theorem State.schedule_otherTags (s : State) (clk : Nat) (d : Due) : (s.schedule clk d).otherTags = s.otherTags := rfl
@[simp] theorem State.schedule_otherMaps (s : State) (clk : Nat) (d : Due) : (s.schedule clk d).otherMaps = s.otherMaps := rfl
@[simp] theorem State.schedule_moved (s : State) (clk : Nat) (d : Due) : (s.schedule clk d).moved = s.moved := rfl
@[simp] theorem State.schedule_hostWrites (s : State) (clk : Nat) (d : Due) : (s.schedule clk d).hostWrites = s.hostWrites := rfl
@[simp] theorem State.schedule_hostQueues (s : State) (clk : Nat) (d : Due) : (s.schedule clk d).hostQueues = s.hostQueues := rfl
@[simp] theorem State.schedule_hostSlots (s : State) (clk : Nat) (d : Due) : (s.schedule clk d).hostSlots = s.hostSlots := rfl
@[simp] theorem State.schedule_lastMapped (s : State) (clk : Nat) (d : Due) : (s.schedule clk d).lastMapped = s.lastMapped := rfl
@[simp] theorem State.schedule_journal (s : State) (clk : Nat) (d : Due) : (s.schedule clk d).journal = s.journal := rfl
@[simp] theorem State.schedule_mirror (s : State) (clk : Nat) (d : Due) : (s.schedule clk d).mirror = s.mirror := rfl
@[simp] theorem State.schedule_hostMaps (s : State) (clk : Nat) (d : Due) : (s.schedule clk d).hostMaps = s.hostMaps := rfl
@[simp] theorem State.schedule_devStatus (s : State) (clk : Nat) (d : Due) : (s.schedule clk d).devStatus = s.devStatus := rfl
@[simp] theorem State.schedule_flash (s : State) (clk : Nat) (d : Due) : (s.schedule clk d).flash = s.flash := rfl
@[simp] theorem State.schedule_mailbox (s : State) (clk : Nat) (d : Due) : (s.schedule clk d).mailbox = s.mailbox := rfl
@[simp] theorem State.schedule_firmware (s : State) (clk : Nat) (d : Due) : (s.schedule clk d).firmware = s.firmware := rfl
@[simp] theorem State.schedule_withies (s : State) (clk : Nat) (d : Due) : (s.schedule clk d).withies = s.withies := rfl
@[simp] theorem State.schedule_frames (s : State) (clk : Nat) (d : Due) : (s.schedule clk d).frames = s.frames := rfl
@[simp] theorem State.schedule_lastArbitration (s : State) (clk : Nat) (d : Due) : (s.schedule clk d).lastArbitration = s.lastArbitration := rfl
@[simp] theorem State.schedule_lastPhase (s : State) (clk : Nat) (d : Due) : (s.schedule clk d).lastPhase = s.lastPhase := rfl
@[simp] theorem State.schedule_sent (s : State) (clk : Nat) (d : Due) : (s.schedule clk d).sent = s.sent := rfl
@[simp] theorem State.schedule_spdm (s : State) (clk : Nat) (d : Due) : (s.schedule clk d).spdm = s.spdm := rfl

@[simp] theorem State.land_clk (s : State) (lat : Nat) (w : RegWrite) : (s.land lat w).clk = s.clk := rfl
@[simp] theorem State.land_failed (s : State) (lat : Nat) (w : RegWrite) : (s.land lat w).failed = s.failed := rfl
@[simp] theorem State.land_ctx (s : State) (lat : Nat) (w : RegWrite) : (s.land lat w).ctx = s.ctx := rfl
@[simp] theorem State.land_script (s : State) (lat : Nat) (w : RegWrite) : (s.land lat w).script = s.script := rfl
@[simp] theorem State.land_paced (s : State) (lat : Nat) (w : RegWrite) : (s.land lat w).paced = s.paced := rfl
@[simp] theorem State.land_calendar (s : State) (lat : Nat) (w : RegWrite) : (s.land lat w).calendar = s.calendar := rfl
@[simp] theorem State.land_draws (s : State) (lat : Nat) (w : RegWrite) : (s.land lat w).draws = s.draws := rfl
@[simp] theorem State.land_clusters (s : State) (lat : Nat) (w : RegWrite) : (s.land lat w).clusters = s.clusters := rfl
@[simp] theorem State.land_slots (s : State) (lat : Nat) (w : RegWrite) : (s.land lat w).slots = s.slots := rfl
@[simp] theorem State.land_dies (s : State) (lat : Nat) (w : RegWrite) : (s.land lat w).dies = s.dies := rfl
@[simp] theorem State.land_norms (s : State) (lat : Nat) (w : RegWrite) : (s.land lat w).norms = s.norms := rfl
@[simp] theorem State.land_signal (s : State) (lat : Nat) (w : RegWrite) : (s.land lat w).signal = s.signal := rfl
@[simp] theorem State.land_stages (s : State) (lat : Nat) (w : RegWrite) : (s.land lat w).stages = s.stages := rfl
@[simp] theorem State.land_queues (s : State) (lat : Nat) (w : RegWrite) : (s.land lat w).queues = s.queues := rfl
@[simp] theorem State.land_tensors (s : State) (lat : Nat) (w : RegWrite) : (s.land lat w).tensors = s.tensors := rfl
@[simp] theorem State.land_buckets (s : State) (lat : Nat) (w : RegWrite) : (s.land lat w).buckets = s.buckets := rfl
@[simp] theorem State.land_remembered (s : State) (lat : Nat) (w : RegWrite) : (s.land lat w).remembered = s.remembered := rfl
@[simp] theorem State.land_contributions (s : State) (lat : Nat) (w : RegWrite) : (s.land lat w).contributions = s.contributions := rfl
@[simp] theorem State.land_earlyFailures (s : State) (lat : Nat) (w : RegWrite) : (s.land lat w).earlyFailures = s.earlyFailures := rfl
@[simp] theorem State.land_markCopies (s : State) (lat : Nat) (w : RegWrite) : (s.land lat w).markCopies = s.markCopies := rfl
@[simp] theorem State.land_failedBuckets (s : State) (lat : Nat) (w : RegWrite) : (s.land lat w).failedBuckets = s.failedBuckets := rfl
@[simp] theorem State.land_regs (s : State) (lat : Nat) (w : RegWrite) : (s.land lat w).regs = s.regs := rfl
@[simp] theorem State.land_ports (s : State) (lat : Nat) (w : RegWrite) : (s.land lat w).ports = s.ports := rfl
@[simp] theorem State.land_retries (s : State) (lat : Nat) (w : RegWrite) : (s.land lat w).retries = s.retries := rfl
@[simp] theorem State.land_held (s : State) (lat : Nat) (w : RegWrite) : (s.land lat w).held = s.held := rfl
@[simp] theorem State.land_commands (s : State) (lat : Nat) (w : RegWrite) : (s.land lat w).commands = s.commands := rfl
@[simp] theorem State.land_nextEntry (s : State) (lat : Nat) (w : RegWrite) : (s.land lat w).nextEntry = s.nextEntry := rfl
@[simp] theorem State.land_reports (s : State) (lat : Nat) (w : RegWrite) : (s.land lat w).reports = s.reports := rfl
@[simp] theorem State.land_extents (s : State) (lat : Nat) (w : RegWrite) : (s.land lat w).extents = s.extents := rfl
@[simp] theorem State.land_invocations (s : State) (lat : Nat) (w : RegWrite) : (s.land lat w).invocations = s.invocations := rfl
@[simp] theorem State.land_nextInvocation (s : State) (lat : Nat) (w : RegWrite) : (s.land lat w).nextInvocation = s.nextInvocation := rfl
@[simp] theorem State.land_faults (s : State) (lat : Nat) (w : RegWrite) : (s.land lat w).faults = s.faults := rfl
@[simp] theorem State.land_owedMarks (s : State) (lat : Nat) (w : RegWrite) : (s.land lat w).owedMarks = s.owedMarks := rfl
@[simp] theorem State.land_invalidations (s : State) (lat : Nat) (w : RegWrite) : (s.land lat w).invalidations = s.invalidations := rfl
@[simp] theorem State.land_engineWaits (s : State) (lat : Nat) (w : RegWrite) : (s.land lat w).engineWaits = s.engineWaits := rfl
@[simp] theorem State.land_nextGroup (s : State) (lat : Nat) (w : RegWrite) : (s.land lat w).nextGroup = s.nextGroup := rfl
@[simp] theorem State.land_priEnabled (s : State) (lat : Nat) (w : RegWrite) : (s.land lat w).priEnabled = s.priEnabled := rfl
@[simp] theorem State.land_priAllocation (s : State) (lat : Nat) (w : RegWrite) : (s.land lat w).priAllocation = s.priAllocation := rfl
@[simp] theorem State.land_teardowns (s : State) (lat : Nat) (w : RegWrite) : (s.land lat w).teardowns = s.teardowns := rfl
@[simp] theorem State.land_downPasids (s : State) (lat : Nat) (w : RegWrite) : (s.land lat w).downPasids = s.downPasids := rfl
@[simp] theorem State.land_migrations (s : State) (lat : Nat) (w : RegWrite) : (s.land lat w).migrations = s.migrations := rfl
@[simp] theorem State.land_swaps (s : State) (lat : Nat) (w : RegWrite) : (s.land lat w).swaps = s.swaps := rfl
@[simp] theorem State.land_jobs (s : State) (lat : Nat) (w : RegWrite) : (s.land lat w).jobs = s.jobs := rfl
@[simp] theorem State.land_deviceRanges (s : State) (lat : Nat) (w : RegWrite) : (s.land lat w).deviceRanges = s.deviceRanges := rfl
@[simp] theorem State.land_fill (s : State) (lat : Nat) (w : RegWrite) : (s.land lat w).fill = s.fill := rfl
@[simp] theorem State.land_hostMem (s : State) (lat : Nat) (w : RegWrite) : (s.land lat w).hostMem = s.hostMem := rfl
@[simp] theorem State.land_otherMem (s : State) (lat : Nat) (w : RegWrite) : (s.land lat w).otherMem = s.otherMem := rfl
@[simp] theorem State.land_otherTags (s : State) (lat : Nat) (w : RegWrite) : (s.land lat w).otherTags = s.otherTags := rfl
@[simp] theorem State.land_otherMaps (s : State) (lat : Nat) (w : RegWrite) : (s.land lat w).otherMaps = s.otherMaps := rfl
@[simp] theorem State.land_moved (s : State) (lat : Nat) (w : RegWrite) : (s.land lat w).moved = s.moved := rfl
@[simp] theorem State.land_hostWrites (s : State) (lat : Nat) (w : RegWrite) : (s.land lat w).hostWrites = s.hostWrites := rfl
@[simp] theorem State.land_hostQueues (s : State) (lat : Nat) (w : RegWrite) : (s.land lat w).hostQueues = s.hostQueues := rfl
@[simp] theorem State.land_hostSlots (s : State) (lat : Nat) (w : RegWrite) : (s.land lat w).hostSlots = s.hostSlots := rfl
@[simp] theorem State.land_lastMapped (s : State) (lat : Nat) (w : RegWrite) : (s.land lat w).lastMapped = s.lastMapped := rfl
@[simp] theorem State.land_journal (s : State) (lat : Nat) (w : RegWrite) : (s.land lat w).journal = s.journal := rfl
@[simp] theorem State.land_mirror (s : State) (lat : Nat) (w : RegWrite) : (s.land lat w).mirror = s.mirror := rfl
@[simp] theorem State.land_hostMaps (s : State) (lat : Nat) (w : RegWrite) : (s.land lat w).hostMaps = s.hostMaps := rfl
@[simp] theorem State.land_devStatus (s : State) (lat : Nat) (w : RegWrite) : (s.land lat w).devStatus = s.devStatus := rfl
@[simp] theorem State.land_flash (s : State) (lat : Nat) (w : RegWrite) : (s.land lat w).flash = s.flash := rfl
@[simp] theorem State.land_mailbox (s : State) (lat : Nat) (w : RegWrite) : (s.land lat w).mailbox = s.mailbox := rfl
@[simp] theorem State.land_firmware (s : State) (lat : Nat) (w : RegWrite) : (s.land lat w).firmware = s.firmware := rfl
@[simp] theorem State.land_withies (s : State) (lat : Nat) (w : RegWrite) : (s.land lat w).withies = s.withies := rfl
@[simp] theorem State.land_frames (s : State) (lat : Nat) (w : RegWrite) : (s.land lat w).frames = s.frames := rfl
@[simp] theorem State.land_lastArbitration (s : State) (lat : Nat) (w : RegWrite) : (s.land lat w).lastArbitration = s.lastArbitration := rfl
@[simp] theorem State.land_lastPhase (s : State) (lat : Nat) (w : RegWrite) : (s.land lat w).lastPhase = s.lastPhase := rfl
@[simp] theorem State.land_sent (s : State) (lat : Nat) (w : RegWrite) : (s.land lat w).sent = s.sent := rfl
@[simp] theorem State.land_spdm (s : State) (lat : Nat) (w : RegWrite) : (s.land lat w).spdm = s.spdm := rfl

@[simp] theorem State.hold_clk (s : State) : (s.hold).clk = s.clk := rfl
@[simp] theorem State.hold_failed (s : State) : (s.hold).failed = s.failed := rfl
@[simp] theorem State.hold_script (s : State) : (s.hold).script = s.script := rfl
@[simp] theorem State.hold_paced (s : State) : (s.hold).paced = s.paced := rfl
@[simp] theorem State.hold_calendar (s : State) : (s.hold).calendar = s.calendar := rfl
@[simp] theorem State.hold_draws (s : State) : (s.hold).draws = s.draws := rfl
@[simp] theorem State.hold_cores (s : State) : (s.hold).cores = s.cores := rfl
@[simp] theorem State.hold_clusters (s : State) : (s.hold).clusters = s.clusters := rfl
@[simp] theorem State.hold_slots (s : State) : (s.hold).slots = s.slots := rfl
@[simp] theorem State.hold_dies (s : State) : (s.hold).dies = s.dies := rfl
@[simp] theorem State.hold_norms (s : State) : (s.hold).norms = s.norms := rfl
@[simp] theorem State.hold_signal (s : State) : (s.hold).signal = s.signal := rfl
@[simp] theorem State.hold_stages (s : State) : (s.hold).stages = s.stages := rfl
@[simp] theorem State.hold_queues (s : State) : (s.hold).queues = s.queues := rfl
@[simp] theorem State.hold_tensors (s : State) : (s.hold).tensors = s.tensors := rfl
@[simp] theorem State.hold_buckets (s : State) : (s.hold).buckets = s.buckets := rfl
@[simp] theorem State.hold_remembered (s : State) : (s.hold).remembered = s.remembered := rfl
@[simp] theorem State.hold_contributions (s : State) : (s.hold).contributions = s.contributions := rfl
@[simp] theorem State.hold_earlyFailures (s : State) : (s.hold).earlyFailures = s.earlyFailures := rfl
@[simp] theorem State.hold_markCopies (s : State) : (s.hold).markCopies = s.markCopies := rfl
@[simp] theorem State.hold_failedBuckets (s : State) : (s.hold).failedBuckets = s.failedBuckets := rfl
@[simp] theorem State.hold_regs (s : State) : (s.hold).regs = s.regs := rfl
@[simp] theorem State.hold_ports (s : State) : (s.hold).ports = s.ports := rfl
@[simp] theorem State.hold_retries (s : State) : (s.hold).retries = s.retries := rfl
@[simp] theorem State.hold_held (s : State) : (s.hold).held = s.held := rfl
@[simp] theorem State.hold_commands (s : State) : (s.hold).commands = s.commands := rfl
@[simp] theorem State.hold_nextEntry (s : State) : (s.hold).nextEntry = s.nextEntry := rfl
@[simp] theorem State.hold_reports (s : State) : (s.hold).reports = s.reports := rfl
@[simp] theorem State.hold_extents (s : State) : (s.hold).extents = s.extents := rfl
@[simp] theorem State.hold_invocations (s : State) : (s.hold).invocations = s.invocations := rfl
@[simp] theorem State.hold_nextInvocation (s : State) : (s.hold).nextInvocation = s.nextInvocation := rfl
@[simp] theorem State.hold_faults (s : State) : (s.hold).faults = s.faults := rfl
@[simp] theorem State.hold_owedMarks (s : State) : (s.hold).owedMarks = s.owedMarks := rfl
@[simp] theorem State.hold_invalidations (s : State) : (s.hold).invalidations = s.invalidations := rfl
@[simp] theorem State.hold_engineWaits (s : State) : (s.hold).engineWaits = s.engineWaits := rfl
@[simp] theorem State.hold_nextGroup (s : State) : (s.hold).nextGroup = s.nextGroup := rfl
@[simp] theorem State.hold_priEnabled (s : State) : (s.hold).priEnabled = s.priEnabled := rfl
@[simp] theorem State.hold_priAllocation (s : State) : (s.hold).priAllocation = s.priAllocation := rfl
@[simp] theorem State.hold_teardowns (s : State) : (s.hold).teardowns = s.teardowns := rfl
@[simp] theorem State.hold_downPasids (s : State) : (s.hold).downPasids = s.downPasids := rfl
@[simp] theorem State.hold_migrations (s : State) : (s.hold).migrations = s.migrations := rfl
@[simp] theorem State.hold_swaps (s : State) : (s.hold).swaps = s.swaps := rfl
@[simp] theorem State.hold_jobs (s : State) : (s.hold).jobs = s.jobs := rfl
@[simp] theorem State.hold_deviceRanges (s : State) : (s.hold).deviceRanges = s.deviceRanges := rfl
@[simp] theorem State.hold_fill (s : State) : (s.hold).fill = s.fill := rfl
@[simp] theorem State.hold_hostMem (s : State) : (s.hold).hostMem = s.hostMem := rfl
@[simp] theorem State.hold_otherMem (s : State) : (s.hold).otherMem = s.otherMem := rfl
@[simp] theorem State.hold_otherTags (s : State) : (s.hold).otherTags = s.otherTags := rfl
@[simp] theorem State.hold_otherMaps (s : State) : (s.hold).otherMaps = s.otherMaps := rfl
@[simp] theorem State.hold_moved (s : State) : (s.hold).moved = s.moved := rfl
@[simp] theorem State.hold_hostWrites (s : State) : (s.hold).hostWrites = s.hostWrites := rfl
@[simp] theorem State.hold_hostQueues (s : State) : (s.hold).hostQueues = s.hostQueues := rfl
@[simp] theorem State.hold_hostSlots (s : State) : (s.hold).hostSlots = s.hostSlots := rfl
@[simp] theorem State.hold_lastMapped (s : State) : (s.hold).lastMapped = s.lastMapped := rfl
@[simp] theorem State.hold_journal (s : State) : (s.hold).journal = s.journal := rfl
@[simp] theorem State.hold_mirror (s : State) : (s.hold).mirror = s.mirror := rfl
@[simp] theorem State.hold_hostMaps (s : State) : (s.hold).hostMaps = s.hostMaps := rfl
@[simp] theorem State.hold_devStatus (s : State) : (s.hold).devStatus = s.devStatus := rfl
@[simp] theorem State.hold_flash (s : State) : (s.hold).flash = s.flash := rfl
@[simp] theorem State.hold_mailbox (s : State) : (s.hold).mailbox = s.mailbox := rfl
@[simp] theorem State.hold_firmware (s : State) : (s.hold).firmware = s.firmware := rfl
@[simp] theorem State.hold_withies (s : State) : (s.hold).withies = s.withies := rfl
@[simp] theorem State.hold_frames (s : State) : (s.hold).frames = s.frames := rfl
@[simp] theorem State.hold_lastArbitration (s : State) : (s.hold).lastArbitration = s.lastArbitration := rfl
@[simp] theorem State.hold_lastPhase (s : State) : (s.hold).lastPhase = s.lastPhase := rfl
@[simp] theorem State.hold_sent (s : State) : (s.hold).sent = s.sent := rfl
@[simp] theorem State.hold_spdm (s : State) : (s.hold).spdm = s.spdm := rfl

@[simp] theorem State.setGap_clk (s : State) (g : Nat) : (s.setGap g).clk = s.clk := rfl
@[simp] theorem State.setGap_failed (s : State) (g : Nat) : (s.setGap g).failed = s.failed := rfl
@[simp] theorem State.setGap_script (s : State) (g : Nat) : (s.setGap g).script = s.script := rfl
@[simp] theorem State.setGap_paced (s : State) (g : Nat) : (s.setGap g).paced = s.paced := rfl
@[simp] theorem State.setGap_calendar (s : State) (g : Nat) : (s.setGap g).calendar = s.calendar := rfl
@[simp] theorem State.setGap_draws (s : State) (g : Nat) : (s.setGap g).draws = s.draws := rfl
@[simp] theorem State.setGap_cores (s : State) (g : Nat) : (s.setGap g).cores = s.cores := rfl
@[simp] theorem State.setGap_clusters (s : State) (g : Nat) : (s.setGap g).clusters = s.clusters := rfl
@[simp] theorem State.setGap_slots (s : State) (g : Nat) : (s.setGap g).slots = s.slots := rfl
@[simp] theorem State.setGap_dies (s : State) (g : Nat) : (s.setGap g).dies = s.dies := rfl
@[simp] theorem State.setGap_norms (s : State) (g : Nat) : (s.setGap g).norms = s.norms := rfl
@[simp] theorem State.setGap_signal (s : State) (g : Nat) : (s.setGap g).signal = s.signal := rfl
@[simp] theorem State.setGap_stages (s : State) (g : Nat) : (s.setGap g).stages = s.stages := rfl
@[simp] theorem State.setGap_queues (s : State) (g : Nat) : (s.setGap g).queues = s.queues := rfl
@[simp] theorem State.setGap_tensors (s : State) (g : Nat) : (s.setGap g).tensors = s.tensors := rfl
@[simp] theorem State.setGap_buckets (s : State) (g : Nat) : (s.setGap g).buckets = s.buckets := rfl
@[simp] theorem State.setGap_remembered (s : State) (g : Nat) : (s.setGap g).remembered = s.remembered := rfl
@[simp] theorem State.setGap_contributions (s : State) (g : Nat) : (s.setGap g).contributions = s.contributions := rfl
@[simp] theorem State.setGap_earlyFailures (s : State) (g : Nat) : (s.setGap g).earlyFailures = s.earlyFailures := rfl
@[simp] theorem State.setGap_markCopies (s : State) (g : Nat) : (s.setGap g).markCopies = s.markCopies := rfl
@[simp] theorem State.setGap_failedBuckets (s : State) (g : Nat) : (s.setGap g).failedBuckets = s.failedBuckets := rfl
@[simp] theorem State.setGap_regs (s : State) (g : Nat) : (s.setGap g).regs = s.regs := rfl
@[simp] theorem State.setGap_ports (s : State) (g : Nat) : (s.setGap g).ports = s.ports := rfl
@[simp] theorem State.setGap_retries (s : State) (g : Nat) : (s.setGap g).retries = s.retries := rfl
@[simp] theorem State.setGap_held (s : State) (g : Nat) : (s.setGap g).held = s.held := rfl
@[simp] theorem State.setGap_commands (s : State) (g : Nat) : (s.setGap g).commands = s.commands := rfl
@[simp] theorem State.setGap_nextEntry (s : State) (g : Nat) : (s.setGap g).nextEntry = s.nextEntry := rfl
@[simp] theorem State.setGap_reports (s : State) (g : Nat) : (s.setGap g).reports = s.reports := rfl
@[simp] theorem State.setGap_extents (s : State) (g : Nat) : (s.setGap g).extents = s.extents := rfl
@[simp] theorem State.setGap_invocations (s : State) (g : Nat) : (s.setGap g).invocations = s.invocations := rfl
@[simp] theorem State.setGap_nextInvocation (s : State) (g : Nat) : (s.setGap g).nextInvocation = s.nextInvocation := rfl
@[simp] theorem State.setGap_faults (s : State) (g : Nat) : (s.setGap g).faults = s.faults := rfl
@[simp] theorem State.setGap_owedMarks (s : State) (g : Nat) : (s.setGap g).owedMarks = s.owedMarks := rfl
@[simp] theorem State.setGap_invalidations (s : State) (g : Nat) : (s.setGap g).invalidations = s.invalidations := rfl
@[simp] theorem State.setGap_engineWaits (s : State) (g : Nat) : (s.setGap g).engineWaits = s.engineWaits := rfl
@[simp] theorem State.setGap_nextGroup (s : State) (g : Nat) : (s.setGap g).nextGroup = s.nextGroup := rfl
@[simp] theorem State.setGap_priEnabled (s : State) (g : Nat) : (s.setGap g).priEnabled = s.priEnabled := rfl
@[simp] theorem State.setGap_priAllocation (s : State) (g : Nat) : (s.setGap g).priAllocation = s.priAllocation := rfl
@[simp] theorem State.setGap_teardowns (s : State) (g : Nat) : (s.setGap g).teardowns = s.teardowns := rfl
@[simp] theorem State.setGap_downPasids (s : State) (g : Nat) : (s.setGap g).downPasids = s.downPasids := rfl
@[simp] theorem State.setGap_migrations (s : State) (g : Nat) : (s.setGap g).migrations = s.migrations := rfl
@[simp] theorem State.setGap_swaps (s : State) (g : Nat) : (s.setGap g).swaps = s.swaps := rfl
@[simp] theorem State.setGap_jobs (s : State) (g : Nat) : (s.setGap g).jobs = s.jobs := rfl
@[simp] theorem State.setGap_deviceRanges (s : State) (g : Nat) : (s.setGap g).deviceRanges = s.deviceRanges := rfl
@[simp] theorem State.setGap_fill (s : State) (g : Nat) : (s.setGap g).fill = s.fill := rfl
@[simp] theorem State.setGap_hostMem (s : State) (g : Nat) : (s.setGap g).hostMem = s.hostMem := rfl
@[simp] theorem State.setGap_otherMem (s : State) (g : Nat) : (s.setGap g).otherMem = s.otherMem := rfl
@[simp] theorem State.setGap_otherTags (s : State) (g : Nat) : (s.setGap g).otherTags = s.otherTags := rfl
@[simp] theorem State.setGap_otherMaps (s : State) (g : Nat) : (s.setGap g).otherMaps = s.otherMaps := rfl
@[simp] theorem State.setGap_moved (s : State) (g : Nat) : (s.setGap g).moved = s.moved := rfl
@[simp] theorem State.setGap_hostWrites (s : State) (g : Nat) : (s.setGap g).hostWrites = s.hostWrites := rfl
@[simp] theorem State.setGap_hostQueues (s : State) (g : Nat) : (s.setGap g).hostQueues = s.hostQueues := rfl
@[simp] theorem State.setGap_hostSlots (s : State) (g : Nat) : (s.setGap g).hostSlots = s.hostSlots := rfl
@[simp] theorem State.setGap_lastMapped (s : State) (g : Nat) : (s.setGap g).lastMapped = s.lastMapped := rfl
@[simp] theorem State.setGap_journal (s : State) (g : Nat) : (s.setGap g).journal = s.journal := rfl
@[simp] theorem State.setGap_mirror (s : State) (g : Nat) : (s.setGap g).mirror = s.mirror := rfl
@[simp] theorem State.setGap_hostMaps (s : State) (g : Nat) : (s.setGap g).hostMaps = s.hostMaps := rfl
@[simp] theorem State.setGap_devStatus (s : State) (g : Nat) : (s.setGap g).devStatus = s.devStatus := rfl
@[simp] theorem State.setGap_flash (s : State) (g : Nat) : (s.setGap g).flash = s.flash := rfl
@[simp] theorem State.setGap_mailbox (s : State) (g : Nat) : (s.setGap g).mailbox = s.mailbox := rfl
@[simp] theorem State.setGap_firmware (s : State) (g : Nat) : (s.setGap g).firmware = s.firmware := rfl
@[simp] theorem State.setGap_withies (s : State) (g : Nat) : (s.setGap g).withies = s.withies := rfl
@[simp] theorem State.setGap_frames (s : State) (g : Nat) : (s.setGap g).frames = s.frames := rfl
@[simp] theorem State.setGap_lastArbitration (s : State) (g : Nat) : (s.setGap g).lastArbitration = s.lastArbitration := rfl
@[simp] theorem State.setGap_lastPhase (s : State) (g : Nat) : (s.setGap g).lastPhase = s.lastPhase := rfl
@[simp] theorem State.setGap_sent (s : State) (g : Nat) : (s.setGap g).sent = s.sent := rfl
@[simp] theorem State.setGap_spdm (s : State) (g : Nat) : (s.setGap g).spdm = s.spdm := rfl

@[simp] theorem State.transfer_clk (s : State) (a g : Nat) : (s.transfer a g).clk = s.clk := rfl
@[simp] theorem State.transfer_failed (s : State) (a g : Nat) : (s.transfer a g).failed = s.failed := rfl
@[simp] theorem State.transfer_script (s : State) (a g : Nat) : (s.transfer a g).script = s.script := rfl
@[simp] theorem State.transfer_paced (s : State) (a g : Nat) : (s.transfer a g).paced = s.paced := rfl
@[simp] theorem State.transfer_calendar (s : State) (a g : Nat) : (s.transfer a g).calendar = s.calendar := rfl
@[simp] theorem State.transfer_draws (s : State) (a g : Nat) : (s.transfer a g).draws = s.draws := rfl
@[simp] theorem State.transfer_cores (s : State) (a g : Nat) : (s.transfer a g).cores = s.cores := rfl
@[simp] theorem State.transfer_clusters (s : State) (a g : Nat) : (s.transfer a g).clusters = s.clusters := rfl
@[simp] theorem State.transfer_slots (s : State) (a g : Nat) : (s.transfer a g).slots = s.slots := rfl
@[simp] theorem State.transfer_dies (s : State) (a g : Nat) : (s.transfer a g).dies = s.dies := rfl
@[simp] theorem State.transfer_norms (s : State) (a g : Nat) : (s.transfer a g).norms = s.norms := rfl
@[simp] theorem State.transfer_signal (s : State) (a g : Nat) : (s.transfer a g).signal = s.signal := rfl
@[simp] theorem State.transfer_stages (s : State) (a g : Nat) : (s.transfer a g).stages = s.stages := rfl
@[simp] theorem State.transfer_queues (s : State) (a g : Nat) : (s.transfer a g).queues = s.queues := rfl
@[simp] theorem State.transfer_tensors (s : State) (a g : Nat) : (s.transfer a g).tensors = s.tensors := rfl
@[simp] theorem State.transfer_buckets (s : State) (a g : Nat) : (s.transfer a g).buckets = s.buckets := rfl
@[simp] theorem State.transfer_remembered (s : State) (a g : Nat) : (s.transfer a g).remembered = s.remembered := rfl
@[simp] theorem State.transfer_contributions (s : State) (a g : Nat) : (s.transfer a g).contributions = s.contributions := rfl
@[simp] theorem State.transfer_earlyFailures (s : State) (a g : Nat) : (s.transfer a g).earlyFailures = s.earlyFailures := rfl
@[simp] theorem State.transfer_markCopies (s : State) (a g : Nat) : (s.transfer a g).markCopies = s.markCopies := rfl
@[simp] theorem State.transfer_failedBuckets (s : State) (a g : Nat) : (s.transfer a g).failedBuckets = s.failedBuckets := rfl
@[simp] theorem State.transfer_regs (s : State) (a g : Nat) : (s.transfer a g).regs = s.regs := rfl
@[simp] theorem State.transfer_ports (s : State) (a g : Nat) : (s.transfer a g).ports = s.ports := rfl
@[simp] theorem State.transfer_retries (s : State) (a g : Nat) : (s.transfer a g).retries = s.retries := rfl
@[simp] theorem State.transfer_held (s : State) (a g : Nat) : (s.transfer a g).held = s.held := rfl
@[simp] theorem State.transfer_commands (s : State) (a g : Nat) : (s.transfer a g).commands = s.commands := rfl
@[simp] theorem State.transfer_nextEntry (s : State) (a g : Nat) : (s.transfer a g).nextEntry = s.nextEntry := rfl
@[simp] theorem State.transfer_reports (s : State) (a g : Nat) : (s.transfer a g).reports = s.reports := rfl
@[simp] theorem State.transfer_extents (s : State) (a g : Nat) : (s.transfer a g).extents = s.extents := rfl
@[simp] theorem State.transfer_invocations (s : State) (a g : Nat) : (s.transfer a g).invocations = s.invocations := rfl
@[simp] theorem State.transfer_nextInvocation (s : State) (a g : Nat) : (s.transfer a g).nextInvocation = s.nextInvocation := rfl
@[simp] theorem State.transfer_faults (s : State) (a g : Nat) : (s.transfer a g).faults = s.faults := rfl
@[simp] theorem State.transfer_owedMarks (s : State) (a g : Nat) : (s.transfer a g).owedMarks = s.owedMarks := rfl
@[simp] theorem State.transfer_invalidations (s : State) (a g : Nat) : (s.transfer a g).invalidations = s.invalidations := rfl
@[simp] theorem State.transfer_engineWaits (s : State) (a g : Nat) : (s.transfer a g).engineWaits = s.engineWaits := rfl
@[simp] theorem State.transfer_nextGroup (s : State) (a g : Nat) : (s.transfer a g).nextGroup = s.nextGroup := rfl
@[simp] theorem State.transfer_priEnabled (s : State) (a g : Nat) : (s.transfer a g).priEnabled = s.priEnabled := rfl
@[simp] theorem State.transfer_priAllocation (s : State) (a g : Nat) : (s.transfer a g).priAllocation = s.priAllocation := rfl
@[simp] theorem State.transfer_teardowns (s : State) (a g : Nat) : (s.transfer a g).teardowns = s.teardowns := rfl
@[simp] theorem State.transfer_downPasids (s : State) (a g : Nat) : (s.transfer a g).downPasids = s.downPasids := rfl
@[simp] theorem State.transfer_migrations (s : State) (a g : Nat) : (s.transfer a g).migrations = s.migrations := rfl
@[simp] theorem State.transfer_swaps (s : State) (a g : Nat) : (s.transfer a g).swaps = s.swaps := rfl
@[simp] theorem State.transfer_jobs (s : State) (a g : Nat) : (s.transfer a g).jobs = s.jobs := rfl
@[simp] theorem State.transfer_deviceRanges (s : State) (a g : Nat) : (s.transfer a g).deviceRanges = s.deviceRanges := rfl
@[simp] theorem State.transfer_fill (s : State) (a g : Nat) : (s.transfer a g).fill = s.fill := rfl
@[simp] theorem State.transfer_hostMem (s : State) (a g : Nat) : (s.transfer a g).hostMem = s.hostMem := rfl
@[simp] theorem State.transfer_otherMem (s : State) (a g : Nat) : (s.transfer a g).otherMem = s.otherMem := rfl
@[simp] theorem State.transfer_otherTags (s : State) (a g : Nat) : (s.transfer a g).otherTags = s.otherTags := rfl
@[simp] theorem State.transfer_otherMaps (s : State) (a g : Nat) : (s.transfer a g).otherMaps = s.otherMaps := rfl
@[simp] theorem State.transfer_moved (s : State) (a g : Nat) : (s.transfer a g).moved = s.moved := rfl
@[simp] theorem State.transfer_hostWrites (s : State) (a g : Nat) : (s.transfer a g).hostWrites = s.hostWrites := rfl
@[simp] theorem State.transfer_hostQueues (s : State) (a g : Nat) : (s.transfer a g).hostQueues = s.hostQueues := rfl
@[simp] theorem State.transfer_hostSlots (s : State) (a g : Nat) : (s.transfer a g).hostSlots = s.hostSlots := rfl
@[simp] theorem State.transfer_lastMapped (s : State) (a g : Nat) : (s.transfer a g).lastMapped = s.lastMapped := rfl
@[simp] theorem State.transfer_journal (s : State) (a g : Nat) : (s.transfer a g).journal = s.journal := rfl
@[simp] theorem State.transfer_mirror (s : State) (a g : Nat) : (s.transfer a g).mirror = s.mirror := rfl
@[simp] theorem State.transfer_hostMaps (s : State) (a g : Nat) : (s.transfer a g).hostMaps = s.hostMaps := rfl
@[simp] theorem State.transfer_devStatus (s : State) (a g : Nat) : (s.transfer a g).devStatus = s.devStatus := rfl
@[simp] theorem State.transfer_flash (s : State) (a g : Nat) : (s.transfer a g).flash = s.flash := rfl
@[simp] theorem State.transfer_mailbox (s : State) (a g : Nat) : (s.transfer a g).mailbox = s.mailbox := rfl
@[simp] theorem State.transfer_firmware (s : State) (a g : Nat) : (s.transfer a g).firmware = s.firmware := rfl
@[simp] theorem State.transfer_withies (s : State) (a g : Nat) : (s.transfer a g).withies = s.withies := rfl
@[simp] theorem State.transfer_frames (s : State) (a g : Nat) : (s.transfer a g).frames = s.frames := rfl
@[simp] theorem State.transfer_lastArbitration (s : State) (a g : Nat) : (s.transfer a g).lastArbitration = s.lastArbitration := rfl
@[simp] theorem State.transfer_lastPhase (s : State) (a g : Nat) : (s.transfer a g).lastPhase = s.lastPhase := rfl
@[simp] theorem State.transfer_sent (s : State) (a g : Nat) : (s.transfer a g).sent = s.sent := rfl
@[simp] theorem State.transfer_spdm (s : State) (a g : Nat) : (s.transfer a g).spdm = s.spdm := rfl

@[simp] theorem State.pushEntry_clk (s : State) (e : QEntry) : (s.pushEntry e).clk = s.clk := rfl
@[simp] theorem State.pushEntry_failed (s : State) (e : QEntry) : (s.pushEntry e).failed = s.failed := rfl
@[simp] theorem State.pushEntry_ctx (s : State) (e : QEntry) : (s.pushEntry e).ctx = s.ctx := rfl
@[simp] theorem State.pushEntry_script (s : State) (e : QEntry) : (s.pushEntry e).script = s.script := rfl
@[simp] theorem State.pushEntry_paced (s : State) (e : QEntry) : (s.pushEntry e).paced = s.paced := rfl
@[simp] theorem State.pushEntry_calendar (s : State) (e : QEntry) : (s.pushEntry e).calendar = s.calendar := rfl
@[simp] theorem State.pushEntry_draws (s : State) (e : QEntry) : (s.pushEntry e).draws = s.draws := rfl
@[simp] theorem State.pushEntry_clusters (s : State) (e : QEntry) : (s.pushEntry e).clusters = s.clusters := rfl
@[simp] theorem State.pushEntry_slots (s : State) (e : QEntry) : (s.pushEntry e).slots = s.slots := rfl
@[simp] theorem State.pushEntry_dies (s : State) (e : QEntry) : (s.pushEntry e).dies = s.dies := rfl
@[simp] theorem State.pushEntry_norms (s : State) (e : QEntry) : (s.pushEntry e).norms = s.norms := rfl
@[simp] theorem State.pushEntry_signal (s : State) (e : QEntry) : (s.pushEntry e).signal = s.signal := rfl
@[simp] theorem State.pushEntry_stages (s : State) (e : QEntry) : (s.pushEntry e).stages = s.stages := rfl
@[simp] theorem State.pushEntry_queues (s : State) (e : QEntry) : (s.pushEntry e).queues = s.queues := rfl
@[simp] theorem State.pushEntry_tensors (s : State) (e : QEntry) : (s.pushEntry e).tensors = s.tensors := rfl
@[simp] theorem State.pushEntry_buckets (s : State) (e : QEntry) : (s.pushEntry e).buckets = s.buckets := rfl
@[simp] theorem State.pushEntry_remembered (s : State) (e : QEntry) : (s.pushEntry e).remembered = s.remembered := rfl
@[simp] theorem State.pushEntry_contributions (s : State) (e : QEntry) : (s.pushEntry e).contributions = s.contributions := rfl
@[simp] theorem State.pushEntry_earlyFailures (s : State) (e : QEntry) : (s.pushEntry e).earlyFailures = s.earlyFailures := rfl
@[simp] theorem State.pushEntry_markCopies (s : State) (e : QEntry) : (s.pushEntry e).markCopies = s.markCopies := rfl
@[simp] theorem State.pushEntry_failedBuckets (s : State) (e : QEntry) : (s.pushEntry e).failedBuckets = s.failedBuckets := rfl
@[simp] theorem State.pushEntry_regs (s : State) (e : QEntry) : (s.pushEntry e).regs = s.regs := rfl
@[simp] theorem State.pushEntry_ports (s : State) (e : QEntry) : (s.pushEntry e).ports = s.ports := rfl
@[simp] theorem State.pushEntry_retries (s : State) (e : QEntry) : (s.pushEntry e).retries = s.retries := rfl
@[simp] theorem State.pushEntry_held (s : State) (e : QEntry) : (s.pushEntry e).held = s.held := rfl
@[simp] theorem State.pushEntry_commands (s : State) (e : QEntry) : (s.pushEntry e).commands = s.commands := rfl
@[simp] theorem State.pushEntry_reports (s : State) (e : QEntry) : (s.pushEntry e).reports = s.reports := rfl
@[simp] theorem State.pushEntry_extents (s : State) (e : QEntry) : (s.pushEntry e).extents = s.extents := rfl
@[simp] theorem State.pushEntry_invocations (s : State) (e : QEntry) : (s.pushEntry e).invocations = s.invocations := rfl
@[simp] theorem State.pushEntry_nextInvocation (s : State) (e : QEntry) : (s.pushEntry e).nextInvocation = s.nextInvocation := rfl
@[simp] theorem State.pushEntry_faults (s : State) (e : QEntry) : (s.pushEntry e).faults = s.faults := rfl
@[simp] theorem State.pushEntry_owedMarks (s : State) (e : QEntry) : (s.pushEntry e).owedMarks = s.owedMarks := rfl
@[simp] theorem State.pushEntry_invalidations (s : State) (e : QEntry) : (s.pushEntry e).invalidations = s.invalidations := rfl
@[simp] theorem State.pushEntry_engineWaits (s : State) (e : QEntry) : (s.pushEntry e).engineWaits = s.engineWaits := rfl
@[simp] theorem State.pushEntry_nextGroup (s : State) (e : QEntry) : (s.pushEntry e).nextGroup = s.nextGroup := rfl
@[simp] theorem State.pushEntry_priEnabled (s : State) (e : QEntry) : (s.pushEntry e).priEnabled = s.priEnabled := rfl
@[simp] theorem State.pushEntry_priAllocation (s : State) (e : QEntry) : (s.pushEntry e).priAllocation = s.priAllocation := rfl
@[simp] theorem State.pushEntry_teardowns (s : State) (e : QEntry) : (s.pushEntry e).teardowns = s.teardowns := rfl
@[simp] theorem State.pushEntry_downPasids (s : State) (e : QEntry) : (s.pushEntry e).downPasids = s.downPasids := rfl
@[simp] theorem State.pushEntry_migrations (s : State) (e : QEntry) : (s.pushEntry e).migrations = s.migrations := rfl
@[simp] theorem State.pushEntry_swaps (s : State) (e : QEntry) : (s.pushEntry e).swaps = s.swaps := rfl
@[simp] theorem State.pushEntry_jobs (s : State) (e : QEntry) : (s.pushEntry e).jobs = s.jobs := rfl
@[simp] theorem State.pushEntry_deviceRanges (s : State) (e : QEntry) : (s.pushEntry e).deviceRanges = s.deviceRanges := rfl
@[simp] theorem State.pushEntry_fill (s : State) (e : QEntry) : (s.pushEntry e).fill = s.fill := rfl
@[simp] theorem State.pushEntry_hostMem (s : State) (e : QEntry) : (s.pushEntry e).hostMem = s.hostMem := rfl
@[simp] theorem State.pushEntry_otherMem (s : State) (e : QEntry) : (s.pushEntry e).otherMem = s.otherMem := rfl
@[simp] theorem State.pushEntry_otherTags (s : State) (e : QEntry) : (s.pushEntry e).otherTags = s.otherTags := rfl
@[simp] theorem State.pushEntry_otherMaps (s : State) (e : QEntry) : (s.pushEntry e).otherMaps = s.otherMaps := rfl
@[simp] theorem State.pushEntry_moved (s : State) (e : QEntry) : (s.pushEntry e).moved = s.moved := rfl
@[simp] theorem State.pushEntry_hostWrites (s : State) (e : QEntry) : (s.pushEntry e).hostWrites = s.hostWrites := rfl
@[simp] theorem State.pushEntry_hostQueues (s : State) (e : QEntry) : (s.pushEntry e).hostQueues = s.hostQueues := rfl
@[simp] theorem State.pushEntry_hostSlots (s : State) (e : QEntry) : (s.pushEntry e).hostSlots = s.hostSlots := rfl
@[simp] theorem State.pushEntry_lastMapped (s : State) (e : QEntry) : (s.pushEntry e).lastMapped = s.lastMapped := rfl
@[simp] theorem State.pushEntry_journal (s : State) (e : QEntry) : (s.pushEntry e).journal = s.journal := rfl
@[simp] theorem State.pushEntry_mirror (s : State) (e : QEntry) : (s.pushEntry e).mirror = s.mirror := rfl
@[simp] theorem State.pushEntry_hostMaps (s : State) (e : QEntry) : (s.pushEntry e).hostMaps = s.hostMaps := rfl
@[simp] theorem State.pushEntry_devStatus (s : State) (e : QEntry) : (s.pushEntry e).devStatus = s.devStatus := rfl
@[simp] theorem State.pushEntry_flash (s : State) (e : QEntry) : (s.pushEntry e).flash = s.flash := rfl
@[simp] theorem State.pushEntry_mailbox (s : State) (e : QEntry) : (s.pushEntry e).mailbox = s.mailbox := rfl
@[simp] theorem State.pushEntry_firmware (s : State) (e : QEntry) : (s.pushEntry e).firmware = s.firmware := rfl
@[simp] theorem State.pushEntry_withies (s : State) (e : QEntry) : (s.pushEntry e).withies = s.withies := rfl
@[simp] theorem State.pushEntry_frames (s : State) (e : QEntry) : (s.pushEntry e).frames = s.frames := rfl
@[simp] theorem State.pushEntry_lastArbitration (s : State) (e : QEntry) : (s.pushEntry e).lastArbitration = s.lastArbitration := rfl
@[simp] theorem State.pushEntry_lastPhase (s : State) (e : QEntry) : (s.pushEntry e).lastPhase = s.lastPhase := rfl
@[simp] theorem State.pushEntry_sent (s : State) (e : QEntry) : (s.pushEntry e).sent = s.sent := rfl
@[simp] theorem State.pushEntry_spdm (s : State) (e : QEntry) : (s.pushEntry e).spdm = s.spdm := rfl

@[simp] theorem State.postHere_clk (s : State) (cause : Nat) : (s.postHere cause).clk = s.clk := rfl
@[simp] theorem State.postHere_failed (s : State) (cause : Nat) : (s.postHere cause).failed = s.failed := rfl
@[simp] theorem State.postHere_ctx (s : State) (cause : Nat) : (s.postHere cause).ctx = s.ctx := rfl
@[simp] theorem State.postHere_script (s : State) (cause : Nat) : (s.postHere cause).script = s.script := rfl
@[simp] theorem State.postHere_paced (s : State) (cause : Nat) : (s.postHere cause).paced = s.paced := rfl
@[simp] theorem State.postHere_calendar (s : State) (cause : Nat) : (s.postHere cause).calendar = s.calendar := rfl
@[simp] theorem State.postHere_draws (s : State) (cause : Nat) : (s.postHere cause).draws = s.draws := rfl
@[simp] theorem State.postHere_clusters (s : State) (cause : Nat) : (s.postHere cause).clusters = s.clusters := rfl
@[simp] theorem State.postHere_slots (s : State) (cause : Nat) : (s.postHere cause).slots = s.slots := rfl
@[simp] theorem State.postHere_dies (s : State) (cause : Nat) : (s.postHere cause).dies = s.dies := rfl
@[simp] theorem State.postHere_norms (s : State) (cause : Nat) : (s.postHere cause).norms = s.norms := rfl
@[simp] theorem State.postHere_signal (s : State) (cause : Nat) : (s.postHere cause).signal = s.signal := rfl
@[simp] theorem State.postHere_stages (s : State) (cause : Nat) : (s.postHere cause).stages = s.stages := rfl
@[simp] theorem State.postHere_queues (s : State) (cause : Nat) : (s.postHere cause).queues = s.queues := rfl
@[simp] theorem State.postHere_tensors (s : State) (cause : Nat) : (s.postHere cause).tensors = s.tensors := rfl
@[simp] theorem State.postHere_buckets (s : State) (cause : Nat) : (s.postHere cause).buckets = s.buckets := rfl
@[simp] theorem State.postHere_remembered (s : State) (cause : Nat) : (s.postHere cause).remembered = s.remembered := rfl
@[simp] theorem State.postHere_contributions (s : State) (cause : Nat) : (s.postHere cause).contributions = s.contributions := rfl
@[simp] theorem State.postHere_earlyFailures (s : State) (cause : Nat) : (s.postHere cause).earlyFailures = s.earlyFailures := rfl
@[simp] theorem State.postHere_markCopies (s : State) (cause : Nat) : (s.postHere cause).markCopies = s.markCopies := rfl
@[simp] theorem State.postHere_failedBuckets (s : State) (cause : Nat) : (s.postHere cause).failedBuckets = s.failedBuckets := rfl
@[simp] theorem State.postHere_regs (s : State) (cause : Nat) : (s.postHere cause).regs = s.regs := rfl
@[simp] theorem State.postHere_ports (s : State) (cause : Nat) : (s.postHere cause).ports = s.ports := rfl
@[simp] theorem State.postHere_retries (s : State) (cause : Nat) : (s.postHere cause).retries = s.retries := rfl
@[simp] theorem State.postHere_held (s : State) (cause : Nat) : (s.postHere cause).held = s.held := rfl
@[simp] theorem State.postHere_commands (s : State) (cause : Nat) : (s.postHere cause).commands = s.commands := rfl
@[simp] theorem State.postHere_nextEntry (s : State) (cause : Nat) : (s.postHere cause).nextEntry = s.nextEntry := rfl
@[simp] theorem State.postHere_reports (s : State) (cause : Nat) : (s.postHere cause).reports = s.reports := rfl
@[simp] theorem State.postHere_extents (s : State) (cause : Nat) : (s.postHere cause).extents = s.extents := rfl
@[simp] theorem State.postHere_invocations (s : State) (cause : Nat) : (s.postHere cause).invocations = s.invocations := rfl
@[simp] theorem State.postHere_nextInvocation (s : State) (cause : Nat) : (s.postHere cause).nextInvocation = s.nextInvocation := rfl
@[simp] theorem State.postHere_faults (s : State) (cause : Nat) : (s.postHere cause).faults = s.faults := rfl
@[simp] theorem State.postHere_owedMarks (s : State) (cause : Nat) : (s.postHere cause).owedMarks = s.owedMarks := rfl
@[simp] theorem State.postHere_invalidations (s : State) (cause : Nat) : (s.postHere cause).invalidations = s.invalidations := rfl
@[simp] theorem State.postHere_engineWaits (s : State) (cause : Nat) : (s.postHere cause).engineWaits = s.engineWaits := rfl
@[simp] theorem State.postHere_nextGroup (s : State) (cause : Nat) : (s.postHere cause).nextGroup = s.nextGroup := rfl
@[simp] theorem State.postHere_priEnabled (s : State) (cause : Nat) : (s.postHere cause).priEnabled = s.priEnabled := rfl
@[simp] theorem State.postHere_priAllocation (s : State) (cause : Nat) : (s.postHere cause).priAllocation = s.priAllocation := rfl
@[simp] theorem State.postHere_teardowns (s : State) (cause : Nat) : (s.postHere cause).teardowns = s.teardowns := rfl
@[simp] theorem State.postHere_downPasids (s : State) (cause : Nat) : (s.postHere cause).downPasids = s.downPasids := rfl
@[simp] theorem State.postHere_migrations (s : State) (cause : Nat) : (s.postHere cause).migrations = s.migrations := rfl
@[simp] theorem State.postHere_swaps (s : State) (cause : Nat) : (s.postHere cause).swaps = s.swaps := rfl
@[simp] theorem State.postHere_jobs (s : State) (cause : Nat) : (s.postHere cause).jobs = s.jobs := rfl
@[simp] theorem State.postHere_deviceRanges (s : State) (cause : Nat) : (s.postHere cause).deviceRanges = s.deviceRanges := rfl
@[simp] theorem State.postHere_fill (s : State) (cause : Nat) : (s.postHere cause).fill = s.fill := rfl
@[simp] theorem State.postHere_hostMem (s : State) (cause : Nat) : (s.postHere cause).hostMem = s.hostMem := rfl
@[simp] theorem State.postHere_otherMem (s : State) (cause : Nat) : (s.postHere cause).otherMem = s.otherMem := rfl
@[simp] theorem State.postHere_otherTags (s : State) (cause : Nat) : (s.postHere cause).otherTags = s.otherTags := rfl
@[simp] theorem State.postHere_otherMaps (s : State) (cause : Nat) : (s.postHere cause).otherMaps = s.otherMaps := rfl
@[simp] theorem State.postHere_moved (s : State) (cause : Nat) : (s.postHere cause).moved = s.moved := rfl
@[simp] theorem State.postHere_hostWrites (s : State) (cause : Nat) : (s.postHere cause).hostWrites = s.hostWrites := rfl
@[simp] theorem State.postHere_hostQueues (s : State) (cause : Nat) : (s.postHere cause).hostQueues = s.hostQueues := rfl
@[simp] theorem State.postHere_hostSlots (s : State) (cause : Nat) : (s.postHere cause).hostSlots = s.hostSlots := rfl
@[simp] theorem State.postHere_lastMapped (s : State) (cause : Nat) : (s.postHere cause).lastMapped = s.lastMapped := rfl
@[simp] theorem State.postHere_journal (s : State) (cause : Nat) : (s.postHere cause).journal = s.journal := rfl
@[simp] theorem State.postHere_mirror (s : State) (cause : Nat) : (s.postHere cause).mirror = s.mirror := rfl
@[simp] theorem State.postHere_hostMaps (s : State) (cause : Nat) : (s.postHere cause).hostMaps = s.hostMaps := rfl
@[simp] theorem State.postHere_devStatus (s : State) (cause : Nat) : (s.postHere cause).devStatus = s.devStatus := rfl
@[simp] theorem State.postHere_flash (s : State) (cause : Nat) : (s.postHere cause).flash = s.flash := rfl
@[simp] theorem State.postHere_mailbox (s : State) (cause : Nat) : (s.postHere cause).mailbox = s.mailbox := rfl
@[simp] theorem State.postHere_firmware (s : State) (cause : Nat) : (s.postHere cause).firmware = s.firmware := rfl
@[simp] theorem State.postHere_withies (s : State) (cause : Nat) : (s.postHere cause).withies = s.withies := rfl
@[simp] theorem State.postHere_frames (s : State) (cause : Nat) : (s.postHere cause).frames = s.frames := rfl
@[simp] theorem State.postHere_lastArbitration (s : State) (cause : Nat) : (s.postHere cause).lastArbitration = s.lastArbitration := rfl
@[simp] theorem State.postHere_lastPhase (s : State) (cause : Nat) : (s.postHere cause).lastPhase = s.lastPhase := rfl
@[simp] theorem State.postHere_sent (s : State) (cause : Nat) : (s.postHere cause).sent = s.sent := rfl
@[simp] theorem State.postHere_spdm (s : State) (cause : Nat) : (s.postHere cause).spdm = s.spdm := rfl

/-! ## Cores and banks -/

@[simp] theorem State.setCore_cores (s : State) (c : Nat) (x : Core) : (s.setCore c x).cores = tset c x s.cores := rfl
@[simp] theorem State.core_setCore (s : State) (c : Nat) (x : Core) : (s.setCore c x).core c = x := tget_tset_self _ _ _ _
theorem State.core_setCore_ne (s : State) {c d : Nat} (h : d ≠ c) (x : Core) : (s.setCore c x).core d = s.core d := tget_tset_ne _ h _ _
@[simp] theorem State.bank_setCore (s : State) (c b : Nat) (x : Core) : (s.setCore c x).bank c b = x.bank b := by
  rw [State.bank, State.core_setCore]
theorem State.bank_setCore_ne (s : State) {c d : Nat} (h : d ≠ c) (b : Nat) (x : Core) : (s.setCore c x).bank d b = s.bank d b := by
  rw [State.bank, State.core_setCore_ne s h, State.bank]

@[simp] theorem Core.bank_setBank (x : Core) (b : Nat) (k : Bank) : (x.setBank b k).bank b = k := by
  unfold Core.setBank Core.bank
  split <;> rfl
/-- The other bank of a core is left alone. -/
theorem Core.bank_setBank_ne (x : Core) {b d : Nat} (h : d = 0 ↔ b ≠ 0) (k : Bank) : (x.setBank b k).bank d = x.bank d := by
  unfold Core.setBank Core.bank
  by_cases hb : b = 0
  · have hd : d ≠ 0 := fun e => (h.mp e) hb
    simp [hb, hd]
  · have hd : d = 0 := h.mpr hb
    simp [hb, hd]
@[simp] theorem Core.setBank_active (x : Core) (b : Nat) (k : Bank) : (x.setBank b k).active = x.active := by
  unfold Core.setBank
  split <;> rfl
@[simp] theorem Core.setBank_returnBit (x : Core) (b : Nat) (k : Bank) : (x.setBank b k).returnBit = x.returnBit := by
  unfold Core.setBank
  split <;> rfl
@[simp] theorem Core.setBank_wakePending (x : Core) (b : Nat) (k : Bank) : (x.setBank b k).wakePending = x.wakePending := by
  unfold Core.setBank
  split <;> rfl
@[simp] theorem Core.setBank_nextIssue (x : Core) (b : Nat) (k : Bank) : (x.setBank b k).nextIssue = x.nextIssue := by
  unfold Core.setBank
  split <;> rfl
@[simp] theorem Core.setBank_regained (x : Core) (b : Nat) (k : Bank) : (x.setBank b k).regained = x.regained := by
  unfold Core.setBank
  split <;> rfl
@[simp] theorem Core.setBank_examined (x : Core) (b : Nat) (k : Bank) : (x.setBank b k).examined = x.examined := by
  unfold Core.setBank
  split <;> rfl
@[simp] theorem Core.setBank_powerUntil (x : Core) (b : Nat) (k : Bank) : (x.setBank b k).powerUntil = x.powerUntil := by
  unfold Core.setBank
  split <;> rfl
@[simp] theorem Core.setBank_sparseClk (x : Core) (b : Nat) (k : Bank) : (x.setBank b k).sparseClk = x.sparseClk := by
  unfold Core.setBank
  split <;> rfl
@[simp] theorem Core.setBank_sparseBytes (x : Core) (b : Nat) (k : Bank) : (x.setBank b k).sparseBytes = x.sparseBytes := by
  unfold Core.setBank
  split <;> rfl
@[simp] theorem Core.setBank_pad (x : Core) (b : Nat) (k : Bank) : (x.setBank b k).pad = x.pad := by
  unfold Core.setBank
  split <;> rfl
@[simp] theorem Core.setBank_drain (x : Core) (b : Nat) (k : Bank) : (x.setBank b k).drain = x.drain := by
  unfold Core.setBank
  split <;> rfl
@[simp] theorem Core.setBank_segments (x : Core) (b : Nat) (k : Bank) : (x.setBank b k).segments = x.segments := by
  unfold Core.setBank
  split <;> rfl
@[simp] theorem Core.setBank_channels (x : Core) (b : Nat) (k : Bank) : (x.setBank b k).channels = x.channels := by
  unfold Core.setBank
  split <;> rfl
@[simp] theorem Core.setBank_stashQueue (x : Core) (b : Nat) (k : Bank) : (x.setBank b k).stashQueue = x.stashQueue := by
  unfold Core.setBank
  split <;> rfl
@[simp] theorem Core.setBank_tlb (x : Core) (b : Nat) (k : Bank) : (x.setBank b k).tlb = x.tlb := by
  unfold Core.setBank
  split <;> rfl

@[simp] theorem State.bank_setBank (s : State) (c b : Nat) (k : Bank) : (s.setBank c b k).bank c b = k := by
  rw [State.bank, State.setBank, State.core_setCore, Core.bank_setBank]
/-- Every other bank is left alone. -/
theorem State.bank_setBank_ne (s : State) {c b d e : Nat} (h : d ≠ c ∨ (e = 0 ↔ b ≠ 0)) (k : Bank) : (s.setBank c b k).bank d e = s.bank d e := by
  by_cases hd : d = c
  · subst hd
    rw [State.bank, State.setBank, State.core_setCore, Core.bank_setBank_ne _ (h.resolve_left fun f => f rfl), State.bank]
  · rw [State.setBank, State.bank_setCore_ne _ hd]
@[simp] theorem State.core_setBank (s : State) (c b : Nat) (k : Bank) : (s.setBank c b k).core c = (s.core c).setBank b k := by
  rw [State.setBank, State.core_setCore]
theorem State.core_setBank_ne (s : State) {c d : Nat} (h : d ≠ c) (b : Nat) (k : Bank) : (s.setBank c b k).core d = s.core d := by
  rw [State.setBank, State.core_setCore_ne _ h]
/-- No scratchpad changes with a bank. -/
@[simp] theorem State.pad_setBank (s : State) (c b d : Nat) (k : Bank) : ((s.setBank c b k).core d).pad = (s.core d).pad := by
  by_cases h : d = c
  · subst h
    rw [State.core_setBank, Core.setBank_pad]
  · rw [State.core_setBank_ne _ h]
@[simp] theorem State.cur_setCur (s : State) (k : Bank) : (s.setCur k).cur = k := by
  unfold State.cur State.setCur
  rw [State.setBank_ctx, State.bank_setBank]
theorem State.cur_setBank (s : State) (k : Bank) : (s.setBank s.ctx.core s.ctx.bank k).cur = k := State.cur_setCur s k
/-- Only the bank at issue is replaced. -/
theorem State.otherBanks_setCur (s : State) {c b : Nat} (h : c ≠ s.ctx.core ∨ (b = 0 ↔ s.ctx.bank ≠ 0)) (k : Bank) :
    (s.setCur k).bank c b = s.bank c b := State.bank_setBank_ne s h k
@[simp] theorem State.pad_setCur (s : State) (d : Nat) (k : Bank) : ((s.setCur k).core d).pad = (s.core d).pad := State.pad_setBank s _ _ d k

/-! ## Clusters, dies and the other tables -/

@[simp] theorem State.cluster_setCluster (s : State) (k : Nat) (x : Cluster) : (s.setCluster k x).cluster k = x := tget_tset_self _ _ _ _
theorem State.cluster_setCluster_ne (s : State) {j k : Nat} (h : j ≠ k) (x : Cluster) : (s.setCluster k x).cluster j = s.cluster j :=
  tget_tset_ne _ h _ _
@[simp] theorem State.die_setDie (s : State) (d : Nat) (x : Die) : (s.setDie d x).die d = x := tget_tset_self _ _ _ _
theorem State.die_setDie_ne (s : State) {d e : Nat} (h : e ≠ d) (x : Die) : (s.setDie d x).die e = s.die e := tget_tset_ne _ h _ _
@[simp] theorem State.stage_setStage (s : State) (i : Nat) (x : Stage) : (s.setStage i x).stage i = x := tget_tset_self _ _ _ _
theorem State.stage_setStage_ne (s : State) {i j : Nat} (h : j ≠ i) (x : Stage) : (s.setStage i x).stage j = s.stage j := tget_tset_ne _ h _ _
@[simp] theorem State.wq_setWq (s : State) (q : Nat) (x : WorkQueue) : (s.setWq q x).wq q = x := tget_tset_self _ _ _ _
theorem State.wq_setWq_ne (s : State) {p q : Nat} (h : p ≠ q) (x : WorkQueue) : (s.setWq q x).wq p = s.wq p := tget_tset_ne _ h _ _
@[simp] theorem State.tensor_setTensor (s : State) (n : Nat) (t : TensorChannel) : (s.setTensor n t).tensor n = t := tget_tset_self _ _ _ _
theorem State.tensor_setTensor_ne (s : State) {m n : Nat} (h : m ≠ n) (t : TensorChannel) : (s.setTensor n t).tensor m = s.tensor m :=
  tget_tset_ne _ h _ _
@[simp] theorem State.hostQueue_setHostQueue (s : State) (q : Nat) (x : HostQueue) : (s.setHostQueue q x).hostQueue q = x :=
  tget_tset_self _ _ _ _

@[simp] theorem State.cluster_setCore (s : State) (c k : Nat) (x : Core) : (s.setCore c x).cluster k = s.cluster k := rfl
@[simp] theorem State.cluster_setBank (s : State) (c b k : Nat) (x : Bank) : (s.setBank c b x).cluster k = s.cluster k := rfl
@[simp] theorem State.cluster_setCur (s : State) (k : Nat) (x : Bank) : (s.setCur x).cluster k = s.cluster k := rfl
@[simp] theorem State.die_setCore (s : State) (c d : Nat) (x : Core) : (s.setCore c x).die d = s.die d := rfl
@[simp] theorem State.die_setBank (s : State) (c b d : Nat) (x : Bank) : (s.setBank c b x).die d = s.die d := rfl
@[simp] theorem State.die_setCur (s : State) (d : Nat) (x : Bank) : (s.setCur x).die d = s.die d := rfl
@[simp] theorem State.core_setCluster (s : State) (k c : Nat) (x : Cluster) : (s.setCluster k x).core c = s.core c := rfl
@[simp] theorem State.bank_setCluster (s : State) (k c b : Nat) (x : Cluster) : (s.setCluster k x).bank c b = s.bank c b := rfl
@[simp] theorem State.die_setCluster (s : State) (k d : Nat) (x : Cluster) : (s.setCluster k x).die d = s.die d := rfl
@[simp] theorem State.core_setDie (s : State) (d c : Nat) (x : Die) : (s.setDie d x).core c = s.core c := rfl
@[simp] theorem State.bank_setDie (s : State) (d c b : Nat) (x : Die) : (s.setDie d x).bank c b = s.bank c b := rfl
@[simp] theorem State.cluster_setDie (s : State) (d k : Nat) (x : Die) : (s.setDie d x).cluster k = s.cluster k := rfl

/-! ## Fields of a bank that a register write leaves alone -/

@[simp] theorem Bank.setS_state (k : Bank) (now r : Nat) (v : SReg) : (k.setS now r v).state = k.state := by
  unfold Bank.setS
  split <;> rfl
@[simp] theorem Bank.setS_haltFault (k : Bank) (now r : Nat) (v : SReg) : (k.setS now r v).haltFault = k.haltFault := by
  unfold Bank.setS
  split <;> rfl
@[simp] theorem Bank.setS_haltReported (k : Bank) (now r : Nat) (v : SReg) : (k.setS now r v).haltReported = k.haltReported := by
  unfold Bank.setS
  split <;> rfl
@[simp] theorem Bank.setS_kregs (k : Bank) (now r : Nat) (v : SReg) : (k.setS now r v).kregs = k.kregs := by
  unfold Bank.setS
  split <;> rfl
@[simp] theorem Bank.setS_vregs (k : Bank) (now r : Nat) (v : SReg) : (k.setS now r v).vregs = k.vregs := by
  unfold Bank.setS
  split <;> rfl
@[simp] theorem Bank.setS_sides (k : Bank) (now r : Nat) (v : SReg) : (k.setS now r v).sides = k.sides := by
  unfold Bank.setS
  split <;> rfl
@[simp] theorem Bank.setS_tiles (k : Bank) (now r : Nat) (v : SReg) : (k.setS now r v).tiles = k.tiles := by
  unfold Bank.setS
  split <;> rfl
@[simp] theorem Bank.setS_eng0 (k : Bank) (now r : Nat) (v : SReg) : (k.setS now r v).eng0 = k.eng0 := by
  unfold Bank.setS
  split <;> rfl
@[simp] theorem Bank.setS_eng1 (k : Bank) (now r : Nat) (v : SReg) : (k.setS now r v).eng1 = k.eng1 := by
  unfold Bank.setS
  split <;> rfl
@[simp] theorem Bank.setS_pc (k : Bank) (now r : Nat) (v : SReg) : (k.setS now r v).pc = k.pc := by
  unfold Bank.setS
  split <;> rfl
@[simp] theorem Bank.setS_loops (k : Bank) (now r : Nat) (v : SReg) : (k.setS now r v).loops = k.loops := by
  unfold Bank.setS
  split <;> rfl
@[simp] theorem Bank.setS_sEmpty (k : Bank) (now r : Nat) (v : SReg) : (k.setS now r v).sEmpty = k.sEmpty := by
  unfold Bank.setS
  split <;> rfl
@[simp] theorem Bank.setS_kEmpty (k : Bank) (now r : Nat) (v : SReg) : (k.setS now r v).kEmpty = k.kEmpty := by
  unfold Bank.setS
  split <;> rfl
@[simp] theorem Bank.setS_vEmpty (k : Bank) (now r : Nat) (v : SReg) : (k.setS now r v).vEmpty = k.vEmpty := by
  unfold Bank.setS
  split <;> rfl
@[simp] theorem Bank.setS_gens (k : Bank) (now r : Nat) (v : SReg) : (k.setS now r v).gens = k.gens := by
  unfold Bank.setS
  split <;> rfl
@[simp] theorem Bank.setS_seeds (k : Bank) (now r : Nat) (v : SReg) : (k.setS now r v).seeds = k.seeds := by
  unfold Bank.setS
  split <;> rfl
@[simp] theorem Bank.setS_tvec (k : Bank) (now r : Nat) (v : SReg) : (k.setS now r v).tvec = k.tvec := by
  unfold Bank.setS
  split <;> rfl
@[simp] theorem Bank.setS_priv (k : Bank) (now r : Nat) (v : SReg) : (k.setS now r v).priv = k.priv := by
  unfold Bank.setS
  split <;> rfl
@[simp] theorem Bank.setS_inTrap (k : Bank) (now r : Nat) (v : SReg) : (k.setS now r v).inTrap = k.inTrap := by
  unfold Bank.setS
  split <;> rfl
@[simp] theorem Bank.setS_trec (k : Bank) (now r : Nat) (v : SReg) : (k.setS now r v).trec = k.trec := by
  unfold Bank.setS
  split <;> rfl
@[simp] theorem Bank.setS_inFlight (k : Bank) (now r : Nat) (v : SReg) : (k.setS now r v).inFlight = k.inFlight := by
  unfold Bank.setS
  split <;> rfl
@[simp] theorem Bank.setS_posted (k : Bank) (now r : Nat) (v : SReg) : (k.setS now r v).posted = k.posted := by
  unfold Bank.setS
  split <;> rfl
@[simp] theorem Bank.setS_queue (k : Bank) (now r : Nat) (v : SReg) : (k.setS now r v).queue = k.queue := by
  unfold Bank.setS
  split <;> rfl
@[simp] theorem Bank.setS_fault (k : Bank) (now r : Nat) (v : SReg) : (k.setS now r v).fault = k.fault := by
  unfold Bank.setS
  split <;> rfl
@[simp] theorem Bank.setS_arrival (k : Bank) (now r : Nat) (v : SReg) : (k.setS now r v).arrival = k.arrival := by
  unfold Bank.setS
  split <;> rfl
@[simp] theorem Bank.setS_barrClk (k : Bank) (now r : Nat) (v : SReg) : (k.setS now r v).barrClk = k.barrClk := by
  unfold Bank.setS
  split <;> rfl
@[simp] theorem Bank.setS_runAhead (k : Bank) (now r : Nat) (v : SReg) : (k.setS now r v).runAhead = k.runAhead := by
  unfold Bank.setS
  split <;> rfl
@[simp] theorem Bank.setS_raGen (k : Bank) (now r : Nat) (v : SReg) : (k.setS now r v).raGen = k.raGen := by
  unfold Bank.setS
  split <;> rfl
@[simp] theorem Bank.setS_waiting (k : Bank) (now r : Nat) (v : SReg) : (k.setS now r v).waiting = k.waiting := by
  unfold Bank.setS
  split <;> rfl
@[simp] theorem Bank.setS_reached (k : Bank) (now r : Nat) (v : SReg) : (k.setS now r v).reached = k.reached := by
  unfold Bank.setS
  split <;> rfl
@[simp] theorem Bank.setS_landedNow (k : Bank) (now r : Nat) (v : SReg) : (k.setS now r v).landedNow = k.landedNow := by
  unfold Bank.setS
  split <;> rfl
@[simp] theorem Bank.setS_idle (k : Bank) (now r : Nat) (v : SReg) : (k.setS now r v).idle = k.idle := by
  unfold Bank.setS
  split <;> rfl
@[simp] theorem Bank.setS_woken (k : Bank) (now r : Nat) (v : SReg) : (k.setS now r v).woken = k.woken := by
  unfold Bank.setS
  split <;> rfl
@[simp] theorem Bank.setS_item (k : Bank) (now r : Nat) (v : SReg) : (k.setS now r v).item = k.item := by
  unfold Bank.setS
  split <;> rfl
@[simp] theorem Bank.setS_lastStep (k : Bank) (now r : Nat) (v : SReg) : (k.setS now r v).lastStep = k.lastStep := by
  unfold Bank.setS
  split <;> rfl
@[simp] theorem Bank.setS_replaying (k : Bank) (now r : Nat) (v : SReg) : (k.setS now r v).replaying = k.replaying := by
  unfold Bank.setS
  split <;> rfl
@[simp] theorem Bank.setS_stopped (k : Bank) (now r : Nat) (v : SReg) : (k.setS now r v).stopped = k.stopped := by
  unfold Bank.setS
  split <;> rfl
@[simp] theorem Bank.setS_haltClk (k : Bank) (now r : Nat) (v : SReg) : (k.setS now r v).haltClk = k.haltClk := by
  unfold Bank.setS
  split <;> rfl
@[simp] theorem Bank.setS_task (k : Bank) (now r : Nat) (v : SReg) : (k.setS now r v).task = k.task := by
  unfold Bank.setS
  split <;> rfl

@[simp] theorem Bank.setK_state (k : Bank) (r : Nat) (sel v : Mask) : (k.setK r sel v).state = k.state := by
  unfold Bank.setK
  split <;> rfl
@[simp] theorem Bank.setK_haltFault (k : Bank) (r : Nat) (sel v : Mask) : (k.setK r sel v).haltFault = k.haltFault := by
  unfold Bank.setK
  split <;> rfl
@[simp] theorem Bank.setK_haltReported (k : Bank) (r : Nat) (sel v : Mask) : (k.setK r sel v).haltReported = k.haltReported := by
  unfold Bank.setK
  split <;> rfl
@[simp] theorem Bank.setK_sregs (k : Bank) (r : Nat) (sel v : Mask) : (k.setK r sel v).sregs = k.sregs := by
  unfold Bank.setK
  split <;> rfl
@[simp] theorem Bank.setK_vregs (k : Bank) (r : Nat) (sel v : Mask) : (k.setK r sel v).vregs = k.vregs := by
  unfold Bank.setK
  split <;> rfl
@[simp] theorem Bank.setK_sides (k : Bank) (r : Nat) (sel v : Mask) : (k.setK r sel v).sides = k.sides := by
  unfold Bank.setK
  split <;> rfl
@[simp] theorem Bank.setK_tiles (k : Bank) (r : Nat) (sel v : Mask) : (k.setK r sel v).tiles = k.tiles := by
  unfold Bank.setK
  split <;> rfl
@[simp] theorem Bank.setK_eng0 (k : Bank) (r : Nat) (sel v : Mask) : (k.setK r sel v).eng0 = k.eng0 := by
  unfold Bank.setK
  split <;> rfl
@[simp] theorem Bank.setK_eng1 (k : Bank) (r : Nat) (sel v : Mask) : (k.setK r sel v).eng1 = k.eng1 := by
  unfold Bank.setK
  split <;> rfl
@[simp] theorem Bank.setK_pc (k : Bank) (r : Nat) (sel v : Mask) : (k.setK r sel v).pc = k.pc := by
  unfold Bank.setK
  split <;> rfl
@[simp] theorem Bank.setK_loops (k : Bank) (r : Nat) (sel v : Mask) : (k.setK r sel v).loops = k.loops := by
  unfold Bank.setK
  split <;> rfl
@[simp] theorem Bank.setK_sEmpty (k : Bank) (r : Nat) (sel v : Mask) : (k.setK r sel v).sEmpty = k.sEmpty := by
  unfold Bank.setK
  split <;> rfl
@[simp] theorem Bank.setK_kEmpty (k : Bank) (r : Nat) (sel v : Mask) : (k.setK r sel v).kEmpty = k.kEmpty := by
  unfold Bank.setK
  split <;> rfl
@[simp] theorem Bank.setK_vEmpty (k : Bank) (r : Nat) (sel v : Mask) : (k.setK r sel v).vEmpty = k.vEmpty := by
  unfold Bank.setK
  split <;> rfl
@[simp] theorem Bank.setK_gens (k : Bank) (r : Nat) (sel v : Mask) : (k.setK r sel v).gens = k.gens := by
  unfold Bank.setK
  split <;> rfl
@[simp] theorem Bank.setK_seeds (k : Bank) (r : Nat) (sel v : Mask) : (k.setK r sel v).seeds = k.seeds := by
  unfold Bank.setK
  split <;> rfl
@[simp] theorem Bank.setK_tvec (k : Bank) (r : Nat) (sel v : Mask) : (k.setK r sel v).tvec = k.tvec := by
  unfold Bank.setK
  split <;> rfl
@[simp] theorem Bank.setK_priv (k : Bank) (r : Nat) (sel v : Mask) : (k.setK r sel v).priv = k.priv := by
  unfold Bank.setK
  split <;> rfl
@[simp] theorem Bank.setK_inTrap (k : Bank) (r : Nat) (sel v : Mask) : (k.setK r sel v).inTrap = k.inTrap := by
  unfold Bank.setK
  split <;> rfl
@[simp] theorem Bank.setK_trec (k : Bank) (r : Nat) (sel v : Mask) : (k.setK r sel v).trec = k.trec := by
  unfold Bank.setK
  split <;> rfl
@[simp] theorem Bank.setK_inFlight (k : Bank) (r : Nat) (sel v : Mask) : (k.setK r sel v).inFlight = k.inFlight := by
  unfold Bank.setK
  split <;> rfl
@[simp] theorem Bank.setK_posted (k : Bank) (r : Nat) (sel v : Mask) : (k.setK r sel v).posted = k.posted := by
  unfold Bank.setK
  split <;> rfl
@[simp] theorem Bank.setK_queue (k : Bank) (r : Nat) (sel v : Mask) : (k.setK r sel v).queue = k.queue := by
  unfold Bank.setK
  split <;> rfl
@[simp] theorem Bank.setK_fault (k : Bank) (r : Nat) (sel v : Mask) : (k.setK r sel v).fault = k.fault := by
  unfold Bank.setK
  split <;> rfl
@[simp] theorem Bank.setK_arrival (k : Bank) (r : Nat) (sel v : Mask) : (k.setK r sel v).arrival = k.arrival := by
  unfold Bank.setK
  split <;> rfl
@[simp] theorem Bank.setK_barrClk (k : Bank) (r : Nat) (sel v : Mask) : (k.setK r sel v).barrClk = k.barrClk := by
  unfold Bank.setK
  split <;> rfl
@[simp] theorem Bank.setK_runAhead (k : Bank) (r : Nat) (sel v : Mask) : (k.setK r sel v).runAhead = k.runAhead := by
  unfold Bank.setK
  split <;> rfl
@[simp] theorem Bank.setK_raGen (k : Bank) (r : Nat) (sel v : Mask) : (k.setK r sel v).raGen = k.raGen := by
  unfold Bank.setK
  split <;> rfl
@[simp] theorem Bank.setK_waiting (k : Bank) (r : Nat) (sel v : Mask) : (k.setK r sel v).waiting = k.waiting := by
  unfold Bank.setK
  split <;> rfl
@[simp] theorem Bank.setK_reached (k : Bank) (r : Nat) (sel v : Mask) : (k.setK r sel v).reached = k.reached := by
  unfold Bank.setK
  split <;> rfl
@[simp] theorem Bank.setK_landedNow (k : Bank) (r : Nat) (sel v : Mask) : (k.setK r sel v).landedNow = k.landedNow := by
  unfold Bank.setK
  split <;> rfl
@[simp] theorem Bank.setK_idle (k : Bank) (r : Nat) (sel v : Mask) : (k.setK r sel v).idle = k.idle := by
  unfold Bank.setK
  split <;> rfl
@[simp] theorem Bank.setK_woken (k : Bank) (r : Nat) (sel v : Mask) : (k.setK r sel v).woken = k.woken := by
  unfold Bank.setK
  split <;> rfl
@[simp] theorem Bank.setK_item (k : Bank) (r : Nat) (sel v : Mask) : (k.setK r sel v).item = k.item := by
  unfold Bank.setK
  split <;> rfl
@[simp] theorem Bank.setK_lastStep (k : Bank) (r : Nat) (sel v : Mask) : (k.setK r sel v).lastStep = k.lastStep := by
  unfold Bank.setK
  split <;> rfl
@[simp] theorem Bank.setK_sChanged (k : Bank) (r : Nat) (sel v : Mask) : (k.setK r sel v).sChanged = k.sChanged := by
  unfold Bank.setK
  split <;> rfl
@[simp] theorem Bank.setK_replaying (k : Bank) (r : Nat) (sel v : Mask) : (k.setK r sel v).replaying = k.replaying := by
  unfold Bank.setK
  split <;> rfl
@[simp] theorem Bank.setK_stopped (k : Bank) (r : Nat) (sel v : Mask) : (k.setK r sel v).stopped = k.stopped := by
  unfold Bank.setK
  split <;> rfl
@[simp] theorem Bank.setK_haltClk (k : Bank) (r : Nat) (sel v : Mask) : (k.setK r sel v).haltClk = k.haltClk := by
  unfold Bank.setK
  split <;> rfl
@[simp] theorem Bank.setK_task (k : Bank) (r : Nat) (sel v : Mask) : (k.setK r sel v).task = k.task := by
  unfold Bank.setK
  split <;> rfl

@[simp] theorem Bank.setV_state (k : Bank) (r : Nat) (sel v : Row) (side : SReg) : (k.setV r sel v side).state = k.state := rfl
@[simp] theorem Bank.setV_haltFault (k : Bank) (r : Nat) (sel v : Row) (side : SReg) : (k.setV r sel v side).haltFault = k.haltFault := rfl
@[simp] theorem Bank.setV_haltReported (k : Bank) (r : Nat) (sel v : Row) (side : SReg) : (k.setV r sel v side).haltReported = k.haltReported := rfl
@[simp] theorem Bank.setV_sregs (k : Bank) (r : Nat) (sel v : Row) (side : SReg) : (k.setV r sel v side).sregs = k.sregs := rfl
@[simp] theorem Bank.setV_kregs (k : Bank) (r : Nat) (sel v : Row) (side : SReg) : (k.setV r sel v side).kregs = k.kregs := rfl
@[simp] theorem Bank.setV_tiles (k : Bank) (r : Nat) (sel v : Row) (side : SReg) : (k.setV r sel v side).tiles = k.tiles := rfl
@[simp] theorem Bank.setV_eng0 (k : Bank) (r : Nat) (sel v : Row) (side : SReg) : (k.setV r sel v side).eng0 = k.eng0 := rfl
@[simp] theorem Bank.setV_eng1 (k : Bank) (r : Nat) (sel v : Row) (side : SReg) : (k.setV r sel v side).eng1 = k.eng1 := rfl
@[simp] theorem Bank.setV_pc (k : Bank) (r : Nat) (sel v : Row) (side : SReg) : (k.setV r sel v side).pc = k.pc := rfl
@[simp] theorem Bank.setV_loops (k : Bank) (r : Nat) (sel v : Row) (side : SReg) : (k.setV r sel v side).loops = k.loops := rfl
@[simp] theorem Bank.setV_sEmpty (k : Bank) (r : Nat) (sel v : Row) (side : SReg) : (k.setV r sel v side).sEmpty = k.sEmpty := rfl
@[simp] theorem Bank.setV_kEmpty (k : Bank) (r : Nat) (sel v : Row) (side : SReg) : (k.setV r sel v side).kEmpty = k.kEmpty := rfl
@[simp] theorem Bank.setV_vEmpty (k : Bank) (r : Nat) (sel v : Row) (side : SReg) : (k.setV r sel v side).vEmpty = k.vEmpty := rfl
@[simp] theorem Bank.setV_gens (k : Bank) (r : Nat) (sel v : Row) (side : SReg) : (k.setV r sel v side).gens = k.gens := rfl
@[simp] theorem Bank.setV_seeds (k : Bank) (r : Nat) (sel v : Row) (side : SReg) : (k.setV r sel v side).seeds = k.seeds := rfl
@[simp] theorem Bank.setV_tvec (k : Bank) (r : Nat) (sel v : Row) (side : SReg) : (k.setV r sel v side).tvec = k.tvec := rfl
@[simp] theorem Bank.setV_priv (k : Bank) (r : Nat) (sel v : Row) (side : SReg) : (k.setV r sel v side).priv = k.priv := rfl
@[simp] theorem Bank.setV_inTrap (k : Bank) (r : Nat) (sel v : Row) (side : SReg) : (k.setV r sel v side).inTrap = k.inTrap := rfl
@[simp] theorem Bank.setV_trec (k : Bank) (r : Nat) (sel v : Row) (side : SReg) : (k.setV r sel v side).trec = k.trec := rfl
@[simp] theorem Bank.setV_inFlight (k : Bank) (r : Nat) (sel v : Row) (side : SReg) : (k.setV r sel v side).inFlight = k.inFlight := rfl
@[simp] theorem Bank.setV_posted (k : Bank) (r : Nat) (sel v : Row) (side : SReg) : (k.setV r sel v side).posted = k.posted := rfl
@[simp] theorem Bank.setV_queue (k : Bank) (r : Nat) (sel v : Row) (side : SReg) : (k.setV r sel v side).queue = k.queue := rfl
@[simp] theorem Bank.setV_fault (k : Bank) (r : Nat) (sel v : Row) (side : SReg) : (k.setV r sel v side).fault = k.fault := rfl
@[simp] theorem Bank.setV_arrival (k : Bank) (r : Nat) (sel v : Row) (side : SReg) : (k.setV r sel v side).arrival = k.arrival := rfl
@[simp] theorem Bank.setV_barrClk (k : Bank) (r : Nat) (sel v : Row) (side : SReg) : (k.setV r sel v side).barrClk = k.barrClk := rfl
@[simp] theorem Bank.setV_runAhead (k : Bank) (r : Nat) (sel v : Row) (side : SReg) : (k.setV r sel v side).runAhead = k.runAhead := rfl
@[simp] theorem Bank.setV_raGen (k : Bank) (r : Nat) (sel v : Row) (side : SReg) : (k.setV r sel v side).raGen = k.raGen := rfl
@[simp] theorem Bank.setV_waiting (k : Bank) (r : Nat) (sel v : Row) (side : SReg) : (k.setV r sel v side).waiting = k.waiting := rfl
@[simp] theorem Bank.setV_reached (k : Bank) (r : Nat) (sel v : Row) (side : SReg) : (k.setV r sel v side).reached = k.reached := rfl
@[simp] theorem Bank.setV_landedNow (k : Bank) (r : Nat) (sel v : Row) (side : SReg) : (k.setV r sel v side).landedNow = k.landedNow := rfl
@[simp] theorem Bank.setV_idle (k : Bank) (r : Nat) (sel v : Row) (side : SReg) : (k.setV r sel v side).idle = k.idle := rfl
@[simp] theorem Bank.setV_woken (k : Bank) (r : Nat) (sel v : Row) (side : SReg) : (k.setV r sel v side).woken = k.woken := rfl
@[simp] theorem Bank.setV_item (k : Bank) (r : Nat) (sel v : Row) (side : SReg) : (k.setV r sel v side).item = k.item := rfl
@[simp] theorem Bank.setV_lastStep (k : Bank) (r : Nat) (sel v : Row) (side : SReg) : (k.setV r sel v side).lastStep = k.lastStep := rfl
@[simp] theorem Bank.setV_sChanged (k : Bank) (r : Nat) (sel v : Row) (side : SReg) : (k.setV r sel v side).sChanged = k.sChanged := rfl
@[simp] theorem Bank.setV_replaying (k : Bank) (r : Nat) (sel v : Row) (side : SReg) : (k.setV r sel v side).replaying = k.replaying := rfl
@[simp] theorem Bank.setV_stopped (k : Bank) (r : Nat) (sel v : Row) (side : SReg) : (k.setV r sel v side).stopped = k.stopped := rfl
@[simp] theorem Bank.setV_haltClk (k : Bank) (r : Nat) (sel v : Row) (side : SReg) : (k.setV r sel v side).haltClk = k.haltClk := rfl
@[simp] theorem Bank.setV_task (k : Bank) (r : Nat) (sel v : Row) (side : SReg) : (k.setV r sel v side).task = k.task := rfl

@[simp] theorem Bank.setSide_state (k : Bank) (r : Nat) (v : SReg) : (k.setSide r v).state = k.state := rfl
@[simp] theorem Bank.setSide_haltFault (k : Bank) (r : Nat) (v : SReg) : (k.setSide r v).haltFault = k.haltFault := rfl
@[simp] theorem Bank.setSide_haltReported (k : Bank) (r : Nat) (v : SReg) : (k.setSide r v).haltReported = k.haltReported := rfl
@[simp] theorem Bank.setSide_sregs (k : Bank) (r : Nat) (v : SReg) : (k.setSide r v).sregs = k.sregs := rfl
@[simp] theorem Bank.setSide_kregs (k : Bank) (r : Nat) (v : SReg) : (k.setSide r v).kregs = k.kregs := rfl
@[simp] theorem Bank.setSide_vregs (k : Bank) (r : Nat) (v : SReg) : (k.setSide r v).vregs = k.vregs := rfl
@[simp] theorem Bank.setSide_tiles (k : Bank) (r : Nat) (v : SReg) : (k.setSide r v).tiles = k.tiles := rfl
@[simp] theorem Bank.setSide_eng0 (k : Bank) (r : Nat) (v : SReg) : (k.setSide r v).eng0 = k.eng0 := rfl
@[simp] theorem Bank.setSide_eng1 (k : Bank) (r : Nat) (v : SReg) : (k.setSide r v).eng1 = k.eng1 := rfl
@[simp] theorem Bank.setSide_pc (k : Bank) (r : Nat) (v : SReg) : (k.setSide r v).pc = k.pc := rfl
@[simp] theorem Bank.setSide_loops (k : Bank) (r : Nat) (v : SReg) : (k.setSide r v).loops = k.loops := rfl
@[simp] theorem Bank.setSide_sEmpty (k : Bank) (r : Nat) (v : SReg) : (k.setSide r v).sEmpty = k.sEmpty := rfl
@[simp] theorem Bank.setSide_kEmpty (k : Bank) (r : Nat) (v : SReg) : (k.setSide r v).kEmpty = k.kEmpty := rfl
@[simp] theorem Bank.setSide_vEmpty (k : Bank) (r : Nat) (v : SReg) : (k.setSide r v).vEmpty = k.vEmpty := rfl
@[simp] theorem Bank.setSide_gens (k : Bank) (r : Nat) (v : SReg) : (k.setSide r v).gens = k.gens := rfl
@[simp] theorem Bank.setSide_seeds (k : Bank) (r : Nat) (v : SReg) : (k.setSide r v).seeds = k.seeds := rfl
@[simp] theorem Bank.setSide_tvec (k : Bank) (r : Nat) (v : SReg) : (k.setSide r v).tvec = k.tvec := rfl
@[simp] theorem Bank.setSide_priv (k : Bank) (r : Nat) (v : SReg) : (k.setSide r v).priv = k.priv := rfl
@[simp] theorem Bank.setSide_inTrap (k : Bank) (r : Nat) (v : SReg) : (k.setSide r v).inTrap = k.inTrap := rfl
@[simp] theorem Bank.setSide_trec (k : Bank) (r : Nat) (v : SReg) : (k.setSide r v).trec = k.trec := rfl
@[simp] theorem Bank.setSide_inFlight (k : Bank) (r : Nat) (v : SReg) : (k.setSide r v).inFlight = k.inFlight := rfl
@[simp] theorem Bank.setSide_posted (k : Bank) (r : Nat) (v : SReg) : (k.setSide r v).posted = k.posted := rfl
@[simp] theorem Bank.setSide_queue (k : Bank) (r : Nat) (v : SReg) : (k.setSide r v).queue = k.queue := rfl
@[simp] theorem Bank.setSide_fault (k : Bank) (r : Nat) (v : SReg) : (k.setSide r v).fault = k.fault := rfl
@[simp] theorem Bank.setSide_arrival (k : Bank) (r : Nat) (v : SReg) : (k.setSide r v).arrival = k.arrival := rfl
@[simp] theorem Bank.setSide_barrClk (k : Bank) (r : Nat) (v : SReg) : (k.setSide r v).barrClk = k.barrClk := rfl
@[simp] theorem Bank.setSide_runAhead (k : Bank) (r : Nat) (v : SReg) : (k.setSide r v).runAhead = k.runAhead := rfl
@[simp] theorem Bank.setSide_raGen (k : Bank) (r : Nat) (v : SReg) : (k.setSide r v).raGen = k.raGen := rfl
@[simp] theorem Bank.setSide_waiting (k : Bank) (r : Nat) (v : SReg) : (k.setSide r v).waiting = k.waiting := rfl
@[simp] theorem Bank.setSide_reached (k : Bank) (r : Nat) (v : SReg) : (k.setSide r v).reached = k.reached := rfl
@[simp] theorem Bank.setSide_landedNow (k : Bank) (r : Nat) (v : SReg) : (k.setSide r v).landedNow = k.landedNow := rfl
@[simp] theorem Bank.setSide_idle (k : Bank) (r : Nat) (v : SReg) : (k.setSide r v).idle = k.idle := rfl
@[simp] theorem Bank.setSide_woken (k : Bank) (r : Nat) (v : SReg) : (k.setSide r v).woken = k.woken := rfl
@[simp] theorem Bank.setSide_item (k : Bank) (r : Nat) (v : SReg) : (k.setSide r v).item = k.item := rfl
@[simp] theorem Bank.setSide_lastStep (k : Bank) (r : Nat) (v : SReg) : (k.setSide r v).lastStep = k.lastStep := rfl
@[simp] theorem Bank.setSide_sChanged (k : Bank) (r : Nat) (v : SReg) : (k.setSide r v).sChanged = k.sChanged := rfl
@[simp] theorem Bank.setSide_replaying (k : Bank) (r : Nat) (v : SReg) : (k.setSide r v).replaying = k.replaying := rfl
@[simp] theorem Bank.setSide_stopped (k : Bank) (r : Nat) (v : SReg) : (k.setSide r v).stopped = k.stopped := rfl
@[simp] theorem Bank.setSide_haltClk (k : Bank) (r : Nat) (v : SReg) : (k.setSide r v).haltClk = k.haltClk := rfl
@[simp] theorem Bank.setSide_task (k : Bank) (r : Nat) (v : SReg) : (k.setSide r v).task = k.task := rfl

/-! ## Registers after a write (R11, R12, R15) -/

/-- S0 reads zero. -/
@[simp] theorem Bank.s_zero (k : Bank) : k.s 0 = 0 := rfl
/-- K0 reads all ones. -/
@[simp] theorem Bank.k_zero (k : Bank) : k.k 0 = BitVec.allOnes 256 := rfl
/-- A write to S0 is discarded. -/
@[simp] theorem Bank.setS_zero (k : Bank) (now : Nat) (v : SReg) : k.setS now 0 v = k := rfl
/-- A write to K0 is discarded. -/
@[simp] theorem Bank.setK_zero (k : Bank) (sel v : Mask) : k.setK 0 sel v = k := rfl
theorem Bank.s_setS (k : Bank) (now : Nat) {r : Nat} (h : r ≠ 0) (v : SReg) : (k.setS now r v).s r = v := by
  simp [Bank.s, Bank.setS, h]
theorem Bank.s_setS_ne (k : Bank) (now : Nat) {q r : Nat} (h : q ≠ r) (v : SReg) : (k.setS now r v).s q = k.s q := by
  unfold Bank.s Bank.setS
  split
  · rfl
  · split
    · rfl
    · exact tget_tset_ne _ h _ _
theorem Bank.k_setK (k : Bank) {r : Nat} (h : r ≠ 0) (sel v : Mask) : (k.setK r sel v).k r = (k.k r &&& ~~~sel) ||| (v &&& sel) := by
  simp [Bank.k, Bank.setK, h]
theorem Bank.k_setK_ne (k : Bank) {q r : Nat} (h : q ≠ r) (sel v : Mask) : (k.setK r sel v).k q = k.k q := by
  unfold Bank.k Bank.setK
  split
  · rfl
  · split
    · rfl
    · exact tget_tset_ne _ h _ _
@[simp] theorem Bank.v_setV (k : Bank) (r : Nat) (sel v : Row) (side : SReg) :
    (k.setV r sel v side).v r = (k.v r &&& ~~~sel) ||| (v &&& sel) := tget_tset_self _ _ _ _
@[simp] theorem Bank.side_setV (k : Bank) (r : Nat) (sel v : Row) (side : SReg) : (k.setV r sel v side).side r = side := tget_tset_self _ _ _ _
theorem Bank.v_setV_ne (k : Bank) {q r : Nat} (h : q ≠ r) (sel v : Row) (side : SReg) : (k.setV r sel v side).v q = k.v q :=
  tget_tset_ne _ h _ _
theorem Bank.side_setV_ne (k : Bank) {q r : Nat} (h : q ≠ r) (sel v : Row) (side : SReg) : (k.setV r sel v side).side q = k.side q :=
  tget_tset_ne _ h _ _
@[simp] theorem Bank.s_setK (k : Bank) (r q : Nat) (sel v : Mask) : (k.setK r sel v).s q = k.s q := by simp [Bank.s]
@[simp] theorem Bank.v_setK (k : Bank) (r q : Nat) (sel v : Mask) : (k.setK r sel v).v q = k.v q := by simp [Bank.v]
@[simp] theorem Bank.side_setK (k : Bank) (r q : Nat) (sel v : Mask) : (k.setK r sel v).side q = k.side q := by simp [Bank.side]
@[simp] theorem Bank.k_setS (k : Bank) (now r q : Nat) (v : SReg) : (k.setS now r v).k q = k.k q := by simp [Bank.k]
@[simp] theorem Bank.v_setS (k : Bank) (now r q : Nat) (v : SReg) : (k.setS now r v).v q = k.v q := by simp [Bank.v]
@[simp] theorem Bank.side_setS (k : Bank) (now r q : Nat) (v : SReg) : (k.setS now r v).side q = k.side q := by simp [Bank.side]
@[simp] theorem Bank.s_setV (k : Bank) (r q : Nat) (sel v : Row) (side : SReg) : (k.setV r sel v side).s q = k.s q := rfl
@[simp] theorem Bank.k_setV (k : Bank) (r q : Nat) (sel v : Row) (side : SReg) : (k.setV r sel v side).k q = k.k q := rfl

end Sys2Proof.Machine
end

