-- ==== Sys2Proof/Laws/Issue.lean ====
section
/-! SUPPORT. What the issue of one slot can do: it traps, it is held, or it has its effect (R8, R18, R34); and, for each instruction, the
conditions that leave it nothing but its effect. -/

namespace Sys2Proof.Machine

/-! ## The steps without an encoding -/

theorem event_next {s t : State} {f : State → Option State} (h : s.failed = false) (e : f s = some t) : event s f = .next t := by
  simp [event, h, e]

/-- A step that is not enabled changes nothing. -/
theorem event_disabled {s : State} {f : State → Option State} (h : s.failed = false) (e : f s = none) : event s f = .next s := by
  simp [event, h, e]

/-- Everything a step without an encoding can do. -/
theorem event_cases {s t : State} {f : State → Option State} (h : event s f = .next t) :
    s.failed = false ∧ (f s = some t ∨ (f s = none ∧ t = s)) := by
  unfold event at h
  split at h
  · simp at h
  · next hf =>
    refine ⟨by simpa using hf, ?_⟩
    split at h
    · next u hu => simp only [Host.Outcome.next.injEq] at h; subst h; exact .inl hu
    · next hu => simp only [Host.Outcome.next.injEq] at h; exact .inr ⟨hu, h.symm⟩

/-! ## One slot -/

/-- Everything the issue of a slot can do, where it answers a next state. -/
theorem issueSlot_cases {i : Instr} {s t : State} {f : State → State} (h : issueSlot i s f = .next t) :
    s.failed = false ∧ ((s.ctx.checked = true ∧ t = f s)
      ∨ (s.ctx.checked = false ∧ ∃ cause, slotTrap i s = some cause ∧ t = s.takeIssueTrap cause s.ctx.pos (trapCode i))
      ∨ (s.ctx.checked = false ∧ slotTrap i s = none ∧ slotHold i (s.reach i) = true ∧ t = (s.reach i).hold)
      ∨ (s.ctx.checked = false ∧ slotTrap i s = none ∧ slotHold i (s.reach i) = false ∧ t = f (s.reach i))) := by
  unfold issueSlot at h
  split at h
  · simp at h
  · next hf =>
    refine ⟨by simpa using hf, ?_⟩
    split at h
    · next hc => simp only [Host.Outcome.next.injEq] at h; exact .inl ⟨hc, h.symm⟩
    · next hc =>
      have hc' : s.ctx.checked = false := by simpa using hc
      split at h
      · next cause ht => simp only [Host.Outcome.next.injEq] at h; exact .inr (.inl ⟨hc', cause, ht, h.symm⟩)
      · next ht =>
        split at h
        · next hh => simp only [Host.Outcome.next.injEq] at h; exact .inr (.inr (.inl ⟨hc', ht, hh, h.symm⟩))
        · next hh => simp only [Host.Outcome.next.injEq] at h; exact .inr (.inr (.inr ⟨hc', ht, by simpa using hh, h.symm⟩))

theorem issueSlot_trap {i : Instr} {s : State} {f : State → State} {cause : Nat} (hf : s.failed = false) (hc : s.ctx.checked = false)
    (h : slotTrap i s = some cause) : issueSlot i s f = .next (s.takeIssueTrap cause s.ctx.pos (trapCode i)) := by
  simp [issueSlot, hf, hc, h]

theorem issueSlot_hold {i : Instr} {s : State} {f : State → State} (hf : s.failed = false) (hc : s.ctx.checked = false)
    (ht : slotTrap i s = none) (hh : slotHold i (s.reach i) = true) : issueSlot i s f = .next (s.reach i).hold := by
  simp [issueSlot, hf, hc, ht, hh]

theorem issueSlot_effect {i : Instr} {s : State} {f : State → State} (hf : s.failed = false) (hc : s.ctx.checked = false)
    (ht : slotTrap i s = none) (hh : slotHold i (s.reach i) = false) : issueSlot i s f = .next (f (s.reach i)) := by
  simp [issueSlot, hf, hc, ht, hh]

/-- In a bundle that has been examined as a whole a slot has its effect. -/
theorem issueSlot_checked {i : Instr} {s : State} {f : State → State} (hf : s.failed = false) (hc : s.ctx.checked = true) :
    issueSlot i s f = .next (f s) := by
  simp [issueSlot, hf, hc]

/-- The cause reported is the lowest (R34). -/
theorem slotTrap_lowest {i : Instr} {s : State} {c : Nat} (h : c ∈ staticCauses i s ++ valueCauses i s)
    (hm : ∀ d ∈ staticCauses i s ++ valueCauses i s, c ≤ d) : slotTrap i s = some c := by
  unfold slotTrap
  exact List.min?_eq_some_iff.mpr ⟨h, hm⟩

/-! ## Conditions that leave a slot nothing but its effect -/

/-- A `STRICT` bit that names no source (R25). -/
def prefixCauses (i : Instr) (s : State) : List Nat :=
  match i with
  | .pfx _ _ _ strict => if strict &&& ~~~s.ctx.named ≠ 0 then [0x03] else []
  | _ => []

/-- An unknown CSR number, `TRAP` and `SVC` (R125, R417, R427). -/
def systemCauses (i : Instr) : List Nat :=
  match i with
  | .csrr _ csr | .csrw _ csr | .csrs _ csr | .csrc _ csr => if csrKnown csr.toNat then [] else [0x03]
  | .trap _ => [0x1C]
  | .svc _ => [0x1B]
  | _ => []

/-- The causes that need no register value, by family. -/
theorem staticCauses_eq (i : Instr) (s : State) : staticCauses i s = (if i.wf then [] else [0x03])
    ++ (if immFits i s.ctx.ext then [] else [0x03]) ++ prefixCauses i s ++ systemCauses i
    ++ (if privilegedOp i ∧ !s.cur.priv then [0x05] else []) ++ strictCauses i s ++ loopCauses i s ++ viewCauses i s := rfl

/-- The registers a slot reads or writes (R18). -/
def regsOf (i : Instr) : List Reg := (srcA i).getD [] ++ (srcB i).getD [] ++ dests i

/-- A slot with full registers has no cause and no hold. -/
structure Quiet (i : Instr) (s : State) : Prop where
  wf : i.wf = true
  imm : immFits i s.ctx.ext = true
  priv : privilegedOp i = true → s.cur.priv = true
  pfx : prefixCauses i s = []
  sys : systemCauses i = []
  loops : loopCauses i s = []
  view : viewCauses i s = []
  uni : uniformCauses i s = []
  trans : transferCauses i s = []
  addr : addressCauses i s = []
  conv : convertCauses i s = []
  mat : matrixCauses i s = []
  opA : operandCausesA i s = []
  opB : operandCausesB i s = []
  reach : s.reach i = s
  fifo : fifoHold i s.cur = false
  eng : engineHold i s = false
  wait : waitHold i s = false

/-- Every register of an operand is full. -/
theorem allFull_of {k : Bank} {o : Option (List Reg)} (h : ∀ r ∈ o.getD [], k.isEmpty r = false) : allFull k o = true := by
  simp only [allFull, List.all_eq_true, Bool.not_eq_true']
  exact h

/-- A slot whose registers are full and which is quiet has its effect. -/
theorem issueSlot_completes {i : Instr} {s : State} {f : State → State} {l : List Reg} (hf : s.failed = false) (hc : s.ctx.checked = false)
    (hl : regsOf i = l) (hfull : ∀ r ∈ l, s.cur.isEmpty r = false) (hpow : powerHold s = false) (q : Quiet i s) : issueSlot i s f = .next (f s) := by
  subst hl
  unfold regsOf at hfull
  have ha : allFull s.cur (srcA i) = true := allFull_of fun r hr => hfull r (by simp [hr])
  have hb : allFull s.cur (srcB i) = true := allFull_of fun r hr => hfull r (by simp [hr])
  have hd : (dests i).any s.cur.isEmpty = false := by
    rw [List.any_eq_false]
    intro r hr
    rw [hfull r (by simp [hr])]
    exact Bool.false_ne_true
  have hst : strictCauses i s = [] := by simp [strictCauses, ha, hb]
  have hpr : ¬ (privilegedOp i = true ∧ (!s.cur.priv) = true) := by
    rintro ⟨a, b⟩
    simp [q.priv a] at b
  have hs : staticCauses i s = [] := by
    unfold staticCauses
    simp only [q.wf, q.imm, if_true, hst, q.loops, q.view, List.append_nil, List.nil_append]
    rw [if_neg hpr]
    simp only [List.append_nil, List.append_eq_nil_iff]
    exact ⟨q.pfx, q.sys⟩
  have hv : valueCauses i s = [] := by
    simp [valueCauses, ha, hb, q.uni, q.trans, q.addr, q.conv, q.mat, q.opA, q.opB]
  have ht : slotTrap i s = none := by simp [slotTrap, hs, hv]
  have hh : slotHold i (s.reach i) = false := by
    simp [slotHold, hpow, q.reach, registerHold, ha, hb, hd, q.fifo, q.eng, q.wait]
  rw [issueSlot_effect hf hc ht hh, q.reach]

/-- The cause reported by a slot with full registers that is well-formed and privileged enough: the lowest of those that its state gives. -/
theorem slotTrap_of_causes {i : Instr} {s : State} {l : List Reg} {causes : List Nat} {cause : Nat} (hl : regsOf i = l)
    (hfull : ∀ r ∈ l, s.cur.isEmpty r = false) (hwf : i.wf = true) (himm : immFits i s.ctx.ext = true)
    (hpriv : privilegedOp i = true → s.cur.priv = true) (hpfx : prefixCauses i s = []) (hsys : systemCauses i = [])
    (h : loopCauses i s ++ viewCauses i s ++ (uniformCauses i s ++ transferCauses i s ++ addressCauses i s ++ convertCauses i s
      ++ matrixCauses i s ++ operandCausesA i s ++ operandCausesB i s) = causes) (hmin : causes.min? = some cause) :
    slotTrap i s = some cause := by
  subst hl h
  unfold regsOf at hfull
  have ha : allFull s.cur (srcA i) = true := allFull_of fun r hr => hfull r (by simp [hr])
  have hb : allFull s.cur (srcB i) = true := allFull_of fun r hr => hfull r (by simp [hr])
  have hst : strictCauses i s = [] := by simp [strictCauses, ha, hb]
  have hpr : ¬ (privilegedOp i = true ∧ (!s.cur.priv) = true) := by
    rintro ⟨a, b⟩
    simp [hpriv a] at b
  have hs : staticCauses i s = loopCauses i s ++ viewCauses i s := by
    rw [staticCauses_eq, if_pos hwf, if_pos himm, if_neg hpr, hst, hpfx, hsys]
    rfl
  unfold slotTrap
  rw [hs]
  unfold valueCauses
  rw [if_pos ha, if_pos hb]
  exact hmin


/-! ## When each instruction is quiet -/

theorem quiet_pfx (rm : BitVec 3) (sat : BitVec 1) (mask : BitVec 4) (strict : BitVec 16) (s : State) (hwf : (Instr.pfx rm sat mask strict).wf = true) (hpfx : prefixCauses (Instr.pfx rm sat mask strict) s = []) : Quiet (Instr.pfx rm sat mask strict) s :=
  ⟨hwf, rfl, nofun, hpfx, rfl, rfl, rfl, rfl, rfl, rfl, rfl, rfl, rfl, rfl, rfl, rfl, rfl, rfl⟩
theorem quiet_ext (pay : BitVec 25) (s : State) : Quiet (Instr.ext pay) s :=
  ⟨rfl, rfl, nofun, rfl, rfl, rfl, rfl, rfl, rfl, rfl, rfl, rfl, rfl, rfl, rfl, rfl, rfl, rfl⟩
theorem quiet_add (rd ra rb : BitVec 6) (mod : BitVec 1) (s : State) : Quiet (Instr.add rd ra rb mod) s :=
  ⟨rfl, rfl, nofun, rfl, rfl, rfl, rfl, rfl, rfl, rfl, rfl, rfl, rfl, rfl, rfl, rfl, rfl, rfl⟩
theorem quiet_sub (rd ra rb : BitVec 6) (mod : BitVec 1) (s : State) : Quiet (Instr.sub rd ra rb mod) s :=
  ⟨rfl, rfl, nofun, rfl, rfl, rfl, rfl, rfl, rfl, rfl, rfl, rfl, rfl, rfl, rfl, rfl, rfl, rfl⟩
theorem quiet_addi (rd ra : BitVec 6) (imm : BitVec 8) (s : State) (himm : immFits (Instr.addi rd ra imm) s.ctx.ext = true) : Quiet (Instr.addi rd ra imm) s :=
  ⟨rfl, himm, nofun, rfl, rfl, rfl, rfl, rfl, rfl, rfl, rfl, rfl, rfl, rfl, rfl, rfl, rfl, rfl⟩
theorem quiet_addsh (rd ra rb : BitVec 6) (mod : BitVec 1) (s : State) : Quiet (Instr.addsh rd ra rb mod) s :=
  ⟨rfl, rfl, nofun, rfl, rfl, rfl, rfl, rfl, rfl, rfl, rfl, rfl, rfl, rfl, rfl, rfl, rfl, rfl⟩
theorem quiet_mul (rd ra rb : BitVec 6) (mod : BitVec 1) (s : State) : Quiet (Instr.mul rd ra rb mod) s :=
  ⟨rfl, rfl, nofun, rfl, rfl, rfl, rfl, rfl, rfl, rfl, rfl, rfl, rfl, rfl, rfl, rfl, rfl, rfl⟩
theorem quiet_mulh (rd ra rb : BitVec 6) (mod : BitVec 1) (s : State) : Quiet (Instr.mulh rd ra rb mod) s :=
  ⟨rfl, rfl, nofun, rfl, rfl, rfl, rfl, rfl, rfl, rfl, rfl, rfl, rfl, rfl, rfl, rfl, rfl, rfl⟩
theorem quiet_div (rd ra rb : BitVec 6) (mod : BitVec 1) (s : State) : Quiet (Instr.div rd ra rb mod) s :=
  ⟨rfl, rfl, nofun, rfl, rfl, rfl, rfl, rfl, rfl, rfl, rfl, rfl, rfl, rfl, rfl, rfl, rfl, rfl⟩
theorem quiet_divu (rd ra rb : BitVec 6) (mod : BitVec 1) (s : State) : Quiet (Instr.divu rd ra rb mod) s :=
  ⟨rfl, rfl, nofun, rfl, rfl, rfl, rfl, rfl, rfl, rfl, rfl, rfl, rfl, rfl, rfl, rfl, rfl, rfl⟩
theorem quiet_rem (rd ra rb : BitVec 6) (mod : BitVec 1) (s : State) : Quiet (Instr.rem rd ra rb mod) s :=
  ⟨rfl, rfl, nofun, rfl, rfl, rfl, rfl, rfl, rfl, rfl, rfl, rfl, rfl, rfl, rfl, rfl, rfl, rfl⟩
theorem quiet_and (rd ra rb : BitVec 6) (s : State) : Quiet (Instr.and rd ra rb) s :=
  ⟨rfl, rfl, nofun, rfl, rfl, rfl, rfl, rfl, rfl, rfl, rfl, rfl, rfl, rfl, rfl, rfl, rfl, rfl⟩
theorem quiet_or (rd ra rb : BitVec 6) (s : State) : Quiet (Instr.or rd ra rb) s :=
  ⟨rfl, rfl, nofun, rfl, rfl, rfl, rfl, rfl, rfl, rfl, rfl, rfl, rfl, rfl, rfl, rfl, rfl, rfl⟩
theorem quiet_xor (rd ra rb : BitVec 6) (s : State) : Quiet (Instr.xor rd ra rb) s :=
  ⟨rfl, rfl, nofun, rfl, rfl, rfl, rfl, rfl, rfl, rfl, rfl, rfl, rfl, rfl, rfl, rfl, rfl, rfl⟩
theorem quiet_andn (rd ra rb : BitVec 6) (s : State) : Quiet (Instr.andn rd ra rb) s :=
  ⟨rfl, rfl, nofun, rfl, rfl, rfl, rfl, rfl, rfl, rfl, rfl, rfl, rfl, rfl, rfl, rfl, rfl, rfl⟩
theorem quiet_shl (rd ra rb : BitVec 6) (mod : BitVec 1) (s : State) : Quiet (Instr.shl rd ra rb mod) s :=
  ⟨rfl, rfl, nofun, rfl, rfl, rfl, rfl, rfl, rfl, rfl, rfl, rfl, rfl, rfl, rfl, rfl, rfl, rfl⟩
theorem quiet_shr (rd ra rb : BitVec 6) (mod : BitVec 1) (s : State) : Quiet (Instr.shr rd ra rb mod) s :=
  ⟨rfl, rfl, nofun, rfl, rfl, rfl, rfl, rfl, rfl, rfl, rfl, rfl, rfl, rfl, rfl, rfl, rfl, rfl⟩
theorem quiet_sar (rd ra rb : BitVec 6) (mod : BitVec 1) (s : State) : Quiet (Instr.sar rd ra rb mod) s :=
  ⟨rfl, rfl, nofun, rfl, rfl, rfl, rfl, rfl, rfl, rfl, rfl, rfl, rfl, rfl, rfl, rfl, rfl, rfl⟩
theorem quiet_shli (rd ra imm : BitVec 6) (s : State) : Quiet (Instr.shli rd ra imm) s :=
  ⟨rfl, rfl, nofun, rfl, rfl, rfl, rfl, rfl, rfl, rfl, rfl, rfl, rfl, rfl, rfl, rfl, rfl, rfl⟩
theorem quiet_shri (rd ra imm : BitVec 6) (s : State) : Quiet (Instr.shri rd ra imm) s :=
  ⟨rfl, rfl, nofun, rfl, rfl, rfl, rfl, rfl, rfl, rfl, rfl, rfl, rfl, rfl, rfl, rfl, rfl, rfl⟩
theorem quiet_sari (rd ra imm : BitVec 6) (s : State) : Quiet (Instr.sari rd ra imm) s :=
  ⟨rfl, rfl, nofun, rfl, rfl, rfl, rfl, rfl, rfl, rfl, rfl, rfl, rfl, rfl, rfl, rfl, rfl, rfl⟩
theorem quiet_clz (rd ra : BitVec 6) (mod : BitVec 1) (s : State) : Quiet (Instr.clz rd ra mod) s :=
  ⟨rfl, rfl, nofun, rfl, rfl, rfl, rfl, rfl, rfl, rfl, rfl, rfl, rfl, rfl, rfl, rfl, rfl, rfl⟩
theorem quiet_popc (rd ra : BitVec 6) (mod : BitVec 1) (s : State) : Quiet (Instr.popc rd ra mod) s :=
  ⟨rfl, rfl, nofun, rfl, rfl, rfl, rfl, rfl, rfl, rfl, rfl, rfl, rfl, rfl, rfl, rfl, rfl, rfl⟩
theorem quiet_bext (rd ra rb : BitVec 6) (s : State) : Quiet (Instr.bext rd ra rb) s :=
  ⟨rfl, rfl, nofun, rfl, rfl, rfl, rfl, rfl, rfl, rfl, rfl, rfl, rfl, rfl, rfl, rfl, rfl, rfl⟩
theorem quiet_bins (rd ra rb : BitVec 6) (s : State) : Quiet (Instr.bins rd ra rb) s :=
  ⟨rfl, rfl, nofun, rfl, rfl, rfl, rfl, rfl, rfl, rfl, rfl, rfl, rfl, rfl, rfl, rfl, rfl, rfl⟩
theorem quiet_min (rd ra rb : BitVec 6) (mod : BitVec 1) (s : State) : Quiet (Instr.min rd ra rb mod) s :=
  ⟨rfl, rfl, nofun, rfl, rfl, rfl, rfl, rfl, rfl, rfl, rfl, rfl, rfl, rfl, rfl, rfl, rfl, rfl⟩
theorem quiet_max (rd ra rb : BitVec 6) (mod : BitVec 1) (s : State) : Quiet (Instr.max rd ra rb mod) s :=
  ⟨rfl, rfl, nofun, rfl, rfl, rfl, rfl, rfl, rfl, rfl, rfl, rfl, rfl, rfl, rfl, rfl, rfl, rfl⟩
theorem quiet_minu (rd ra rb : BitVec 6) (mod : BitVec 1) (s : State) : Quiet (Instr.minu rd ra rb mod) s :=
  ⟨rfl, rfl, nofun, rfl, rfl, rfl, rfl, rfl, rfl, rfl, rfl, rfl, rfl, rfl, rfl, rfl, rfl, rfl⟩
theorem quiet_maxu (rd ra rb : BitVec 6) (mod : BitVec 1) (s : State) : Quiet (Instr.maxu rd ra rb mod) s :=
  ⟨rfl, rfl, nofun, rfl, rfl, rfl, rfl, rfl, rfl, rfl, rfl, rfl, rfl, rfl, rfl, rfl, rfl, rfl⟩
theorem quiet_seq (rd ra rb : BitVec 6) (mod : BitVec 1) (s : State) : Quiet (Instr.seq rd ra rb mod) s :=
  ⟨rfl, rfl, nofun, rfl, rfl, rfl, rfl, rfl, rfl, rfl, rfl, rfl, rfl, rfl, rfl, rfl, rfl, rfl⟩
theorem quiet_sne (rd ra rb : BitVec 6) (mod : BitVec 1) (s : State) : Quiet (Instr.sne rd ra rb mod) s :=
  ⟨rfl, rfl, nofun, rfl, rfl, rfl, rfl, rfl, rfl, rfl, rfl, rfl, rfl, rfl, rfl, rfl, rfl, rfl⟩
theorem quiet_slt (rd ra rb : BitVec 6) (mod : BitVec 1) (s : State) : Quiet (Instr.slt rd ra rb mod) s :=
  ⟨rfl, rfl, nofun, rfl, rfl, rfl, rfl, rfl, rfl, rfl, rfl, rfl, rfl, rfl, rfl, rfl, rfl, rfl⟩
theorem quiet_sltu (rd ra rb : BitVec 6) (mod : BitVec 1) (s : State) : Quiet (Instr.sltu rd ra rb mod) s :=
  ⟨rfl, rfl, nofun, rfl, rfl, rfl, rfl, rfl, rfl, rfl, rfl, rfl, rfl, rfl, rfl, rfl, rfl, rfl⟩
theorem quiet_sle (rd ra rb : BitVec 6) (mod : BitVec 1) (s : State) : Quiet (Instr.sle rd ra rb mod) s :=
  ⟨rfl, rfl, nofun, rfl, rfl, rfl, rfl, rfl, rfl, rfl, rfl, rfl, rfl, rfl, rfl, rfl, rfl, rfl⟩
theorem quiet_sleu (rd ra rb : BitVec 6) (mod : BitVec 1) (s : State) : Quiet (Instr.sleu rd ra rb mod) s :=
  ⟨rfl, rfl, nofun, rfl, rfl, rfl, rfl, rfl, rfl, rfl, rfl, rfl, rfl, rfl, rfl, rfl, rfl, rfl⟩
theorem quiet_sel (rd ra rb : BitVec 6) (s : State) : Quiet (Instr.sel rd ra rb) s :=
  ⟨rfl, rfl, nofun, rfl, rfl, rfl, rfl, rfl, rfl, rfl, rfl, rfl, rfl, rfl, rfl, rfl, rfl, rfl⟩
theorem quiet_movi (rd : BitVec 6) (imm : BitVec 14) (s : State) (himm : immFits (Instr.movi rd imm) s.ctx.ext = true) : Quiet (Instr.movi rd imm) s :=
  ⟨rfl, himm, nofun, rfl, rfl, rfl, rfl, rfl, rfl, rfl, rfl, rfl, rfl, rfl, rfl, rfl, rfl, rfl⟩
theorem quiet_movhi (rd : BitVec 6) (imm : BitVec 14) (s : State) : Quiet (Instr.movhi rd imm) s :=
  ⟨rfl, rfl, nofun, rfl, rfl, rfl, rfl, rfl, rfl, rfl, rfl, rfl, rfl, rfl, rfl, rfl, rfl, rfl⟩
theorem quiet_fadd (rd ra rb : BitVec 6) (s : State) : Quiet (Instr.fadd rd ra rb) s :=
  ⟨rfl, rfl, nofun, rfl, rfl, rfl, rfl, rfl, rfl, rfl, rfl, rfl, rfl, rfl, rfl, rfl, rfl, rfl⟩
theorem quiet_fsub (rd ra rb : BitVec 6) (s : State) : Quiet (Instr.fsub rd ra rb) s :=
  ⟨rfl, rfl, nofun, rfl, rfl, rfl, rfl, rfl, rfl, rfl, rfl, rfl, rfl, rfl, rfl, rfl, rfl, rfl⟩
theorem quiet_fmul (rd ra rb : BitVec 6) (s : State) : Quiet (Instr.fmul rd ra rb) s :=
  ⟨rfl, rfl, nofun, rfl, rfl, rfl, rfl, rfl, rfl, rfl, rfl, rfl, rfl, rfl, rfl, rfl, rfl, rfl⟩
theorem quiet_ffma (rd ra rb : BitVec 6) (s : State) : Quiet (Instr.ffma rd ra rb) s :=
  ⟨rfl, rfl, nofun, rfl, rfl, rfl, rfl, rfl, rfl, rfl, rfl, rfl, rfl, rfl, rfl, rfl, rfl, rfl⟩
theorem quiet_fdiv (rd ra rb : BitVec 6) (s : State) : Quiet (Instr.fdiv rd ra rb) s :=
  ⟨rfl, rfl, nofun, rfl, rfl, rfl, rfl, rfl, rfl, rfl, rfl, rfl, rfl, rfl, rfl, rfl, rfl, rfl⟩
theorem quiet_fsqrt (rd ra : BitVec 6) (s : State) : Quiet (Instr.fsqrt rd ra) s :=
  ⟨rfl, rfl, nofun, rfl, rfl, rfl, rfl, rfl, rfl, rfl, rfl, rfl, rfl, rfl, rfl, rfl, rfl, rfl⟩
theorem quiet_fmin (rd ra rb : BitVec 6) (s : State) : Quiet (Instr.fmin rd ra rb) s :=
  ⟨rfl, rfl, nofun, rfl, rfl, rfl, rfl, rfl, rfl, rfl, rfl, rfl, rfl, rfl, rfl, rfl, rfl, rfl⟩
theorem quiet_fmax (rd ra rb : BitVec 6) (s : State) : Quiet (Instr.fmax rd ra rb) s :=
  ⟨rfl, rfl, nofun, rfl, rfl, rfl, rfl, rfl, rfl, rfl, rfl, rfl, rfl, rfl, rfl, rfl, rfl, rfl⟩
theorem quiet_feq (rd ra rb : BitVec 6) (s : State) : Quiet (Instr.feq rd ra rb) s :=
  ⟨rfl, rfl, nofun, rfl, rfl, rfl, rfl, rfl, rfl, rfl, rfl, rfl, rfl, rfl, rfl, rfl, rfl, rfl⟩
theorem quiet_flt (rd ra rb : BitVec 6) (s : State) : Quiet (Instr.flt rd ra rb) s :=
  ⟨rfl, rfl, nofun, rfl, rfl, rfl, rfl, rfl, rfl, rfl, rfl, rfl, rfl, rfl, rfl, rfl, rfl, rfl⟩
theorem quiet_fle (rd ra rb : BitVec 6) (s : State) : Quiet (Instr.fle rd ra rb) s :=
  ⟨rfl, rfl, nofun, rfl, rfl, rfl, rfl, rfl, rfl, rfl, rfl, rfl, rfl, rfl, rfl, rfl, rfl, rfl⟩
theorem quiet_fcvti (rd ra : BitVec 6) (mod : BitVec 1) (s : State) : Quiet (Instr.fcvti rd ra mod) s :=
  ⟨rfl, rfl, nofun, rfl, rfl, rfl, rfl, rfl, rfl, rfl, rfl, rfl, rfl, rfl, rfl, rfl, rfl, rfl⟩
theorem quiet_fcvtf (rd ra : BitVec 6) (mod : BitVec 1) (s : State) : Quiet (Instr.fcvtf rd ra mod) s :=
  ⟨rfl, rfl, nofun, rfl, rfl, rfl, rfl, rfl, rfl, rfl, rfl, rfl, rfl, rfl, rfl, rfl, rfl, rfl⟩
theorem quiet_brz (hint : BitVec 1) (ra : BitVec 6) (off : BitVec 15) (s : State) (himm : immFits (Instr.brz hint ra off) s.ctx.ext = true) (htrans : transferCauses (Instr.brz hint ra off) s = []) : Quiet (Instr.brz hint ra off) s :=
  ⟨rfl, himm, nofun, rfl, rfl, rfl, rfl, rfl, htrans, rfl, rfl, rfl, rfl, rfl, rfl, rfl, rfl, rfl⟩
theorem quiet_brnz (hint : BitVec 1) (ra : BitVec 6) (off : BitVec 15) (s : State) (himm : immFits (Instr.brnz hint ra off) s.ctx.ext = true) (htrans : transferCauses (Instr.brnz hint ra off) s = []) : Quiet (Instr.brnz hint ra off) s :=
  ⟨rfl, himm, nofun, rfl, rfl, rfl, rfl, rfl, htrans, rfl, rfl, rfl, rfl, rfl, rfl, rfl, rfl, rfl⟩
theorem quiet_brkt (hint : BitVec 1) (rk : BitVec 4) (off : BitVec 15) (s : State) (himm : immFits (Instr.brkt hint rk off) s.ctx.ext = true) (huni : uniformCauses (Instr.brkt hint rk off) s = []) (htrans : transferCauses (Instr.brkt hint rk off) s = []) : Quiet (Instr.brkt hint rk off) s :=
  ⟨rfl, himm, nofun, rfl, rfl, rfl, rfl, huni, htrans, rfl, rfl, rfl, rfl, rfl, rfl, rfl, rfl, rfl⟩
theorem quiet_brkf (hint : BitVec 1) (rk : BitVec 4) (off : BitVec 15) (s : State) (himm : immFits (Instr.brkf hint rk off) s.ctx.ext = true) (huni : uniformCauses (Instr.brkf hint rk off) s = []) (htrans : transferCauses (Instr.brkf hint rk off) s = []) : Quiet (Instr.brkf hint rk off) s :=
  ⟨rfl, himm, nofun, rfl, rfl, rfl, rfl, huni, htrans, rfl, rfl, rfl, rfl, rfl, rfl, rfl, rfl, rfl⟩
theorem quiet_jmp (off : BitVec 21) (s : State) (himm : immFits (Instr.jmp off) s.ctx.ext = true) (htrans : transferCauses (Instr.jmp off) s = []) : Quiet (Instr.jmp off) s :=
  ⟨rfl, himm, nofun, rfl, rfl, rfl, rfl, rfl, htrans, rfl, rfl, rfl, rfl, rfl, rfl, rfl, rfl, rfl⟩
theorem quiet_jmpi (ra : BitVec 6) (s : State) (htrans : transferCauses (Instr.jmpi ra) s = []) : Quiet (Instr.jmpi ra) s :=
  ⟨rfl, rfl, nofun, rfl, rfl, rfl, rfl, rfl, htrans, rfl, rfl, rfl, rfl, rfl, rfl, rfl, rfl, rfl⟩
theorem quiet_call (rd : BitVec 6) (off : BitVec 15) (s : State) (himm : immFits (Instr.call rd off) s.ctx.ext = true) (htrans : transferCauses (Instr.call rd off) s = []) : Quiet (Instr.call rd off) s :=
  ⟨rfl, himm, nofun, rfl, rfl, rfl, rfl, rfl, htrans, rfl, rfl, rfl, rfl, rfl, rfl, rfl, rfl, rfl⟩
theorem quiet_ret (ra : BitVec 6) (s : State) (htrans : transferCauses (Instr.ret ra) s = []) : Quiet (Instr.ret ra) s :=
  ⟨rfl, rfl, nofun, rfl, rfl, rfl, rfl, rfl, htrans, rfl, rfl, rfl, rfl, rfl, rfl, rfl, rfl, rfl⟩
theorem quiet_loop (ra : BitVec 6) (endw : BitVec 13) (s : State) (hloops : loopCauses (Instr.loop ra endw) s = []) (htrans : transferCauses (Instr.loop ra endw) s = []) : Quiet (Instr.loop ra endw) s :=
  ⟨rfl, rfl, nofun, rfl, rfl, hloops, rfl, rfl, htrans, rfl, rfl, rfl, rfl, rfl, rfl, rfl, rfl, rfl⟩
theorem quiet_loopi (cnt : BitVec 9) (endw : BitVec 13) (s : State) (himm : immFits (Instr.loopi cnt endw) s.ctx.ext = true) (hloops : loopCauses (Instr.loopi cnt endw) s = []) (htrans : transferCauses (Instr.loopi cnt endw) s = []) : Quiet (Instr.loopi cnt endw) s :=
  ⟨rfl, himm, nofun, rfl, rfl, hloops, rfl, rfl, htrans, rfl, rfl, rfl, rfl, rfl, rfl, rfl, rfl, rfl⟩
theorem quiet_lset (lvl : BitVec 3) (fld : BitVec 2) (ra : BitVec 6) (s : State) (hwf : (Instr.lset lvl fld ra).wf = true) (hloops : loopCauses (Instr.lset lvl fld ra) s = []) (htrans : transferCauses (Instr.lset lvl fld ra) s = []) : Quiet (Instr.lset lvl fld ra) s :=
  ⟨hwf, rfl, nofun, rfl, rfl, hloops, rfl, rfl, htrans, rfl, rfl, rfl, rfl, rfl, rfl, rfl, rfl, rfl⟩
theorem quiet_lidx (rd : BitVec 6) (lvl : BitVec 3) (s : State) (hwf : (Instr.lidx rd lvl).wf = true) (hloops : loopCauses (Instr.lidx rd lvl) s = []) : Quiet (Instr.lidx rd lvl) s :=
  ⟨hwf, rfl, nofun, rfl, rfl, hloops, rfl, rfl, rfl, rfl, rfl, rfl, rfl, rfl, rfl, rfl, rfl, rfl⟩
theorem quiet_lbrk (lvl : BitVec 3) (s : State) (hwf : (Instr.lbrk lvl).wf = true) (hloops : loopCauses (Instr.lbrk lvl) s = []) (htrans : transferCauses (Instr.lbrk lvl) s = []) : Quiet (Instr.lbrk lvl) s :=
  ⟨hwf, rfl, nofun, rfl, rfl, hloops, rfl, rfl, htrans, rfl, rfl, rfl, rfl, rfl, rfl, rfl, rfl, rfl⟩
theorem quiet_waitc (cnt : BitVec 21) (s : State) (himm : immFits (Instr.waitc cnt) s.ctx.ext = true) : Quiet (Instr.waitc cnt) s :=
  ⟨rfl, himm, nofun, rfl, rfl, rfl, rfl, rfl, rfl, rfl, rfl, rfl, rfl, rfl, rfl, rfl, rfl, rfl⟩
theorem quiet_trap (code : BitVec 16) (s : State) (hsys : systemCauses (Instr.trap code) = []) : Quiet (Instr.trap code) s :=
  ⟨rfl, rfl, nofun, rfl, hsys, rfl, rfl, rfl, rfl, rfl, rfl, rfl, rfl, rfl, rfl, rfl, rfl, rfl⟩
theorem quiet_halt (s : State) : Quiet (Instr.halt) s :=
  ⟨rfl, rfl, nofun, rfl, rfl, rfl, rfl, rfl, rfl, rfl, rfl, rfl, rfl, rfl, rfl, rfl, rfl, rfl⟩
theorem quiet_vadd (rd ra rb : BitVec 7) (s : State) (hview : viewCauses (Instr.vadd rd ra rb) s = []) : Quiet (Instr.vadd rd ra rb) s :=
  ⟨rfl, rfl, nofun, rfl, rfl, rfl, hview, rfl, rfl, rfl, rfl, rfl, rfl, rfl, rfl, rfl, rfl, rfl⟩
theorem quiet_vsub (rd ra rb : BitVec 7) (s : State) (hview : viewCauses (Instr.vsub rd ra rb) s = []) : Quiet (Instr.vsub rd ra rb) s :=
  ⟨rfl, rfl, nofun, rfl, rfl, rfl, hview, rfl, rfl, rfl, rfl, rfl, rfl, rfl, rfl, rfl, rfl, rfl⟩
theorem quiet_vmul (rd ra rb : BitVec 7) (s : State) (hview : viewCauses (Instr.vmul rd ra rb) s = []) : Quiet (Instr.vmul rd ra rb) s :=
  ⟨rfl, rfl, nofun, rfl, rfl, rfl, hview, rfl, rfl, rfl, rfl, rfl, rfl, rfl, rfl, rfl, rfl, rfl⟩
theorem quiet_vfma (rd ra rb : BitVec 7) (s : State) (hview : viewCauses (Instr.vfma rd ra rb) s = []) : Quiet (Instr.vfma rd ra rb) s :=
  ⟨rfl, rfl, nofun, rfl, rfl, rfl, hview, rfl, rfl, rfl, rfl, rfl, rfl, rfl, rfl, rfl, rfl, rfl⟩
theorem quiet_vfms (rd ra rb : BitVec 7) (s : State) (hview : viewCauses (Instr.vfms rd ra rb) s = []) : Quiet (Instr.vfms rd ra rb) s :=
  ⟨rfl, rfl, nofun, rfl, rfl, rfl, hview, rfl, rfl, rfl, rfl, rfl, rfl, rfl, rfl, rfl, rfl, rfl⟩
theorem quiet_vmin (rd ra rb : BitVec 7) (s : State) (hview : viewCauses (Instr.vmin rd ra rb) s = []) : Quiet (Instr.vmin rd ra rb) s :=
  ⟨rfl, rfl, nofun, rfl, rfl, rfl, hview, rfl, rfl, rfl, rfl, rfl, rfl, rfl, rfl, rfl, rfl, rfl⟩
theorem quiet_vmax (rd ra rb : BitVec 7) (s : State) (hview : viewCauses (Instr.vmax rd ra rb) s = []) : Quiet (Instr.vmax rd ra rb) s :=
  ⟨rfl, rfl, nofun, rfl, rfl, rfl, hview, rfl, rfl, rfl, rfl, rfl, rfl, rfl, rfl, rfl, rfl, rfl⟩
theorem quiet_vabs (rd ra : BitVec 7) (s : State) (hview : viewCauses (Instr.vabs rd ra) s = []) : Quiet (Instr.vabs rd ra) s :=
  ⟨rfl, rfl, nofun, rfl, rfl, rfl, hview, rfl, rfl, rfl, rfl, rfl, rfl, rfl, rfl, rfl, rfl, rfl⟩
theorem quiet_vneg (rd ra : BitVec 7) (s : State) (hview : viewCauses (Instr.vneg rd ra) s = []) : Quiet (Instr.vneg rd ra) s :=
  ⟨rfl, rfl, nofun, rfl, rfl, rfl, hview, rfl, rfl, rfl, rfl, rfl, rfl, rfl, rfl, rfl, rfl, rfl⟩
theorem quiet_veq (rd : BitVec 4) (ra rb : BitVec 7) (s : State) (hview : viewCauses (Instr.veq rd ra rb) s = []) : Quiet (Instr.veq rd ra rb) s :=
  ⟨rfl, rfl, nofun, rfl, rfl, rfl, hview, rfl, rfl, rfl, rfl, rfl, rfl, rfl, rfl, rfl, rfl, rfl⟩
theorem quiet_vne (rd : BitVec 4) (ra rb : BitVec 7) (s : State) (hview : viewCauses (Instr.vne rd ra rb) s = []) : Quiet (Instr.vne rd ra rb) s :=
  ⟨rfl, rfl, nofun, rfl, rfl, rfl, hview, rfl, rfl, rfl, rfl, rfl, rfl, rfl, rfl, rfl, rfl, rfl⟩
theorem quiet_vlt (rd : BitVec 4) (ra rb : BitVec 7) (s : State) (hview : viewCauses (Instr.vlt rd ra rb) s = []) : Quiet (Instr.vlt rd ra rb) s :=
  ⟨rfl, rfl, nofun, rfl, rfl, rfl, hview, rfl, rfl, rfl, rfl, rfl, rfl, rfl, rfl, rfl, rfl, rfl⟩
theorem quiet_vle (rd : BitVec 4) (ra rb : BitVec 7) (s : State) (hview : viewCauses (Instr.vle rd ra rb) s = []) : Quiet (Instr.vle rd ra rb) s :=
  ⟨rfl, rfl, nofun, rfl, rfl, rfl, hview, rfl, rfl, rfl, rfl, rfl, rfl, rfl, rfl, rfl, rfl, rfl⟩
theorem quiet_vsel (rd ra rb : BitVec 7) (s : State) (hview : viewCauses (Instr.vsel rd ra rb) s = []) : Quiet (Instr.vsel rd ra rb) s :=
  ⟨rfl, rfl, nofun, rfl, rfl, rfl, hview, rfl, rfl, rfl, rfl, rfl, rfl, rfl, rfl, rfl, rfl, rfl⟩
theorem quiet_vand (rd ra rb : BitVec 7) (s : State) (hview : viewCauses (Instr.vand rd ra rb) s = []) : Quiet (Instr.vand rd ra rb) s :=
  ⟨rfl, rfl, nofun, rfl, rfl, rfl, hview, rfl, rfl, rfl, rfl, rfl, rfl, rfl, rfl, rfl, rfl, rfl⟩
theorem quiet_vor (rd ra rb : BitVec 7) (s : State) (hview : viewCauses (Instr.vor rd ra rb) s = []) : Quiet (Instr.vor rd ra rb) s :=
  ⟨rfl, rfl, nofun, rfl, rfl, rfl, hview, rfl, rfl, rfl, rfl, rfl, rfl, rfl, rfl, rfl, rfl, rfl⟩
theorem quiet_vxor (rd ra rb : BitVec 7) (s : State) (hview : viewCauses (Instr.vxor rd ra rb) s = []) : Quiet (Instr.vxor rd ra rb) s :=
  ⟨rfl, rfl, nofun, rfl, rfl, rfl, hview, rfl, rfl, rfl, rfl, rfl, rfl, rfl, rfl, rfl, rfl, rfl⟩
theorem quiet_viadd (rd ra rb : BitVec 7) (s : State) (hview : viewCauses (Instr.viadd rd ra rb) s = []) : Quiet (Instr.viadd rd ra rb) s :=
  ⟨rfl, rfl, nofun, rfl, rfl, rfl, hview, rfl, rfl, rfl, rfl, rfl, rfl, rfl, rfl, rfl, rfl, rfl⟩
theorem quiet_visub (rd ra rb : BitVec 7) (s : State) (hview : viewCauses (Instr.visub rd ra rb) s = []) : Quiet (Instr.visub rd ra rb) s :=
  ⟨rfl, rfl, nofun, rfl, rfl, rfl, hview, rfl, rfl, rfl, rfl, rfl, rfl, rfl, rfl, rfl, rfl, rfl⟩
theorem quiet_vimul (rd ra rb : BitVec 7) (s : State) (hview : viewCauses (Instr.vimul rd ra rb) s = []) : Quiet (Instr.vimul rd ra rb) s :=
  ⟨rfl, rfl, nofun, rfl, rfl, rfl, hview, rfl, rfl, rfl, rfl, rfl, rfl, rfl, rfl, rfl, rfl, rfl⟩
theorem quiet_vimin (rd ra rb : BitVec 7) (s : State) (hview : viewCauses (Instr.vimin rd ra rb) s = []) : Quiet (Instr.vimin rd ra rb) s :=
  ⟨rfl, rfl, nofun, rfl, rfl, rfl, hview, rfl, rfl, rfl, rfl, rfl, rfl, rfl, rfl, rfl, rfl, rfl⟩
theorem quiet_vimax (rd ra rb : BitVec 7) (s : State) (hview : viewCauses (Instr.vimax rd ra rb) s = []) : Quiet (Instr.vimax rd ra rb) s :=
  ⟨rfl, rfl, nofun, rfl, rfl, rfl, hview, rfl, rfl, rfl, rfl, rfl, rfl, rfl, rfl, rfl, rfl, rfl⟩
theorem quiet_vshl (rd ra rb : BitVec 7) (s : State) (hview : viewCauses (Instr.vshl rd ra rb) s = []) : Quiet (Instr.vshl rd ra rb) s :=
  ⟨rfl, rfl, nofun, rfl, rfl, rfl, hview, rfl, rfl, rfl, rfl, rfl, rfl, rfl, rfl, rfl, rfl, rfl⟩
theorem quiet_vshr (rd ra rb : BitVec 7) (s : State) (hview : viewCauses (Instr.vshr rd ra rb) s = []) : Quiet (Instr.vshr rd ra rb) s :=
  ⟨rfl, rfl, nofun, rfl, rfl, rfl, hview, rfl, rfl, rfl, rfl, rfl, rfl, rfl, rfl, rfl, rfl, rfl⟩
theorem quiet_vsar (rd ra rb : BitVec 7) (s : State) (hview : viewCauses (Instr.vsar rd ra rb) s = []) : Quiet (Instr.vsar rd ra rb) s :=
  ⟨rfl, rfl, nofun, rfl, rfl, rfl, hview, rfl, rfl, rfl, rfl, rfl, rfl, rfl, rfl, rfl, rfl, rfl⟩
theorem quiet_vrcp (rd ra : BitVec 7) (s : State) (hview : viewCauses (Instr.vrcp rd ra) s = []) : Quiet (Instr.vrcp rd ra) s :=
  ⟨rfl, rfl, nofun, rfl, rfl, rfl, hview, rfl, rfl, rfl, rfl, rfl, rfl, rfl, rfl, rfl, rfl, rfl⟩
theorem quiet_vrsq (rd ra : BitVec 7) (s : State) (hview : viewCauses (Instr.vrsq rd ra) s = []) : Quiet (Instr.vrsq rd ra) s :=
  ⟨rfl, rfl, nofun, rfl, rfl, rfl, hview, rfl, rfl, rfl, rfl, rfl, rfl, rfl, rfl, rfl, rfl, rfl⟩
theorem quiet_vsqrt (rd ra : BitVec 7) (s : State) (hview : viewCauses (Instr.vsqrt rd ra) s = []) : Quiet (Instr.vsqrt rd ra) s :=
  ⟨rfl, rfl, nofun, rfl, rfl, rfl, hview, rfl, rfl, rfl, rfl, rfl, rfl, rfl, rfl, rfl, rfl, rfl⟩
theorem quiet_vexp2 (rd ra : BitVec 7) (s : State) (hview : viewCauses (Instr.vexp2 rd ra) s = []) : Quiet (Instr.vexp2 rd ra) s :=
  ⟨rfl, rfl, nofun, rfl, rfl, rfl, hview, rfl, rfl, rfl, rfl, rfl, rfl, rfl, rfl, rfl, rfl, rfl⟩
theorem quiet_vlog2 (rd ra : BitVec 7) (s : State) (hview : viewCauses (Instr.vlog2 rd ra) s = []) : Quiet (Instr.vlog2 rd ra) s :=
  ⟨rfl, rfl, nofun, rfl, rfl, rfl, hview, rfl, rfl, rfl, rfl, rfl, rfl, rfl, rfl, rfl, rfl, rfl⟩
theorem quiet_vtanh (rd ra : BitVec 7) (s : State) (hview : viewCauses (Instr.vtanh rd ra) s = []) : Quiet (Instr.vtanh rd ra) s :=
  ⟨rfl, rfl, nofun, rfl, rfl, rfl, hview, rfl, rfl, rfl, rfl, rfl, rfl, rfl, rfl, rfl, rfl, rfl⟩
theorem quiet_vsigm (rd ra : BitVec 7) (s : State) (hview : viewCauses (Instr.vsigm rd ra) s = []) : Quiet (Instr.vsigm rd ra) s :=
  ⟨rfl, rfl, nofun, rfl, rfl, rfl, hview, rfl, rfl, rfl, rfl, rfl, rfl, rfl, rfl, rfl, rfl, rfl⟩
theorem quiet_vrsum (rd : BitVec 6) (ra : BitVec 7) (s : State) : Quiet (Instr.vrsum rd ra) s :=
  ⟨rfl, rfl, nofun, rfl, rfl, rfl, rfl, rfl, rfl, rfl, rfl, rfl, rfl, rfl, rfl, rfl, rfl, rfl⟩
theorem quiet_vrmax (rd : BitVec 6) (ra : BitVec 7) (s : State) : Quiet (Instr.vrmax rd ra) s :=
  ⟨rfl, rfl, nofun, rfl, rfl, rfl, rfl, rfl, rfl, rfl, rfl, rfl, rfl, rfl, rfl, rfl, rfl, rfl⟩
theorem quiet_vramax (rd : BitVec 6) (ra : BitVec 7) (s : State) : Quiet (Instr.vramax rd ra) s :=
  ⟨rfl, rfl, nofun, rfl, rfl, rfl, rfl, rfl, rfl, rfl, rfl, rfl, rfl, rfl, rfl, rfl, rfl, rfl⟩
theorem quiet_vbcast (rd : BitVec 7) (ra : BitVec 6) (s : State) : Quiet (Instr.vbcast rd ra) s :=
  ⟨rfl, rfl, nofun, rfl, rfl, rfl, rfl, rfl, rfl, rfl, rfl, rfl, rfl, rfl, rfl, rfl, rfl, rfl⟩
theorem quiet_vextr (rd : BitVec 6) (ra : BitVec 7) (rb : BitVec 6) (s : State) : Quiet (Instr.vextr rd ra rb) s :=
  ⟨rfl, rfl, nofun, rfl, rfl, rfl, rfl, rfl, rfl, rfl, rfl, rfl, rfl, rfl, rfl, rfl, rfl, rfl⟩
theorem quiet_vins (rd : BitVec 7) (ra rb : BitVec 6) (s : State) : Quiet (Instr.vins rd ra rb) s :=
  ⟨rfl, rfl, nofun, rfl, rfl, rfl, rfl, rfl, rfl, rfl, rfl, rfl, rfl, rfl, rfl, rfl, rfl, rfl⟩
theorem quiet_vperm (rd ra rb : BitVec 7) (s : State) (hview : viewCauses (Instr.vperm rd ra rb) s = []) : Quiet (Instr.vperm rd ra rb) s :=
  ⟨rfl, rfl, nofun, rfl, rfl, rfl, hview, rfl, rfl, rfl, rfl, rfl, rfl, rfl, rfl, rfl, rfl, rfl⟩
theorem quiet_vslide (rd ra : BitVec 7) (rb : BitVec 6) (s : State) (hview : viewCauses (Instr.vslide rd ra rb) s = []) : Quiet (Instr.vslide rd ra rb) s :=
  ⟨rfl, rfl, nofun, rfl, rfl, rfl, hview, rfl, rfl, rfl, rfl, rfl, rfl, rfl, rfl, rfl, rfl, rfl⟩
theorem quiet_vmov (rd ra : BitVec 7) (s : State) (hview : viewCauses (Instr.vmov rd ra) s = []) : Quiet (Instr.vmov rd ra) s :=
  ⟨rfl, rfl, nofun, rfl, rfl, rfl, hview, rfl, rfl, rfl, rfl, rfl, rfl, rfl, rfl, rfl, rfl, rfl⟩
theorem quiet_viota (rd : BitVec 7) (s : State) : Quiet (Instr.viota rd) s :=
  ⟨rfl, rfl, nofun, rfl, rfl, rfl, rfl, rfl, rfl, rfl, rfl, rfl, rfl, rfl, rfl, rfl, rfl, rfl⟩
theorem quiet_vrand (rd : BitVec 7) (ra : BitVec 2) (s : State) : Quiet (Instr.vrand rd ra) s :=
  ⟨rfl, rfl, nofun, rfl, rfl, rfl, rfl, rfl, rfl, rfl, rfl, rfl, rfl, rfl, rfl, rfl, rfl, rfl⟩
theorem quiet_kand (rd ra rb : BitVec 4) (s : State) : Quiet (Instr.kand rd ra rb) s :=
  ⟨rfl, rfl, nofun, rfl, rfl, rfl, rfl, rfl, rfl, rfl, rfl, rfl, rfl, rfl, rfl, rfl, rfl, rfl⟩
theorem quiet_kor (rd ra rb : BitVec 4) (s : State) : Quiet (Instr.kor rd ra rb) s :=
  ⟨rfl, rfl, nofun, rfl, rfl, rfl, rfl, rfl, rfl, rfl, rfl, rfl, rfl, rfl, rfl, rfl, rfl, rfl⟩
theorem quiet_kxor (rd ra rb : BitVec 4) (s : State) : Quiet (Instr.kxor rd ra rb) s :=
  ⟨rfl, rfl, nofun, rfl, rfl, rfl, rfl, rfl, rfl, rfl, rfl, rfl, rfl, rfl, rfl, rfl, rfl, rfl⟩
theorem quiet_knot (rd ra : BitVec 4) (s : State) : Quiet (Instr.knot rd ra) s :=
  ⟨rfl, rfl, nofun, rfl, rfl, rfl, rfl, rfl, rfl, rfl, rfl, rfl, rfl, rfl, rfl, rfl, rfl, rfl⟩
theorem quiet_kpop (rd : BitVec 6) (ra : BitVec 4) (s : State) : Quiet (Instr.kpop rd ra) s :=
  ⟨rfl, rfl, nofun, rfl, rfl, rfl, rfl, rfl, rfl, rfl, rfl, rfl, rfl, rfl, rfl, rfl, rfl, rfl⟩
theorem quiet_vcvtn (fmt : BitVec 2) (rd ra : BitVec 7) (noRot : BitVec 1) (seed : BitVec 4) (s : State) (hwf : (Instr.vcvtn fmt rd ra noRot seed).wf = true) (hview : viewCauses (Instr.vcvtn fmt rd ra noRot seed) s = []) (hconv : convertCauses (Instr.vcvtn fmt rd ra noRot seed) s = []) : Quiet (Instr.vcvtn fmt rd ra noRot seed) s :=
  ⟨hwf, rfl, nofun, rfl, rfl, rfl, hview, rfl, rfl, rfl, hconv, rfl, rfl, rfl, rfl, rfl, rfl, rfl⟩
theorem quiet_vcvtns (fmt : BitVec 2) (rd ra : BitVec 7) (rb : BitVec 6) (s : State) (hview : viewCauses (Instr.vcvtns fmt rd ra rb) s = []) (hconv : convertCauses (Instr.vcvtns fmt rd ra rb) s = []) : Quiet (Instr.vcvtns fmt rd ra rb) s :=
  ⟨rfl, rfl, nofun, rfl, rfl, rfl, hview, rfl, rfl, rfl, hconv, rfl, rfl, rfl, rfl, rfl, rfl, rfl⟩
theorem quiet_vcvtw (rd ra : BitVec 7) (s : State) (hview : viewCauses (Instr.vcvtw rd ra) s = []) (hconv : convertCauses (Instr.vcvtw rd ra) s = []) : Quiet (Instr.vcvtw rd ra) s :=
  ⟨rfl, rfl, nofun, rfl, rfl, rfl, hview, rfl, rfl, rfl, hconv, rfl, rfl, rfl, rfl, rfl, rfl, rfl⟩
theorem quiet_vcvti (rd ra : BitVec 7) (uns : BitVec 1) (s : State) (hview : viewCauses (Instr.vcvti rd ra uns) s = []) : Quiet (Instr.vcvti rd ra uns) s :=
  ⟨rfl, rfl, nofun, rfl, rfl, rfl, hview, rfl, rfl, rfl, rfl, rfl, rfl, rfl, rfl, rfl, rfl, rfl⟩
theorem quiet_vcvtf (rd ra : BitVec 7) (uns : BitVec 1) (s : State) (hview : viewCauses (Instr.vcvtf rd ra uns) s = []) : Quiet (Instr.vcvtf rd ra uns) s :=
  ⟨rfl, rfl, nofun, rfl, rfl, rfl, hview, rfl, rfl, rfl, rfl, rfl, rfl, rfl, rfl, rfl, rfl, rfl⟩
theorem quiet_vqscaleE4m3 (rd : BitVec 6) (ra : BitVec 7) (noRot : BitVec 1) (seed : BitVec 4) (s : State) (hwf : (Instr.vqscaleE4m3 rd ra noRot seed).wf = true) (hconv : convertCauses (Instr.vqscaleE4m3 rd ra noRot seed) s = []) : Quiet (Instr.vqscaleE4m3 rd ra noRot seed) s :=
  ⟨hwf, rfl, nofun, rfl, rfl, rfl, rfl, rfl, rfl, rfl, hconv, rfl, rfl, rfl, rfl, rfl, rfl, rfl⟩
theorem quiet_vqscaleE5m2 (rd : BitVec 6) (ra : BitVec 7) (noRot : BitVec 1) (seed : BitVec 4) (s : State) (hwf : (Instr.vqscaleE5m2 rd ra noRot seed).wf = true) (hconv : convertCauses (Instr.vqscaleE5m2 rd ra noRot seed) s = []) : Quiet (Instr.vqscaleE5m2 rd ra noRot seed) s :=
  ⟨hwf, rfl, nofun, rfl, rfl, rfl, rfl, rfl, rfl, rfl, hconv, rfl, rfl, rfl, rfl, rfl, rfl, rfl⟩
theorem quiet_vqscaleBf16 (rd : BitVec 6) (ra : BitVec 7) (noRot : BitVec 1) (seed : BitVec 4) (s : State) (hwf : (Instr.vqscaleBf16 rd ra noRot seed).wf = true) (hconv : convertCauses (Instr.vqscaleBf16 rd ra noRot seed) s = []) : Quiet (Instr.vqscaleBf16 rd ra noRot seed) s :=
  ⟨hwf, rfl, nofun, rfl, rfl, rfl, rfl, rfl, rfl, rfl, hconv, rfl, rfl, rfl, rfl, rfl, rfl, rfl⟩
theorem quiet_vqscaleInt8 (rd : BitVec 6) (ra : BitVec 7) (noRot : BitVec 1) (seed : BitVec 4) (s : State) (hwf : (Instr.vqscaleInt8 rd ra noRot seed).wf = true) (hconv : convertCauses (Instr.vqscaleInt8 rd ra noRot seed) s = []) : Quiet (Instr.vqscaleInt8 rd ra noRot seed) s :=
  ⟨hwf, rfl, nofun, rfl, rfl, rfl, rfl, rfl, rfl, rfl, hconv, rfl, rfl, rfl, rfl, rfl, rfl, rfl⟩
theorem quiet_vside (rd : BitVec 6) (ra : BitVec 7) (s : State) : Quiet (Instr.vside rd ra) s :=
  ⟨rfl, rfl, nofun, rfl, rfl, rfl, rfl, rfl, rfl, rfl, rfl, rfl, rfl, rfl, rfl, rfl, rfl, rfl⟩
theorem quiet_vsidew (rd : BitVec 7) (rb : BitVec 6) (s : State) : Quiet (Instr.vsidew rd rb) s :=
  ⟨rfl, rfl, nofun, rfl, rfl, rfl, rfl, rfl, rfl, rfl, rfl, rfl, rfl, rfl, rfl, rfl, rfl, rfl⟩
theorem quiet_ttwr (tile : BitVec 1) (ra : BitVec 7) (rb : BitVec 6) (s : State) : Quiet (Instr.ttwr tile ra rb) s :=
  ⟨rfl, rfl, nofun, rfl, rfl, rfl, rfl, rfl, rfl, rfl, rfl, rfl, rfl, rfl, rfl, rfl, rfl, rfl⟩
theorem quiet_ttrdc (rd : BitVec 7) (tile : BitVec 1) (ra : BitVec 6) (s : State) : Quiet (Instr.ttrdc rd tile ra) s :=
  ⟨rfl, rfl, nofun, rfl, rfl, rfl, rfl, rfl, rfl, rfl, rfl, rfl, rfl, rfl, rfl, rfl, rfl, rfl⟩
theorem quiet_ttrdcE4m3 (rd : BitVec 7) (tile : BitVec 1) (ra : BitVec 6) (noRot : BitVec 1) (seed : BitVec 4) (s : State) (hwf : (Instr.ttrdcE4m3 rd tile ra noRot seed).wf = true) : Quiet (Instr.ttrdcE4m3 rd tile ra noRot seed) s :=
  ⟨hwf, rfl, nofun, rfl, rfl, rfl, rfl, rfl, rfl, rfl, rfl, rfl, rfl, rfl, rfl, rfl, rfl, rfl⟩
theorem quiet_ttrdcE5m2 (rd : BitVec 7) (tile : BitVec 1) (ra : BitVec 6) (noRot : BitVec 1) (seed : BitVec 4) (s : State) (hwf : (Instr.ttrdcE5m2 rd tile ra noRot seed).wf = true) : Quiet (Instr.ttrdcE5m2 rd tile ra noRot seed) s :=
  ⟨hwf, rfl, nofun, rfl, rfl, rfl, rfl, rfl, rfl, rfl, rfl, rfl, rfl, rfl, rfl, rfl, rfl, rfl⟩
theorem quiet_ttrdcBf16 (rd : BitVec 7) (tile : BitVec 1) (ra : BitVec 6) (noRot : BitVec 1) (seed : BitVec 4) (s : State) (hwf : (Instr.ttrdcBf16 rd tile ra noRot seed).wf = true) : Quiet (Instr.ttrdcBf16 rd tile ra noRot seed) s :=
  ⟨hwf, rfl, nofun, rfl, rfl, rfl, rfl, rfl, rfl, rfl, rfl, rfl, rfl, rfl, rfl, rfl, rfl, rfl⟩
theorem quiet_ttrdcInt8 (rd : BitVec 7) (tile : BitVec 1) (ra : BitVec 6) (noRot : BitVec 1) (seed : BitVec 4) (s : State) (hwf : (Instr.ttrdcInt8 rd tile ra noRot seed).wf = true) : Quiet (Instr.ttrdcInt8 rd tile ra noRot seed) s :=
  ⟨hwf, rfl, nofun, rfl, rfl, rfl, rfl, rfl, rfl, rfl, rfl, rfl, rfl, rfl, rfl, rfl, rfl, rfl⟩
theorem quiet_ttclr (tile : BitVec 1) (s : State) : Quiet (Instr.ttclr tile) s :=
  ⟨rfl, rfl, nofun, rfl, rfl, rfl, rfl, rfl, rfl, rfl, rfl, rfl, rfl, rfl, rfl, rfl, rfl, rfl⟩
theorem quiet_fpusha (fifo : BitVec 1) (ra : BitVec 7) (s : State) (hconv : convertCauses (Instr.fpusha fifo ra) s = []) : Quiet (Instr.fpusha fifo ra) s :=
  ⟨rfl, rfl, nofun, rfl, rfl, rfl, rfl, rfl, rfl, rfl, hconv, rfl, rfl, rfl, rfl, rfl, rfl, rfl⟩
theorem quiet_fpushb (fifo : BitVec 1) (ra : BitVec 7) (s : State) (hconv : convertCauses (Instr.fpushb fifo ra) s = []) : Quiet (Instr.fpushb fifo ra) s :=
  ⟨rfl, rfl, nofun, rfl, rfl, rfl, rfl, rfl, rfl, rfl, hconv, rfl, rfl, rfl, rfl, rfl, rfl, rfl⟩
theorem quiet_mcfg0 (ra : BitVec 6) (s : State) (hmat : matrixCauses (Instr.mcfg0 ra) s = []) : Quiet (Instr.mcfg0 ra) s :=
  ⟨rfl, rfl, nofun, rfl, rfl, rfl, rfl, rfl, rfl, rfl, rfl, hmat, rfl, rfl, rfl, rfl, rfl, rfl⟩
theorem quiet_mcfg1 (ra : BitVec 6) (s : State) (hmat : matrixCauses (Instr.mcfg1 ra) s = []) : Quiet (Instr.mcfg1 ra) s :=
  ⟨rfl, rfl, nofun, rfl, rfl, rfl, rfl, rfl, rfl, rfl, rfl, hmat, rfl, rfl, rfl, rfl, rfl, rfl⟩
theorem quiet_mdrain0 (s : State) : Quiet (Instr.mdrain0) s :=
  ⟨rfl, rfl, nofun, rfl, rfl, rfl, rfl, rfl, rfl, rfl, rfl, rfl, rfl, rfl, rfl, rfl, rfl, rfl⟩
theorem quiet_mdrain1 (s : State) : Quiet (Instr.mdrain1) s :=
  ⟨rfl, rfl, nofun, rfl, rfl, rfl, rfl, rfl, rfl, rfl, rfl, rfl, rfl, rfl, rfl, rfl, rfl, rfl⟩
theorem quiet_mldb0 (wb : BitVec 1) (s : State) (hmat : matrixCauses (Instr.mldb0 wb) s = []) (hfifo : fifoHold (Instr.mldb0 wb) s.cur = false) : Quiet (Instr.mldb0 wb) s :=
  ⟨rfl, rfl, nofun, rfl, rfl, rfl, rfl, rfl, rfl, rfl, rfl, hmat, rfl, rfl, rfl, hfifo, rfl, rfl⟩
theorem quiet_mldb1 (wb : BitVec 1) (s : State) (hmat : matrixCauses (Instr.mldb1 wb) s = []) (hfifo : fifoHold (Instr.mldb1 wb) s.cur = false) : Quiet (Instr.mldb1 wb) s :=
  ⟨rfl, rfl, nofun, rfl, rfl, rfl, rfl, rfl, rfl, rfl, rfl, hmat, rfl, rfl, rfl, hfifo, rfl, rfl⟩
theorem quiet_mma0 (nm1 row0 : BitVec 6) (ovw scl wb : BitVec 1) (s : State) (hwf : (Instr.mma0 nm1 row0 ovw scl wb).wf = true) (hmat : matrixCauses (Instr.mma0 nm1 row0 ovw scl wb) s = []) (hfifo : fifoHold (Instr.mma0 nm1 row0 ovw scl wb) s.cur = false) : Quiet (Instr.mma0 nm1 row0 ovw scl wb) s :=
  ⟨hwf, rfl, nofun, rfl, rfl, rfl, rfl, rfl, rfl, rfl, rfl, hmat, rfl, rfl, rfl, hfifo, rfl, rfl⟩
theorem quiet_mma1 (nm1 row0 : BitVec 6) (ovw scl wb : BitVec 1) (s : State) (hwf : (Instr.mma1 nm1 row0 ovw scl wb).wf = true) (hmat : matrixCauses (Instr.mma1 nm1 row0 ovw scl wb) s = []) (hfifo : fifoHold (Instr.mma1 nm1 row0 ovw scl wb) s.cur = false) : Quiet (Instr.mma1 nm1 row0 ovw scl wb) s :=
  ⟨hwf, rfl, nofun, rfl, rfl, rfl, rfl, rfl, rfl, rfl, rfl, hmat, rfl, rfl, rfl, hfifo, rfl, rfl⟩
theorem quiet_mzero0 (nm1 row0 : BitVec 6) (s : State) (hwf : (Instr.mzero0 nm1 row0).wf = true) : Quiet (Instr.mzero0 nm1 row0) s :=
  ⟨hwf, rfl, nofun, rfl, rfl, rfl, rfl, rfl, rfl, rfl, rfl, rfl, rfl, rfl, rfl, rfl, rfl, rfl⟩
theorem quiet_mzero1 (nm1 row0 : BitVec 6) (s : State) (hwf : (Instr.mzero1 nm1 row0).wf = true) : Quiet (Instr.mzero1 nm1 row0) s :=
  ⟨hwf, rfl, nofun, rfl, rfl, rfl, rfl, rfl, rfl, rfl, rfl, rfl, rfl, rfl, rfl, rfl, rfl, rfl⟩
theorem quiet_mskipa0 (nm1 : BitVec 6) (s : State) : Quiet (Instr.mskipa0 nm1) s :=
  ⟨rfl, rfl, nofun, rfl, rfl, rfl, rfl, rfl, rfl, rfl, rfl, rfl, rfl, rfl, rfl, rfl, rfl, rfl⟩
theorem quiet_mskipa1 (nm1 : BitVec 6) (s : State) : Quiet (Instr.mskipa1 nm1) s :=
  ⟨rfl, rfl, nofun, rfl, rfl, rfl, rfl, rfl, rfl, rfl, rfl, rfl, rfl, rfl, rfl, rfl, rfl, rfl⟩
theorem quiet_mstat0 (rd : BitVec 6) (s : State) : Quiet (Instr.mstat0 rd) s :=
  ⟨rfl, rfl, nofun, rfl, rfl, rfl, rfl, rfl, rfl, rfl, rfl, rfl, rfl, rfl, rfl, rfl, rfl, rfl⟩
theorem quiet_mstat1 (rd : BitVec 6) (s : State) : Quiet (Instr.mstat1 rd) s :=
  ⟨rfl, rfl, nofun, rfl, rfl, rfl, rfl, rfl, rfl, rfl, rfl, rfl, rfl, rfl, rfl, rfl, rfl, rfl⟩
theorem quiet_lds (size : BitVec 3) (rd base : BitVec 6) (off : BitVec 8) (s : State) (hwf : (Instr.lds size rd base off).wf = true) (himm : immFits (Instr.lds size rd base off) s.ctx.ext = true) (haddr : addressCauses (Instr.lds size rd base off) s = []) : Quiet (Instr.lds size rd base off) s :=
  ⟨hwf, himm, nofun, rfl, rfl, rfl, rfl, rfl, rfl, haddr, rfl, rfl, rfl, rfl, rfl, rfl, rfl, rfl⟩
theorem quiet_ldsv (rd : BitVec 7) (base : BitVec 6) (off : BitVec 8) (s : State) (himm : immFits (Instr.ldsv rd base off) s.ctx.ext = true) (haddr : addressCauses (Instr.ldsv rd base off) s = []) : Quiet (Instr.ldsv rd base off) s :=
  ⟨rfl, himm, nofun, rfl, rfl, rfl, rfl, rfl, rfl, haddr, rfl, rfl, rfl, rfl, rfl, rfl, rfl, rfl⟩
theorem quiet_ldsk (hi : BitVec 1) (rk : BitVec 4) (base : BitVec 6) (off : BitVec 8) (s : State) (himm : immFits (Instr.ldsk hi rk base off) s.ctx.ext = true) (haddr : addressCauses (Instr.ldsk hi rk base off) s = []) : Quiet (Instr.ldsk hi rk base off) s :=
  ⟨rfl, himm, nofun, rfl, rfl, rfl, rfl, rfl, rfl, haddr, rfl, rfl, rfl, rfl, rfl, rfl, rfl, rfl⟩
theorem quiet_ldsx (rd : BitVec 7) (base : BitVec 6) (off : BitVec 8) (s : State) (himm : immFits (Instr.ldsx rd base off) s.ctx.ext = true) (haddr : addressCauses (Instr.ldsx rd base off) s = []) : Quiet (Instr.ldsx rd base off) s :=
  ⟨rfl, himm, nofun, rfl, rfl, rfl, rfl, rfl, rfl, haddr, rfl, rfl, rfl, rfl, rfl, rfl, rfl, rfl⟩
theorem quiet_ldc (size : BitVec 3) (rd base : BitVec 6) (off : BitVec 8) (s : State) (hwf : (Instr.ldc size rd base off).wf = true) (himm : immFits (Instr.ldc size rd base off) s.ctx.ext = true) (haddr : addressCauses (Instr.ldc size rd base off) s = []) : Quiet (Instr.ldc size rd base off) s :=
  ⟨hwf, himm, nofun, rfl, rfl, rfl, rfl, rfl, rfl, haddr, rfl, rfl, rfl, rfl, rfl, rfl, rfl, rfl⟩
theorem quiet_ldcv (rd : BitVec 7) (base : BitVec 6) (off : BitVec 8) (s : State) (himm : immFits (Instr.ldcv rd base off) s.ctx.ext = true) (haddr : addressCauses (Instr.ldcv rd base off) s = []) : Quiet (Instr.ldcv rd base off) s :=
  ⟨rfl, himm, nofun, rfl, rfl, rfl, rfl, rfl, rfl, haddr, rfl, rfl, rfl, rfl, rfl, rfl, rfl, rfl⟩
theorem quiet_ldg (size : BitVec 3) (rd base : BitVec 6) (off : BitVec 8) (s : State) (hwf : (Instr.ldg size rd base off).wf = true) (himm : immFits (Instr.ldg size rd base off) s.ctx.ext = true) (haddr : addressCauses (Instr.ldg size rd base off) s = []) : Quiet (Instr.ldg size rd base off) s :=
  ⟨hwf, himm, nofun, rfl, rfl, rfl, rfl, rfl, rfl, haddr, rfl, rfl, rfl, rfl, rfl, rfl, rfl, rfl⟩
theorem quiet_ldgv (rd : BitVec 7) (base : BitVec 6) (off : BitVec 8) (s : State) (himm : immFits (Instr.ldgv rd base off) s.ctx.ext = true) (haddr : addressCauses (Instr.ldgv rd base off) s = []) : Quiet (Instr.ldgv rd base off) s :=
  ⟨rfl, himm, nofun, rfl, rfl, rfl, rfl, rfl, rfl, haddr, rfl, rfl, rfl, rfl, rfl, rfl, rfl, rfl⟩
theorem quiet_ldgx (rd : BitVec 7) (base : BitVec 6) (off : BitVec 8) (s : State) (himm : immFits (Instr.ldgx rd base off) s.ctx.ext = true) (haddr : addressCauses (Instr.ldgx rd base off) s = []) : Quiet (Instr.ldgx rd base off) s :=
  ⟨rfl, himm, nofun, rfl, rfl, rfl, rfl, rfl, rfl, haddr, rfl, rfl, rfl, rfl, rfl, rfl, rfl, rfl⟩
theorem quiet_pref (base : BitVec 6) (off : BitVec 8) (s : State) (himm : immFits (Instr.pref base off) s.ctx.ext = true) : Quiet (Instr.pref base off) s :=
  ⟨rfl, himm, nofun, rfl, rfl, rfl, rfl, rfl, rfl, rfl, rfl, rfl, rfl, rfl, rfl, rfl, rfl, rfl⟩
theorem quiet_sts (size : BitVec 3) (rd base : BitVec 6) (off : BitVec 8) (s : State) (hwf : (Instr.sts size rd base off).wf = true) (himm : immFits (Instr.sts size rd base off) s.ctx.ext = true) (haddr : addressCauses (Instr.sts size rd base off) s = []) : Quiet (Instr.sts size rd base off) s :=
  ⟨hwf, himm, nofun, rfl, rfl, rfl, rfl, rfl, rfl, haddr, rfl, rfl, rfl, rfl, rfl, rfl, rfl, rfl⟩
theorem quiet_stsv (rd : BitVec 7) (base : BitVec 6) (off : BitVec 8) (s : State) (himm : immFits (Instr.stsv rd base off) s.ctx.ext = true) (haddr : addressCauses (Instr.stsv rd base off) s = []) : Quiet (Instr.stsv rd base off) s :=
  ⟨rfl, himm, nofun, rfl, rfl, rfl, rfl, rfl, rfl, haddr, rfl, rfl, rfl, rfl, rfl, rfl, rfl, rfl⟩
theorem quiet_stsk (hi : BitVec 1) (rk : BitVec 4) (base : BitVec 6) (off : BitVec 8) (s : State) (himm : immFits (Instr.stsk hi rk base off) s.ctx.ext = true) (haddr : addressCauses (Instr.stsk hi rk base off) s = []) : Quiet (Instr.stsk hi rk base off) s :=
  ⟨rfl, himm, nofun, rfl, rfl, rfl, rfl, rfl, rfl, haddr, rfl, rfl, rfl, rfl, rfl, rfl, rfl, rfl⟩
theorem quiet_stsx (rd : BitVec 7) (base : BitVec 6) (off : BitVec 8) (s : State) (himm : immFits (Instr.stsx rd base off) s.ctx.ext = true) (haddr : addressCauses (Instr.stsx rd base off) s = []) : Quiet (Instr.stsx rd base off) s :=
  ⟨rfl, himm, nofun, rfl, rfl, rfl, rfl, rfl, rfl, haddr, rfl, rfl, rfl, rfl, rfl, rfl, rfl, rfl⟩
theorem quiet_stc (size : BitVec 3) (rd base : BitVec 6) (off : BitVec 8) (s : State) (hwf : (Instr.stc size rd base off).wf = true) (himm : immFits (Instr.stc size rd base off) s.ctx.ext = true) (haddr : addressCauses (Instr.stc size rd base off) s = []) : Quiet (Instr.stc size rd base off) s :=
  ⟨hwf, himm, nofun, rfl, rfl, rfl, rfl, rfl, rfl, haddr, rfl, rfl, rfl, rfl, rfl, rfl, rfl, rfl⟩
theorem quiet_stcv (rd : BitVec 7) (base : BitVec 6) (off : BitVec 8) (s : State) (himm : immFits (Instr.stcv rd base off) s.ctx.ext = true) (haddr : addressCauses (Instr.stcv rd base off) s = []) : Quiet (Instr.stcv rd base off) s :=
  ⟨rfl, himm, nofun, rfl, rfl, rfl, rfl, rfl, rfl, haddr, rfl, rfl, rfl, rfl, rfl, rfl, rfl, rfl⟩
theorem quiet_stg (size : BitVec 3) (rd base : BitVec 6) (off : BitVec 8) (s : State) (hwf : (Instr.stg size rd base off).wf = true) (himm : immFits (Instr.stg size rd base off) s.ctx.ext = true) (haddr : addressCauses (Instr.stg size rd base off) s = []) : Quiet (Instr.stg size rd base off) s :=
  ⟨hwf, himm, nofun, rfl, rfl, rfl, rfl, rfl, rfl, haddr, rfl, rfl, rfl, rfl, rfl, rfl, rfl, rfl⟩
theorem quiet_stgv (rd : BitVec 7) (base : BitVec 6) (off : BitVec 8) (s : State) (himm : immFits (Instr.stgv rd base off) s.ctx.ext = true) (haddr : addressCauses (Instr.stgv rd base off) s = []) : Quiet (Instr.stgv rd base off) s :=
  ⟨rfl, himm, nofun, rfl, rfl, rfl, rfl, rfl, rfl, haddr, rfl, rfl, rfl, rfl, rfl, rfl, rfl, rfl⟩
theorem quiet_stgn (rd : BitVec 7) (base : BitVec 6) (norm : BitVec 8) (s : State) (haddr : addressCauses (Instr.stgn rd base norm) s = []) : Quiet (Instr.stgn rd base norm) s :=
  ⟨rfl, rfl, nofun, rfl, rfl, rfl, rfl, rfl, rfl, haddr, rfl, rfl, rfl, rfl, rfl, rfl, rfl, rfl⟩
theorem quiet_stgx (rd : BitVec 7) (base : BitVec 6) (off : BitVec 8) (s : State) (himm : immFits (Instr.stgx rd base off) s.ctx.ext = true) (haddr : addressCauses (Instr.stgx rd base off) s = []) : Quiet (Instr.stgx rd base off) s :=
  ⟨rfl, himm, nofun, rfl, rfl, rfl, rfl, rfl, rfl, haddr, rfl, rfl, rfl, rfl, rfl, rfl, rfl, rfl⟩
theorem quiet_cpy (opa : BitVec 6) (inCluster : BitVec 1) (chan : BitVec 2) (s : State) (hopA : operandCausesA (Instr.cpy opa inCluster chan) s = []) (heng : engineHold (Instr.cpy opa inCluster chan) s = false) : Quiet (Instr.cpy opa inCluster chan) s :=
  ⟨rfl, rfl, nofun, rfl, rfl, rfl, rfl, rfl, rfl, rfl, rfl, rfl, hopA, rfl, rfl, rfl, heng, rfl⟩
theorem quiet_gath (opa : BitVec 6) (inCluster : BitVec 1) (chan : BitVec 2) (s : State) (hopA : operandCausesA (Instr.gath opa inCluster chan) s = []) (heng : engineHold (Instr.gath opa inCluster chan) s = false) : Quiet (Instr.gath opa inCluster chan) s :=
  ⟨rfl, rfl, nofun, rfl, rfl, rfl, rfl, rfl, rfl, rfl, rfl, rfl, hopA, rfl, rfl, rfl, heng, rfl⟩
theorem quiet_stash (opa opb bar : BitVec 6) (mode : BitVec 3) (s : State) (hwf : (Instr.stash opa opb bar mode).wf = true) (hopA : operandCausesA (Instr.stash opa opb bar mode) s = []) (heng : engineHold (Instr.stash opa opb bar mode) s = false) : Quiet (Instr.stash opa opb bar mode) s :=
  ⟨hwf, rfl, nofun, rfl, rfl, rfl, rfl, rfl, rfl, rfl, rfl, rfl, hopA, rfl, rfl, rfl, heng, rfl⟩
theorem quiet_sfetch (opa opb bar : BitVec 6) (s : State) (hopA : operandCausesA (Instr.sfetch opa opb bar) s = []) (heng : engineHold (Instr.sfetch opa opb bar) s = false) : Quiet (Instr.sfetch opa opb bar) s :=
  ⟨rfl, rfl, nofun, rfl, rfl, rfl, rfl, rfl, rfl, rfl, rfl, rfl, hopA, rfl, rfl, rfl, heng, rfl⟩
theorem quiet_sprobe (opa opb : BitVec 6) (s : State) : Quiet (Instr.sprobe opa opb) s :=
  ⟨rfl, rfl, nofun, rfl, rfl, rfl, rfl, rfl, rfl, rfl, rfl, rfl, rfl, rfl, rfl, rfl, rfl, rfl⟩
theorem quiet_sfree (opb : BitVec 6) (s : State) (heng : engineHold (Instr.sfree opb) s = false) : Quiet (Instr.sfree opb) s :=
  ⟨rfl, rfl, nofun, rfl, rfl, rfl, rfl, rfl, rfl, rfl, rfl, rfl, rfl, rfl, rfl, rfl, heng, rfl⟩
theorem quiet_chsend (opa opb chan : BitVec 6) (s : State) (hopA : operandCausesA (Instr.chsend opa opb chan) s = []) (hopB : operandCausesB (Instr.chsend opa opb chan) s = []) (heng : engineHold (Instr.chsend opa opb chan) s = false) : Quiet (Instr.chsend opa opb chan) s :=
  ⟨rfl, rfl, nofun, rfl, rfl, rfl, rfl, rfl, rfl, rfl, rfl, rfl, hopA, hopB, rfl, rfl, heng, rfl⟩
theorem quiet_chpost (opa chan : BitVec 6) (s : State) (hopA : operandCausesA (Instr.chpost opa chan) s = []) : Quiet (Instr.chpost opa chan) s :=
  ⟨rfl, rfl, nofun, rfl, rfl, rfl, rfl, rfl, rfl, rfl, rfl, rfl, hopA, rfl, rfl, rfl, rfl, rfl⟩
theorem quiet_chack (opb chan : BitVec 6) (s : State) (hopB : operandCausesB (Instr.chack opb chan) s = []) : Quiet (Instr.chack opb chan) s :=
  ⟨rfl, rfl, nofun, rfl, rfl, rfl, rfl, rfl, rfl, rfl, rfl, rfl, rfl, hopB, rfl, rfl, rfl, rfl⟩
theorem quiet_coll (opa bar : BitVec 6) (s : State) (hopA : operandCausesA (Instr.coll opa bar) s = []) (heng : engineHold (Instr.coll opa bar) s = false) : Quiet (Instr.coll opa bar) s :=
  ⟨rfl, rfl, nofun, rfl, rfl, rfl, rfl, rfl, rfl, rfl, rfl, rfl, hopA, rfl, rfl, rfl, heng, rfl⟩
theorem quiet_shopen (opa opb : BitVec 6) (s : State) (hopA : operandCausesA (Instr.shopen opa opb) s = []) (hopB : operandCausesB (Instr.shopen opa opb) s = []) (heng : engineHold (Instr.shopen opa opb) s = false) : Quiet (Instr.shopen opa opb) s :=
  ⟨rfl, rfl, nofun, rfl, rfl, rfl, rfl, rfl, rfl, rfl, rfl, rfl, hopA, hopB, rfl, rfl, heng, rfl⟩
theorem quiet_publish (opa : BitVec 6) (scope : BitVec 3) (s : State) (hwf : (Instr.publish opa scope).wf = true) (heng : engineHold (Instr.publish opa scope) s = false) : Quiet (Instr.publish opa scope) s :=
  ⟨hwf, rfl, nofun, rfl, rfl, rfl, rfl, rfl, rfl, rfl, rfl, rfl, rfl, rfl, rfl, rfl, heng, rfl⟩
theorem quiet_ckpt (opb : BitVec 6) (scope : BitVec 3) (s : State) (hwf : (Instr.ckpt opb scope).wf = true) (heng : engineHold (Instr.ckpt opb scope) s = false) : Quiet (Instr.ckpt opb scope) s :=
  ⟨hwf, rfl, nofun, rfl, rfl, rfl, rfl, rfl, rfl, rfl, rfl, rfl, rfl, rfl, rfl, rfl, heng, rfl⟩
theorem quiet_replay (opb : BitVec 6) (s : State) : Quiet (Instr.replay opb) s :=
  ⟨rfl, rfl, nofun, rfl, rfl, rfl, rfl, rfl, rfl, rfl, rfl, rfl, rfl, rfl, rfl, rfl, rfl, rfl⟩
theorem quiet_split (opa : BitVec 6) (s : State) (hopA : operandCausesA (Instr.split opa) s = []) (heng : engineHold (Instr.split opa) s = false) : Quiet (Instr.split opa) s :=
  ⟨rfl, rfl, nofun, rfl, rfl, rfl, rfl, rfl, rfl, rfl, rfl, rfl, hopA, rfl, rfl, rfl, heng, rfl⟩
theorem quiet_wpwait (opa : BitVec 6) (chan : BitVec 2) (s : State) (hopA : operandCausesA (Instr.wpwait opa chan) s = []) (heng : engineHold (Instr.wpwait opa chan) s = false) : Quiet (Instr.wpwait opa chan) s :=
  ⟨rfl, rfl, nofun, rfl, rfl, rfl, rfl, rfl, rfl, rfl, rfl, rfl, hopA, rfl, rfl, rfl, heng, rfl⟩
theorem quiet_nrmrd (opa : BitVec 6) (wantE : BitVec 1) (norm : BitVec 8) (s : State) (hwf : (Instr.nrmrd opa wantE norm).wf = true) : Quiet (Instr.nrmrd opa wantE norm) s :=
  ⟨hwf, rfl, nofun, rfl, rfl, rfl, rfl, rfl, rfl, rfl, rfl, rfl, rfl, rfl, rfl, rfl, rfl, rfl⟩
theorem quiet_nrmclr (norm : BitVec 8) (s : State) : Quiet (Instr.nrmclr norm) s :=
  ⟨rfl, rfl, nofun, rfl, rfl, rfl, rfl, rfl, rfl, rfl, rfl, rfl, rfl, rfl, rfl, rfl, rfl, rfl⟩
theorem quiet_nrmset (opa : BitVec 6) (norm : BitVec 8) (s : State) (hopA : operandCausesA (Instr.nrmset opa norm) s = []) : Quiet (Instr.nrmset opa norm) s :=
  ⟨rfl, rfl, nofun, rfl, rfl, rfl, rfl, rfl, rfl, rfl, rfl, rfl, hopA, rfl, rfl, rfl, rfl, rfl⟩
theorem quiet_deq (grp : BitVec 4) (wq : BitVec 6) (s : State) (hwf : (Instr.deq grp wq).wf = true) (hreach : s.reach (Instr.deq grp wq) = s) (hwait : waitHold (Instr.deq grp wq) s = false) : Quiet (Instr.deq grp wq) s :=
  ⟨hwf, rfl, nofun, rfl, rfl, rfl, rfl, rfl, rfl, rfl, rfl, rfl, rfl, rfl, hreach, rfl, rfl, hwait⟩
theorem quiet_deqt (grp : BitVec 4) (wq : BitVec 6) (s : State) (hwf : (Instr.deqt grp wq).wf = true) (hreach : s.reach (Instr.deqt grp wq) = s) : Quiet (Instr.deqt grp wq) s :=
  ⟨hwf, rfl, nofun, rfl, rfl, rfl, rfl, rfl, rfl, rfl, rfl, rfl, rfl, rfl, hreach, rfl, rfl, rfl⟩
theorem quiet_enq (grp : BitVec 4) (wq : BitVec 6) (s : State) (hwf : (Instr.enq grp wq).wf = true) (hopA : operandCausesA (Instr.enq grp wq) s = []) (hwait : waitHold (Instr.enq grp wq) s = false) : Quiet (Instr.enq grp wq) s :=
  ⟨hwf, rfl, nofun, rfl, rfl, rfl, rfl, rfl, rfl, rfl, rfl, rfl, hopA, rfl, rfl, rfl, rfl, hwait⟩
theorem quiet_qclose (wq : BitVec 6) (s : State) : Quiet (Instr.qclose wq) s :=
  ⟨rfl, rfl, nofun, rfl, rfl, rfl, rfl, rfl, rfl, rfl, rfl, rfl, rfl, rfl, rfl, rfl, rfl, rfl⟩
theorem quiet_binit (opa bar : BitVec 6) (s : State) (hopA : operandCausesA (Instr.binit opa bar) s = []) : Quiet (Instr.binit opa bar) s :=
  ⟨rfl, rfl, nofun, rfl, rfl, rfl, rfl, rfl, rfl, rfl, rfl, rfl, hopA, rfl, rfl, rfl, rfl, rfl⟩
theorem quiet_barr (bar : BitVec 6) (s : State) : Quiet (Instr.barr bar) s :=
  ⟨rfl, rfl, nofun, rfl, rfl, rfl, rfl, rfl, rfl, rfl, rfl, rfl, rfl, rfl, rfl, rfl, rfl, rfl⟩
theorem quiet_bexp (opa bar : BitVec 6) (s : State) (hopA : operandCausesA (Instr.bexp opa bar) s = []) : Quiet (Instr.bexp opa bar) s :=
  ⟨rfl, rfl, nofun, rfl, rfl, rfl, rfl, rfl, rfl, rfl, rfl, rfl, hopA, rfl, rfl, rfl, rfl, rfl⟩
theorem quiet_bwait (opa : BitVec 6) (te : BitVec 1) (bar : BitVec 6) (s : State) (hreach : s.reach (Instr.bwait opa te bar) = s) (hwait : waitHold (Instr.bwait opa te bar) s = false) : Quiet (Instr.bwait opa te bar) s :=
  ⟨rfl, rfl, nofun, rfl, rfl, rfl, rfl, rfl, rfl, rfl, rfl, rfl, rfl, rfl, hreach, rfl, rfl, hwait⟩
theorem quiet_bpoll (opa bar : BitVec 6) (s : State) : Quiet (Instr.bpoll opa bar) s :=
  ⟨rfl, rfl, nofun, rfl, rfl, rfl, rfl, rfl, rfl, rfl, rfl, rfl, rfl, rfl, rfl, rfl, rfl, rfl⟩
theorem quiet_fence (order : BitVec 2) (scope : BitVec 3) (s : State) (hwf : (Instr.fence order scope).wf = true) : Quiet (Instr.fence order scope) s :=
  ⟨hwf, rfl, nofun, rfl, rfl, rfl, rfl, rfl, rfl, rfl, rfl, rfl, rfl, rfl, rfl, rfl, rfl, rfl⟩
theorem quiet_qalign (s : State) : Quiet (Instr.qalign) s :=
  ⟨rfl, rfl, nofun, rfl, rfl, rfl, rfl, rfl, rfl, rfl, rfl, rfl, rfl, rfl, rfl, rfl, rfl, rfl⟩
theorem quiet_amo (order : BitVec 2) (opa opb : BitVec 6) (nr : BitVec 1) (scope : BitVec 3) (size : BitVec 1) (fn : BitVec 4) (s : State) (hwf : (Instr.amo order opa opb nr scope size fn).wf = true) (hopB : operandCausesB (Instr.amo order opa opb nr scope size fn) s = []) : Quiet (Instr.amo order opa opb nr scope size fn) s :=
  ⟨hwf, rfl, nofun, rfl, rfl, rfl, rfl, rfl, rfl, rfl, rfl, rfl, rfl, hopB, rfl, rfl, rfl, rfl⟩
theorem quiet_phadv (s : State) (hwait : waitHold (Instr.phadv) s = false) : Quiet (Instr.phadv) s :=
  ⟨rfl, rfl, nofun, rfl, rfl, rfl, rfl, rfl, rfl, rfl, rfl, rfl, rfl, rfl, rfl, rfl, rfl, hwait⟩
theorem quiet_csrr (opa : BitVec 6) (csr : BitVec 12) (s : State) (hpriv : s.cur.priv = true) (hsys : systemCauses (Instr.csrr opa csr) = []) : Quiet (Instr.csrr opa csr) s :=
  ⟨rfl, rfl, fun _ => hpriv, rfl, hsys, rfl, rfl, rfl, rfl, rfl, rfl, rfl, rfl, rfl, rfl, rfl, rfl, rfl⟩
theorem quiet_csrw (opa : BitVec 6) (csr : BitVec 12) (s : State) (hpriv : s.cur.priv = true) (hsys : systemCauses (Instr.csrw opa csr) = []) : Quiet (Instr.csrw opa csr) s :=
  ⟨rfl, rfl, fun _ => hpriv, rfl, hsys, rfl, rfl, rfl, rfl, rfl, rfl, rfl, rfl, rfl, rfl, rfl, rfl, rfl⟩
theorem quiet_csrs (opa : BitVec 6) (csr : BitVec 12) (s : State) (hpriv : s.cur.priv = true) (hsys : systemCauses (Instr.csrs opa csr) = []) : Quiet (Instr.csrs opa csr) s :=
  ⟨rfl, rfl, fun _ => hpriv, rfl, hsys, rfl, rfl, rfl, rfl, rfl, rfl, rfl, rfl, rfl, rfl, rfl, rfl, rfl⟩
theorem quiet_csrc (opa : BitVec 6) (csr : BitVec 12) (s : State) (hpriv : s.cur.priv = true) (hsys : systemCauses (Instr.csrc opa csr) = []) : Quiet (Instr.csrc opa csr) s :=
  ⟨rfl, rfl, fun _ => hpriv, rfl, hsys, rfl, rfl, rfl, rfl, rfl, rfl, rfl, rfl, rfl, rfl, rfl, rfl, rfl⟩
theorem quiet_tret (s : State) (hpriv : s.cur.priv = true) : Quiet (Instr.tret) s :=
  ⟨rfl, rfl, fun _ => hpriv, rfl, rfl, rfl, rfl, rfl, rfl, rfl, rfl, rfl, rfl, rfl, rfl, rfl, rfl, rfl⟩
theorem quiet_ctxsw (s : State) (hpriv : s.cur.priv = true) : Quiet (Instr.ctxsw) s :=
  ⟨rfl, rfl, fun _ => hpriv, rfl, rfl, rfl, rfl, rfl, rfl, rfl, rfl, rfl, rfl, rfl, rfl, rfl, rfl, rfl⟩
theorem quiet_swpout (opa : BitVec 6) (s : State) (hpriv : s.cur.priv = true) (hopA : operandCausesA (Instr.swpout opa) s = []) : Quiet (Instr.swpout opa) s :=
  ⟨rfl, rfl, fun _ => hpriv, rfl, rfl, rfl, rfl, rfl, rfl, rfl, rfl, rfl, hopA, rfl, rfl, rfl, rfl, rfl⟩
theorem quiet_swpin (opa : BitVec 6) (s : State) (hpriv : s.cur.priv = true) (hopA : operandCausesA (Instr.swpin opa) s = []) : Quiet (Instr.swpin opa) s :=
  ⟨rfl, rfl, fun _ => hpriv, rfl, rfl, rfl, rfl, rfl, rfl, rfl, rfl, rfl, hopA, rfl, rfl, rfl, rfl, rfl⟩
theorem quiet_seedld (opa opb : BitVec 6) (seed : BitVec 4) (s : State) (hopB : operandCausesB (Instr.seedld opa opb seed) s = []) : Quiet (Instr.seedld opa opb seed) s :=
  ⟨rfl, rfl, nofun, rfl, rfl, rfl, rfl, rfl, rfl, rfl, rfl, rfl, rfl, hopB, rfl, rfl, rfl, rfl⟩
theorem quiet_genld (opa opb : BitVec 6) (gen : BitVec 2) (s : State) : Quiet (Instr.genld opa opb gen) s :=
  ⟨rfl, rfl, nofun, rfl, rfl, rfl, rfl, rfl, rfl, rfl, rfl, rfl, rfl, rfl, rfl, rfl, rfl, rfl⟩
theorem quiet_svc (code : BitVec 15) (s : State) (hsys : systemCauses (Instr.svc code) = []) : Quiet (Instr.svc code) s :=
  ⟨rfl, rfl, nofun, rfl, hsys, rfl, rfl, rfl, rfl, rfl, rfl, rfl, rfl, rfl, rfl, rfl, rfl, rfl⟩
theorem quiet_extinv (opa opb : BitVec 6) (s : State) (hpriv : s.cur.priv = true) (hopA : operandCausesA (Instr.extinv opa opb) s = []) (hopB : operandCausesB (Instr.extinv opa opb) s = []) : Quiet (Instr.extinv opa opb) s :=
  ⟨rfl, rfl, fun _ => hpriv, rfl, rfl, rfl, rfl, rfl, rfl, rfl, rfl, rfl, hopA, hopB, rfl, rfl, rfl, rfl⟩
theorem quiet_migr (opa : BitVec 6) (s : State) (hpriv : s.cur.priv = true) (hopA : operandCausesA (Instr.migr opa) s = []) : Quiet (Instr.migr opa) s :=
  ⟨rfl, rfl, fun _ => hpriv, rfl, rfl, rfl, rfl, rfl, rfl, rfl, rfl, rfl, hopA, rfl, rfl, rfl, rfl, rfl⟩
theorem quiet_balloonAddb (opa : BitVec 6) (s : State) (hpriv : s.cur.priv = true) (hopA : operandCausesA (Instr.balloonAddb opa) s = []) : Quiet (Instr.balloonAddb opa) s :=
  ⟨rfl, rfl, fun _ => hpriv, rfl, rfl, rfl, rfl, rfl, rfl, rfl, rfl, rfl, hopA, rfl, rfl, rfl, rfl, rfl⟩
theorem quiet_balloonAddt (opa : BitVec 6) (s : State) (hpriv : s.cur.priv = true) (hopA : operandCausesA (Instr.balloonAddt opa) s = []) : Quiet (Instr.balloonAddt opa) s :=
  ⟨rfl, rfl, fun _ => hpriv, rfl, rfl, rfl, rfl, rfl, rfl, rfl, rfl, rfl, hopA, rfl, rfl, rfl, rfl, rfl⟩
theorem quiet_balloonDeflate (opa : BitVec 6) (s : State) (hpriv : s.cur.priv = true) (hopA : operandCausesA (Instr.balloonDeflate opa) s = []) : Quiet (Instr.balloonDeflate opa) s :=
  ⟨rfl, rfl, fun _ => hpriv, rfl, rfl, rfl, rfl, rfl, rfl, rfl, rfl, rfl, hopA, rfl, rfl, rfl, rfl, rfl⟩
theorem quiet_balloonClrb (opa : BitVec 6) (s : State) (hpriv : s.cur.priv = true) : Quiet (Instr.balloonClrb opa) s :=
  ⟨rfl, rfl, fun _ => hpriv, rfl, rfl, rfl, rfl, rfl, rfl, rfl, rfl, rfl, rfl, rfl, rfl, rfl, rfl, rfl⟩
theorem quiet_balloonClrt (opa : BitVec 6) (s : State) (hpriv : s.cur.priv = true) : Quiet (Instr.balloonClrt opa) s :=
  ⟨rfl, rfl, fun _ => hpriv, rfl, rfl, rfl, rfl, rfl, rfl, rfl, rfl, rfl, rfl, rfl, rfl, rfl, rfl, rfl⟩
theorem quiet_idle (s : State) (hpriv : s.cur.priv = true) (hreach : s.reach (Instr.idle) = s) (hwait : waitHold (Instr.idle) s = false) : Quiet (Instr.idle) s :=
  ⟨rfl, rfl, fun _ => hpriv, rfl, rfl, rfl, rfl, rfl, rfl, rfl, rfl, rfl, rfl, rfl, hreach, rfl, rfl, hwait⟩

/-! ## The registers of each instruction -/

theorem regs_pfx (rm : BitVec 3) (sat : BitVec 1) (mask : BitVec 4) (strict : BitVec 16) : regsOf (Instr.pfx rm sat mask strict) = [] := rfl
theorem regs_ext (pay : BitVec 25) : regsOf (Instr.ext pay) = [] := rfl
theorem regs_add (rd ra rb : BitVec 6) (mod : BitVec 1) : regsOf (Instr.add rd ra rb mod) = [.s ra.toNat, .s rb.toNat, .s rd.toNat] := rfl
theorem regs_sub (rd ra rb : BitVec 6) (mod : BitVec 1) : regsOf (Instr.sub rd ra rb mod) = [.s ra.toNat, .s rb.toNat, .s rd.toNat] := rfl
theorem regs_addi (rd ra : BitVec 6) (imm : BitVec 8) : regsOf (Instr.addi rd ra imm) = [.s ra.toNat, .s rd.toNat] := rfl
theorem regs_addsh (rd ra rb : BitVec 6) (mod : BitVec 1) : regsOf (Instr.addsh rd ra rb mod) = [.s ra.toNat, .s rb.toNat, .s rd.toNat] := rfl
theorem regs_mul (rd ra rb : BitVec 6) (mod : BitVec 1) : regsOf (Instr.mul rd ra rb mod) = [.s ra.toNat, .s rb.toNat, .s rd.toNat] := rfl
theorem regs_mulh (rd ra rb : BitVec 6) (mod : BitVec 1) : regsOf (Instr.mulh rd ra rb mod) = [.s ra.toNat, .s rb.toNat, .s rd.toNat] := rfl
theorem regs_div (rd ra rb : BitVec 6) (mod : BitVec 1) : regsOf (Instr.div rd ra rb mod) = [.s ra.toNat, .s rb.toNat, .s rd.toNat] := rfl
theorem regs_divu (rd ra rb : BitVec 6) (mod : BitVec 1) : regsOf (Instr.divu rd ra rb mod) = [.s ra.toNat, .s rb.toNat, .s rd.toNat] := rfl
theorem regs_rem (rd ra rb : BitVec 6) (mod : BitVec 1) : regsOf (Instr.rem rd ra rb mod) = [.s ra.toNat, .s rb.toNat, .s rd.toNat] := rfl
theorem regs_and (rd ra rb : BitVec 6) : regsOf (Instr.and rd ra rb) = [.s ra.toNat, .s rb.toNat, .s rd.toNat] := rfl
theorem regs_or (rd ra rb : BitVec 6) : regsOf (Instr.or rd ra rb) = [.s ra.toNat, .s rb.toNat, .s rd.toNat] := rfl
theorem regs_xor (rd ra rb : BitVec 6) : regsOf (Instr.xor rd ra rb) = [.s ra.toNat, .s rb.toNat, .s rd.toNat] := rfl
theorem regs_andn (rd ra rb : BitVec 6) : regsOf (Instr.andn rd ra rb) = [.s ra.toNat, .s rb.toNat, .s rd.toNat] := rfl
theorem regs_shl (rd ra rb : BitVec 6) (mod : BitVec 1) : regsOf (Instr.shl rd ra rb mod) = [.s ra.toNat, .s rb.toNat, .s rd.toNat] := rfl
theorem regs_shr (rd ra rb : BitVec 6) (mod : BitVec 1) : regsOf (Instr.shr rd ra rb mod) = [.s ra.toNat, .s rb.toNat, .s rd.toNat] := rfl
theorem regs_sar (rd ra rb : BitVec 6) (mod : BitVec 1) : regsOf (Instr.sar rd ra rb mod) = [.s ra.toNat, .s rb.toNat, .s rd.toNat] := rfl
theorem regs_shli (rd ra imm : BitVec 6) : regsOf (Instr.shli rd ra imm) = [.s ra.toNat, .s rd.toNat] := rfl
theorem regs_shri (rd ra imm : BitVec 6) : regsOf (Instr.shri rd ra imm) = [.s ra.toNat, .s rd.toNat] := rfl
theorem regs_sari (rd ra imm : BitVec 6) : regsOf (Instr.sari rd ra imm) = [.s ra.toNat, .s rd.toNat] := rfl
theorem regs_clz (rd ra : BitVec 6) (mod : BitVec 1) : regsOf (Instr.clz rd ra mod) = [.s ra.toNat, .s rd.toNat] := rfl
theorem regs_popc (rd ra : BitVec 6) (mod : BitVec 1) : regsOf (Instr.popc rd ra mod) = [.s ra.toNat, .s rd.toNat] := rfl
theorem regs_bext (rd ra rb : BitVec 6) : regsOf (Instr.bext rd ra rb) = [.s ra.toNat, .s rb.toNat, .s rd.toNat] := rfl
theorem regs_bins (rd ra rb : BitVec 6) : regsOf (Instr.bins rd ra rb) = [.s ra.toNat, .s rb.toNat, .s rd.toNat] := rfl
theorem regs_min (rd ra rb : BitVec 6) (mod : BitVec 1) : regsOf (Instr.min rd ra rb mod) = [.s ra.toNat, .s rb.toNat, .s rd.toNat] := rfl
theorem regs_max (rd ra rb : BitVec 6) (mod : BitVec 1) : regsOf (Instr.max rd ra rb mod) = [.s ra.toNat, .s rb.toNat, .s rd.toNat] := rfl
theorem regs_minu (rd ra rb : BitVec 6) (mod : BitVec 1) : regsOf (Instr.minu rd ra rb mod) = [.s ra.toNat, .s rb.toNat, .s rd.toNat] := rfl
theorem regs_maxu (rd ra rb : BitVec 6) (mod : BitVec 1) : regsOf (Instr.maxu rd ra rb mod) = [.s ra.toNat, .s rb.toNat, .s rd.toNat] := rfl
theorem regs_seq (rd ra rb : BitVec 6) (mod : BitVec 1) : regsOf (Instr.seq rd ra rb mod) = [.s ra.toNat, .s rb.toNat, .s rd.toNat] := rfl
theorem regs_sne (rd ra rb : BitVec 6) (mod : BitVec 1) : regsOf (Instr.sne rd ra rb mod) = [.s ra.toNat, .s rb.toNat, .s rd.toNat] := rfl
theorem regs_slt (rd ra rb : BitVec 6) (mod : BitVec 1) : regsOf (Instr.slt rd ra rb mod) = [.s ra.toNat, .s rb.toNat, .s rd.toNat] := rfl
theorem regs_sltu (rd ra rb : BitVec 6) (mod : BitVec 1) : regsOf (Instr.sltu rd ra rb mod) = [.s ra.toNat, .s rb.toNat, .s rd.toNat] := rfl
theorem regs_sle (rd ra rb : BitVec 6) (mod : BitVec 1) : regsOf (Instr.sle rd ra rb mod) = [.s ra.toNat, .s rb.toNat, .s rd.toNat] := rfl
theorem regs_sleu (rd ra rb : BitVec 6) (mod : BitVec 1) : regsOf (Instr.sleu rd ra rb mod) = [.s ra.toNat, .s rb.toNat, .s rd.toNat] := rfl
theorem regs_sel (rd ra rb : BitVec 6) : regsOf (Instr.sel rd ra rb) = [.s ra.toNat, .s rb.toNat, .s rd.toNat] := rfl
theorem regs_movi (rd : BitVec 6) (imm : BitVec 14) : regsOf (Instr.movi rd imm) = [.s rd.toNat] := rfl
theorem regs_movhi (rd : BitVec 6) (imm : BitVec 14) : regsOf (Instr.movhi rd imm) = [.s rd.toNat] := rfl
theorem regs_fadd (rd ra rb : BitVec 6) : regsOf (Instr.fadd rd ra rb) = [.s ra.toNat, .s rb.toNat, .s rd.toNat] := rfl
theorem regs_fsub (rd ra rb : BitVec 6) : regsOf (Instr.fsub rd ra rb) = [.s ra.toNat, .s rb.toNat, .s rd.toNat] := rfl
theorem regs_fmul (rd ra rb : BitVec 6) : regsOf (Instr.fmul rd ra rb) = [.s ra.toNat, .s rb.toNat, .s rd.toNat] := rfl
theorem regs_ffma (rd ra rb : BitVec 6) : regsOf (Instr.ffma rd ra rb) = [.s ra.toNat, .s rb.toNat, .s rd.toNat] := rfl
theorem regs_fdiv (rd ra rb : BitVec 6) : regsOf (Instr.fdiv rd ra rb) = [.s ra.toNat, .s rb.toNat, .s rd.toNat] := rfl
theorem regs_fsqrt (rd ra : BitVec 6) : regsOf (Instr.fsqrt rd ra) = [.s ra.toNat, .s rd.toNat] := rfl
theorem regs_fmin (rd ra rb : BitVec 6) : regsOf (Instr.fmin rd ra rb) = [.s ra.toNat, .s rb.toNat, .s rd.toNat] := rfl
theorem regs_fmax (rd ra rb : BitVec 6) : regsOf (Instr.fmax rd ra rb) = [.s ra.toNat, .s rb.toNat, .s rd.toNat] := rfl
theorem regs_feq (rd ra rb : BitVec 6) : regsOf (Instr.feq rd ra rb) = [.s ra.toNat, .s rb.toNat, .s rd.toNat] := rfl
theorem regs_flt (rd ra rb : BitVec 6) : regsOf (Instr.flt rd ra rb) = [.s ra.toNat, .s rb.toNat, .s rd.toNat] := rfl
theorem regs_fle (rd ra rb : BitVec 6) : regsOf (Instr.fle rd ra rb) = [.s ra.toNat, .s rb.toNat, .s rd.toNat] := rfl
theorem regs_fcvti (rd ra : BitVec 6) (mod : BitVec 1) : regsOf (Instr.fcvti rd ra mod) = [.s ra.toNat, .s rd.toNat] := rfl
theorem regs_fcvtf (rd ra : BitVec 6) (mod : BitVec 1) : regsOf (Instr.fcvtf rd ra mod) = [.s ra.toNat, .s rd.toNat] := rfl
theorem regs_brz (hint : BitVec 1) (ra : BitVec 6) (off : BitVec 15) : regsOf (Instr.brz hint ra off) = [.s ra.toNat] := rfl
theorem regs_brnz (hint : BitVec 1) (ra : BitVec 6) (off : BitVec 15) : regsOf (Instr.brnz hint ra off) = [.s ra.toNat] := rfl
theorem regs_brkt (hint : BitVec 1) (rk : BitVec 4) (off : BitVec 15) : regsOf (Instr.brkt hint rk off) = [.k rk.toNat] := rfl
theorem regs_brkf (hint : BitVec 1) (rk : BitVec 4) (off : BitVec 15) : regsOf (Instr.brkf hint rk off) = [.k rk.toNat] := rfl
theorem regs_jmp (off : BitVec 21) : regsOf (Instr.jmp off) = [] := rfl
theorem regs_jmpi (ra : BitVec 6) : regsOf (Instr.jmpi ra) = [.s ra.toNat] := rfl
theorem regs_call (rd : BitVec 6) (off : BitVec 15) : regsOf (Instr.call rd off) = [.s rd.toNat] := rfl
theorem regs_ret (ra : BitVec 6) : regsOf (Instr.ret ra) = [.s ra.toNat] := rfl
theorem regs_loop (ra : BitVec 6) (endw : BitVec 13) : regsOf (Instr.loop ra endw) = [.s ra.toNat] := rfl
theorem regs_loopi (cnt : BitVec 9) (endw : BitVec 13) : regsOf (Instr.loopi cnt endw) = [] := rfl
theorem regs_lset (lvl : BitVec 3) (fld : BitVec 2) (ra : BitVec 6) : regsOf (Instr.lset lvl fld ra) = [.s ra.toNat] := rfl
theorem regs_lidx (rd : BitVec 6) (lvl : BitVec 3) : regsOf (Instr.lidx rd lvl) = [.s rd.toNat] := rfl
theorem regs_lbrk (lvl : BitVec 3) : regsOf (Instr.lbrk lvl) = [] := rfl
theorem regs_waitc (cnt : BitVec 21) : regsOf (Instr.waitc cnt) = [] := rfl
theorem regs_trap (code : BitVec 16) : regsOf (Instr.trap code) = [] := rfl
theorem regs_halt : regsOf (Instr.halt) = [] := rfl
theorem regs_vadd (rd ra rb : BitVec 7) : regsOf (Instr.vadd rd ra rb) = [.v ra.toNat, .v rb.toNat, .v rd.toNat] := rfl
theorem regs_vsub (rd ra rb : BitVec 7) : regsOf (Instr.vsub rd ra rb) = [.v ra.toNat, .v rb.toNat, .v rd.toNat] := rfl
theorem regs_vmul (rd ra rb : BitVec 7) : regsOf (Instr.vmul rd ra rb) = [.v ra.toNat, .v rb.toNat, .v rd.toNat] := rfl
theorem regs_vfma (rd ra rb : BitVec 7) : regsOf (Instr.vfma rd ra rb) = [.v ra.toNat, .v rb.toNat, .v rd.toNat] := rfl
theorem regs_vfms (rd ra rb : BitVec 7) : regsOf (Instr.vfms rd ra rb) = [.v ra.toNat, .v rb.toNat, .v rd.toNat] := rfl
theorem regs_vmin (rd ra rb : BitVec 7) : regsOf (Instr.vmin rd ra rb) = [.v ra.toNat, .v rb.toNat, .v rd.toNat] := rfl
theorem regs_vmax (rd ra rb : BitVec 7) : regsOf (Instr.vmax rd ra rb) = [.v ra.toNat, .v rb.toNat, .v rd.toNat] := rfl
theorem regs_vabs (rd ra : BitVec 7) : regsOf (Instr.vabs rd ra) = [.v ra.toNat, .v rd.toNat] := rfl
theorem regs_vneg (rd ra : BitVec 7) : regsOf (Instr.vneg rd ra) = [.v ra.toNat, .v rd.toNat] := rfl
theorem regs_veq (rd : BitVec 4) (ra rb : BitVec 7) : regsOf (Instr.veq rd ra rb) = [.v ra.toNat, .v rb.toNat, .k rd.toNat] := rfl
theorem regs_vne (rd : BitVec 4) (ra rb : BitVec 7) : regsOf (Instr.vne rd ra rb) = [.v ra.toNat, .v rb.toNat, .k rd.toNat] := rfl
theorem regs_vlt (rd : BitVec 4) (ra rb : BitVec 7) : regsOf (Instr.vlt rd ra rb) = [.v ra.toNat, .v rb.toNat, .k rd.toNat] := rfl
theorem regs_vle (rd : BitVec 4) (ra rb : BitVec 7) : regsOf (Instr.vle rd ra rb) = [.v ra.toNat, .v rb.toNat, .k rd.toNat] := rfl
theorem regs_vsel (rd ra rb : BitVec 7) : regsOf (Instr.vsel rd ra rb) = [.v ra.toNat, .v rb.toNat, .v rd.toNat] := rfl
theorem regs_vand (rd ra rb : BitVec 7) : regsOf (Instr.vand rd ra rb) = [.v ra.toNat, .v rb.toNat, .v rd.toNat] := rfl
theorem regs_vor (rd ra rb : BitVec 7) : regsOf (Instr.vor rd ra rb) = [.v ra.toNat, .v rb.toNat, .v rd.toNat] := rfl
theorem regs_vxor (rd ra rb : BitVec 7) : regsOf (Instr.vxor rd ra rb) = [.v ra.toNat, .v rb.toNat, .v rd.toNat] := rfl
theorem regs_viadd (rd ra rb : BitVec 7) : regsOf (Instr.viadd rd ra rb) = [.v ra.toNat, .v rb.toNat, .v rd.toNat] := rfl
theorem regs_visub (rd ra rb : BitVec 7) : regsOf (Instr.visub rd ra rb) = [.v ra.toNat, .v rb.toNat, .v rd.toNat] := rfl
theorem regs_vimul (rd ra rb : BitVec 7) : regsOf (Instr.vimul rd ra rb) = [.v ra.toNat, .v rb.toNat, .v rd.toNat] := rfl
theorem regs_vimin (rd ra rb : BitVec 7) : regsOf (Instr.vimin rd ra rb) = [.v ra.toNat, .v rb.toNat, .v rd.toNat] := rfl
theorem regs_vimax (rd ra rb : BitVec 7) : regsOf (Instr.vimax rd ra rb) = [.v ra.toNat, .v rb.toNat, .v rd.toNat] := rfl
theorem regs_vshl (rd ra rb : BitVec 7) : regsOf (Instr.vshl rd ra rb) = [.v ra.toNat, .v rb.toNat, .v rd.toNat] := rfl
theorem regs_vshr (rd ra rb : BitVec 7) : regsOf (Instr.vshr rd ra rb) = [.v ra.toNat, .v rb.toNat, .v rd.toNat] := rfl
theorem regs_vsar (rd ra rb : BitVec 7) : regsOf (Instr.vsar rd ra rb) = [.v ra.toNat, .v rb.toNat, .v rd.toNat] := rfl
theorem regs_vrcp (rd ra : BitVec 7) : regsOf (Instr.vrcp rd ra) = [.v ra.toNat, .v rd.toNat] := rfl
theorem regs_vrsq (rd ra : BitVec 7) : regsOf (Instr.vrsq rd ra) = [.v ra.toNat, .v rd.toNat] := rfl
theorem regs_vsqrt (rd ra : BitVec 7) : regsOf (Instr.vsqrt rd ra) = [.v ra.toNat, .v rd.toNat] := rfl
theorem regs_vexp2 (rd ra : BitVec 7) : regsOf (Instr.vexp2 rd ra) = [.v ra.toNat, .v rd.toNat] := rfl
theorem regs_vlog2 (rd ra : BitVec 7) : regsOf (Instr.vlog2 rd ra) = [.v ra.toNat, .v rd.toNat] := rfl
theorem regs_vtanh (rd ra : BitVec 7) : regsOf (Instr.vtanh rd ra) = [.v ra.toNat, .v rd.toNat] := rfl
theorem regs_vsigm (rd ra : BitVec 7) : regsOf (Instr.vsigm rd ra) = [.v ra.toNat, .v rd.toNat] := rfl
theorem regs_vrsum (rd : BitVec 6) (ra : BitVec 7) : regsOf (Instr.vrsum rd ra) = [.v ra.toNat, .s rd.toNat] := rfl
theorem regs_vrmax (rd : BitVec 6) (ra : BitVec 7) : regsOf (Instr.vrmax rd ra) = [.v ra.toNat, .s rd.toNat] := rfl
theorem regs_vramax (rd : BitVec 6) (ra : BitVec 7) : regsOf (Instr.vramax rd ra) = [.v ra.toNat, .s rd.toNat] := rfl
theorem regs_vbcast (rd : BitVec 7) (ra : BitVec 6) : regsOf (Instr.vbcast rd ra) = [.s ra.toNat, .v rd.toNat] := rfl
theorem regs_vextr (rd : BitVec 6) (ra : BitVec 7) (rb : BitVec 6) : regsOf (Instr.vextr rd ra rb) = [.v ra.toNat, .s rb.toNat, .s rd.toNat] := rfl
theorem regs_vins (rd : BitVec 7) (ra rb : BitVec 6) : regsOf (Instr.vins rd ra rb) = [.s ra.toNat, .s rb.toNat, .v rd.toNat] := rfl
theorem regs_vperm (rd ra rb : BitVec 7) : regsOf (Instr.vperm rd ra rb) = [.v ra.toNat, .v rb.toNat, .v rd.toNat] := rfl
theorem regs_vslide (rd ra : BitVec 7) (rb : BitVec 6) : regsOf (Instr.vslide rd ra rb) = [.v ra.toNat, .s rb.toNat, .v rd.toNat] := rfl
theorem regs_vmov (rd ra : BitVec 7) : regsOf (Instr.vmov rd ra) = [.v ra.toNat, .v rd.toNat] := rfl
theorem regs_viota (rd : BitVec 7) : regsOf (Instr.viota rd) = [.v rd.toNat] := rfl
theorem regs_vrand (rd : BitVec 7) (ra : BitVec 2) : regsOf (Instr.vrand rd ra) = [.v rd.toNat] := rfl
theorem regs_kand (rd ra rb : BitVec 4) : regsOf (Instr.kand rd ra rb) = [.k ra.toNat, .k rb.toNat, .k rd.toNat] := rfl
theorem regs_kor (rd ra rb : BitVec 4) : regsOf (Instr.kor rd ra rb) = [.k ra.toNat, .k rb.toNat, .k rd.toNat] := rfl
theorem regs_kxor (rd ra rb : BitVec 4) : regsOf (Instr.kxor rd ra rb) = [.k ra.toNat, .k rb.toNat, .k rd.toNat] := rfl
theorem regs_knot (rd ra : BitVec 4) : regsOf (Instr.knot rd ra) = [.k ra.toNat, .k rd.toNat] := rfl
theorem regs_kpop (rd : BitVec 6) (ra : BitVec 4) : regsOf (Instr.kpop rd ra) = [.k ra.toNat, .s rd.toNat] := rfl
theorem regs_vcvtn (fmt : BitVec 2) (rd ra : BitVec 7) (noRot : BitVec 1) (seed : BitVec 4) : regsOf (Instr.vcvtn fmt rd ra noRot seed) = [.v ra.toNat, .v rd.toNat] := rfl
theorem regs_vcvtns (fmt : BitVec 2) (rd ra : BitVec 7) (rb : BitVec 6) : regsOf (Instr.vcvtns fmt rd ra rb) = [.v ra.toNat, .s rb.toNat, .v rd.toNat] := rfl
theorem regs_vcvtw (rd ra : BitVec 7) : regsOf (Instr.vcvtw rd ra) = [.v ra.toNat, .v rd.toNat] := rfl
theorem regs_vcvti (rd ra : BitVec 7) (uns : BitVec 1) : regsOf (Instr.vcvti rd ra uns) = [.v ra.toNat, .v rd.toNat] := rfl
theorem regs_vcvtf (rd ra : BitVec 7) (uns : BitVec 1) : regsOf (Instr.vcvtf rd ra uns) = [.v ra.toNat, .v rd.toNat] := rfl
theorem regs_vqscaleE4m3 (rd : BitVec 6) (ra : BitVec 7) (noRot : BitVec 1) (seed : BitVec 4) : regsOf (Instr.vqscaleE4m3 rd ra noRot seed) = [.v ra.toNat, .s rd.toNat] := rfl
theorem regs_vqscaleE5m2 (rd : BitVec 6) (ra : BitVec 7) (noRot : BitVec 1) (seed : BitVec 4) : regsOf (Instr.vqscaleE5m2 rd ra noRot seed) = [.v ra.toNat, .s rd.toNat] := rfl
theorem regs_vqscaleBf16 (rd : BitVec 6) (ra : BitVec 7) (noRot : BitVec 1) (seed : BitVec 4) : regsOf (Instr.vqscaleBf16 rd ra noRot seed) = [.v ra.toNat, .s rd.toNat] := rfl
theorem regs_vqscaleInt8 (rd : BitVec 6) (ra : BitVec 7) (noRot : BitVec 1) (seed : BitVec 4) : regsOf (Instr.vqscaleInt8 rd ra noRot seed) = [.v ra.toNat, .s rd.toNat] := rfl
theorem regs_vside (rd : BitVec 6) (ra : BitVec 7) : regsOf (Instr.vside rd ra) = [.v ra.toNat, .s rd.toNat] := rfl
theorem regs_vsidew (rd : BitVec 7) (rb : BitVec 6) : regsOf (Instr.vsidew rd rb) = [.s rb.toNat, .v rd.toNat] := rfl
theorem regs_ttwr (tile : BitVec 1) (ra : BitVec 7) (rb : BitVec 6) : regsOf (Instr.ttwr tile ra rb) = [.v ra.toNat, .s rb.toNat] := rfl
theorem regs_ttrdc (rd : BitVec 7) (tile : BitVec 1) (ra : BitVec 6) : regsOf (Instr.ttrdc rd tile ra) = [.s ra.toNat, .v rd.toNat] := rfl
theorem regs_ttrdcE4m3 (rd : BitVec 7) (tile : BitVec 1) (ra : BitVec 6) (noRot : BitVec 1) (seed : BitVec 4) : regsOf (Instr.ttrdcE4m3 rd tile ra noRot seed) = [.s ra.toNat, .v rd.toNat] := rfl
theorem regs_ttrdcE5m2 (rd : BitVec 7) (tile : BitVec 1) (ra : BitVec 6) (noRot : BitVec 1) (seed : BitVec 4) : regsOf (Instr.ttrdcE5m2 rd tile ra noRot seed) = [.s ra.toNat, .v rd.toNat] := rfl
theorem regs_ttrdcBf16 (rd : BitVec 7) (tile : BitVec 1) (ra : BitVec 6) (noRot : BitVec 1) (seed : BitVec 4) : regsOf (Instr.ttrdcBf16 rd tile ra noRot seed) = [.s ra.toNat, .v rd.toNat] := rfl
theorem regs_ttrdcInt8 (rd : BitVec 7) (tile : BitVec 1) (ra : BitVec 6) (noRot : BitVec 1) (seed : BitVec 4) : regsOf (Instr.ttrdcInt8 rd tile ra noRot seed) = [.s ra.toNat, .v rd.toNat] := rfl
theorem regs_ttclr (tile : BitVec 1) : regsOf (Instr.ttclr tile) = [] := rfl
theorem regs_fpusha (fifo : BitVec 1) (ra : BitVec 7) : regsOf (Instr.fpusha fifo ra) = [.v ra.toNat] := rfl
theorem regs_fpushb (fifo : BitVec 1) (ra : BitVec 7) : regsOf (Instr.fpushb fifo ra) = [.v ra.toNat] := rfl
theorem regs_mcfg0 (ra : BitVec 6) : regsOf (Instr.mcfg0 ra) = [.s ra.toNat] := rfl
theorem regs_mcfg1 (ra : BitVec 6) : regsOf (Instr.mcfg1 ra) = [.s ra.toNat] := rfl
theorem regs_mdrain0 : regsOf (Instr.mdrain0) = [] := rfl
theorem regs_mdrain1 : regsOf (Instr.mdrain1) = [] := rfl
theorem regs_mldb0 (wb : BitVec 1) : regsOf (Instr.mldb0 wb) = [] := rfl
theorem regs_mldb1 (wb : BitVec 1) : regsOf (Instr.mldb1 wb) = [] := rfl
theorem regs_mma0 (nm1 row0 : BitVec 6) (ovw scl wb : BitVec 1) : regsOf (Instr.mma0 nm1 row0 ovw scl wb) = (List.range (nm1.toNat + 1)).map fun i => .v (row0.toNat + i) := rfl
theorem regs_mma1 (nm1 row0 : BitVec 6) (ovw scl wb : BitVec 1) : regsOf (Instr.mma1 nm1 row0 ovw scl wb) = (List.range (nm1.toNat + 1)).map fun i => .v (64 + row0.toNat + i) := rfl
theorem regs_mzero0 (nm1 row0 : BitVec 6) : regsOf (Instr.mzero0 nm1 row0) = (List.range (nm1.toNat + 1)).map fun i => .v (row0.toNat + i) := rfl
theorem regs_mzero1 (nm1 row0 : BitVec 6) : regsOf (Instr.mzero1 nm1 row0) = (List.range (nm1.toNat + 1)).map fun i => .v (64 + row0.toNat + i) := rfl
theorem regs_mskipa0 (nm1 : BitVec 6) : regsOf (Instr.mskipa0 nm1) = [] := rfl
theorem regs_mskipa1 (nm1 : BitVec 6) : regsOf (Instr.mskipa1 nm1) = [] := rfl
theorem regs_mstat0 (rd : BitVec 6) : regsOf (Instr.mstat0 rd) = [.s rd.toNat] := rfl
theorem regs_mstat1 (rd : BitVec 6) : regsOf (Instr.mstat1 rd) = [.s rd.toNat] := rfl
theorem regs_lds (size : BitVec 3) (rd base : BitVec 6) (off : BitVec 8) : regsOf (Instr.lds size rd base off) = .s base.toNat :: (if size = 7 then pairOf rd else [.s rd.toNat]) := rfl
theorem regs_ldsv (rd : BitVec 7) (base : BitVec 6) (off : BitVec 8) : regsOf (Instr.ldsv rd base off) = [.s base.toNat, .v rd.toNat] := rfl
theorem regs_ldsk (hi : BitVec 1) (rk : BitVec 4) (base : BitVec 6) (off : BitVec 8) : regsOf (Instr.ldsk hi rk base off) = [.s base.toNat, .k rk.toNat] := rfl
theorem regs_ldsx (rd : BitVec 7) (base : BitVec 6) (off : BitVec 8) : regsOf (Instr.ldsx rd base off) = [.s base.toNat, .v rd.toNat] := rfl
theorem regs_ldc (size : BitVec 3) (rd base : BitVec 6) (off : BitVec 8) : regsOf (Instr.ldc size rd base off) = .s base.toNat :: (if size = 7 then pairOf rd else [.s rd.toNat]) := rfl
theorem regs_ldcv (rd : BitVec 7) (base : BitVec 6) (off : BitVec 8) : regsOf (Instr.ldcv rd base off) = [.s base.toNat, .v rd.toNat] := rfl
theorem regs_ldg (size : BitVec 3) (rd base : BitVec 6) (off : BitVec 8) : regsOf (Instr.ldg size rd base off) = .s base.toNat :: (if size = 7 then pairOf rd else [.s rd.toNat]) := rfl
theorem regs_ldgv (rd : BitVec 7) (base : BitVec 6) (off : BitVec 8) : regsOf (Instr.ldgv rd base off) = [.s base.toNat, .v rd.toNat] := rfl
theorem regs_ldgx (rd : BitVec 7) (base : BitVec 6) (off : BitVec 8) : regsOf (Instr.ldgx rd base off) = [.s base.toNat, .v rd.toNat] := rfl
theorem regs_pref (base : BitVec 6) (off : BitVec 8) : regsOf (Instr.pref base off) = [.s base.toNat] := rfl
theorem regs_sts (size : BitVec 3) (rd base : BitVec 6) (off : BitVec 8) : regsOf (Instr.sts size rd base off) = .s base.toNat :: (if size = 4 then pairOf rd else [.s rd.toNat]) := (List.append_nil _).trans rfl
theorem regs_stsv (rd : BitVec 7) (base : BitVec 6) (off : BitVec 8) : regsOf (Instr.stsv rd base off) = [.s base.toNat, .v rd.toNat] := rfl
theorem regs_stsk (hi : BitVec 1) (rk : BitVec 4) (base : BitVec 6) (off : BitVec 8) : regsOf (Instr.stsk hi rk base off) = [.s base.toNat, .k rk.toNat] := rfl
theorem regs_stsx (rd : BitVec 7) (base : BitVec 6) (off : BitVec 8) : regsOf (Instr.stsx rd base off) = [.s base.toNat, .v rd.toNat] := rfl
theorem regs_stc (size : BitVec 3) (rd base : BitVec 6) (off : BitVec 8) : regsOf (Instr.stc size rd base off) = .s base.toNat :: (if size = 4 then pairOf rd else [.s rd.toNat]) := (List.append_nil _).trans rfl
theorem regs_stcv (rd : BitVec 7) (base : BitVec 6) (off : BitVec 8) : regsOf (Instr.stcv rd base off) = [.s base.toNat, .v rd.toNat] := rfl
theorem regs_stg (size : BitVec 3) (rd base : BitVec 6) (off : BitVec 8) : regsOf (Instr.stg size rd base off) = .s base.toNat :: (if size = 4 then pairOf rd else [.s rd.toNat]) := (List.append_nil _).trans rfl
theorem regs_stgv (rd : BitVec 7) (base : BitVec 6) (off : BitVec 8) : regsOf (Instr.stgv rd base off) = [.s base.toNat, .v rd.toNat] := rfl
theorem regs_stgn (rd : BitVec 7) (base : BitVec 6) (norm : BitVec 8) : regsOf (Instr.stgn rd base norm) = [.s base.toNat, .v rd.toNat] := rfl
theorem regs_stgx (rd : BitVec 7) (base : BitVec 6) (off : BitVec 8) : regsOf (Instr.stgx rd base off) = [.s base.toNat, .v rd.toNat] := rfl
theorem regs_cpy (opa : BitVec 6) (inCluster : BitVec 1) (chan : BitVec 2) : regsOf (Instr.cpy opa inCluster chan) = [.s opa.toNat] := rfl
theorem regs_gath (opa : BitVec 6) (inCluster : BitVec 1) (chan : BitVec 2) : regsOf (Instr.gath opa inCluster chan) = [.s opa.toNat] := rfl
theorem regs_stash (opa opb bar : BitVec 6) (mode : BitVec 3) : regsOf (Instr.stash opa opb bar mode) = [.s opa.toNat, .s opb.toNat] := rfl
theorem regs_sfetch (opa opb bar : BitVec 6) : regsOf (Instr.sfetch opa opb bar) = [.s opa.toNat, .s opb.toNat] := rfl
theorem regs_sprobe (opa opb : BitVec 6) : regsOf (Instr.sprobe opa opb) = [.s opb.toNat, .s opa.toNat] := rfl
theorem regs_sfree (opb : BitVec 6) : regsOf (Instr.sfree opb) = [.s opb.toNat] := rfl
theorem regs_chsend (opa opb chan : BitVec 6) : regsOf (Instr.chsend opa opb chan) = [.s opa.toNat, .s opb.toNat] := rfl
theorem regs_chpost (opa chan : BitVec 6) : regsOf (Instr.chpost opa chan) = [.s opa.toNat] := rfl
theorem regs_chack (opb chan : BitVec 6) : regsOf (Instr.chack opb chan) = [.s opb.toNat] := rfl
theorem regs_coll (opa bar : BitVec 6) : regsOf (Instr.coll opa bar) = [.s opa.toNat] := rfl
theorem regs_shopen (opa opb : BitVec 6) : regsOf (Instr.shopen opa opb) = [.s opa.toNat, .s opb.toNat] := rfl
theorem regs_publish (opa : BitVec 6) (scope : BitVec 3) : regsOf (Instr.publish opa scope) = [.s opa.toNat] := rfl
theorem regs_ckpt (opb : BitVec 6) (scope : BitVec 3) : regsOf (Instr.ckpt opb scope) = [.s opb.toNat] := rfl
theorem regs_replay (opb : BitVec 6) : regsOf (Instr.replay opb) = [.s opb.toNat] := rfl
theorem regs_split (opa : BitVec 6) : regsOf (Instr.split opa) = [.s opa.toNat] := rfl
theorem regs_wpwait (opa : BitVec 6) (chan : BitVec 2) : regsOf (Instr.wpwait opa chan) = [.s opa.toNat] := rfl
theorem regs_nrmrd (opa : BitVec 6) (wantE : BitVec 1) (norm : BitVec 8) : regsOf (Instr.nrmrd opa wantE norm) = [.s opa.toNat, .s (opa.toNat + 1)] := rfl
theorem regs_nrmclr (norm : BitVec 8) : regsOf (Instr.nrmclr norm) = [] := rfl
theorem regs_nrmset (opa : BitVec 6) (norm : BitVec 8) : regsOf (Instr.nrmset opa norm) = [.s opa.toNat] := rfl
theorem regs_deq (grp : BitVec 4) (wq : BitVec 6) : regsOf (Instr.deq grp wq) = [.s (4 * grp.toNat), .s (4 * grp.toNat + 1), .s (4 * grp.toNat + 2), .s (4 * grp.toNat + 3)] := rfl
theorem regs_deqt (grp : BitVec 4) (wq : BitVec 6) : regsOf (Instr.deqt grp wq) = [.s (4 * grp.toNat), .s (4 * grp.toNat + 1), .s (4 * grp.toNat + 2), .s (4 * grp.toNat + 3)] := rfl
theorem regs_enq (grp : BitVec 4) (wq : BitVec 6) : regsOf (Instr.enq grp wq) = [.s (4 * grp.toNat), .s (4 * grp.toNat + 1), .s (4 * grp.toNat + 2), .s (4 * grp.toNat + 3)] := rfl
theorem regs_qclose (wq : BitVec 6) : regsOf (Instr.qclose wq) = [] := rfl
theorem regs_binit (opa bar : BitVec 6) : regsOf (Instr.binit opa bar) = [.s opa.toNat] := rfl
theorem regs_barr (bar : BitVec 6) : regsOf (Instr.barr bar) = [] := rfl
theorem regs_bexp (opa bar : BitVec 6) : regsOf (Instr.bexp opa bar) = [.s opa.toNat] := rfl
theorem regs_bwait (opa : BitVec 6) (te : BitVec 1) (bar : BitVec 6) : regsOf (Instr.bwait opa te bar) = [.s opa.toNat] := rfl
theorem regs_bpoll (opa bar : BitVec 6) : regsOf (Instr.bpoll opa bar) = [.s opa.toNat] := rfl
theorem regs_fence (order : BitVec 2) (scope : BitVec 3) : regsOf (Instr.fence order scope) = [] := rfl
theorem regs_qalign : regsOf (Instr.qalign) = [] := rfl
theorem regs_amo (order : BitVec 2) (opa opb : BitVec 6) (nr : BitVec 1) (scope : BitVec 3) (size : BitVec 1) (fn : BitVec 4) : regsOf (Instr.amo order opa opb nr scope size fn) = (if fn = 9 then pairOf opa else [.s opa.toNat]) ++ [.s opb.toNat] ++ (if nr = 0 then [.s opa.toNat] else []) := rfl
theorem regs_phadv : regsOf (Instr.phadv) = [] := rfl
theorem regs_csrr (opa : BitVec 6) (csr : BitVec 12) : regsOf (Instr.csrr opa csr) = [.s opa.toNat] := rfl
theorem regs_csrw (opa : BitVec 6) (csr : BitVec 12) : regsOf (Instr.csrw opa csr) = [.s opa.toNat] := rfl
theorem regs_csrs (opa : BitVec 6) (csr : BitVec 12) : regsOf (Instr.csrs opa csr) = [.s opa.toNat] := rfl
theorem regs_csrc (opa : BitVec 6) (csr : BitVec 12) : regsOf (Instr.csrc opa csr) = [.s opa.toNat] := rfl
theorem regs_tret : regsOf (Instr.tret) = [] := rfl
theorem regs_ctxsw : regsOf (Instr.ctxsw) = [] := rfl
theorem regs_swpout (opa : BitVec 6) : regsOf (Instr.swpout opa) = [.s opa.toNat] := rfl
theorem regs_swpin (opa : BitVec 6) : regsOf (Instr.swpin opa) = [.s opa.toNat] := rfl
theorem regs_seedld (opa opb : BitVec 6) (seed : BitVec 4) : regsOf (Instr.seedld opa opb seed) = [.s opa.toNat, .s opb.toNat] := rfl
theorem regs_genld (opa opb : BitVec 6) (gen : BitVec 2) : regsOf (Instr.genld opa opb gen) = [.s opa.toNat, .s opb.toNat] := rfl
theorem regs_svc (code : BitVec 15) : regsOf (Instr.svc code) = [] := rfl
theorem regs_extinv (opa opb : BitVec 6) : regsOf (Instr.extinv opa opb) = [.s opa.toNat, .s opb.toNat] := rfl
theorem regs_migr (opa : BitVec 6) : regsOf (Instr.migr opa) = [.s opa.toNat] := rfl
theorem regs_balloonAddb (opa : BitVec 6) : regsOf (Instr.balloonAddb opa) = [.s opa.toNat] := rfl
theorem regs_balloonAddt (opa : BitVec 6) : regsOf (Instr.balloonAddt opa) = [.s opa.toNat] := rfl
theorem regs_balloonDeflate (opa : BitVec 6) : regsOf (Instr.balloonDeflate opa) = [.s opa.toNat] := rfl
theorem regs_balloonClrb (opa : BitVec 6) : regsOf (Instr.balloonClrb opa) = [.s opa.toNat] := rfl
theorem regs_balloonClrt (opa : BitVec 6) : regsOf (Instr.balloonClrt opa) = [.s opa.toNat] := rfl
theorem regs_idle : regsOf (Instr.idle) = [] := rfl

end Sys2Proof.Machine
end

