-- ==== Sys2Proof/Laws/Sched.lean ====
section
/-! SUPPORT. What bringing the scheduler up to date and completing an item can change: stages, stash commands and their entries, the item of the
bank, and the slots and snapshots of a released tag (R195 to R199). -/

namespace Sys2Proof.Machine

/-- A write over a write of the same key. -/
@[simp] theorem tset_tset {α : Type} (k : Nat) (v w : α) (t : Table α) : tset k v (tset k w t) = tset k v t := by
  induction t with
  | nil => simp [tset]
  | cons p r ih =>
    obtain ⟨j, x⟩ := p
    by_cases h1 : k < j
    · simp [tset, h1]
    · by_cases h2 : k = j
      · simp [tset, h2]
      · simp [tset, h1, h2, ih]

theorem State.setCore_setCore (s : State) (c : Nat) (x y : Core) : (s.setCore c x).setCore c y = s.setCore c y := by
  simp [State.setCore]

theorem Core.setBank_setBank (x : Core) (b : Nat) (k l : Bank) : (x.setBank b k).setBank b l = x.setBank b l := by
  unfold Core.setBank
  split <;> rfl

@[simp] theorem State.setBank_setBank (s : State) (c b : Nat) (k l : Bank) : (s.setBank c b k).setBank c b l = s.setBank c b l := by
  rw [State.setBank, State.core_setBank, Core.setBank_setBank, State.setBank, State.setCore_setCore, ← State.setBank]

@[simp] theorem State.setCur_setCur (s : State) (k l : Bank) : (s.setCur k).setCur l = s.setCur l := State.setBank_setBank s _ _ k l

/-! ## Bringing the scheduler up to date -/

theorem State.createR_frame (s : State) (i : Nat) : ∃ st, s.createR i = { s with stages := st } := by
  unfold State.createR
  dsimp only
  split
  · exact ⟨s.stages, rfl⟩
  · exact ⟨_, rfl⟩

/-- Two tables of dies that differ in the stash commands accepted and in the stash table alone. -/
def onlyStash (old new : Table Die) : Prop := ∀ d, ∃ l m, tget {} d new = { tget {} d old with stashRunning := l, stash := m }

theorem onlyStash_refl (t : Table Die) : onlyStash t t := fun _ => ⟨_, _, rfl⟩

theorem onlyStash_trans {a b c : Table Die} (h : onlyStash a b) (g : onlyStash b c) : onlyStash a c := by
  intro d
  obtain ⟨l, l', hl⟩ := h d
  obtain ⟨m, m', hm⟩ := g d
  exact ⟨m, m', by rw [hm, hl]⟩

theorem onlyStash_set (t : Table Die) (d : Nat) (l : List StashCmd) (m : Table StashEntry) :
    onlyStash t (tset d { tget {} d t with stashRunning := l, stash := m } t) := by
  intro e
  rw [tget_tset]
  split
  · next h => subst h; exact ⟨l, m, rfl⟩
  · exact ⟨_, _, rfl⟩

/-- A property that every step of a fold keeps holds at its end. -/
theorem foldl_keeps {α β : Type} (P : β → Prop) (f : β → α → β) (l : List α) (b : β) (h : P b) (step : ∀ b a, P b → P (f b a)) :
    P (l.foldl f b) := by
  induction l generalizing b with
  | nil => exact h
  | cons a r ih => exact ih (f b a) (step b a h)

theorem State.requestFetches_frame (s : State) (i : Nat) :
    ∃ ds n, s.requestFetches i = { s with dies := ds, nextEntry := n } ∧ onlyStash s.dies ds := by
  unfold State.requestFetches
  dsimp only
  split
  · exact ⟨s.dies, _, rfl, onlyStash_refl _⟩
  · apply foldl_keeps fun t : State => ∃ ds n, t = { s with dies := ds, nextEntry := n } ∧ onlyStash s.dies ds
    · exact ⟨s.dies, _, rfl, onlyStash_refl _⟩
    · intro t tag ht
      apply foldl_keeps fun t : State => ∃ ds n, t = { s with dies := ds, nextEntry := n } ∧ onlyStash s.dies ds
      · exact ht
      · rintro _ ⟨d, key, e⟩ ⟨ds, n, rfl, h⟩
        dsimp only
        split
        · exact ⟨_, _, rfl, onlyStash_trans h (onlyStash_set _ _ _ _)⟩
        · exact ⟨ds, n, rfl, h⟩

theorem State.refreshStage_frame (s : State) (i : Nat) :
    ∃ st ds n, s.refreshStage i = { s with stages := st, dies := ds, nextEntry := n } ∧ onlyStash s.dies ds := by
  obtain ⟨st, h1⟩ := s.createR_frame i
  obtain ⟨ds, n, h2, h3⟩ := (s.createR i).requestFetches_frame i
  unfold State.refreshStage
  dsimp only
  rw [h2, h1]
  refine ⟨_, ds, n, rfl, ?_⟩
  rw [h1] at h3
  exact h3

/-- Everything that bringing the stages up to date can do. -/
theorem State.refresh_frame (s : State) :
    ∃ st ds n, s.refresh = { s with stages := st, dies := ds, nextEntry := n } ∧ onlyStash s.dies ds := by
  unfold State.refresh
  apply foldl_keeps fun t : State => ∃ st ds n, t = { s with stages := st, dies := ds, nextEntry := n } ∧ onlyStash s.dies ds
  · exact ⟨s.stages, s.dies, _, rfl, onlyStash_refl _⟩
  · rintro _ e ⟨st, ds, n, rfl, h⟩
    obtain ⟨st', ds', n', h1, h2⟩ := State.refreshStage_frame { s with stages := st, dies := ds, nextEntry := n } e.1
    exact ⟨st', ds', n', h1, onlyStash_trans h h2⟩

@[simp] theorem State.refresh_clk (s : State) : s.refresh.clk = s.clk := by
  obtain ⟨_, _, _, h, _⟩ := s.refresh_frame
  rw [h]
@[simp] theorem State.refresh_failed (s : State) : s.refresh.failed = s.failed := by
  obtain ⟨_, _, _, h, _⟩ := s.refresh_frame
  rw [h]
@[simp] theorem State.refresh_ctx (s : State) : s.refresh.ctx = s.ctx := by
  obtain ⟨_, _, _, h, _⟩ := s.refresh_frame
  rw [h]
@[simp] theorem State.refresh_script (s : State) : s.refresh.script = s.script := by
  obtain ⟨_, _, _, h, _⟩ := s.refresh_frame
  rw [h]
@[simp] theorem State.refresh_paced (s : State) : s.refresh.paced = s.paced := by
  obtain ⟨_, _, _, h, _⟩ := s.refresh_frame
  rw [h]
@[simp] theorem State.refresh_calendar (s : State) : s.refresh.calendar = s.calendar := by
  obtain ⟨_, _, _, h, _⟩ := s.refresh_frame
  rw [h]
@[simp] theorem State.refresh_draws (s : State) : s.refresh.draws = s.draws := by
  obtain ⟨_, _, _, h, _⟩ := s.refresh_frame
  rw [h]
@[simp] theorem State.refresh_cores (s : State) : s.refresh.cores = s.cores := by
  obtain ⟨_, _, _, h, _⟩ := s.refresh_frame
  rw [h]
@[simp] theorem State.refresh_clusters (s : State) : s.refresh.clusters = s.clusters := by
  obtain ⟨_, _, _, h, _⟩ := s.refresh_frame
  rw [h]
@[simp] theorem State.refresh_slots (s : State) : s.refresh.slots = s.slots := by
  obtain ⟨_, _, _, h, _⟩ := s.refresh_frame
  rw [h]
@[simp] theorem State.refresh_norms (s : State) : s.refresh.norms = s.norms := by
  obtain ⟨_, _, _, h, _⟩ := s.refresh_frame
  rw [h]
@[simp] theorem State.refresh_signal (s : State) : s.refresh.signal = s.signal := by
  obtain ⟨_, _, _, h, _⟩ := s.refresh_frame
  rw [h]
@[simp] theorem State.refresh_queues (s : State) : s.refresh.queues = s.queues := by
  obtain ⟨_, _, _, h, _⟩ := s.refresh_frame
  rw [h]
@[simp] theorem State.refresh_tensors (s : State) : s.refresh.tensors = s.tensors := by
  obtain ⟨_, _, _, h, _⟩ := s.refresh_frame
  rw [h]
@[simp] theorem State.refresh_buckets (s : State) : s.refresh.buckets = s.buckets := by
  obtain ⟨_, _, _, h, _⟩ := s.refresh_frame
  rw [h]
@[simp] theorem State.refresh_remembered (s : State) : s.refresh.remembered = s.remembered := by
  obtain ⟨_, _, _, h, _⟩ := s.refresh_frame
  rw [h]
@[simp] theorem State.refresh_earlyFailures (s : State) : s.refresh.earlyFailures = s.earlyFailures := by
  obtain ⟨_, _, _, h, _⟩ := s.refresh_frame
  rw [h]
@[simp] theorem State.refresh_markCopies (s : State) : s.refresh.markCopies = s.markCopies := by
  obtain ⟨_, _, _, h, _⟩ := s.refresh_frame
  rw [h]
@[simp] theorem State.refresh_failedBuckets (s : State) : s.refresh.failedBuckets = s.failedBuckets := by
  obtain ⟨_, _, _, h, _⟩ := s.refresh_frame
  rw [h]
@[simp] theorem State.refresh_regs (s : State) : s.refresh.regs = s.regs := by
  obtain ⟨_, _, _, h, _⟩ := s.refresh_frame
  rw [h]
@[simp] theorem State.refresh_ports (s : State) : s.refresh.ports = s.ports := by
  obtain ⟨_, _, _, h, _⟩ := s.refresh_frame
  rw [h]
@[simp] theorem State.refresh_commands (s : State) : s.refresh.commands = s.commands := by
  obtain ⟨_, _, _, h, _⟩ := s.refresh_frame
  rw [h]
@[simp] theorem State.refresh_reports (s : State) : s.refresh.reports = s.reports := by
  obtain ⟨_, _, _, h, _⟩ := s.refresh_frame
  rw [h]
@[simp] theorem State.refresh_extents (s : State) : s.refresh.extents = s.extents := by
  obtain ⟨_, _, _, h, _⟩ := s.refresh_frame
  rw [h]
@[simp] theorem State.refresh_invocations (s : State) : s.refresh.invocations = s.invocations := by
  obtain ⟨_, _, _, h, _⟩ := s.refresh_frame
  rw [h]
@[simp] theorem State.refresh_nextInvocation (s : State) : s.refresh.nextInvocation = s.nextInvocation := by
  obtain ⟨_, _, _, h, _⟩ := s.refresh_frame
  rw [h]
@[simp] theorem State.refresh_faults (s : State) : s.refresh.faults = s.faults := by
  obtain ⟨_, _, _, h, _⟩ := s.refresh_frame
  rw [h]
@[simp] theorem State.refresh_owedMarks (s : State) : s.refresh.owedMarks = s.owedMarks := by
  obtain ⟨_, _, _, h, _⟩ := s.refresh_frame
  rw [h]
@[simp] theorem State.refresh_invalidations (s : State) : s.refresh.invalidations = s.invalidations := by
  obtain ⟨_, _, _, h, _⟩ := s.refresh_frame
  rw [h]
@[simp] theorem State.refresh_engineWaits (s : State) : s.refresh.engineWaits = s.engineWaits := by
  obtain ⟨_, _, _, h, _⟩ := s.refresh_frame
  rw [h]
@[simp] theorem State.refresh_nextGroup (s : State) : s.refresh.nextGroup = s.nextGroup := by
  obtain ⟨_, _, _, h, _⟩ := s.refresh_frame
  rw [h]
@[simp] theorem State.refresh_priEnabled (s : State) : s.refresh.priEnabled = s.priEnabled := by
  obtain ⟨_, _, _, h, _⟩ := s.refresh_frame
  rw [h]
@[simp] theorem State.refresh_priAllocation (s : State) : s.refresh.priAllocation = s.priAllocation := by
  obtain ⟨_, _, _, h, _⟩ := s.refresh_frame
  rw [h]
@[simp] theorem State.refresh_teardowns (s : State) : s.refresh.teardowns = s.teardowns := by
  obtain ⟨_, _, _, h, _⟩ := s.refresh_frame
  rw [h]
@[simp] theorem State.refresh_downPasids (s : State) : s.refresh.downPasids = s.downPasids := by
  obtain ⟨_, _, _, h, _⟩ := s.refresh_frame
  rw [h]
@[simp] theorem State.refresh_migrations (s : State) : s.refresh.migrations = s.migrations := by
  obtain ⟨_, _, _, h, _⟩ := s.refresh_frame
  rw [h]
@[simp] theorem State.refresh_swaps (s : State) : s.refresh.swaps = s.swaps := by
  obtain ⟨_, _, _, h, _⟩ := s.refresh_frame
  rw [h]
@[simp] theorem State.refresh_jobs (s : State) : s.refresh.jobs = s.jobs := by
  obtain ⟨_, _, _, h, _⟩ := s.refresh_frame
  rw [h]
@[simp] theorem State.refresh_deviceRanges (s : State) : s.refresh.deviceRanges = s.deviceRanges := by
  obtain ⟨_, _, _, h, _⟩ := s.refresh_frame
  rw [h]
@[simp] theorem State.refresh_fill (s : State) : s.refresh.fill = s.fill := by
  obtain ⟨_, _, _, h, _⟩ := s.refresh_frame
  rw [h]
@[simp] theorem State.refresh_hostMem (s : State) : s.refresh.hostMem = s.hostMem := by
  obtain ⟨_, _, _, h, _⟩ := s.refresh_frame
  rw [h]
@[simp] theorem State.refresh_otherMem (s : State) : s.refresh.otherMem = s.otherMem := by
  obtain ⟨_, _, _, h, _⟩ := s.refresh_frame
  rw [h]
@[simp] theorem State.refresh_otherTags (s : State) : s.refresh.otherTags = s.otherTags := by
  obtain ⟨_, _, _, h, _⟩ := s.refresh_frame
  rw [h]
@[simp] theorem State.refresh_hostQueues (s : State) : s.refresh.hostQueues = s.hostQueues := by
  obtain ⟨_, _, _, h, _⟩ := s.refresh_frame
  rw [h]
@[simp] theorem State.refresh_hostSlots (s : State) : s.refresh.hostSlots = s.hostSlots := by
  obtain ⟨_, _, _, h, _⟩ := s.refresh_frame
  rw [h]
@[simp] theorem State.refresh_lastMapped (s : State) : s.refresh.lastMapped = s.lastMapped := by
  obtain ⟨_, _, _, h, _⟩ := s.refresh_frame
  rw [h]
@[simp] theorem State.refresh_journal (s : State) : s.refresh.journal = s.journal := by
  obtain ⟨_, _, _, h, _⟩ := s.refresh_frame
  rw [h]
@[simp] theorem State.refresh_devStatus (s : State) : s.refresh.devStatus = s.devStatus := by
  obtain ⟨_, _, _, h, _⟩ := s.refresh_frame
  rw [h]
@[simp] theorem State.refresh_flash (s : State) : s.refresh.flash = s.flash := by
  obtain ⟨_, _, _, h, _⟩ := s.refresh_frame
  rw [h]
@[simp] theorem State.refresh_mailbox (s : State) : s.refresh.mailbox = s.mailbox := by
  obtain ⟨_, _, _, h, _⟩ := s.refresh_frame
  rw [h]
@[simp] theorem State.refresh_firmware (s : State) : s.refresh.firmware = s.firmware := by
  obtain ⟨_, _, _, h, _⟩ := s.refresh_frame
  rw [h]
@[simp] theorem State.refresh_withies (s : State) : s.refresh.withies = s.withies := by
  obtain ⟨_, _, _, h, _⟩ := s.refresh_frame
  rw [h]
@[simp] theorem State.refresh_frames (s : State) : s.refresh.frames = s.frames := by
  obtain ⟨_, _, _, h, _⟩ := s.refresh_frame
  rw [h]
@[simp] theorem State.refresh_lastArbitration (s : State) : s.refresh.lastArbitration = s.lastArbitration := by
  obtain ⟨_, _, _, h, _⟩ := s.refresh_frame
  rw [h]
@[simp] theorem State.refresh_lastPhase (s : State) : s.refresh.lastPhase = s.lastPhase := by
  obtain ⟨_, _, _, h, _⟩ := s.refresh_frame
  rw [h]
@[simp] theorem State.refresh_sent (s : State) : s.refresh.sent = s.sent := by
  obtain ⟨_, _, _, h, _⟩ := s.refresh_frame
  rw [h]
@[simp] theorem State.refresh_spdm (s : State) : s.refresh.spdm = s.spdm := by
  obtain ⟨_, _, _, h, _⟩ := s.refresh_frame
  rw [h]

@[simp] theorem State.refresh_core (s : State) (c : Nat) : s.refresh.core c = s.core c := by rw [State.core, State.refresh_cores, State.core]
@[simp] theorem State.refresh_bank (s : State) (c b : Nat) : s.refresh.bank c b = s.bank c b := by rw [State.bank, State.refresh_core, State.bank]
@[simp] theorem State.refresh_cur (s : State) : s.refresh.cur = s.cur := by rw [State.cur, State.refresh_ctx, State.refresh_bank, State.cur]
@[simp] theorem State.refresh_cluster (s : State) (k : Nat) : s.refresh.cluster k = s.cluster k := by
  rw [State.cluster, State.refresh_clusters, State.cluster]
@[simp] theorem State.refresh_wq (s : State) (q : Nat) : s.refresh.wq q = s.wq q := by rw [State.wq, State.refresh_queues, State.wq]
/-- No byte of home memory or of the LPDDR-6 tier changes. -/
theorem State.refresh_die (s : State) (d : Nat) : ∃ l m, s.refresh.die d = { s.die d with stashRunning := l, stash := m } := by
  obtain ⟨_, _, _, h, g⟩ := s.refresh_frame
  rw [State.die, h]
  exact g d

/-! ## Completing an item -/

/-- The item of a bank is gone, and no other bank changes. -/
theorem State.completeItem_cores (s : State) (c b : Nat) :
    (s.completeItem c b).cores = (s.setBank c b { s.bank c b with item := none }).cores ∨ (s.completeItem c b = s ∧ (s.bank c b).item = none) := by
  unfold State.completeItem
  dsimp only
  split
  · next h => exact .inr ⟨rfl, h⟩
  · left
    split
    · rfl
    · split <;> split <;> rfl

@[simp] theorem State.completeItem_clk (s : State) (c b : Nat) : (s.completeItem c b).clk = s.clk := by
  unfold State.completeItem
  dsimp only
  split
  · rfl
  · split
    · rfl
    · split <;> split <;> rfl
@[simp] theorem State.completeItem_failed (s : State) (c b : Nat) : (s.completeItem c b).failed = s.failed := by
  unfold State.completeItem
  dsimp only
  split
  · rfl
  · split
    · rfl
    · split <;> split <;> rfl
@[simp] theorem State.completeItem_ctx (s : State) (c b : Nat) : (s.completeItem c b).ctx = s.ctx := by
  unfold State.completeItem
  dsimp only
  split
  · rfl
  · split
    · rfl
    · split <;> split <;> rfl
@[simp] theorem State.completeItem_script (s : State) (c b : Nat) : (s.completeItem c b).script = s.script := by
  unfold State.completeItem
  dsimp only
  split
  · rfl
  · split
    · rfl
    · split <;> split <;> rfl
@[simp] theorem State.completeItem_paced (s : State) (c b : Nat) : (s.completeItem c b).paced = s.paced := by
  unfold State.completeItem
  dsimp only
  split
  · rfl
  · split
    · rfl
    · split <;> split <;> rfl
@[simp] theorem State.completeItem_calendar (s : State) (c b : Nat) : (s.completeItem c b).calendar = s.calendar := by
  unfold State.completeItem
  dsimp only
  split
  · rfl
  · split
    · rfl
    · split <;> split <;> rfl
@[simp] theorem State.completeItem_draws (s : State) (c b : Nat) : (s.completeItem c b).draws = s.draws := by
  unfold State.completeItem
  dsimp only
  split
  · rfl
  · split
    · rfl
    · split <;> split <;> rfl
@[simp] theorem State.completeItem_clusters (s : State) (c b : Nat) : (s.completeItem c b).clusters = s.clusters := by
  unfold State.completeItem
  dsimp only
  split
  · rfl
  · split
    · rfl
    · split <;> split <;> rfl
@[simp] theorem State.completeItem_norms (s : State) (c b : Nat) : (s.completeItem c b).norms = s.norms := by
  unfold State.completeItem
  dsimp only
  split
  · rfl
  · split
    · rfl
    · split <;> split <;> rfl
@[simp] theorem State.completeItem_signal (s : State) (c b : Nat) : (s.completeItem c b).signal = s.signal := by
  unfold State.completeItem
  dsimp only
  split
  · rfl
  · split
    · rfl
    · split <;> split <;> rfl
@[simp] theorem State.completeItem_queues (s : State) (c b : Nat) : (s.completeItem c b).queues = s.queues := by
  unfold State.completeItem
  dsimp only
  split
  · rfl
  · split
    · rfl
    · split <;> split <;> rfl
@[simp] theorem State.completeItem_tensors (s : State) (c b : Nat) : (s.completeItem c b).tensors = s.tensors := by
  unfold State.completeItem
  dsimp only
  split
  · rfl
  · split
    · rfl
    · split <;> split <;> rfl
@[simp] theorem State.completeItem_buckets (s : State) (c b : Nat) : (s.completeItem c b).buckets = s.buckets := by
  unfold State.completeItem
  dsimp only
  split
  · rfl
  · split
    · rfl
    · split <;> split <;> rfl
@[simp] theorem State.completeItem_remembered (s : State) (c b : Nat) : (s.completeItem c b).remembered = s.remembered := by
  unfold State.completeItem
  dsimp only
  split
  · rfl
  · split
    · rfl
    · split <;> split <;> rfl
@[simp] theorem State.completeItem_earlyFailures (s : State) (c b : Nat) : (s.completeItem c b).earlyFailures = s.earlyFailures := by
  unfold State.completeItem
  dsimp only
  split
  · rfl
  · split
    · rfl
    · split <;> split <;> rfl
@[simp] theorem State.completeItem_markCopies (s : State) (c b : Nat) : (s.completeItem c b).markCopies = s.markCopies := by
  unfold State.completeItem
  dsimp only
  split
  · rfl
  · split
    · rfl
    · split <;> split <;> rfl
@[simp] theorem State.completeItem_failedBuckets (s : State) (c b : Nat) : (s.completeItem c b).failedBuckets = s.failedBuckets := by
  unfold State.completeItem
  dsimp only
  split
  · rfl
  · split
    · rfl
    · split <;> split <;> rfl
@[simp] theorem State.completeItem_regs (s : State) (c b : Nat) : (s.completeItem c b).regs = s.regs := by
  unfold State.completeItem
  dsimp only
  split
  · rfl
  · split
    · rfl
    · split <;> split <;> rfl
@[simp] theorem State.completeItem_ports (s : State) (c b : Nat) : (s.completeItem c b).ports = s.ports := by
  unfold State.completeItem
  dsimp only
  split
  · rfl
  · split
    · rfl
    · split <;> split <;> rfl
@[simp] theorem State.completeItem_commands (s : State) (c b : Nat) : (s.completeItem c b).commands = s.commands := by
  unfold State.completeItem
  dsimp only
  split
  · rfl
  · split
    · rfl
    · split <;> split <;> rfl
@[simp] theorem State.completeItem_nextEntry (s : State) (c b : Nat) : (s.completeItem c b).nextEntry = s.nextEntry := by
  unfold State.completeItem
  dsimp only
  split
  · rfl
  · split
    · rfl
    · split <;> split <;> rfl
@[simp] theorem State.completeItem_reports (s : State) (c b : Nat) : (s.completeItem c b).reports = s.reports := by
  unfold State.completeItem
  dsimp only
  split
  · rfl
  · split
    · rfl
    · split <;> split <;> rfl
@[simp] theorem State.completeItem_extents (s : State) (c b : Nat) : (s.completeItem c b).extents = s.extents := by
  unfold State.completeItem
  dsimp only
  split
  · rfl
  · split
    · rfl
    · split <;> split <;> rfl
@[simp] theorem State.completeItem_invocations (s : State) (c b : Nat) : (s.completeItem c b).invocations = s.invocations := by
  unfold State.completeItem
  dsimp only
  split
  · rfl
  · split
    · rfl
    · split <;> split <;> rfl
@[simp] theorem State.completeItem_nextInvocation (s : State) (c b : Nat) : (s.completeItem c b).nextInvocation = s.nextInvocation := by
  unfold State.completeItem
  dsimp only
  split
  · rfl
  · split
    · rfl
    · split <;> split <;> rfl
@[simp] theorem State.completeItem_faults (s : State) (c b : Nat) : (s.completeItem c b).faults = s.faults := by
  unfold State.completeItem
  dsimp only
  split
  · rfl
  · split
    · rfl
    · split <;> split <;> rfl
@[simp] theorem State.completeItem_owedMarks (s : State) (c b : Nat) : (s.completeItem c b).owedMarks = s.owedMarks := by
  unfold State.completeItem
  dsimp only
  split
  · rfl
  · split
    · rfl
    · split <;> split <;> rfl
@[simp] theorem State.completeItem_invalidations (s : State) (c b : Nat) : (s.completeItem c b).invalidations = s.invalidations := by
  unfold State.completeItem
  dsimp only
  split
  · rfl
  · split
    · rfl
    · split <;> split <;> rfl
@[simp] theorem State.completeItem_engineWaits (s : State) (c b : Nat) : (s.completeItem c b).engineWaits = s.engineWaits := by
  unfold State.completeItem
  dsimp only
  split
  · rfl
  · split
    · rfl
    · split <;> split <;> rfl
@[simp] theorem State.completeItem_nextGroup (s : State) (c b : Nat) : (s.completeItem c b).nextGroup = s.nextGroup := by
  unfold State.completeItem
  dsimp only
  split
  · rfl
  · split
    · rfl
    · split <;> split <;> rfl
@[simp] theorem State.completeItem_priEnabled (s : State) (c b : Nat) : (s.completeItem c b).priEnabled = s.priEnabled := by
  unfold State.completeItem
  dsimp only
  split
  · rfl
  · split
    · rfl
    · split <;> split <;> rfl
@[simp] theorem State.completeItem_priAllocation (s : State) (c b : Nat) : (s.completeItem c b).priAllocation = s.priAllocation := by
  unfold State.completeItem
  dsimp only
  split
  · rfl
  · split
    · rfl
    · split <;> split <;> rfl
@[simp] theorem State.completeItem_teardowns (s : State) (c b : Nat) : (s.completeItem c b).teardowns = s.teardowns := by
  unfold State.completeItem
  dsimp only
  split
  · rfl
  · split
    · rfl
    · split <;> split <;> rfl
@[simp] theorem State.completeItem_downPasids (s : State) (c b : Nat) : (s.completeItem c b).downPasids = s.downPasids := by
  unfold State.completeItem
  dsimp only
  split
  · rfl
  · split
    · rfl
    · split <;> split <;> rfl
@[simp] theorem State.completeItem_migrations (s : State) (c b : Nat) : (s.completeItem c b).migrations = s.migrations := by
  unfold State.completeItem
  dsimp only
  split
  · rfl
  · split
    · rfl
    · split <;> split <;> rfl
@[simp] theorem State.completeItem_swaps (s : State) (c b : Nat) : (s.completeItem c b).swaps = s.swaps := by
  unfold State.completeItem
  dsimp only
  split
  · rfl
  · split
    · rfl
    · split <;> split <;> rfl
@[simp] theorem State.completeItem_jobs (s : State) (c b : Nat) : (s.completeItem c b).jobs = s.jobs := by
  unfold State.completeItem
  dsimp only
  split
  · rfl
  · split
    · rfl
    · split <;> split <;> rfl
@[simp] theorem State.completeItem_deviceRanges (s : State) (c b : Nat) : (s.completeItem c b).deviceRanges = s.deviceRanges := by
  unfold State.completeItem
  dsimp only
  split
  · rfl
  · split
    · rfl
    · split <;> split <;> rfl
@[simp] theorem State.completeItem_fill (s : State) (c b : Nat) : (s.completeItem c b).fill = s.fill := by
  unfold State.completeItem
  dsimp only
  split
  · rfl
  · split
    · rfl
    · split <;> split <;> rfl
@[simp] theorem State.completeItem_hostMem (s : State) (c b : Nat) : (s.completeItem c b).hostMem = s.hostMem := by
  unfold State.completeItem
  dsimp only
  split
  · rfl
  · split
    · rfl
    · split <;> split <;> rfl
@[simp] theorem State.completeItem_otherMem (s : State) (c b : Nat) : (s.completeItem c b).otherMem = s.otherMem := by
  unfold State.completeItem
  dsimp only
  split
  · rfl
  · split
    · rfl
    · split <;> split <;> rfl
@[simp] theorem State.completeItem_otherTags (s : State) (c b : Nat) : (s.completeItem c b).otherTags = s.otherTags := by
  unfold State.completeItem
  dsimp only
  split
  · rfl
  · split
    · rfl
    · split <;> split <;> rfl
@[simp] theorem State.completeItem_hostQueues (s : State) (c b : Nat) : (s.completeItem c b).hostQueues = s.hostQueues := by
  unfold State.completeItem
  dsimp only
  split
  · rfl
  · split
    · rfl
    · split <;> split <;> rfl
@[simp] theorem State.completeItem_hostSlots (s : State) (c b : Nat) : (s.completeItem c b).hostSlots = s.hostSlots := by
  unfold State.completeItem
  dsimp only
  split
  · rfl
  · split
    · rfl
    · split <;> split <;> rfl
@[simp] theorem State.completeItem_lastMapped (s : State) (c b : Nat) : (s.completeItem c b).lastMapped = s.lastMapped := by
  unfold State.completeItem
  dsimp only
  split
  · rfl
  · split
    · rfl
    · split <;> split <;> rfl
@[simp] theorem State.completeItem_journal (s : State) (c b : Nat) : (s.completeItem c b).journal = s.journal := by
  unfold State.completeItem
  dsimp only
  split
  · rfl
  · split
    · rfl
    · split <;> split <;> rfl
@[simp] theorem State.completeItem_devStatus (s : State) (c b : Nat) : (s.completeItem c b).devStatus = s.devStatus := by
  unfold State.completeItem
  dsimp only
  split
  · rfl
  · split
    · rfl
    · split <;> split <;> rfl
@[simp] theorem State.completeItem_flash (s : State) (c b : Nat) : (s.completeItem c b).flash = s.flash := by
  unfold State.completeItem
  dsimp only
  split
  · rfl
  · split
    · rfl
    · split <;> split <;> rfl
@[simp] theorem State.completeItem_mailbox (s : State) (c b : Nat) : (s.completeItem c b).mailbox = s.mailbox := by
  unfold State.completeItem
  dsimp only
  split
  · rfl
  · split
    · rfl
    · split <;> split <;> rfl
@[simp] theorem State.completeItem_firmware (s : State) (c b : Nat) : (s.completeItem c b).firmware = s.firmware := by
  unfold State.completeItem
  dsimp only
  split
  · rfl
  · split
    · rfl
    · split <;> split <;> rfl
@[simp] theorem State.completeItem_withies (s : State) (c b : Nat) : (s.completeItem c b).withies = s.withies := by
  unfold State.completeItem
  dsimp only
  split
  · rfl
  · split
    · rfl
    · split <;> split <;> rfl
@[simp] theorem State.completeItem_frames (s : State) (c b : Nat) : (s.completeItem c b).frames = s.frames := by
  unfold State.completeItem
  dsimp only
  split
  · rfl
  · split
    · rfl
    · split <;> split <;> rfl
@[simp] theorem State.completeItem_lastArbitration (s : State) (c b : Nat) : (s.completeItem c b).lastArbitration = s.lastArbitration := by
  unfold State.completeItem
  dsimp only
  split
  · rfl
  · split
    · rfl
    · split <;> split <;> rfl
@[simp] theorem State.completeItem_lastPhase (s : State) (c b : Nat) : (s.completeItem c b).lastPhase = s.lastPhase := by
  unfold State.completeItem
  dsimp only
  split
  · rfl
  · split
    · rfl
    · split <;> split <;> rfl
@[simp] theorem State.completeItem_sent (s : State) (c b : Nat) : (s.completeItem c b).sent = s.sent := by
  unfold State.completeItem
  dsimp only
  split
  · rfl
  · split
    · rfl
    · split <;> split <;> rfl
@[simp] theorem State.completeItem_spdm (s : State) (c b : Nat) : (s.completeItem c b).spdm = s.spdm := by
  unfold State.completeItem
  dsimp only
  split
  · rfl
  · split
    · rfl
    · split <;> split <;> rfl

/-- The bank without its item; every other field of the bank as it was. -/
theorem State.completeItem_bank (s : State) (c b : Nat) : (s.completeItem c b).bank c b = { s.bank c b with item := none } := by
  rcases s.completeItem_cores c b with h | ⟨h, g⟩
  · rw [State.bank, State.core, h]
    exact State.bank_setBank s c b _
  · rw [h, ← g]

/-- Every other bank is left alone. -/
theorem State.completeItem_bank_ne (s : State) {c b d e : Nat} (h : d ≠ c ∨ (e = 0 ↔ b ≠ 0)) :
    (s.completeItem c b).bank d e = s.bank d e := by
  rcases s.completeItem_cores c b with g | ⟨g, _⟩
  · rw [State.bank, State.core, g]
    exact State.bank_setBank_ne s h _
  · rw [g]

end Sys2Proof.Machine
end

