-- ==== Sys2Proof/Tests/Slice0.lean ====
section
/-! SUPPORT. The tests: words written out from the encoding tables, ill-formed terms refused, and for each statement with hypotheses states
and operands that meet them, for each of its clauses. -/

set_option maxRecDepth 20000
set_option Elab.async false
set_option linter.unusedVariables false

namespace Sys2Proof.Tests

open Sys2Proof Sys2Proof.Machine

/-! ## Decoding: words assembled by hand from the tables of R41 to R59 -/

/-- The word decodes to the instruction, with STOP clear and set, and is the instruction's word. -/
def readsAs (e : Slot × Instr) : Bool :=
  (match decodeSlot e.1 with | .ok i => i == e.2 | .error _ => false)
    && (match decodeSlot (e.1 ||| 0x80000000) with | .ok i => i == e.2 | .error _ => false)
    && (encode e.2 == some (e.1 &&& 0x7FFFFFFF))

/-- The word is no instruction, for this reason. -/
def rejectedAs (e : Slot × DecodeError) : Bool := match decodeSlot e.1 with | .ok _ => false | .error r => r == e.2

theorem test_decode_prefix :
   ([(0x00330010, .pfx 1 1 3 0x0010), (0x58000003, .ext 3)] : List (Slot × Instr)).all readsAs = true := by
  decide +kernel

theorem test_decode_scalar_1 :
   ([(0x0800D1AA, .add 3 17 42 1), (0x0810D1AA, .sub 3 17 42 1), (0x0830D1AA, .addsh 3 17 42 1), (0x0840D1AA, .mul 3 17 42 1),
     (0x0850D1AA, .mulh 3 17 42 1), (0x0860D1AA, .div 3 17 42 1), (0x0870D1AA, .divu 3 17 42 1), (0x0880D1AA, .rem 3 17 42 1),
     (0x08D0D1AA, .shl 3 17 42 1), (0x08E0D1AA, .shr 3 17 42 1), (0x08F0D1AA, .sar 3 17 42 1), (0x0970D1AA, .min 3 17 42 1),
     (0x0980D1AA, .max 3 17 42 1), (0x0990D1AA, .minu 3 17 42 1), (0x09A0D1AA, .maxu 3 17 42 1), (0x09B0D1AA, .seq 3 17 42 1),
     (0x09C0D1AA, .sne 3 17 42 1), (0x09D0D1AA, .slt 3 17 42 1), (0x09E0D1AA, .sltu 3 17 42 1), (0x09F0D1AA, .sle 3 17 42 1),
     (0x0A00D1AA, .sleu 3 17 42 1), (0x08926118, .and 9 33 6), (0x08A26118, .or 9 33 6), (0x08B26118, .xor 9 33 6)] : List (Slot × Instr)).all readsAs = true := by
  decide +kernel

theorem test_decode_scalar_2 :
   ([(0x08C26118, .andn 9 33 6), (0x09526118, .bext 9 33 6), (0x09626118, .bins 9 33 6), (0x0A126118, .sel 9 33 6),
     (0x0A426118, .fadd 9 33 6), (0x0A526118, .fsub 9 33 6), (0x0A626118, .fmul 9 33 6), (0x0A726118, .ffma 9 33 6),
     (0x0A826118, .fdiv 9 33 6), (0x0AA26118, .fmin 9 33 6), (0x0AB26118, .fmax 9 33 6), (0x0AC26118, .feq 9 33 6),
     (0x0AD26118, .flt 9 33 6), (0x0AE26118, .fle 9 33 6), (0x09321502, .clz 8 21 1), (0x09421502, .popc 8 21 1),
     (0x0AF21502, .fcvti 8 21 1), (0x0B021502, .fcvtf 8 21 1), (0x0A921500, .fsqrt 8 21), (0x09016833, .shli 5 40 51),
     (0x09116833, .shri 5 40 51), (0x09216833, .sari 5 40 51), (0x082146E8, .addi 5 6 0xE8), (0x0A21C12C, .movi 7 300)] : List (Slot × Instr)).all readsAs = true := by
  decide +kernel

theorem test_decode_scalar_3 :
   ([(0x0A31E005, .movhi 7 0x2005)] : List (Slot × Instr)).all readsAs = true := by
  decide +kernel

theorem test_decode_branch :
   ([(0x10267FFE, .brz 1 12 0x7FFE), (0x10667FFE, .brnz 1 12 0x7FFE), (0x10B24001, .brkt 1 9 0x4001), (0x10F24001, .brkf 1 9 0x4001),
     (0x11100003, .jmp 0x100003), (0x114F8000, .jmpi 31), (0x11810005, .call 2 5), (0x11C10000, .ret 2), (0x12059002, .loop 11 0x1002),
     (0x12602003, .loopi 0x101 3), (0x12964C00, .lset 5 2 19), (0x12C9C000, .lidx 19 4), (0x130C0000, .lbrk 3),
     (0x13412345, .waitc 0x12345), (0x1380BEEF, .trap 0xBEEF), (0x13C00000, .halt)] : List (Slot × Instr)).all readsAs = true := by
  decide +kernel

theorem test_decode_vector_1 :
   ([(0x18007FC0, .vadd 1 127 64), (0x18207FC0, .vsub 1 127 64), (0x18407FC0, .vmul 1 127 64), (0x18607FC0, .vfma 1 127 64),
     (0x18807FC0, .vfms 1 127 64), (0x18A07FC0, .vmin 1 127 64), (0x18C07FC0, .vmax 1 127 64), (0x19A07FC0, .vsel 1 127 64),
     (0x19C07FC0, .vand 1 127 64), (0x19E07FC0, .vor 1 127 64), (0x1A007FC0, .vxor 1 127 64), (0x1A207FC0, .viadd 1 127 64),
     (0x1A407FC0, .visub 1 127 64), (0x1A607FC0, .vimul 1 127 64), (0x1A807FC0, .vimin 1 127 64), (0x1AA07FC0, .vimax 1 127 64),
     (0x1AC07FC0, .vshl 1 127 64), (0x1AE07FC0, .vshr 1 127 64), (0x1B007FC0, .vsar 1 127 64), (0x1CC07FC0, .vperm 1 127 64),
     (0x18F08280, .vabs 66 5), (0x19108280, .vneg 66 5), (0x1B308280, .vrcp 66 5), (0x1B508280, .vrsq 66 5)] : List (Slot × Instr)).all readsAs = true := by
  decide +kernel

theorem test_decode_vector_2 :
   ([(0x1B708280, .vsqrt 66 5), (0x1B908280, .vexp2 66 5), (0x1BB08280, .vlog2 66 5), (0x1BD08280, .vtanh 66 5),
     (0x1BF08280, .vsigm 66 5), (0x1D108280, .vmov 66 5), (0x192381DA, .veq 14 3 90), (0x194381DA, .vne 14 3 90),
     (0x196381DA, .vlt 14 3 90), (0x198381DA, .vle 14 3 90), (0x1C0B3200, .vrsum 44 100), (0x1C2B3200, .vrmax 44 100),
     (0x1C4B3200, .vramax 44 100), (0x1C791600, .vbcast 100 44), (0x1C85321E, .vextr 20 100 30), (0x1CB90A1E, .vins 100 20 30),
     (0x1CF9209E, .vslide 100 65 30), (0x1D334000, .viota 77), (0x1D534180, .vrand 77 3), (0x1D60410F, .kand 1 2 15),
     (0x1D80410F, .kor 1 2 15), (0x1DA0410F, .kxor 1 2 15), (0x1DC04780, .knot 1 15), (0x1DEC8780, .kpop 50 15)] : List (Slot × Instr)).all readsAs = true := by
  decide +kernel

theorem test_decode_conversion :
   ([(0x20004002, .vcvtn 0 1 0 0 2), (0x20606310, .vcvtn 3 1 70 1 0), (0x20C06321, .vcvtns 2 1 70 33), (0x21012300, .vcvtw 4 70),
     (0x21212301, .vcvti 4 70 1), (0x21412301, .vcvtf 4 70 1), (0x216A2307, .vqscaleE4m3 40 70 0 7), (0x2276B190, .ttrdcE4m3 90 1 35 1 0),
     (0x218A2307, .vqscaleE5m2 40 70 0 7), (0x2296B190, .ttrdcE5m2 90 1 35 1 0), (0x21AA2307, .vqscaleBf16 40 70 0 7),
     (0x22B6B190, .ttrdcBf16 90 1 35 1 0), (0x21CA2307, .vqscaleInt8 40 70 0 7), (0x22D6B190, .ttrdcInt8 90 1 35 1 0),
     (0x21EA2300, .vside 40 70), (0x22118028, .vsidew 70 40), (0x22206328, .ttwr 1 70 40), (0x2256B180, .ttrdc 90 1 35),
     (0x22E04000, .ttclr 1), (0x23006300, .fpusha 1 70), (0x23202300, .fpushb 0 70)] : List (Slot × Instr)).all readsAs = true := by
  decide +kernel

theorem test_decode_matrix :
   ([(0x28008400, .mcfg0 33), (0x28400000, .mdrain0), (0x28800080, .mldb0 1), (0x28CFC280, .mma0 15 48 1 0 1), (0x293F0000, .mzero0 63 0),
     (0x295F0000, .mskipa0 31), (0x29808400, .mstat0 33), (0x30008400, .mcfg1 33), (0x30400000, .mdrain1), (0x30800080, .mldb1 1),
     (0x30CFC280, .mma1 15 48 1 0 1), (0x313F0000, .mzero1 63 0), (0x315F0000, .mskipa1 31), (0x31808400, .mstat1 33)] : List (Slot × Instr)).all readsAs = true := by
  decide +kernel

theorem test_decode_load :
   ([(0x38C1C902, .lds 6 7 9 2), (0x391909FF, .ldsv 100 9 0xFF), (0x39254903, .ldsk 1 5 9 3), (0x39590903, .ldsx 100 9 3),
     (0x3AE20903, .ldc 7 8 9 3), (0x3B190903, .ldcv 100 9 3), (0x3C6FC903, .ldg 3 63 9 3), (0x3D190903, .ldgv 100 9 3),
     (0x3D390903, .ldgx 100 9 3), (0x3D400903, .pref 9 3)] : List (Slot × Instr)).all readsAs = true := by
  decide +kernel

theorem test_decode_store :
   ([(0x4061C902, .sts 3 7 9 2), (0x411909FF, .stsv 100 9 0xFF), (0x41254903, .stsk 1 5 9 3), (0x41590903, .stsx 100 9 3),
     (0x42820903, .stc 4 8 9 3), (0x43190903, .stcv 100 9 3), (0x442FC903, .stg 1 63 9 3), (0x45190903, .stgv 100 9 3),
     (0x453909C8, .stgn 100 9 200), (0x45590903, .stgx 100 9 3)] : List (Slot × Instr)).all readsAs = true := by
  decide +kernel

theorem test_decode_asynchronous :
   ([(0x48048006, .cpy 9 1 2), (0x48248003, .gath 9 0 3), (0x4844950D, .stash 9 10 33 5), (0x48649508, .sfetch 9 10 33),
     (0x48849400, .sprobe 9 10), (0x48A01400, .sfree 10), (0x48C49432, .chsend 9 10 50), (0x48E48032, .chpost 9 50),
     (0x49001432, .chack 10 50), (0x49248108, .coll 9 33), (0x49449400, .shopen 9 10), (0x49648003, .publish 9 3),
     (0x49801402, .ckpt 10 2), (0x49A01400, .replay 10), (0x49C48000, .split 9), (0x49E48002, .wpwait 9 2), (0x4A05014D, .nrmrd 10 1 77),
     (0x4A20004D, .nrmclr 77), (0x4A44804D, .nrmset 9 77)] : List (Slot × Instr)).all readsAs = true := by
  decide +kernel

theorem test_decode_queue :
   ([(0x500A0021, .deq 5 33), (0x502A0021, .deqt 5 33), (0x504A0021, .enq 5 33), (0x50600021, .qclose 33), (0x50848021, .binit 9 33),
     (0x50A00021, .barr 33), (0x50C48021, .bexp 9 33), (0x50E48061, .bwait 9 1 33), (0x51048021, .bpoll 9 33), (0x51200013, .fence 2 3),
     (0x51400000, .qalign), (0x51C49595, .amo 2 9 10 1 4 1 5), (0x52000000, .phadv)] : List (Slot × Instr)).all readsAs = true := by
  decide +kernel

theorem test_decode_system :
   ([(0x60048305, .csrr 9 0x305), (0x60248305, .csrw 9 0x305), (0x60448305, .csrs 9 0x305), (0x60648305, .csrc 9 0x305),
     (0x60800000, .tret), (0x60A00000, .ctxsw), (0x60C48000, .swpout 9), (0x60E48000, .swpin 9), (0x61049407, .seedld 9 10 7),
     (0x61249403, .genld 9 10 3), (0x61407001, .svc 0x7001), (0x61649400, .extinv 9 10), (0x61848000, .migr 9),
     (0x61A48000, .balloonAddb 9), (0x61A48001, .balloonAddt 9), (0x61A48002, .balloonDeflate 9), (0x61A48003, .balloonClrb 9),
     (0x61A48004, .balloonClrt 9), (0x61C00000, .idle)] : List (Slot × Instr)).all readsAs = true := by
  decide +kernel

theorem test_decode_rejects :
    ([(0xF0000000, .illegalClass), (0x68000000, .illegalClass), (0x0B100000, .illegalOp), (0x14000000, .illegalOp),
      (0x1E000000, .illegalOp), (0x23400000, .illegalOp), (0x29C00000, .illegalOp), (0x39600000, .illegalOp),
      (0x40A00000, .illegalOp), (0x4A600000, .illegalOp), (0x51600000, .illegalOp), (0x61E00000, .illegalOp),
      (0x0930420C, .reservedField), (0x0890420E, .reservedField), (0x09014640, .reservedField), (0x11200000, .reservedField),
      (0x1C100000, .reservedField), (0x20004012, .reservedField), (0x28410000, .reservedField), (0x38E1C902, .reservedField),
      (0x48449407, .reservedField), (0x51200003, .reservedField), (0x50008021, .reservedField), (0x61A48005, .reservedField),
      (0x00A00000, .reservedField)] : List (Slot × DecodeError)).all rejectedAs = true := by
  decide +kernel

/-! ## Well-formedness: one ill-formed term for each check, beside a well-formed one at its edge -/

theorem test_wf_rounding_mode : (Instr.pfx 5 1 3 0).wf = false ∧ (Instr.pfx 4 1 3 0).wf = true := by decide

theorem test_wf_loop_level : (Instr.lset 6 2 19).wf = false ∧ (Instr.lset 5 2 19).wf = true := by decide

theorem test_wf_loop_index_level : (Instr.lidx 3 6).wf = false ∧ (Instr.lidx 3 5).wf = true := by decide

theorem test_wf_loop_break_level : (Instr.lbrk 6).wf = false ∧ (Instr.lbrk 5).wf = true := by decide

theorem test_wf_carding : (Instr.vcvtn 0 1 0 1 2).wf = false ∧ (Instr.vcvtn 0 1 0 1 0).wf = true := by decide

theorem test_wf_quantised_carding : (Instr.vqscaleInt8 40 70 1 7).wf = false ∧ (Instr.vqscaleInt8 40 70 0 7).wf = true := by decide

theorem test_wf_tile_carding : (Instr.ttrdcE4m3 90 1 35 1 3).wf = false ∧ (Instr.ttrdcE4m3 90 1 35 1 0).wf = true := by decide

theorem test_wf_accumulator_rows : (Instr.mma0 16 48 1 0 1).wf = false ∧ (Instr.mma0 15 48 1 0 1).wf = true := by decide

theorem test_wf_zeroed_rows : (Instr.mzero1 63 1).wf = false ∧ (Instr.mzero1 63 0).wf = true := by decide

theorem test_wf_load_pair : (Instr.lds 7 9 9 2).wf = false ∧ (Instr.lds 7 8 9 2).wf = true := by decide

theorem test_wf_store_size : (Instr.sts 5 8 9 2).wf = false ∧ (Instr.sts 4 8 9 2).wf = true := by decide

theorem test_wf_store_pair : (Instr.stc 4 9 9 2).wf = false ∧ (Instr.stc 4 8 9 2).wf = true := by decide

theorem test_wf_stash_mode : (Instr.stash 9 10 33 7).wf = false ∧ (Instr.stash 9 10 33 6).wf = true := by decide

theorem test_wf_publish_scope : (Instr.publish 9 6).wf = false ∧ (Instr.publish 9 5).wf = true := by decide

theorem test_wf_checkpoint_scope : (Instr.ckpt 10 4).wf = false ∧ (Instr.ckpt 10 3).wf = true := by decide

theorem test_wf_norm_pair : (Instr.nrmrd 9 1 77).wf = false ∧ (Instr.nrmrd 10 1 77).wf = true := by decide

theorem test_wf_queue_group : (Instr.deq 0 33).wf = false ∧ (Instr.deq 1 33).wf = true := by decide

theorem test_wf_fence_order : (Instr.fence 0 3).wf = false ∧ (Instr.fence 1 3).wf = true := by decide

theorem test_wf_fence_scope : (Instr.fence 1 6).wf = false ∧ (Instr.fence 1 5).wf = true := by decide

theorem test_wf_amo_operation : (Instr.amo 2 9 10 1 4 0 11).wf = false ∧ (Instr.amo 2 9 10 1 4 0 10).wf = true := by decide

theorem test_wf_amo_size : (Instr.amo 2 9 10 1 4 1 10).wf = false ∧ (Instr.amo 2 9 10 1 4 0 10).wf = true := by decide

theorem test_wf_amo_pair : (Instr.amo 2 9 10 1 4 1 9).wf = false ∧ (Instr.amo 2 10 10 1 4 1 9).wf = true := by decide

theorem test_wf_amo_scope : (Instr.amo 2 9 10 1 6 1 5).wf = false ∧ (Instr.amo 2 9 10 1 5 1 5).wf = true := by decide

/-! ## States and operands that meet the hypotheses of the statements -/

def lay (m : List Host.Cell) (a : Nat) (l : List (BitVec 8)) : List Host.Cell := (m.takeWhile fun c => c.1 < a) ++ ((l.zipIdx.map fun c => (a + c.2, c.1)).filter fun c => c.2 ≠ 0) ++ m.dropWhile fun c => c.1 < a + l.length
def tk : Task := ⟨2, 0, 5, 0, 9, 1, 4⟩
def w0 : Slot := 0x88000000
def codeSt (n : Nat) : State := { State.reset with slots := [(2, { loaded := true, code := List.replicate n w0, segments := [(0, 4*n)] })] }
def bb : Bank := { state := .runnable, task := some tk, sregs := [(1, 5), (2, 0xFFFFFFFFFFFFFFF9), (5, 0x40490FDB), (6, 0xC0000000), (63, 0x80000000)] }
def stOf (k : Bank) : State := { ((codeSt 64).setBank 3 1 k) with ctx := { core := 3, bank := 1, pos := 2, addr := 8, len := 12 }, clk := 77 }
def ss : State := stOf bb
def r32 (seed : Nat) : Row := rowOf 32 ((List.range 128).map fun i => [0x3F800000, 0xC0490FDB, 0, 0x7F800000, 0xFF800000, 0x7FC00000, 0x80000000, 0x00000001, 0x40000000, 0xBFC00000, 0x7F7FFFFF, 0x42280000].getD ((i * 5 + seed) % 12) 0 + (if i % 7 = 3 then i * 65537 else 0))
def rN (seed : Nat) : Row := rowOf 32 ((List.range 128).map fun i => [0x3F800000, 0xC0490FDB, 0, 0x80000000, 0x40000000, 0xBFC00000, 0x42280000].getD ((i * 5 + seed) % 7) 0)
def ones256 : Mask := BitVec.allOnes 256
def sideV (fmt scale tag : Nat) : SReg := BitVec.ofNat 64 (2^63 + fmt * 2^48 + tag * 2^32 + scale)
def vb : Bank := { bb with kregs := [(1, ones256), (2, 0), (3, 0x5A5A), (4, BitVec.ofNat 256 (2^200 - 2^64 + 7))], vregs := [(1, r32 1), (2, r32 2), (3, r32 5), (4, rN 1), (5, rN 2), (65, r32 1), (66, rN 3)], sides := [(3, sideV 2 0x3F800000 0), (5, sideV 1 0x3F800000 0x8123), (6, sideV 4 0x3F800000 0)], seeds := [(2, ⟨0x123, 0x1234567⟩), (3, ⟨0, 0x77⟩)], gens := [(1, ⟨5, 6⟩)], tiles := [(0, r32 0), (1, r32 4), (130, r32 3)], sregs := bb.sregs ++ [(7, 3), (8, 0xFFFFFFFFFFFFFFFB), (9, 0x113F000000), (10, sideV 2 9 0x8055), (11, 127)] }
def vs : State := stOf vb
def vs256 : State := stOf { vb with eng0 := { mcfg := 0x4440 } }
def padM : List Host.Cell := lay [] 0 ((List.range 4).map fun i => BitVec.ofNat 8 (i * 37 + 200))
def sparseB : List (BitVec 8) := natBytes 64 (3 + 2^16*2 + 2^22 + 2^64 * (5 + 2^127) + 256^24 * 0x3F2E1D)
def ps (k : Bank) : State := let s := stOf k; s.setCore 3 { s.core 3 with pad := lay padM 768 sparseB }
def hdrN (addr cap len fmt point form : Nat) (rot : Nat := 0) (rows rowLen pitch scales cksum : Nat := 0) (tag kind norm flags : Nat := 0) : Nat :=
  addr + 256^8 * cap + 256^12 * len + 256^16 * fmt + 256^17 * (point + 4 * form) + 256^18 * rot + 256^20 * rows + 256^24 * rowLen + 256^28 * pitch + 256^32 * scales + 256^40 * cksum + 256^48 * tag + 256^50 * kind + 256^51 * norm + 256^52 * flags
def blkN (kind flags dspace sspace bar : Nat) (src dst len rows : Nat) (spitch dpitch aux link : Nat := 0) (param : Nat := 0) : Nat :=
  kind + 256 * flags + 256^2 * dspace + 256^3 * sspace + 256^4 * bar + 256^6 * param + 256^8 * src + 256^16 * dst + 256^24 * len + 256^28 * rows + 256^32 * spitch + 256^36 * dpitch + 256^40 * aux + 256^48 * link
def xt1 : List Extent := [{ vbase := 0x10000, units := 16, w := true, u := true, pbase := 0x400000 }, { vbase := 0x200000, units := 1, w := false, u := true, pbase := 0x600000 }, { vbase := 0x300000, units := 4, w := true, u := true, p := false, fine := true }]
def qe (i : Instr) (addr : Nat := 0) (ops : List SReg := []) : QEntry := { ins := i, bundle := 8, pos := 1, clk := 40, addr, ops }
def evOf (k : Bank) : State := { (stOf k) with extents := [(4, xt1)], stages := [(5, { configured := true, nq := 2, cores := [3], bank := 1 })] }
def padC : List Host.Cell := lay [] 0 ((List.range 4).map fun i => BitVec.ofNat 8 (i * 91 + 129))
def homeM : List Host.Cell := lay [] 0x400000 ((List.range 4).map fun i => BitVec.ofNat 8 (i * 53 + 140))
def memd (s : State) : State := let t := s.setDie 0 { s.die 0 with home := homeM }; t.setCluster 0 { t.cluster 0 with cmem := padC }

namespace WTrapEntry
def kt : Bank := { vb with tvec := 0x1001, priv := false, loops := [⟨1,2,3,4⟩] }
theorem witness_TrapEntry :
    (let s : State := stOf kt
     let cause : Nat := 1
     let pos : Nat := 7
     let k := s.cur
     (s.failed = false) ∧
     ((cause = 1 ∨ cause = 2 ∨ cause = 4)) ∧
     (pos < 8) ∧
     (s.examines) ∧
     (k.inTrap = false) ∧
     (k.tvec.getLsbD 0 = true))
    ∧ (let s : State := stOf {kt with inTrap := true}
       let k := s.cur
       (k.inTrap = true ∨ k.tvec.getLsbD 0 = false)) := by
  refine ⟨?_, ?_⟩ <;> decide +kernel
end WTrapEntry

namespace WIssueTrapsAndHolds
def kc : Bank := { vb with sEmpty := 0x20E, sregs := [(4, 4096), (5, 2^48), (6, 31), (7, 0x7FFFFF), (8, 0x800000), (10,0x7FFE00)], sides := [(1, sideV 2 0x3F800000 0)] }
def kv : Bank := { vb with eng0 := {mcfg := 0x4440} }
def st (x : BitVec 16) : State := { stOf kc with ctx.strict := x }
theorem witness_IssueTrapsAndHolds_1 :
    (let s : State := stOf kc
     let opa : BitVec 6 := 4
     let opb : BitVec 6 := 5
     let csr : BitVec 12 := 3
     (s.examines) ∧
     (s.full [.s opa.toNat, .s opb.toNat]) ∧
     (s.cur.priv = false) ∧
     let a := (s.cur.s opa.toNat).toNat
     let b := (s.cur.s opb.toNat).toNat
     (csrKnown csr.toNat = true) ∧
     (a % 4096 = 0) ∧
     (b % 4096 = 0) ∧
     (0 < b) ∧
     (b ≤ 2 ^ 48))
    ∧ (let s : State := let s := st 0x20; s.setCore 3 { s.core 3 with powerUntil := 90 }
       let rd : BitVec 6 := 4
       let ra : BitVec 6 := 1
       let rb : BitVec 6 := 5
       (s.examines) ∧
       let strictA := s.ctx.strict.getLsbD (2 * s.ctx.pos)
       let strictB := s.ctx.strict.getLsbD (2 * s.ctx.pos + 1)
       let ea := s.cur.isEmpty (.s ra.toNat)
       let eb := s.cur.isEmpty (.s rb.toNat)
       let ed := s.cur.isEmpty (.s rd.toNat)
       (¬ ((strictA = true ∧ ea = true) ∨ (strictB = true ∧ eb = true))) ∧
       (ea = true ∨ eb = true ∨ ed = true) ∧
       (s.clk < s.curCore.powerUntil))
    ∧ (let s : State := stOf kv
       let rd : BitVec 7 := 1
       let ra : BitVec 7 := 2
       let rb : BitVec 7 := 65
       (s.examines) ∧
       (s.full [.v rd.toNat, .v ra.toNat, .v rb.toNat]) ∧
       (¬ s.oneView [rd.toNat, ra.toNat, rb.toNat]))
    ∧ (let s : State := st 0x10
       let ra : BitVec 6 := 1
       let rb : BitVec 6 := 5
       (s.examines) ∧
       let strictA := s.ctx.strict.getLsbD (2 * s.ctx.pos)
       let strictB := s.ctx.strict.getLsbD (2 * s.ctx.pos + 1)
       let ea := s.cur.isEmpty (.s ra.toNat)
       let eb := s.cur.isEmpty (.s rb.toNat)
       ((strictA = true ∧ ea = true) ∨ (strictB = true ∧ eb = true))) := by
  refine ⟨?_, ?_, ?_, ?_⟩ <;> decide +kernel
theorem witness_IssueTrapsAndHolds_2 :
    (let s : State := stOf kc
     let opa : BitVec 6 := 6
     let opb : BitVec 6 := 5
     (s.examines) ∧
     (s.full [.s opa.toNat, .s opb.toNat]) ∧
     (s.cur.priv = false) ∧
     let a := (s.cur.s opa.toNat).toNat
     (a < 32))
    ∧ (let s : State := stOf kc
       let rd : BitVec 7 := 9
       let ra : BitVec 7 := 1
       let sd : BitVec 6 := 0
       let sb : BitVec 6 := 4
       (s.examines) ∧
       (s.full [.v rd.toNat, .v ra.toNat, .s sd.toNat, .s sb.toNat]) ∧
       ((s.cur.side ra.toNat).getLsbD 63 = true))
    ∧ (let s : State := stOf kc
       let size : BitVec 3 := 0
       let rd : BitVec 6 := 4
       let base : BitVec 6 := 8
       let vd : BitVec 7 := 2
       let off : BitVec 8 := 0
       (s.examines) ∧
       (s.full [.s rd.toNat, .s (rd.toNat + 1), .s base.toNat, .v vd.toNat]) ∧
       (immFits (.ldsv vd base off) s.ctx.ext = true) ∧
       (rd.getLsbD 0 = false) ∧
       (size.toNat ≤ 4)) := by
  refine ⟨?_, ?_, ?_⟩ <;> decide +kernel
end WIssueTrapsAndHolds

namespace WResultsLand
def ff (due is pos : Nat) (w : RegWrite) : InFlight := ⟨due, is, pos, 4, w⟩
def kt (l : List InFlight) : Bank := { vb with inFlight := l }
def nx (o : Result) : State := match o with | .next t => t | _ => State.reset
theorem witness_ResultsLand_1 :
    (let s : State := vs
     let rd : BitVec 6 := 4
     let ra : BitVec 6 := 5
     let rb : BitVec 6 := 6
     let vd : BitVec 7 := 7
     let va : BitVec 7 := 8
     let vb : BitVec 7 := 9
     let mod : BitVec 1 := 0
     (s.mayIssue) ∧
     (s.full [.s rd.toNat, .s ra.toNat, .s rb.toNat, .v vd.toNat, .v va.toNat, .v vb.toNat]) ∧
     (s.oneView [vd.toNat, va.toNat, vb.toNat]) ∧
     (Instr.vfma vd va vb ∈ [Instr.add rd ra rb mod, .sub rd ra rb mod, .mul rd ra rb mod, .div rd ra rb mod, .and rd ra rb, .or rd ra rb, .xor rd ra rb,
                .shl rd ra rb mod, .shr rd ra rb mod, .slt rd ra rb mod, .sel rd ra rb, .fadd rd ra rb, .fmul rd ra rb, .ffma rd ra rb,
                .vadd vd va vb, .vmul vd va vb, .vfma vd va vb, .viadd vd va vb, .vmov vd va, .vsel vd va vb]) ∧
     (match exec (.vfma vd va vb) s with | .next _ => true | _ => false) = true)
    ∧ (let k : Bank := kt [ff 8 3 1 (.sreg 4 7)]
       let now : Nat := 8
       let f : InFlight := ff 8 3 1 (.sreg 4 7)
       let r : Nat := 4
       let v : SReg := 7
       let alone (x : RegWrite) : Prop := k.inFlight = [f] ∧ f.due ≤ now ∧ f.write = x
       (alone (.sreg r v)) ∧
       (r ≠ 0))
    ∧ (let k : Bank := kt [ff 8 3 1 (.sreg 4 7)]
       let now : Nat := 7
       ((∀ x ∈ k.inFlight, now < x.due)))
    ∧ (let k : Bank := kt [ff 8 3 1 (.sreg 0 7)]
       let now : Nat := 8
       let f : InFlight := ff 8 3 1 (.sreg 0 7)
       let v : SReg := 7
       let alone (x : RegWrite) : Prop := k.inFlight = [f] ∧ f.due ≤ now ∧ f.write = x
       (alone (.sreg 0 v))) := by
  refine ⟨?_, ?_, ?_, ?_⟩ <;> decide +kernel
theorem witness_ResultsLand_2 :
    (let k : Bank := kt [ff 8 3 1 (.sreg 4 7), ff 8 3 2 (.sreg 4 9)]
     let now : Nat := 8
     let f : InFlight := ff 8 3 1 (.sreg 4 7)
     let g : InFlight := ff 8 3 2 (.sreg 4 9)
     let r : Nat := 4
     let v : SReg := 7
     let w : SReg := 9
     (k.inFlight = [f, g]) ∧
     (f.due ≤ now) ∧
     (g.due ≤ now) ∧
     (f.write = .sreg r v) ∧
     (g.write = .sreg r w) ∧
     (r ≠ 0))
    ∧ (let k : Bank := kt [ff 8 3 1 (.kmask 3 0xF0 0x77)]
       let now : Nat := 8
       let f : InFlight := ff 8 3 1 (.kmask 3 0xF0 0x77)
       let r : Nat := 3
       let sel : Mask := 0xF0
       let m : Mask := 0x77
       let alone (x : RegWrite) : Prop := k.inFlight = [f] ∧ f.due ≤ now ∧ f.write = x
       (alone (.kmask r sel m)) ∧
       (r ≠ 0))
    ∧ (let k : Bank := kt [ff 8 3 1 (.kmask 0 0xF0 0x77)]
       let now : Nat := 8
       let f : InFlight := ff 8 3 1 (.kmask 0 0xF0 0x77)
       let sel : Mask := 0xF0
       let m : Mask := 0x77
       let alone (x : RegWrite) : Prop := k.inFlight = [f] ∧ f.due ≤ now ∧ f.write = x
       (alone (.kmask 0 sel m)))
    ∧ (let k : Bank := kt [ff 8 3 1 (.vrow 3 0xF0 0x77 5)]
       let now : Nat := 8
       let f : InFlight := ff 8 3 1 (.vrow 3 0xF0 0x77 5)
       let r : Nat := 3
       let rs : Row := 0xF0
       let rv : Row := 0x77
       let side : SReg := 5
       let alone (x : RegWrite) : Prop := k.inFlight = [f] ∧ f.due ≤ now ∧ f.write = x
       (alone (.vrow r rs rv side))) := by
  refine ⟨?_, ?_, ?_, ?_⟩ <;> decide +kernel
end WResultsLand

namespace WIntegerResults
def b0 : Bank := { state := .runnable, sregs := [(1, 5), (2, 0xFFFFFFFFFFFFFFF9), (63, 0x80000000)] }
def s0 : State := { (State.reset.setBank 3 1 b0) with ctx := { core := 3, bank := 1, pos := 2, addr := 8 }, clk := 77 }
theorem witness_IntegerResults :
    (let s : State := s0
     let rd : BitVec 6 := 3
     let ra : BitVec 6 := 1
     let rb : BitVec 6 := 2
     let imm : BitVec 8 := 0x80
     (s.mayIssue) ∧
     (s.full [.s rd.toNat, .s ra.toNat, .s rb.toNat]) ∧
     (immFits (.addi rd ra imm) s.ctx.ext = true))
    ∧ (let s : State := s0
       let rd : BitVec 6 := 3
       let ra : BitVec 6 := 2
       (s.mayIssue) ∧
       (s.full [.s rd.toNat, .s ra.toNat])) := by
  refine ⟨?_, ?_⟩ <;> decide +kernel
end WIntegerResults

namespace WDivisionResults
def k1 : Bank := { bb with sregs := [(1, 0x8000000000000000), (2, 0xFFFFFFFFFFFFFFFF), (3, 0x80000000), (4,7), (5,0xFFFFFFFD)] }
theorem witness_DivisionResults :
    (let s : State := stOf k1
     let rd : BitVec 6 := 9
     let ra : BitVec 6 := 1
     let rb : BitVec 6 := 2
     let mod : BitVec 1 := 0
     (s.mayIssue) ∧
     (s.full [.s rd.toNat, .s ra.toNat, .s rb.toNat]) ∧
     let a := s.cur.s ra.toNat
     let b := s.cur.s rb.toNat
     (mod = 0) ∧
     (a = BitVec.intMin 64) ∧
     (b = BitVec.allOnes 64) ∧
     (b ≠ 0))
    ∧ (let s : State := stOf k1
       let rd : BitVec 6 := 9
       let ra : BitVec 6 := 3
       let rb : BitVec 6 := 2
       let mod : BitVec 1 := 1
       (s.mayIssue) ∧
       (s.full [.s rd.toNat, .s ra.toNat, .s rb.toNat]) ∧
       let a := s.cur.s ra.toNat
       let b := s.cur.s rb.toNat
       let a32 : Word := a.setWidth 32
       let b32 : Word := b.setWidth 32
       (mod = 1) ∧
       (a32 = BitVec.intMin 32) ∧
       (b32 = BitVec.allOnes 32) ∧
       (b32 ≠ 0))
    ∧ (let s : State := stOf k1
       let rd : BitVec 6 := 9
       let ra : BitVec 6 := 1
       let rb : BitVec 6 := 0
       let mod : BitVec 1 := 0
       (s.mayIssue) ∧
       (s.full [.s rd.toNat, .s ra.toNat, .s rb.toNat]) ∧
       let b := s.cur.s rb.toNat
       (mod = 0) ∧
       (b = 0))
    ∧ (let s : State := stOf k1
       let rd : BitVec 6 := 9
       let ra : BitVec 6 := 1
       let rb : BitVec 6 := 0
       let mod : BitVec 1 := 1
       (s.mayIssue) ∧
       (s.full [.s rd.toNat, .s ra.toNat, .s rb.toNat]) ∧
       let b := s.cur.s rb.toNat
       let b32 : Word := b.setWidth 32
       (mod = 1) ∧
       (b32 = 0)) := by
  refine ⟨?_, ?_, ?_, ?_⟩ <;> decide +kernel
end WDivisionResults

namespace WFieldsComparesAndSelect
def k1 : Bank := { bb with sregs := [(1, 0x8123456789ABCDEF), (2, 0xFF0C), (3, 0x80000000), (4,0x2003), (5,0xFFFFFFFF), (9,0x1122334455667788)] }
theorem witness_FieldsComparesAndSelect :
    (let s : State := stOf k1
     let rd : BitVec 6 := 9
     let ra : BitVec 6 := 1
     let rb : BitVec 6 := 2
     let imm : BitVec 14 := 0x3000
     (s.mayIssue) ∧
     (s.full [.s rd.toNat, .s ra.toNat, .s rb.toNat]) ∧
     (immFits (.movi rd imm) s.ctx.ext = true))
    ∧ (let s : State := stOf k1
       let rd : BitVec 6 := 9
       let ra : BitVec 6 := 1
       let rb : BitVec 6 := 2
       (s.mayIssue) ∧
       (s.full [.s rd.toNat, .s ra.toNat, .s rb.toNat])) := by
  refine ⟨?_, ?_⟩ <;> decide +kernel
end WFieldsComparesAndSelect

namespace WScalarFloatResults
def k1 : Bank := { bb with sregs := [(1, 0x3F800000), (2, 0xFFFFFFFFC0490FDB), (3, 0x7F800000), (4,0x7FC00000), (5,0xFFFFFFFF80000000), (9,0x41122334)] }
theorem witness_ScalarFloatResults :
    let s : State := stOf k1
    let rd : BitVec 6 := 9
    let ra : BitVec 6 := 1
    let rb : BitVec 6 := 2
    (s.mayIssue) ∧
    (s.full [.s rd.toNat, .s ra.toNat, .s rb.toNat]) := by
  decide +kernel
end WScalarFloatResults

namespace WPrefixAndExtension
theorem witness_PrefixAndExtension :
    (let s : State := {ss with ctx.named := 0x31}
     let rm : BitVec 3 := 3
     let strict : BitVec 16 := 0x21
     (s.mayIssue) ∧
     (rm.toNat ≤ 4) ∧
     (strict &&& ~~~s.ctx.named = 0))
    ∧ (let s : State := {ss with ctx.named := 0x31}
       let rm : BitVec 3 := 4
       let strict : BitVec 16 := 0x41
       (s.mayIssue) ∧
       (rm.toNat ≤ 4) ∧
       (strict &&& ~~~s.ctx.named ≠ 0)) := by
  refine ⟨?_, ?_⟩ <;> decide +kernel
end WPrefixAndExtension

namespace WConditionalBranches
def kk : Bank := { bb with kregs := [(1, ⟨(2^256-1 : Nat), by decide⟩), (2, 0), (3, 0x5)], runAhead := [⟨0,4,0,0⟩] }
theorem witness_ConditionalBranches_1 :
    (let s : State := stOf kk
     let hint : BitVec 1 := 0
     let ra : BitVec 6 := 0
     let off : BitVec 15 := 4
     (s.mayIssue) ∧
     (s.full [.s ra.toNat]) ∧
     (immFits (.brz hint ra off) s.ctx.ext = true) ∧
     let target := (BitVec.ofInt 64 ((s.ctx.addr : Int) + 4 * immSigned s.ctx.ext 15 off)).toNat
     let zero : Prop := s.cur.s ra.toNat = 0
     (zero) ∧
     (s.goodTarget target))
    ∧ (let s : State := stOf kk
       let hint : BitVec 1 := 0
       let rk : BitVec 4 := 1
       let off : BitVec 15 := 4
       (s.mayIssue) ∧
       (s.full [.k rk.toNat]) ∧
       (immFits (.brkt hint rk off) s.ctx.ext = true) ∧
       let lanes := if mcfgAcc s.cur.eng0.mcfg = 4 then 256 else 128
       let active (j : Nat) : Prop := (s.cur.k s.ctx.maskReg).getLsbD j = true
       let allSet : Prop := ∀ j < lanes, active j → (s.cur.k rk.toNat).getLsbD j = true
       let allClear : Prop := ∀ j < lanes, active j → (s.cur.k rk.toNat).getLsbD j = false
       let target := (BitVec.ofInt 64 ((s.ctx.addr : Int) + 4 * immSigned s.ctx.ext 15 off)).toNat
       (allSet) ∧
       (s.goodTarget target) ∧
       (¬ allClear))
    ∧ (let s : State := stOf kk
       let hint : BitVec 1 := 1
       let rk : BitVec 4 := 2
       let off : BitVec 15 := 4
       (s.mayIssue) ∧
       (s.full [.k rk.toNat]) ∧
       (immFits (.brkt hint rk off) s.ctx.ext = true) ∧
       let lanes := if mcfgAcc s.cur.eng0.mcfg = 4 then 256 else 128
       let active (j : Nat) : Prop := (s.cur.k s.ctx.maskReg).getLsbD j = true
       let allSet : Prop := ∀ j < lanes, active j → (s.cur.k rk.toNat).getLsbD j = true
       let allClear : Prop := ∀ j < lanes, active j → (s.cur.k rk.toNat).getLsbD j = false
       let target := (BitVec.ofInt 64 ((s.ctx.addr : Int) + 4 * immSigned s.ctx.ext 15 off)).toNat
       (allClear) ∧
       (¬ allSet) ∧
       (s.goodTarget target))
    ∧ (let s : State := stOf kk
       let hint : BitVec 1 := 0
       let ra : BitVec 6 := 1
       let off : BitVec 15 := 0x7FFE
       (s.mayIssue) ∧
       (s.full [.s ra.toNat]) ∧
       (immFits (.brz hint ra off) s.ctx.ext = true) ∧
       let target := (BitVec.ofInt 64 ((s.ctx.addr : Int) + 4 * immSigned s.ctx.ext 15 off)).toNat
       let zero : Prop := s.cur.s ra.toNat = 0
       (¬ zero) ∧
       (s.goodTarget target)) := by
  refine ⟨?_, ?_, ?_, ?_⟩ <;> decide +kernel
theorem witness_ConditionalBranches_2 :
    (let s : State := {stOf kk with ctx.maskReg := 2}
     let hint : BitVec 1 := 1
     let rk : BitVec 4 := 2
     let off : BitVec 15 := 0x7FFD
     (s.mayIssue) ∧
     (s.full [.k rk.toNat]) ∧
     (immFits (.brkt hint rk off) s.ctx.ext = true) ∧
     let lanes := if mcfgAcc s.cur.eng0.mcfg = 4 then 256 else 128
     let active (j : Nat) : Prop := (s.cur.k s.ctx.maskReg).getLsbD j = true
     let allClear : Prop := ∀ j < lanes, active j → (s.cur.k rk.toNat).getLsbD j = false
     let allSet : Prop := ∀ j < lanes, active j → (s.cur.k rk.toNat).getLsbD j = true
     let target := (BitVec.ofInt 64 ((s.ctx.addr : Int) + 4 * immSigned s.ctx.ext 15 off)).toNat
     (¬ s.goodTarget target) ∧
     (allSet) ∧
     (allClear))
    ∧ (let s : State := stOf kk
       let hint : BitVec 1 := 1
       let rk : BitVec 4 := 3
       let off : BitVec 15 := 4
       (s.mayIssue) ∧
       (s.full [.k rk.toNat]) ∧
       (immFits (.brkt hint rk off) s.ctx.ext = true) ∧
       let lanes := if mcfgAcc s.cur.eng0.mcfg = 4 then 256 else 128
       let active (j : Nat) : Prop := (s.cur.k s.ctx.maskReg).getLsbD j = true
       let allSet : Prop := ∀ j < lanes, active j → (s.cur.k rk.toNat).getLsbD j = true
       let allClear : Prop := ∀ j < lanes, active j → (s.cur.k rk.toNat).getLsbD j = false
       (¬ allSet) ∧
       (¬ allClear))
    ∧ (let s : State := stOf kk
       let hint : BitVec 1 := 1
       let ra : BitVec 6 := 0
       let off : BitVec 15 := 63
       (s.mayIssue) ∧
       (s.full [.s ra.toNat]) ∧
       (immFits (.brz hint ra off) s.ctx.ext = true) ∧
       let target := (BitVec.ofInt 64 ((s.ctx.addr : Int) + 4 * immSigned s.ctx.ext 15 off)).toNat
       let zero : Prop := s.cur.s ra.toNat = 0
       (zero) ∧
       (¬ s.goodTarget target))
    ∧ (let s : State := stOf kk
       let hint : BitVec 1 := 1
       let ra : BitVec 6 := 1
       let off : BitVec 15 := 0x7FFD
       (s.mayIssue) ∧
       (s.full [.s ra.toNat]) ∧
       (immFits (.brz hint ra off) s.ctx.ext = true) ∧
       let target := (BitVec.ofInt 64 ((s.ctx.addr : Int) + 4 * immSigned s.ctx.ext 15 off)).toNat
       let zero : Prop := s.cur.s ra.toNat = 0
       (¬ zero) ∧
       (¬ s.goodTarget target)) := by
  refine ⟨?_, ?_, ?_, ?_⟩ <;> decide +kernel
end WConditionalBranches

namespace WJumpsWaitsHaltAndTraps
def kk : Bank := { bb with sregs := [(1, 8), (2, 9), (3, 256), (4, 0x100000008)], runAhead := [⟨0,4,0,0⟩], sChanged := [(1,76)] }
theorem witness_JumpsWaitsHaltAndTraps :
    (let s : State := stOf kk
     let ra : BitVec 6 := 1
     let rd : BitVec 6 := 7
     let off : BitVec 21 := 4
     let off15 : BitVec 15 := 4
     (s.mayIssue) ∧
     (s.full [.s ra.toNat, .s rd.toNat]) ∧
     let a := (s.cur.s ra.toNat).toNat
     let underway : Prop := (∃ f ∈ s.cur.inFlight, ∃ v, f.write = .sreg ra.toNat v) ∨ ∃ e ∈ s.cur.queue, ∃ bar, e.ins = .bpoll ra bar
     let recent : Prop := ∃ c, tfind ra.toNat s.cur.sChanged = some c ∧ s.clk < c + 4
     let near := (BitVec.ofInt 64 ((s.ctx.addr : Int) + 4 * immSigned s.ctx.ext 15 off15)).toNat
     let far := (BitVec.ofInt 64 ((s.ctx.addr : Int) + 4 * immSigned s.ctx.ext 21 off)).toNat
     (immFits (.jmp off) s.ctx.ext = true) ∧
     (s.goodTarget far) ∧
     (immFits (.call rd off15) s.ctx.ext = true) ∧
     (s.goodTarget near) ∧
     (s.goodTarget a) ∧
     (underway ∨ recent))
    ∧ (let s : State := stOf kk
       let ra : BitVec 6 := 3
       let rd : BitVec 6 := 7
       let off : BitVec 21 := 0x1FFFFD
       let off15 : BitVec 15 := 63
       (s.mayIssue) ∧
       (s.full [.s ra.toNat, .s rd.toNat]) ∧
       let a := (s.cur.s ra.toNat).toNat
       let near := (BitVec.ofInt 64 ((s.ctx.addr : Int) + 4 * immSigned s.ctx.ext 15 off15)).toNat
       let far := (BitVec.ofInt 64 ((s.ctx.addr : Int) + 4 * immSigned s.ctx.ext 21 off)).toNat
       (immFits (.jmp off) s.ctx.ext = true) ∧
       (¬ s.goodTarget far) ∧
       (immFits (.call rd off15) s.ctx.ext = true) ∧
       (¬ s.goodTarget near) ∧
       (¬ s.goodTarget a))
    ∧ (let s : State := stOf kk
       let cnt : BitVec 21 := 0
       (s.mayIssue) ∧
       (immUnsigned s.ctx.ext 21 cnt < 2 ^ 32))
    ∧ (let s : State := stOf {kk with sChanged := [(1,73)]}
       let ra : BitVec 6 := 1
       let rd : BitVec 6 := 7
       (s.mayIssue) ∧
       (s.full [.s ra.toNat, .s rd.toNat]) ∧
       let a := (s.cur.s ra.toNat).toNat
       let underway : Prop := (∃ f ∈ s.cur.inFlight, ∃ v, f.write = .sreg ra.toNat v) ∨ ∃ e ∈ s.cur.queue, ∃ bar, e.ins = .bpoll ra bar
       let recent : Prop := ∃ c, tfind ra.toNat s.cur.sChanged = some c ∧ s.clk < c + 4
       (s.goodTarget a) ∧
       (¬ (underway ∨ recent))) := by
  refine ⟨?_, ?_, ?_, ?_⟩ <;> decide +kernel
end WJumpsWaitsHaltAndTraps

namespace WLoopsEntered
def le : LoopEntry := ⟨20, 60, 4, 0⟩
def kk (n : Nat) : Bank := { bb with loops := List.replicate n le }
def kl : Bank := { bb with loops := [⟨20,8,4,0⟩] }
theorem witness_LoopsEntered :
    (let s : State := stOf (kk 0)
     let ra : BitVec 6 := 1
     let cnt : BitVec 9 := 3
     (s.mayIssue) ∧
     (s.full [.s ra.toNat]) ∧
     (immUnsigned s.ctx.ext 9 cnt < 2 ^ 32) ∧
     let immediate := immUnsigned s.ctx.ext 9 cnt
     let count := (s.cur.s ra.toNat).extractLsb' 0 32
     (s.notAtLoopEnd) ∧
     (s.cur.loops.length ≠ 6) ∧
     (count ≠ 0) ∧
     (immediate ≠ 0))
    ∧ (let s : State := stOf (kk 5)
       let ra : BitVec 6 := 0
       let cnt : BitVec 9 := 0
       let endw : BitVec 13 := 10
       (s.mayIssue) ∧
       (s.full [.s ra.toNat]) ∧
       (immUnsigned s.ctx.ext 9 cnt < 2 ^ 32) ∧
       let start := s.ctx.addr + s.ctx.len
       let last := start + 4 * endw.toNat
       let immediate := immUnsigned s.ctx.ext 9 cnt
       let count := (s.cur.s ra.toNat).extractLsb' 0 32
       (s.notAtLoopEnd) ∧
       (s.cur.loops.length ≠ 6) ∧
       (count = 0) ∧
       (s.goodTarget (afterLoop s last)) ∧
       (immediate = 0))
    ∧ (let s : State := stOf (kk 5)
       let ra : BitVec 6 := 0
       let cnt : BitVec 9 := 0
       let endw : BitVec 13 := 0x1FFF
       (s.mayIssue) ∧
       (s.full [.s ra.toNat]) ∧
       (immUnsigned s.ctx.ext 9 cnt < 2 ^ 32) ∧
       let start := s.ctx.addr + s.ctx.len
       let last := start + 4 * endw.toNat
       let immediate := immUnsigned s.ctx.ext 9 cnt
       let count := (s.cur.s ra.toNat).extractLsb' 0 32
       (s.notAtLoopEnd) ∧
       (s.cur.loops.length ≠ 6) ∧
       (count = 0) ∧
       (¬ s.goodTarget (afterLoop s last)) ∧
       (immediate = 0))
    ∧ (let s : State := stOf kl
       let ra : BitVec 6 := 0
       let cnt : BitVec 9 := 0
       (s.mayIssue) ∧
       (s.full [.s ra.toNat]) ∧
       (immUnsigned s.ctx.ext 9 cnt < 2 ^ 32) ∧
       (¬ s.notAtLoopEnd))
    ∧ (let s : State := stOf (kk 6)
       let ra : BitVec 6 := 0
       let cnt : BitVec 9 := 0
       (s.mayIssue) ∧
       (s.full [.s ra.toNat]) ∧
       (immUnsigned s.ctx.ext 9 cnt < 2 ^ 32) ∧
       (s.notAtLoopEnd) ∧
       (s.cur.loops.length = 6)) := by
  refine ⟨?_, ?_, ?_, ?_, ?_⟩ <;> decide +kernel
end WLoopsEntered

namespace WLoopAccess
def le : LoopEntry := ⟨20, 60, 4, 0⟩
def lf : LoopEntry := ⟨0, 60, 1, 3⟩
def lg : LoopEntry := ⟨20, 252, 1, 3⟩
def k1 : Bank := { bb with loops := [le, lf, lg] , sregs := [(1, 0x12345678abcdef00),(2, 20),(3,21)]}
theorem witness_LoopAccess_1 :
    (let s : State := stOf k1
     let lvl : BitVec 3 := 0
     let fld : BitVec 2 := 0
     let ra : BitVec 6 := 1
     let rd : BitVec 6 := 4
     ((s.mayIssue) ∧
       (s.full [.s ra.toNat, .s rd.toNat]) ∧
       (lvl.toNat ≤ 5) ∧
       (match s.cur.loops[lvl.toNat]? with
        | some e => decide ((fld = 0))
        | _ => false) = true) ∧
     ((s.mayIssue) ∧
       (s.full [.s ra.toNat, .s rd.toNat]) ∧
       (lvl.toNat ≤ 5) ∧
       (match s.cur.loops[lvl.toNat]? with
        | some e => true
        | _ => false) = true) ∧
     ((s.mayIssue) ∧
       (s.full [.s ra.toNat, .s rd.toNat]) ∧
       (lvl.toNat ≤ 5) ∧
       (match s.cur.loops[lvl.toNat]? with
        | some e => decide ((s.goodTarget (afterLoop s e.stop)))
        | _ => false) = true))
    ∧ (let s : State := stOf k1
       let lvl : BitVec 3 := 2
       let fld : BitVec 2 := 2
       let ra : BitVec 6 := 3
       let rd : BitVec 6 := 4
       ((s.mayIssue) ∧
         (s.full [.s ra.toNat, .s rd.toNat]) ∧
         let a := (s.cur.s ra.toNat).extractLsb' 0 32
         (lvl.toNat ≤ 5) ∧
         (match s.cur.loops[lvl.toNat]? with
          | some e => decide ((2 ≤ fld.toNat) ∧
         (¬ (e.start ≤ s.ctx.addr ∧ s.ctx.addr ≤ e.stop)) ∧
         (¬ s.goodTarget a.toNat))
          | _ => false) = true) ∧
       ((s.mayIssue) ∧
         (s.full [.s ra.toNat, .s rd.toNat]) ∧
         (lvl.toNat ≤ 5) ∧
         (match s.cur.loops[lvl.toNat]? with
          | some e => decide ((¬ s.goodTarget (afterLoop s e.stop)))
          | _ => false) = true))
    ∧ (let s : State := stOf k1
       let lvl : BitVec 3 := 0
       let fld : BitVec 2 := 1
       let ra : BitVec 6 := 1
       let rd : BitVec 6 := 4
       (s.mayIssue) ∧
       (s.full [.s ra.toNat, .s rd.toNat]) ∧
       (lvl.toNat ≤ 5) ∧
       (match s.cur.loops[lvl.toNat]? with
        | some e => decide ((fld = 1))
        | _ => false) = true)
    ∧ (let s : State := stOf k1
       let lvl : BitVec 3 := 0
       let fld : BitVec 2 := 3
       let ra : BitVec 6 := 2
       let rd : BitVec 6 := 4
       (s.mayIssue) ∧
       (s.full [.s ra.toNat, .s rd.toNat]) ∧
       let a := (s.cur.s ra.toNat).extractLsb' 0 32
       (lvl.toNat ≤ 5) ∧
       (match s.cur.loops[lvl.toNat]? with
        | some e => decide ((2 ≤ fld.toNat) ∧
       (¬ (e.start ≤ s.ctx.addr ∧ s.ctx.addr ≤ e.stop)) ∧
       (s.goodTarget a.toNat))
        | _ => false) = true)
    ∧ (let s : State := stOf k1
       let lvl : BitVec 3 := 1
       let fld : BitVec 2 := 2
       let ra : BitVec 6 := 2
       let rd : BitVec 6 := 4
       (s.mayIssue) ∧
       (s.full [.s ra.toNat, .s rd.toNat]) ∧
       (lvl.toNat ≤ 5) ∧
       (match s.cur.loops[lvl.toNat]? with
        | some e => decide ((2 ≤ fld.toNat) ∧
       (e.start ≤ s.ctx.addr ∧ s.ctx.addr ≤ e.stop))
        | _ => false) = true) := by
  refine ⟨?_, ?_, ?_, ?_, ?_⟩ <;> decide +kernel
theorem witness_LoopAccess_2 :
    (let s : State := stOf k1
     let lvl : BitVec 3 := 3
     let ra : BitVec 6 := 2
     let rd : BitVec 6 := 4
     (s.mayIssue) ∧
     (s.full [.s ra.toNat, .s rd.toNat]) ∧
     (lvl.toNat ≤ 5) ∧
     (s.cur.loops.length ≤ lvl.toNat))
    ∧ (let s : State := stOf k1
       let lvl : BitVec 3 := 6
       let ra : BitVec 6 := 2
       let rd : BitVec 6 := 4
       (s.mayIssue) ∧
       (s.full [.s ra.toNat, .s rd.toNat]) ∧
       (6 ≤ lvl.toNat))
    ∧ (let s : State := { stOf bb with ctx.next := some 20 }
       let a : Nat := 20
       (s.ctx.next = some a))
    ∧ (let s : State := stOf {bb with loops := [⟨0,8,2,5⟩, le]}
       let l : List LoopEntry := []
       let r : List LoopEntry := [⟨0,8,2,5⟩, le]
       (s.cur.loops = l ++ r) ∧
       (s.ctx.next = none) ∧
       ((∀ e ∈ l, e.stop = s.ctx.addr ∧ e.remaining.toNat ≤ 1)) ∧
       (match r with
        | e :: q => decide ((e.stop = s.ctx.addr) ∧
       (1 < e.remaining.toNat))
        | _ => false) = true)
    ∧ (let s : State := stOf {bb with loops := [⟨0,8,1,5⟩, ⟨4,8,0,5⟩]}
       let l : List LoopEntry := [⟨0,8,1,5⟩,⟨4,8,0,5⟩]
       let r : List LoopEntry := []
       (s.cur.loops = l ++ r) ∧
       (s.ctx.next = none) ∧
       ((∀ e ∈ l, e.stop = s.ctx.addr ∧ e.remaining.toNat ≤ 1)) ∧
       ((∀ e ∈ r.head?, e.stop ≠ s.ctx.addr))) := by
  refine ⟨?_, ?_, ?_, ?_, ?_⟩ <;> decide +kernel
end WLoopAccess

namespace WFloatingLanes
theorem witness_FloatingLanes :
    (let s : State := vs
     let rd : BitVec 7 := 9
     let ra : BitVec 7 := 4
     (s.mayIssue) ∧
     (s.full [.v rd.toNat, .v ra.toNat]) ∧
     (s.oneView [rd.toNat, ra.toNat]))
    ∧ (let s : State := vs
       let rd : BitVec 7 := 9
       let ra : BitVec 7 := 1
       let rb : BitVec 7 := 2
       (s.mayIssue) ∧
       (s.full [.v rd.toNat, .v ra.toNat, .v rb.toNat]) ∧
       (s.oneView [rd.toNat, ra.toNat, rb.toNat])) := by
  refine ⟨?_, ?_⟩ <;> decide +kernel
end WFloatingLanes

namespace WIntegerLanes
theorem witness_IntegerLanes :
    let s : State := vs
    let rd : BitVec 7 := 9
    let ra : BitVec 7 := 1
    let rb : BitVec 7 := 2
    (s.mayIssue) ∧
    (s.full [.v rd.toNat, .v ra.toNat, .v rb.toNat]) ∧
    (s.oneView [rd.toNat, ra.toNat, rb.toNat]) := by
  decide +kernel
end WIntegerLanes

namespace WMasksAndReductions
theorem witness_MasksAndReductions :
    (let s : State := vs
     let rd : BitVec 4 := 9
     let ka : BitVec 4 := 1
     let kb : BitVec 4 := 3
     let ra : BitVec 7 := 1
     let rb : BitVec 7 := 2
     let sd : BitVec 6 := 5
     (s.mayIssue) ∧
     (s.full [.k rd.toNat, .k ka.toNat, .k kb.toNat, .v ra.toNat, .v rb.toNat, .s sd.toNat]) ∧
     (s.oneView [ra.toNat, rb.toNat]))
    ∧ (let s : State := vs
       let rd : BitVec 6 := 9
       let ra : BitVec 7 := 1
       (s.mayIssue) ∧
       (s.full [.s rd.toNat, .v ra.toNat])) := by
  refine ⟨?_, ?_⟩ <;> decide +kernel
end WMasksAndReductions

namespace WLaneMoves
theorem witness_LaneMoves :
    let s : State := vs
    let rd : BitVec 7 := 9
    let ra : BitVec 7 := 1
    let rb : BitVec 7 := 2
    let sd : BitVec 6 := 3
    let sa : BitVec 6 := 7
    let sb : BitVec 6 := 8
    (s.mayIssue) ∧
    (s.full [.v rd.toNat, .v ra.toNat, .v rb.toNat, .s sd.toNat, .s sa.toNat, .s sb.toNat]) ∧
    (s.oneView [rd.toNat, ra.toNat, rb.toNat]) := by
  decide +kernel
end WLaneMoves

namespace WNarrowing
theorem witness_Narrowing :
    let s : State := vs
    let fmt : BitVec 2 := 0
    let rd : BitVec 7 := 9
    let ra : BitVec 7 := 4
    let sd : BitVec 6 := 5
    let sb : BitVec 6 := 9
    let noRot : BitVec 1 := 0
    let seed : BitVec 4 := 2
    (s.mayIssue) ∧
    (s.full [.v rd.toNat, .v ra.toNat, .s sd.toNat, .s sb.toNat]) ∧
    (s.oneView [rd.toNat, ra.toNat]) ∧
    ((noRot = 0 ∨ seed = 0)) ∧
    ((s.cur.side ra.toNat).getLsbD 63 = false) ∧
    let acc := mcfgAcc (s.cur.mcfgOf ra.toNat)
    let t : Fmt := if acc = 7 then .int32 else if acc = 4 then .bf16 else .fp32
    (¬ (fmt = 2 ∧ t = .bf16)) ∧
    (t ≠ .bf16) := by
  decide +kernel
end WNarrowing

namespace WWideningAndSides
theorem witness_WideningAndSides :
    (let s : State := vs
     let rd : BitVec 7 := 9
     let ra : BitVec 7 := 3
     let sd : BitVec 6 := 5
     let sb : BitVec 6 := 9
     let f : Fmt := .e4m3
     (s.mayIssue) ∧
     (s.full [.v rd.toNat, .v ra.toNat, .s sd.toNat, .s sb.toNat]) ∧
     (s.oneView [rd.toNat, ra.toNat]) ∧
     let b := s.cur.s sb.toNat
     let side := s.cur.side ra.toNat
     let tag := side.extractLsb' 32 16
     (side.getLsbD 63 = true) ∧
     (narrowFormat (sideFmt side) = some f) ∧
     (tag = 0) ∧
     (b.getLsbD 63 = false))
    ∧ (let s : State := vs
       let rd : BitVec 7 := 9
       let ra : BitVec 7 := 5
       let sd : BitVec 6 := 5
       let sb : BitVec 6 := 10
       let f : Fmt := .int8
       ((s.mayIssue) ∧
         (s.full [.v rd.toNat, .v ra.toNat, .s sd.toNat, .s sb.toNat]) ∧
         (s.oneView [rd.toNat, ra.toNat]) ∧
         let b := s.cur.s sb.toNat
         (b.getLsbD 63 = true)) ∧
       ((s.mayIssue) ∧
         (s.full [.v rd.toNat, .v ra.toNat, .s sd.toNat, .s sb.toNat]) ∧
         (s.oneView [rd.toNat, ra.toNat]) ∧
         let side := s.cur.side ra.toNat
         let tag := side.extractLsb' 32 16
         (side.getLsbD 63 = true) ∧
         (narrowFormat (sideFmt side) = some f) ∧
         (tag.extractLsb' 12 4 = 8) ∧
         (match s.cur.seedFor (tag.extractLsb' 0 12) with
          | some seed => true
          | _ => false) = true))
    ∧ (let s : State := vs
       let rd : BitVec 7 := 9
       let ra : BitVec 7 := 1
       let sd : BitVec 6 := 5
       let sb : BitVec 6 := 10
       (s.mayIssue) ∧
       (s.full [.v rd.toNat, .v ra.toNat, .s sd.toNat, .s sb.toNat]) ∧
       (s.oneView [rd.toNat, ra.toNat]) ∧
       let side := s.cur.side ra.toNat
       (side.getLsbD 63 = false)) := by
  refine ⟨?_, ?_, ?_⟩ <;> decide +kernel
end WWideningAndSides

namespace WTransposerResults
theorem witness_TransposerResults :
    let s : State := vs
    let noRot : BitVec 1 := 0
    let rd : BitVec 7 := 9
    let ra : BitVec 7 := 1
    let sa : BitVec 6 := 7
    let sb : BitVec 6 := 8
    let seed : BitVec 4 := 2
    (s.mayIssue) ∧
    (s.full [.v rd.toNat, .v ra.toNat, .s sa.toNat, .s sb.toNat]) ∧
    ((noRot = 0 ∨ seed = 0)) := by
  decide +kernel
end WTransposerResults

namespace WFifoPushes
theorem witness_FifoPushes :
    (let s : State := vs
     let fifo : BitVec 1 := 0
     let ra : BitVec 7 := 1
     ((s.mayIssue) ∧
       (s.full [.v ra.toNat]) ∧
       let side := s.cur.side ra.toNat
       let mcfg := (s.cur.eng fifo.toNat).mcfg
       let isB : Bool := false
       (side.getLsbD 63 = false) ∧
       (pushFormat mcfg isB = none)) ∧
     ((s.mayIssue) ∧
       (s.full [.v ra.toNat]) ∧
       let side := s.cur.side ra.toNat
       let mcfg := (s.cur.eng fifo.toNat).mcfg
       let isB : Bool := true
       (side.getLsbD 63 = false) ∧
       (pushFormat mcfg isB = none)))
    ∧ (let s : State := vs
       let ra : BitVec 7 := 3
       ((s.mayIssue) ∧
         (s.full [.v ra.toNat]) ∧
         let side := s.cur.side ra.toNat
         let isB : Bool := false
         (side.getLsbD 63 = true)) ∧
       ((s.mayIssue) ∧
         (s.full [.v ra.toNat]) ∧
         let side := s.cur.side ra.toNat
         let isB : Bool := true
         (side.getLsbD 63 = true)))
    ∧ (let s : State := vs256
       let fifo : BitVec 1 := 0
       let ra : BitVec 7 := 4
       ((s.mayIssue) ∧
         (s.full [.v ra.toNat]) ∧
         let side := s.cur.side ra.toNat
         let mcfg := (s.cur.eng fifo.toNat).mcfg
         let acc := mcfgAcc (s.cur.mcfgOf ra.toNat)
         let t : Fmt := if acc = 7 then .int32 else if acc = 4 then .bf16 else .fp32
         let isB : Bool := false
         (side.getLsbD 63 = false) ∧
         (pushFormat mcfg isB = some .bf16) ∧
         (t = .bf16)) ∧
       ((s.mayIssue) ∧
         (s.full [.v ra.toNat]) ∧
         let side := s.cur.side ra.toNat
         let mcfg := (s.cur.eng fifo.toNat).mcfg
         let acc := mcfgAcc (s.cur.mcfgOf ra.toNat)
         let t : Fmt := if acc = 7 then .int32 else if acc = 4 then .bf16 else .fp32
         let isB : Bool := true
         (side.getLsbD 63 = false) ∧
         (pushFormat mcfg isB = some .bf16) ∧
         (t = .bf16)))
    ∧ (let s : State := stOf {vb with eng0 := {mcfg := 0x7110}}
       let fifo : BitVec 1 := 0
       let ra : BitVec 7 := 1
       ((s.mayIssue) ∧
         (s.full [.v ra.toNat]) ∧
         let side := s.cur.side ra.toNat
         let mcfg := (s.cur.eng fifo.toNat).mcfg
         let acc := mcfgAcc (s.cur.mcfgOf ra.toNat)
         let t : Fmt := if acc = 7 then .int32 else if acc = 4 then .bf16 else .fp32
         let isB : Bool := false
         (side.getLsbD 63 = false) ∧
         (match pushFormat mcfg isB with
          | some f => decide ((¬ (f = .bf16 ∧ t = .bf16)))
          | _ => false) = true) ∧
       ((s.mayIssue) ∧
         (s.full [.v ra.toNat]) ∧
         let side := s.cur.side ra.toNat
         let mcfg := (s.cur.eng fifo.toNat).mcfg
         let acc := mcfgAcc (s.cur.mcfgOf ra.toNat)
         let t : Fmt := if acc = 7 then .int32 else if acc = 4 then .bf16 else .fp32
         let isB : Bool := true
         (side.getLsbD 63 = false) ∧
         (match pushFormat mcfg isB with
          | some f => decide ((¬ (f = .bf16 ∧ t = .bf16)))
          | _ => false) = true)) := by
  refine ⟨?_, ?_, ?_, ?_⟩ <;> decide +kernel
end WFifoPushes

namespace WMatrixControl
def fe (f : Nat) (n : Nat) : FifoEntry := ⟨f, BitVec.ofNat 2048 (n * 77777), 0x3F800000, 0, BitVec.allOnes 128⟩
def fes (f n : Nat) : List FifoEntry := (List.range n).map (fe f)
def eg : MatEngine := { mcfg := 0x6320, aFifo := fes 2 10, bFifo := fes 3 128, wb0 := some (fes 3 128) }
def es (m : MatEngine) : State := stOf {vb with eng0 := m, eng1 := {m with mcfg := if m.mcfg = 0 then 0 else 0x4440, bFifo := fes 4 128}, sregs := vb.sregs ++ [(20, 0x6320), (21, 0x4440)]}
theorem witness_MatrixControl :
    (let s : State := es eg
     let e : Bool := false
     let ra : BitVec 6 := 20
     let rd : BitVec 6 := 5
     let nm1 : BitVec 6 := 9
     let row0 : BitVec 6 := 0
     (s.mayIssue) ∧
     (s.full [.s ra.toNat, .s rd.toNat]) ∧
     let n : Nat := e.toNat
     let m := s.cur.eng n
     let v := s.cur.s ra.toNat
     (mcfgReserved v = false) ∧
     ((v = 0 ∨ mcfgLegal v = true)) ∧
     ((v = m.mcfg ∨ engineQuiescent m = true)) ∧
     (m.load = none) ∧
     (m.mcfg ≠ 0) ∧
     (128 ≤ m.bFifo.length) ∧
     ((∀ c ∈ m.bFifo.take 128, c.fmt = mcfgB m.mcfg)) ∧
     (row0.toNat + nm1.toNat < 64) ∧
     (s.full ((List.range (nm1.toNat + 1)).map fun j => .v (64 * n + row0.toNat + j))) ∧
     (m.skip + nm1.toNat + 1 ≤ 256))
    ∧ (let s : State := es {eg with bFifo := fes 3 5 ++ [fe 4 5] ++ fes 3 130}
       let e : Bool := false
       let ra : BitVec 6 := 20
       let rd : BitVec 6 := 5
       (s.mayIssue) ∧
       (s.full [.s ra.toNat, .s rd.toNat]) ∧
       let n : Nat := e.toNat
       let m := s.cur.eng n
       let j : Nat := 5
       (m.load = none) ∧
       (m.mcfg ≠ 0) ∧
       (128 ≤ m.bFifo.length) ∧
       (j < 128) ∧
       (match m.bFifo[j]? with
        | some c => decide ((c.fmt ≠ mcfgB m.mcfg) ∧
       ((∀ b ∈ m.bFifo.take j, b.fmt = mcfgB m.mcfg)))
        | _ => false) = true) := by
  refine ⟨?_, ?_⟩ <;> decide +kernel
end WMatrixControl

namespace WMatrixMultiply
def fe (f : Nat) (n : Nat) : FifoEntry := ⟨f, BitVec.ofNat 2048 (n * 77777), 0x3F800000, 0, BitVec.allOnes 128⟩
def fes (f n : Nat) : List FifoEntry := (List.range n).map (fe f)
def eg : MatEngine := { mcfg := 0x6320, aFifo := fes 2 10, bFifo := fes 3 128, wb0 := some (fes 3 128) }
def es (m : MatEngine) : State := stOf {vb with eng0 := m, eng1 := {m with mcfg := if m.mcfg = 0 then 0 else 0x4440, bFifo := fes 4 128}, sregs := vb.sregs ++ [(20, 0x6320), (21, 0x4440)]}
def fx (f : Nat) (n : Nat) : FifoEntry := ⟨f, BitVec.ofNat 2048 (2 ^ 1000 * n + (n + 3) * 77777123456789012345678901234567890), 0x3F800000 + BitVec.ofNat 32 n, 0, BitVec.allOnes 128⟩
def fy (f n : Nat) : List FifoEntry := (List.range n).map (fx f)
def op (mc : SReg) (fa fb : Nat) (ovw scl : Bool) (issued : Nat) : MmaOp := { issued, bundle := 4, pos := 2, row0 := 3, rate := if fa = 4 then 2 else 1, ovw, scl, mcfg := mc, tile := fy fb 128, rows := fy fa 4 }
def kop (o : MmaOp) : Bank := { vb with eng0 := { mcfg := o.mcfg, ops := [o] }, inFlight := [], vregs := vb.vregs ++ [(3, r32 3), (4, r32 2), (67, r32 1), (68, r32 3)] }
def o1 := op 0x7110 1 1 false false 100
def o2 := op 0x6220 2 2 false true 100
def o3 := op 0x4330 3 3 true true 100
def bad (o : MmaOp) : MmaOp := { o with tile := o.tile.map fun c => { c with tag := 5 } }
def badf (o : MmaOp) : MmaOp := { o with mcfg := 0x6330 }
def nanned (o : MmaOp) : MmaOp := { o with tile := o.tile.map fun c => { c with scale := 0x7FC00000 } }
theorem witness_MatrixMultiply_1 :
    (let k : Bank := kop o3
     let e : Bool := false
     let o : MmaOp := o3
     let now : Nat := 112
     let i : Nat := 1
     let a : FifoEntry := fx 3 1
     (((k.eng e.toNat).ops = [o]) ∧
       ((k.eng (!e).toNat).ops = []) ∧
       (k.inFlight = []) ∧
       (o.rows[i]? = some a) ∧
       ((o.rate = 1 ∨ o.rate = 2)) ∧
       (o.tile.length = 128) ∧
       let tagged : Prop := ∀ c ∈ o.tile, (tagAdjust a.tag c.tag).isSome = true
       let sound : Prop := tagged ∧ a.fmt = mcfgA o.mcfg
       let acc := mcfgAcc o.mcfg
       (sound) ∧
       (o.issued + 12 + o.rate * i = now + 1) ∧
       (acc = 4)) ∧
     (((k.eng e.toNat).ops = [o]) ∧
       ((k.eng (!e).toNat).ops = []) ∧
       (k.inFlight = []) ∧
       (o.rows[i]? = some a) ∧
       ((o.rate = 1 ∨ o.rate = 2)) ∧
       (o.tile.length = 128) ∧
       let r := 64 * e.toNat + o.row0 + i
       let tagged : Prop := ∀ c ∈ o.tile, (tagAdjust a.tag c.tag).isSome = true
       let sound : Prop := tagged ∧ a.fmt = mcfgA o.mcfg
       (sound) ∧
       (o.issued + 12 + o.rate * i = now + 1) ∧
       let q : Nat := 0
       (q ≠ r)) ∧
     (((k.eng e.toNat).ops = [o]) ∧
       ((k.eng (!e).toNat).ops = []) ∧
       (k.inFlight = []) ∧
       (o.rows[i]? = some a) ∧
       ((o.rate = 1 ∨ o.rate = 2)) ∧
       (o.tile.length = 128) ∧
       let tagged : Prop := ∀ c ∈ o.tile, (tagAdjust a.tag c.tag).isSome = true
       let sound : Prop := tagged ∧ a.fmt = mcfgA o.mcfg
       let acc := mcfgAcc o.mcfg
       (sound) ∧
       (o.issued + 12 + o.rate * i = now + 1) ∧
       let n : Nat := 1
       (match o.tile[n]? with
        | some c => decide ((c.fmt = a.fmt) ∧
       (acc ≠ 7))
        | _ => false) = true))
    ∧ (let s : State := es {}
       let e : Bool := true
       let nm1 : BitVec 6 := 9
       let row0 : BitVec 6 := 54
       (s.mayIssue) ∧
       (row0.toNat + nm1.toNat < 64) ∧
       (s.full ((List.range (nm1.toNat + 1)).map fun j => .v (64 * e.toNat + row0.toNat + j))) ∧
       let n : Nat := e.toNat
       let m := s.cur.eng n
       (m.busyUntil ≤ s.clk) ∧
       (m.mcfg = 0))
    ∧ (let k : Bank := kop o1
       let e : Bool := false
       let o : MmaOp := o1
       let now : Nat := 112
       let i : Nat := 1
       let a : FifoEntry := fx 1 1
       ((k.eng e.toNat).ops = [o]) ∧
       ((k.eng (!e).toNat).ops = []) ∧
       (k.inFlight = []) ∧
       (o.rows[i]? = some a) ∧
       ((o.rate = 1 ∨ o.rate = 2)) ∧
       (o.tile.length = 128) ∧
       let tagged : Prop := ∀ c ∈ o.tile, (tagAdjust a.tag c.tag).isSome = true
       let sound : Prop := tagged ∧ a.fmt = mcfgA o.mcfg
       let acc := mcfgAcc o.mcfg
       let nan (x : BitVec 32) : Prop := Fmt.fp32.decode x.toNat = .nan
       (sound) ∧
       (o.issued + 12 + o.rate * i = now + 1) ∧
       let n : Nat := 1
       (match o.tile[n]? with
        | some c => decide ((c.fmt = a.fmt) ∧
       (acc = 7) ∧
       (a.fmt = 1) ∧
       (¬ (nan a.scale ∨ nan c.scale)))
        | _ => false) = true)
    ∧ (let k : Bank := kop o1
       let e : Bool := false
       let o : MmaOp := o1
       let now : Nat := 101
       let i : Nat := 1
       let a : FifoEntry := fx 1 1
       ((k.eng e.toNat).ops = [o]) ∧
       ((k.eng (!e).toNat).ops = []) ∧
       (k.inFlight = []) ∧
       (o.rows[i]? = some a) ∧
       ((o.rate = 1 ∨ o.rate = 2)) ∧
       (o.tile.length = 128) ∧
       let tagged : Prop := ∀ c ∈ o.tile, (tagAdjust a.tag c.tag).isSome = true
       let sound : Prop := tagged ∧ a.fmt = mcfgA o.mcfg
       (o.issued + o.rate * i = now) ∧
       (o.checked ≤ i) ∧
       (sound))
    ∧ (let s : State := es eg
       let e : Bool := true
       let nm1 : BitVec 6 := 9
       let row0 : BitVec 6 := 3
       let scl : BitVec 1 := 1
       let wb : BitVec 1 := 0
       let tile : List FifoEntry := fes 3 128
       (s.mayIssue) ∧
       (row0.toNat + nm1.toNat < 64) ∧
       (s.full ((List.range (nm1.toNat + 1)).map fun j => .v (64 * e.toNat + row0.toNat + j))) ∧
       let n : Nat := e.toNat
       let m := s.cur.eng n
       let rows := nm1.toNat + 1
       let issues : Prop := m.mcfg ≠ 0 ∧ (if wb = 0 then m.wb0 else m.wb1) = some tile ∧ (scl = 1 → mcfgAcc m.mcfg ≠ 7)
       (m.busyUntil ≤ s.clk) ∧
       (issues) ∧
       (m.skip = 0) ∧
       (rows ≤ m.aFifo.length)) := by
  refine ⟨?_, ?_, ?_, ?_, ?_⟩ <;> decide +kernel
theorem witness_MatrixMultiply_2 :
    (let s : State := es eg
     let e : Bool := true
     let nm1 : BitVec 6 := 10
     let row0 : BitVec 6 := 3
     let scl : BitVec 1 := 1
     let wb : BitVec 1 := 0
     let tile : List FifoEntry := fes 3 128
     (s.mayIssue) ∧
     (row0.toNat + nm1.toNat < 64) ∧
     (s.full ((List.range (nm1.toNat + 1)).map fun j => .v (64 * e.toNat + row0.toNat + j))) ∧
     let n : Nat := e.toNat
     let m := s.cur.eng n
     let rows := nm1.toNat + 1
     let issues : Prop := m.mcfg ≠ 0 ∧ (if wb = 0 then m.wb0 else m.wb1) = some tile ∧ (scl = 1 → mcfgAcc m.mcfg ≠ 7)
     (m.busyUntil ≤ s.clk) ∧
     (issues) ∧
     ((m.skip ≠ 0 ∨ m.aFifo.length < rows)))
    ∧ (let k : Bank := kop (bad o1)
       let e : Bool := false
       let o : MmaOp := bad o1
       let now : Nat := 101
       let i : Nat := 1
       let a : FifoEntry := fx 1 1
       ((k.eng e.toNat).ops = [o]) ∧
       ((k.eng (!e).toNat).ops = []) ∧
       (k.inFlight = []) ∧
       (o.rows[i]? = some a) ∧
       ((o.rate = 1 ∨ o.rate = 2)) ∧
       (o.tile.length = 128) ∧
       let tagged : Prop := ∀ c ∈ o.tile, (tagAdjust a.tag c.tag).isSome = true
       let sound : Prop := tagged ∧ a.fmt = mcfgA o.mcfg
       (o.issued + o.rate * i = now) ∧
       (o.checked ≤ i) ∧
       (¬ sound) ∧
       (o.failed = false) ∧
       (¬ tagged))
    ∧ (let k : Bank := kop (bad o1)
       let e : Bool := false
       let o : MmaOp := bad o1
       let now : Nat := 112
       let i : Nat := 1
       let a : FifoEntry := fx 1 1
       ((k.eng e.toNat).ops = [o]) ∧
       ((k.eng (!e).toNat).ops = []) ∧
       (k.inFlight = []) ∧
       (o.rows[i]? = some a) ∧
       ((o.rate = 1 ∨ o.rate = 2)) ∧
       (o.tile.length = 128) ∧
       let tagged : Prop := ∀ c ∈ o.tile, (tagAdjust a.tag c.tag).isSome = true
       let sound : Prop := tagged ∧ a.fmt = mcfgA o.mcfg
       (¬ sound) ∧
       (o.issued + 12 + o.rate * i = now + 1))
    ∧ (let k : Bank := kop (badf o2)
       let e : Bool := false
       let o : MmaOp := badf o2
       let now : Nat := 101
       let i : Nat := 1
       let a : FifoEntry := fx 2 1
       ((k.eng e.toNat).ops = [o]) ∧
       ((k.eng (!e).toNat).ops = []) ∧
       (k.inFlight = []) ∧
       (o.rows[i]? = some a) ∧
       ((o.rate = 1 ∨ o.rate = 2)) ∧
       (o.tile.length = 128) ∧
       let tagged : Prop := ∀ c ∈ o.tile, (tagAdjust a.tag c.tag).isSome = true
       let sound : Prop := tagged ∧ a.fmt = mcfgA o.mcfg
       (o.issued + o.rate * i = now) ∧
       (o.checked ≤ i) ∧
       (¬ sound) ∧
       (o.failed = false) ∧
       (tagged))
    ∧ (let k : Bank := kop (nanned o1)
       let e : Bool := false
       let o : MmaOp := nanned o1
       let now : Nat := 112
       let i : Nat := 1
       let a : FifoEntry := fx 1 1
       ((k.eng e.toNat).ops = [o]) ∧
       ((k.eng (!e).toNat).ops = []) ∧
       (k.inFlight = []) ∧
       (o.rows[i]? = some a) ∧
       ((o.rate = 1 ∨ o.rate = 2)) ∧
       (o.tile.length = 128) ∧
       let tagged : Prop := ∀ c ∈ o.tile, (tagAdjust a.tag c.tag).isSome = true
       let sound : Prop := tagged ∧ a.fmt = mcfgA o.mcfg
       let acc := mcfgAcc o.mcfg
       let nan (x : BitVec 32) : Prop := Fmt.fp32.decode x.toNat = .nan
       (sound) ∧
       (o.issued + 12 + o.rate * i = now + 1) ∧
       let n : Nat := 1
       (match o.tile[n]? with
        | some c => decide ((c.fmt = a.fmt) ∧
       (acc = 7) ∧
       (a.fmt = 1) ∧
       (nan a.scale ∨ nan c.scale))
        | _ => false) = true) := by
  refine ⟨?_, ?_, ?_, ?_, ?_⟩ <;> decide +kernel
theorem witness_MatrixMultiply_3 :
    (let s : State := es {eg with busyUntil := 78}
     let e : Bool := true
     let nm1 : BitVec 6 := 9
     let row0 : BitVec 6 := 3
     (s.mayIssue) ∧
     (row0.toNat + nm1.toNat < 64) ∧
     (s.full ((List.range (nm1.toNat + 1)).map fun j => .v (64 * e.toNat + row0.toNat + j))) ∧
     let n : Nat := e.toNat
     let m := s.cur.eng n
     (s.clk < m.busyUntil))
    ∧ (let k : Bank := kop {bad o1 with failed := true}
       let e : Bool := false
       let o : MmaOp := {bad o1 with failed := true}
       let now : Nat := 101
       let i : Nat := 1
       let a : FifoEntry := fx 1 1
       ((k.eng e.toNat).ops = [o]) ∧
       ((k.eng (!e).toNat).ops = []) ∧
       (k.inFlight = []) ∧
       (o.rows[i]? = some a) ∧
       ((o.rate = 1 ∨ o.rate = 2)) ∧
       (o.tile.length = 128) ∧
       let tagged : Prop := ∀ c ∈ o.tile, (tagAdjust a.tag c.tag).isSome = true
       let sound : Prop := tagged ∧ a.fmt = mcfgA o.mcfg
       (o.issued + o.rate * i = now) ∧
       (o.checked ≤ i) ∧
       (¬ sound) ∧
       (o.failed = true) ∧
       (k.posted = []))
    ∧ (let k : Bank := {kop {bad o1 with failed := true} with posted := [{ clk := 3, cause := 4, bundle := 5, pos := 6, issued := 7 }]}
       let e : Bool := false
       let o : MmaOp := {bad o1 with failed := true}
       let now : Nat := 101
       let i : Nat := 1
       let a : FifoEntry := fx 1 1
       ((k.eng e.toNat).ops = [o]) ∧
       ((k.eng (!e).toNat).ops = []) ∧
       (k.inFlight = []) ∧
       (o.rows[i]? = some a) ∧
       ((o.rate = 1 ∨ o.rate = 2)) ∧
       (o.tile.length = 128) ∧
       let tagged : Prop := ∀ c ∈ o.tile, (tagAdjust a.tag c.tag).isSome = true
       let sound : Prop := tagged ∧ a.fmt = mcfgA o.mcfg
       (o.issued + o.rate * i = now) ∧
       (o.checked ≤ i) ∧
       (¬ sound) ∧
       (o.failed = true) ∧
       (k.posted ≠ [])) := by
  refine ⟨?_, ?_, ?_⟩ <;> decide +kernel
end WMatrixMultiply

namespace WScratchpadLoads
def kp : Bank := { vb with sregs := [(1, 0), (2, 512), (3, 0x7FFFFF), (4, 0x7FFE00), (5, 0x800000), (6,16)] }
theorem witness_ScratchpadLoads_1 :
    (let s : State := ps kp
     let size : BitVec 3 := 0
     let rd : BitVec 6 := 8
     let base : BitVec 6 := 1
     let vd : BitVec 7 := 9
     let kd : BitVec 4 := 2
     let off : BitVec 8 := 1
     (s.mayIssue) ∧
     (s.full [.s rd.toNat, .s (rd.toNat + 1), .s base.toNat, .v vd.toNat, .k kd.toNat]) ∧
     (immFits (.ldsv vd base off) s.ctx.ext = true) ∧
     let pad := (s.core s.ctx.core).pad
     let addr (n : Nat) : Nat := (s.cur.s base.toNat + BitVec.ofInt 64 (immSigned s.ctx.ext 8 off * n)).toNat
     let bytes (n : Nat) : Nat := mread pad (addr n) n
     let loads (z : BitVec 3) (n : Nat) (v : SReg) : Prop := size = z → padAccess (addr n) n →
           exec (.lds size rd base off) s = .next (s.landS 6 rd v)
     (size = 0) ∧
     (padAccess (addr 1) 1) ∧
     (padAccess (addr 512) 512) ∧
     (padAccess (addr 16) 16) ∧
     (padAccess (addr 32) 32) ∧
     (sparseBlock (bytes 32) = none))
    ∧ (let s : State := ps kp
       let size : BitVec 3 := 7
       let rd : BitVec 6 := 8
       let base : BitVec 6 := 2
       let vd : BitVec 7 := 9
       let kd : BitVec 4 := 2
       let off : BitVec 8 := 8
       ((s.mayIssue) ∧
         (s.full [.s rd.toNat, .s (rd.toNat + 1), .s base.toNat, .v vd.toNat, .k kd.toNat]) ∧
         (immFits (.ldsv vd base off) s.ctx.ext = true) ∧
         let addr (n : Nat) : Nat := (s.cur.s base.toNat + BitVec.ofInt 64 (immSigned s.ctx.ext 8 off * n)).toNat
         (size = 7) ∧
         (rd.getLsbD 0 = false) ∧
         (padAccess (addr 16) 16)) ∧
       ((s.mayIssue) ∧
         (s.full [.s rd.toNat, .s (rd.toNat + 1), .s base.toNat, .v vd.toNat, .k kd.toNat]) ∧
         (immFits (.ldsv vd base off) s.ctx.ext = true) ∧
         let pad := (s.core s.ctx.core).pad
         let addr (n : Nat) : Nat := (s.cur.s base.toNat + BitVec.ofInt 64 (immSigned s.ctx.ext 8 off * n)).toNat
         let bytes (n : Nat) : Nat := mread pad (addr n) n
         (padAccess (addr 32) 32) ∧
         (match sparseBlock (bytes 32) with
          | some b => decide ((addr 32 + b.bytes ≤ 2 ^ 23))
          | _ => false) = true))
    ∧ (let s : State := ps kp
       let size : BitVec 3 := 1
       let rd : BitVec 6 := 8
       let base : BitVec 6 := 3
       let vd : BitVec 7 := 9
       let kd : BitVec 4 := 2
       let off : BitVec 8 := 0
       (s.mayIssue) ∧
       (s.full [.s rd.toNat, .s (rd.toNat + 1), .s base.toNat, .v vd.toNat, .k kd.toNat]) ∧
       (immFits (.ldsv vd base off) s.ctx.ext = true) ∧
       let pad := (s.core s.ctx.core).pad
       let addr (n : Nat) : Nat := (s.cur.s base.toNat + BitVec.ofInt 64 (immSigned s.ctx.ext 8 off * n)).toNat
       let bytes (n : Nat) : Nat := mread pad (addr n) n
       let loads (z : BitVec 3) (n : Nat) (v : SReg) : Prop := size = z → padAccess (addr n) n →
             exec (.lds size rd base off) s = .next (s.landS 6 rd v)
       (size = 1) ∧
       (padAccess (addr 1) 1))
    ∧ (let s : State := ps kp
       let size : BitVec 3 := 2
       let rd : BitVec 6 := 8
       let base : BitVec 6 := 6
       let vd : BitVec 7 := 9
       let kd : BitVec 4 := 2
       let off : BitVec 8 := 1
       (s.mayIssue) ∧
       (s.full [.s rd.toNat, .s (rd.toNat + 1), .s base.toNat, .v vd.toNat, .k kd.toNat]) ∧
       (immFits (.ldsv vd base off) s.ctx.ext = true) ∧
       let pad := (s.core s.ctx.core).pad
       let addr (n : Nat) : Nat := (s.cur.s base.toNat + BitVec.ofInt 64 (immSigned s.ctx.ext 8 off * n)).toNat
       let bytes (n : Nat) : Nat := mread pad (addr n) n
       let loads (z : BitVec 3) (n : Nat) (v : SReg) : Prop := size = z → padAccess (addr n) n →
             exec (.lds size rd base off) s = .next (s.landS 6 rd v)
       (size = 2) ∧
       (padAccess (addr 2) 2)) := by
  refine ⟨?_, ?_, ?_, ?_⟩ <;> decide +kernel
theorem witness_ScratchpadLoads_2 :
    (let s : State := ps kp
     let size : BitVec 3 := 3
     let rd : BitVec 6 := 8
     let base : BitVec 6 := 6
     let vd : BitVec 7 := 9
     let kd : BitVec 4 := 2
     let off : BitVec 8 := 1
     (s.mayIssue) ∧
     (s.full [.s rd.toNat, .s (rd.toNat + 1), .s base.toNat, .v vd.toNat, .k kd.toNat]) ∧
     (immFits (.ldsv vd base off) s.ctx.ext = true) ∧
     let pad := (s.core s.ctx.core).pad
     let addr (n : Nat) : Nat := (s.cur.s base.toNat + BitVec.ofInt 64 (immSigned s.ctx.ext 8 off * n)).toNat
     let bytes (n : Nat) : Nat := mread pad (addr n) n
     let loads (z : BitVec 3) (n : Nat) (v : SReg) : Prop := size = z → padAccess (addr n) n →
           exec (.lds size rd base off) s = .next (s.landS 6 rd v)
     (size = 3) ∧
     (padAccess (addr 2) 2))
    ∧ (let s : State := ps kp
       let size : BitVec 3 := 4
       let rd : BitVec 6 := 8
       let base : BitVec 6 := 6
       let vd : BitVec 7 := 9
       let kd : BitVec 4 := 2
       let off : BitVec 8 := 1
       (s.mayIssue) ∧
       (s.full [.s rd.toNat, .s (rd.toNat + 1), .s base.toNat, .v vd.toNat, .k kd.toNat]) ∧
       (immFits (.ldsv vd base off) s.ctx.ext = true) ∧
       let pad := (s.core s.ctx.core).pad
       let addr (n : Nat) : Nat := (s.cur.s base.toNat + BitVec.ofInt 64 (immSigned s.ctx.ext 8 off * n)).toNat
       let bytes (n : Nat) : Nat := mread pad (addr n) n
       let loads (z : BitVec 3) (n : Nat) (v : SReg) : Prop := size = z → padAccess (addr n) n →
             exec (.lds size rd base off) s = .next (s.landS 6 rd v)
       (size = 4) ∧
       (padAccess (addr 4) 4))
    ∧ (let s : State := ps kp
       let size : BitVec 3 := 5
       let rd : BitVec 6 := 8
       let base : BitVec 6 := 6
       let vd : BitVec 7 := 9
       let kd : BitVec 4 := 2
       let off : BitVec 8 := 1
       (s.mayIssue) ∧
       (s.full [.s rd.toNat, .s (rd.toNat + 1), .s base.toNat, .v vd.toNat, .k kd.toNat]) ∧
       (immFits (.ldsv vd base off) s.ctx.ext = true) ∧
       let pad := (s.core s.ctx.core).pad
       let addr (n : Nat) : Nat := (s.cur.s base.toNat + BitVec.ofInt 64 (immSigned s.ctx.ext 8 off * n)).toNat
       let bytes (n : Nat) : Nat := mread pad (addr n) n
       let loads (z : BitVec 3) (n : Nat) (v : SReg) : Prop := size = z → padAccess (addr n) n →
             exec (.lds size rd base off) s = .next (s.landS 6 rd v)
       (size = 5) ∧
       (padAccess (addr 4) 4))
    ∧ (let s : State := ps kp
       let size : BitVec 3 := 6
       let rd : BitVec 6 := 8
       let base : BitVec 6 := 4
       let vd : BitVec 7 := 9
       let kd : BitVec 4 := 2
       let off : BitVec 8 := 0
       (s.mayIssue) ∧
       (s.full [.s rd.toNat, .s (rd.toNat + 1), .s base.toNat, .v vd.toNat, .k kd.toNat]) ∧
       (immFits (.ldsv vd base off) s.ctx.ext = true) ∧
       let pad := (s.core s.ctx.core).pad
       let addr (n : Nat) : Nat := (s.cur.s base.toNat + BitVec.ofInt 64 (immSigned s.ctx.ext 8 off * n)).toNat
       let bytes (n : Nat) : Nat := mread pad (addr n) n
       let loads (z : BitVec 3) (n : Nat) (v : SReg) : Prop := size = z → padAccess (addr n) n →
             exec (.lds size rd base off) s = .next (s.landS 6 rd v)
       (size = 6) ∧
       (padAccess (addr 8) 8)) := by
  refine ⟨?_, ?_, ?_, ?_⟩ <;> decide +kernel
end WScratchpadLoads

namespace WScratchpadStores
def kp : Bank := { vb with sregs := [(1, 0), (2, 512), (3, 0x7FFFFF), (4, 0x7FFE00), (5, 0x800000), (6,16), (8,0x1122334455667788), (9,0x99AABBCCDDEEFF00), (10,1024), (11,1088), (12, 1152), (13,1216)] }
def px : State := let s := ps kp; s.setCore 3 { s.core 3 with pad := lay (lay (lay (lay (s.core 3).pad 1024 (natBytes 64 (hdrN 4096 0x400 64 6 0 1))) 1088 (natBytes 64 (hdrN 4096 0x400 0x3E0 6 0 1))) 1152 (natBytes 64 (hdrN 4096 0x400 0x20 2 2 1))) 1216 (natBytes 64 (hdrN 0x7FFF80 0x400 0x20 6 1 1)) }
theorem witness_ScratchpadStores :
    (let s : State := px
     let size : BitVec 3 := 4
     let rd : BitVec 6 := 8
     let base : BitVec 6 := 2
     let vd : BitVec 7 := 1
     let kd : BitVec 4 := 4
     let off : BitVec 8 := 1
     (s.mayIssue) ∧
     (s.full [.s rd.toNat, .s (rd.toNat + 1), .s base.toNat, .v vd.toNat, .k kd.toNat]) ∧
     (immFits (.stsv vd base off) s.ctx.ext = true) ∧
     let x := s.core s.ctx.core
     let addr (n : Nat) : Nat := (s.cur.s base.toNat + BitVec.ofInt 64 (immSigned s.ctx.ext 8 off * n)).toNat
     let stores (i : Instr) (n : Nat) (v : Nat) : Prop := padAccess (addr n) n →
              ∃ pad, exec i s = .next (s.setCore s.ctx.core { x with pad })
                ∧ (∀ j < n, mget (addr n + j) pad = BitVec.ofNat 8 (v / 256 ^ j))
                ∧ ∀ a, (a < addr n ∨ addr n + n ≤ a) → mget a pad = mget a x.pad
     (size = 4) ∧
     (rd.getLsbD 0 = false) ∧
     (padAccess (addr 512) 512) ∧
     (padAccess (addr 16) 16))
    ∧ (let s : State := px
       let vd : BitVec 7 := 4
       let base : BitVec 6 := 10
       let off : BitVec 8 := 0
       (s.mayIssue) ∧
       (s.full [.s base.toNat, .v vd.toNat]) ∧
       (immFits (.stsx vd base off) s.ctx.ext = true) ∧
       let x := s.core s.ctx.core
       let a := (s.cur.s base.toNat + BitVec.ofInt 64 (immSigned s.ctx.ext 8 off * 32)).toNat
       let h := Header.ofNat (mread x.pad a 64)
       let src := sparseSource s.cur vd.toNat
       let bytes := sparseBytes src.fmt (src.elems.countP (· ≠ 0))
       (a + 64 ≤ 2 ^ 23) ∧
       (a % 64 = 0) ∧
       (h.addr < 2 ^ 23) ∧
       (sparseHeaderBad h src true = false) ∧
       (h.len + bytes ≤ h.cap) ∧
       (h.addr + h.len + bytes ≤ 2 ^ 23))
    ∧ (let s : State := px
       let vd : BitVec 7 := 4
       let base : BitVec 6 := 11
       let off : BitVec 8 := 0
       (s.mayIssue) ∧
       (s.full [.s base.toNat, .v vd.toNat]) ∧
       (immFits (.stsx vd base off) s.ctx.ext = true) ∧
       let x := s.core s.ctx.core
       let a := (s.cur.s base.toNat + BitVec.ofInt 64 (immSigned s.ctx.ext 8 off * 32)).toNat
       let h := Header.ofNat (mread x.pad a 64)
       let src := sparseSource s.cur vd.toNat
       let bytes := sparseBytes src.fmt (src.elems.countP (· ≠ 0))
       (a + 64 ≤ 2 ^ 23) ∧
       (a % 64 = 0) ∧
       (h.addr < 2 ^ 23) ∧
       (sparseHeaderBad h src true = false) ∧
       (h.cap < h.len + bytes))
    ∧ (let s : State := px
       let size : BitVec 3 := 0
       let rd : BitVec 6 := 8
       let base : BitVec 6 := 3
       let vd : BitVec 7 := 9
       let kd : BitVec 4 := 2
       let off : BitVec 8 := 0
       (s.mayIssue) ∧
       (s.full [.s rd.toNat, .s (rd.toNat + 1), .s base.toNat, .v vd.toNat, .k kd.toNat]) ∧
       (immFits (.stsv vd base off) s.ctx.ext = true) ∧
       let x := s.core s.ctx.core
       let addr (n : Nat) : Nat := (s.cur.s base.toNat + BitVec.ofInt 64 (immSigned s.ctx.ext 8 off * n)).toNat
       let stores (i : Instr) (n : Nat) (v : Nat) : Prop := padAccess (addr n) n →
                ∃ pad, exec i s = .next (s.setCore s.ctx.core { x with pad })
                  ∧ (∀ j < n, mget (addr n + j) pad = BitVec.ofNat 8 (v / 256 ^ j))
                  ∧ ∀ a, (a < addr n ∨ addr n + n ≤ a) → mget a pad = mget a x.pad
       (size.toNat ≤ 3) ∧
       (padAccess (addr (2 ^ size.toNat)) (2 ^ size.toNat))) := by
  refine ⟨?_, ?_, ?_, ?_⟩ <;> decide +kernel
end WScratchpadStores

namespace WQueuedAccesses
def kp : Bank := { vb with sregs := [(1, 0), (2, 512), (3, 0x7FFFFF), (4, 0x7FFE00), (5, 0x800000), (6,16), (8,0x1122334455667788), (9,0x99AABBCCDDEEFF00), (10,0x0300000000001040)], runAhead := [⟨512, 4, 0, 0⟩] }
theorem witness_QueuedAccesses :
    (let s : State := ps kp
     let size : BitVec 3 := 7
     let rd : BitVec 6 := 8
     let base : BitVec 6 := 2
     let vd : BitVec 7 := 9
     let off : BitVec 8 := 1
     (s.mayIssue) ∧
     (s.full [.s rd.toNat, .s (rd.toNat + 1), .s base.toNat, .v vd.toNat]) ∧
     (immFits (.ldgv vd base off) s.ctx.ext = true) ∧
     ((size = 7 → rd.getLsbD 0 = false)) ∧
     let addr (n : Nat) : Nat := (s.cur.s base.toNat + BitVec.ofInt 64 (immSigned s.ctx.ext 8 off * n)).toNat
     (addr (loadBytes size) % loadBytes size = 0) ∧
     (addr (loadBytes size) % min (loadBytes size) 4 = 0) ∧
     (addr 512 % 512 = 0) ∧
     (addr 512 % 16 = 0) ∧
     (addr 32 % 32 = 0))
    ∧ (let s : State := ps kp
       let size : BitVec 3 := 4
       let rd : BitVec 6 := 8
       let base : BitVec 6 := 2
       let vd : BitVec 7 := 1
       let off : BitVec 8 := 0
       (s.mayIssue) ∧
       (s.full [.s rd.toNat, .s (rd.toNat + 1), .s base.toNat, .v vd.toNat]) ∧
       (immFits (.stgv vd base off) s.ctx.ext = true) ∧
       (size.toNat ≤ 4) ∧
       ((size = 4 → rd.getLsbD 0 = false)) ∧
       let addr (n : Nat) : Nat := (s.cur.s base.toNat + BitVec.ofInt 64 (immSigned s.ctx.ext 8 off * n)).toNat
       let n := 2 ^ size.toNat
       (addr n % n = 0) ∧
       (addr n % min n 4 = 0) ∧
       (addr 512 % 512 = 0) ∧
       (addr 512 % 16 = 0) ∧
       ((s.cur.s base.toNat).toNat % 16 = 0) ∧
       (addr 32 % 64 = 0))
    ∧ (let s : State := ps kp
       let size : BitVec 3 := 0
       let rd : BitVec 6 := 8
       let base : BitVec 6 := 3
       let vd : BitVec 7 := 9
       let off : BitVec 8 := 0
       (s.mayIssue) ∧
       (s.full [.s rd.toNat, .s (rd.toNat + 1), .s base.toNat, .v vd.toNat]) ∧
       (immFits (.ldgv vd base off) s.ctx.ext = true) ∧
       ((size = 7 → rd.getLsbD 0 = false)) ∧
       let addr (n : Nat) : Nat := (s.cur.s base.toNat + BitVec.ofInt 64 (immSigned s.ctx.ext 8 off * n)).toNat
       (addr 512 % 16 ≠ 0))
    ∧ (let s : State := ps kp
       let size : BitVec 3 := 0
       let rd : BitVec 6 := 8
       let base : BitVec 6 := 3
       let vd : BitVec 7 := 9
       let off : BitVec 8 := 0
       (s.mayIssue) ∧
       (s.full [.s rd.toNat, .s (rd.toNat + 1), .s base.toNat, .v vd.toNat]) ∧
       (immFits (.stgv vd base off) s.ctx.ext = true) ∧
       (size.toNat ≤ 4) ∧
       ((size = 4 → rd.getLsbD 0 = false)) ∧
       let addr (n : Nat) : Nat := (s.cur.s base.toNat + BitVec.ofInt 64 (immSigned s.ctx.ext 8 off * n)).toNat
       (addr 512 % 16 ≠ 0)) := by
  refine ⟨?_, ?_, ?_, ?_⟩ <;> decide +kernel
end WQueuedAccesses

namespace WCopyAndStashAcceptance
def bk1 : Nat := blkN 0 0 0 1 3 0x1000 0x2000 64 1
def bk2 : Nat := blkN 5 0 0 0 3 7 0x2000 64 2 0 64 0 1088
def bk3 : Nat := blkN 2 0 1 0 4 1024 1088 0 0 0 0 0 0
def bk4 : Nat := blkN 1 0 0 2 5 0 0x4000 0 0 0 0 2 0
def bk5 : Nat := blkN 9 0 0 2 5 0 0x4000 0 0 0 0 2 0
def kc : Bank := { vb with sregs := [(1, 1024), (2, 1088), (3, 1152), (4,1216), (5,1280), (6, 0x40000000), (7, 0x1234000000000009), (8, 0x800000)] }
def pc : State := let s := ps kc; s.setCore 3 { s.core 3 with pad := lay (lay (lay (lay (lay (s.core 3).pad 1024 (natBytes 64 bk2)) 1088 (natBytes 64 bk1)) 1152 (natBytes 64 bk3)) 1216 (natBytes 64 bk4)) 1280 (natBytes 64 bk5) }
def bar28 (n : Nat) : State := pc.setBarrier 0 5 { pc.barrier 0 5 with pending := n }
def bl (x : Nat) := CopyBlock.ofNat x
def cap0 : Captured := pc.capture
def sc0 (key : Nat) (begun : Bool) : StashCmd := { op := 0, key := key, who := cap0, begun := begun, id := 1 }
def stt (l : List (Nat × StashEntry)) (cs : List StashCmd := []) : State := pc.setDie 0 { pc.die 0 with stash := l, stashRunning := cs }
theorem witness_CopyAndStashAcceptance_1 :
    (let s : State := pc
     let opa : BitVec 6 := 6
     let opb : BitVec 6 := 7
     let bar : BitVec 6 := 3
     let mode : BitVec 3 := 6
     (s.mayIssue) ∧
     (s.full [.s opa.toNat, .s opb.toNat]) ∧
     let c := s.ctx.core
     let d := dieOf c
     let x := s.core c
     let k := clusterOf c
     let a := (s.cur.s opa.toNat).toNat
     let key := (s.cur.s opb.toNat).toNat % 2 ^ 32
     let y := s.barrier k bar.toNat
     let old := tfind key (s.die d).stash
     let idle : Prop := (s.die d).turn key = none
     (x.stashQueue.length < 8) ∧
     (a % 64 = 0) ∧
     (mode.toNat ≤ 6) ∧
     (y.pending + 1 < 2 ^ 28) ∧
     (idle) ∧
     ((∀ e, old = some e → e.state ∉ [3, 5, 7, 8])) ∧
     ((old = none → (s.die d).stash.length < 4096)) ∧
     ((old = none ∨ ∃ e, old = some e ∧ (e.state = 0 ∨ e.state = 8))))
    ∧ (let s : State := stt [(9, {state := 3, header := 0x40000000})]
       let opa : BitVec 6 := 6
       let opb : BitVec 6 := 7
       let bar : BitVec 6 := 5
       let mode : BitVec 3 := 6
       ((s.mayIssue) ∧
         (s.full [.s opa.toNat, .s opb.toNat]) ∧
         let c := s.ctx.core
         let d := dieOf c
         let x := s.core c
         let k := clusterOf c
         let a := (s.cur.s opa.toNat).toNat
         let key := (s.cur.s opb.toNat).toNat % 2 ^ 32
         let y := s.barrier k bar.toNat
         let old := tfind key (s.die d).stash
         let idle : Prop := (s.die d).turn key = none
         (x.stashQueue.length < 8) ∧
         (a % 64 = 0) ∧
         (mode.toNat ≤ 6) ∧
         (y.pending + 1 < 2 ^ 28) ∧
         (idle) ∧
         ((old = none ∧ 4096 ≤ (s.die d).stash.length) ∨ (∃ e, old = some e ∧ e.state ∈ [3, 5, 7]))) ∧
       ((s.mayIssue) ∧
         (s.full [.s opa.toNat, .s opb.toNat]) ∧
         let c := s.ctx.core
         let d := dieOf c
         let x := s.core c
         let k := clusterOf c
         let a := (s.cur.s opa.toNat).toNat
         let key := (s.cur.s opb.toNat).toNat % 2 ^ 32
         let y := s.barrier k bar.toNat
         let old := tfind key (s.die d).stash
         let idle : Prop := (s.die d).turn key = none
         (x.stashQueue.length < 8) ∧
         (a % 64 = 0) ∧
         (mode.toNat ≤ 6) ∧
         (y.pending + 1 < 2 ^ 28) ∧
         (idle) ∧
         (match old with
          | some e => decide ((e.state ≠ 0) ∧
         (e.state ≠ 8))
          | _ => false) = true))
    ∧ (let s : State := pc
       let gath : Bool := true
       let opa : BitVec 6 := 2
       let inCluster : BitVec 1 := 0
       let chan : BitVec 2 := 2
       let l : List CopyBlock := [bl bk1]
       (s.mayIssue) ∧
       (s.full [.s opa.toNat]) ∧
       let a := (s.cur.s opa.toNat).toNat
       let x := s.core s.ctx.core
       let k := clusterOf s.ctx.core
       let d := dieOf s.ctx.core
       let read (b : Nat) : Nat ⊕ Nat :=
                if inCluster = 1 then
                  match (s.cluster k).check b 64 with
                  | some cause => .inl cause
                  | none => .inr (mread (s.cluster k).cmem b 64)
                else if 2 ^ 23 < b + 64 then .inl 0x1D else .inr (mread x.pad b 64)
       let elem (b : CopyBlock) : Nat := patternBytes (tget 0 (b.aux % 64) (s.die d).patterns)
       let bs := deferGathers (s.pendingPatterns d) l
       (a % 64 = 0) ∧
       ((inCluster = 0 → a + 64 ≤ 2 ^ 23)) ∧
       ((x.channel chan.toNat).queue.length < 8) ∧
       (readChain read 17 a = .inr l) ∧
       (chainBad elem bs = true ∨ wrongOpcode gath bs = true))
    ∧ (let s : State := pc
       let gath : Bool := true
       let opa : BitVec 6 := 4
       let inCluster : BitVec 1 := 0
       let chan : BitVec 2 := 2
       let l : List CopyBlock := [bl bk4]
       (s.mayIssue) ∧
       (s.full [.s opa.toNat]) ∧
       let a := (s.cur.s opa.toNat).toNat
       let x := s.core s.ctx.core
       let k := clusterOf s.ctx.core
       let d := dieOf s.ctx.core
       let read (b : Nat) : Nat ⊕ Nat :=
                if inCluster = 1 then
                  match (s.cluster k).check b 64 with
                  | some cause => .inl cause
                  | none => .inr (mread (s.cluster k).cmem b 64)
                else if 2 ^ 23 < b + 64 then .inl 0x1D else .inr (mread x.pad b 64)
       let elem (b : CopyBlock) : Nat := patternBytes (tget 0 (b.aux % 64) (s.die d).patterns)
       let bs := deferGathers (s.pendingPatterns d) l
       let headers : Prop := ∃ b ∈ bs, b.isHeader = true ∨ b.deferred = true
       let counts := bs.map fun b => b.plainCount (elem b)
       let bars := bs.map (·.bar)
       (a % 64 = 0) ∧
       ((inCluster = 0 → a + 64 ≤ 2 ^ 23)) ∧
       ((x.channel chan.toNat).queue.length < 8) ∧
       (readChain read 17 a = .inr l) ∧
       (chainBad elem bs = false) ∧
       (wrongOpcode gath bs = false) ∧
       let s' : State := ((if headers then s.provisional k bars.eraseDups else s.countBlocks k (bars.zip counts)).getD s)
       ((headers → s.provisional k bars.eraseDups = some s')) ∧
       ((¬ headers → s.countBlocks k (bars.zip counts) = some s'))) := by
  refine ⟨?_, ?_, ?_, ?_⟩ <;> decide +kernel
theorem witness_CopyAndStashAcceptance_2 :
    (let s : State := bar28 0xFFFFFFF
     let opa : BitVec 6 := 6
     let opb : BitVec 6 := 7
     let bar : BitVec 6 := 5
     let mode : BitVec 3 := 0
     (s.mayIssue) ∧
     (s.full [.s opa.toNat, .s opb.toNat]) ∧
     let c := s.ctx.core
     let x := s.core c
     let k := clusterOf c
     let a := (s.cur.s opa.toNat).toNat
     let y := s.barrier k bar.toNat
     (x.stashQueue.length < 8) ∧
     (a % 64 = 0) ∧
     (mode.toNat ≤ 6) ∧
     (2 ^ 28 ≤ y.pending + 1))
    ∧ (let s : State := stt [(9, {state := 1, header := 0x40000000})] [sc0 9 true]
       let opa : BitVec 6 := 6
       let opb : BitVec 6 := 7
       let bar : BitVec 6 := 5
       let mode : BitVec 3 := 0
       (s.mayIssue) ∧
       (s.full [.s opa.toNat, .s opb.toNat]) ∧
       let c := s.ctx.core
       let d := dieOf c
       let x := s.core c
       let k := clusterOf c
       let a := (s.cur.s opa.toNat).toNat
       let key := (s.cur.s opb.toNat).toNat % 2 ^ 32
       let y := s.barrier k bar.toNat
       let idle : Prop := (s.die d).turn key = none
       (x.stashQueue.length < 8) ∧
       (a % 64 = 0) ∧
       (mode.toNat ≤ 6) ∧
       (y.pending + 1 < 2 ^ 28) ∧
       (¬ idle))
    ∧ (let s : State := pc.setBarrier 0 3 { pc.barrier 0 3 with pending := 2 ^ 28 - 1 }
       let gath : Bool := false
       let opa : BitVec 6 := 2
       let inCluster : BitVec 1 := 0
       let chan : BitVec 2 := 2
       let l : List CopyBlock := [bl bk1]
       (s.mayIssue) ∧
       (s.full [.s opa.toNat]) ∧
       let a := (s.cur.s opa.toNat).toNat
       let x := s.core s.ctx.core
       let k := clusterOf s.ctx.core
       let d := dieOf s.ctx.core
       let read (b : Nat) : Nat ⊕ Nat :=
                if inCluster = 1 then
                  match (s.cluster k).check b 64 with
                  | some cause => .inl cause
                  | none => .inr (mread (s.cluster k).cmem b 64)
                else if 2 ^ 23 < b + 64 then .inl 0x1D else .inr (mread x.pad b 64)
       let elem (b : CopyBlock) : Nat := patternBytes (tget 0 (b.aux % 64) (s.die d).patterns)
       let bs := deferGathers (s.pendingPatterns d) l
       let headers : Prop := ∃ b ∈ bs, b.isHeader = true ∨ b.deferred = true
       let counts := bs.map fun b => b.plainCount (elem b)
       let bars := bs.map (·.bar)
       (a % 64 = 0) ∧
       ((inCluster = 0 → a + 64 ≤ 2 ^ 23)) ∧
       ((x.channel chan.toNat).queue.length < 8) ∧
       (readChain read 17 a = .inr l) ∧
       (chainBad elem bs = false) ∧
       (wrongOpcode gath bs = false) ∧
       ((headers ∧ s.provisional k bars.eraseDups = none) ∨ (¬ headers ∧ s.countBlocks k (bars.zip counts) = none))) := by
  refine ⟨?_, ?_, ?_⟩ <;> decide +kernel
end WCopyAndStashAcceptance

namespace WQueuedCommands
def kc : Bank := { vb with sregs := [(1, 1024), (2, 1088), (4,65536), (5,128), (6, 2^30), (7,8), (9, 0xFFFFFFFFFFFFFF80)], lastStep := 77 }
def q : State := stOf kc
def qb : State := { q with commands := [{ who := q.capture, ins := .split 4, id := 3 }] }
theorem witness_QueuedCommands :
    (let s : State := qb
     let opa : BitVec 6 := 62
     let opb : BitVec 6 := 0
     let scope : BitVec 3 := 0
     (s.mayIssue) ∧
     (s.full [.s opa.toNat, .s (opa.toNat + 1), .s opb.toNat]) ∧
     let b := s.cur.s opb.toNat
     let a := s.cur.s opa.toNat
     (opa.getLsbD 0 = false) ∧
     (-128 ≤ a.toInt) ∧
     (a.toInt ≤ 127) ∧
     (a.toNat % 64 = 0) ∧
     (b.toNat % 64 = 0) ∧
     (s.portBusy = true) ∧
     (a.toNat ≤ 8) ∧
     (scope.toNat ≤ 5) ∧
     (scope.toNat ≤ 3))
    ∧ (let s : State := q
       let opa : BitVec 6 := 7
       let opb : BitVec 6 := 6
       let scope : BitVec 3 := 3
       (s.mayIssue) ∧
       (s.full [.s opa.toNat, .s (opa.toNat + 1), .s opb.toNat]) ∧
       let a := s.cur.s opa.toNat
       (s.portBusy = false) ∧
       (scope.toNat ≤ 5) ∧
       (a.toNat ≤ 8) ∧
       (scope.toNat ≤ 3))
    ∧ (let s : State := q
       let opa : BitVec 6 := 4
       let opb : BitVec 6 := 6
       (s.mayIssue) ∧
       (s.full [.s opa.toNat, .s (opa.toNat + 1), .s opb.toNat]) ∧
       let a := s.cur.s opa.toNat
       let b := s.cur.s opb.toNat
       (s.portBusy = false) ∧
       (a.toNat % 65536 = 0) ∧
       (b.toNat % 65536 = 0) ∧
       (0 < b.toNat) ∧
       (b.toNat ≤ 2 ^ 30))
    ∧ (let s : State := qb
       let opa : BitVec 6 := 4
       let opb : BitVec 6 := 4
       (s.mayIssue) ∧
       (s.full [.s opa.toNat, .s (opa.toNat + 1), .s opb.toNat]) ∧
       let a := s.cur.s opa.toNat
       let b := s.cur.s opb.toNat
       (s.portBusy = true) ∧
       (a.toNat % 65536 = 0) ∧
       (b.toNat % 65536 = 0) ∧
       (0 < b.toNat) ∧
       (b.toNat ≤ 2 ^ 30)) := by
  refine ⟨?_, ?_, ?_, ?_⟩ <;> decide +kernel
end WQueuedCommands

namespace WChannelAndCollectiveAcceptance
def kc : Bank := { vb with sregs := [(1, 1024), (2, 8 + 16*5 + 2), (3, 0x12340000 + 8 + 16*5), (4,0x20000)] }
def q0 : State := stOf kc
def q : State := q0.setTensor 7 { bound := true, sender := true, stage := 5, w := 4096 }
theorem witness_ChannelAndCollectiveAcceptance :
    (let s : State := q
     let opa : BitVec 6 := 1
     let opb : BitVec 6 := 2
     let chan : BitVec 6 := 7
     let bar : BitVec 6 := 6
     (s.mayIssue) ∧
     (s.full [.s opa.toNat, .s opb.toNat]) ∧
     let k := clusterOf s.ctx.core
     let a := (s.cur.s opa.toNat).toNat
     let z := s.barrier k bar.toNat
     let d := s.cur.s opb.toNat
     let c := s.tensor chan.toNat
     let stage := (s.cur.task.map (·.stage)).getD 0
     let mine : Prop := c.bound = true ∧ c.sender = true ∧ c.stage = stage
     let y := s.barrier k (d.extractLsb' 4 6).toNat
     (a % 64 = 0) ∧
     (d.extractLsb' 10 6 = 0) ∧
     ((d.extractLsb' 0 3 = 0 ∨ d.extractLsb' 0 3 = 2)) ∧
     (c.sq.length < 16) ∧
     (mine) ∧
     ((d.getLsbD 3 = true → y.pending + 1 < 2 ^ 28)) ∧
     (s.buckets.length < 64) ∧
     (z.pending + 1 < 2 ^ 28))
    ∧ (let s : State := q.setBarrier 0 6 { pending := 2^28-1 }
       let opa : BitVec 6 := 1
       let opb : BitVec 6 := 4
       let chan : BitVec 6 := 6
       let bar : BitVec 6 := 6
       (s.mayIssue) ∧
       (s.full [.s opa.toNat, .s opb.toNat]) ∧
       let k := clusterOf s.ctx.core
       let a := (s.cur.s opa.toNat).toNat
       let z := s.barrier k bar.toNat
       let d := s.cur.s opb.toNat
       let c := s.tensor chan.toNat
       let stage := (s.cur.task.map (·.stage)).getD 0
       let mine : Prop := c.bound = true ∧ c.sender = true ∧ c.stage = stage
       (a % 64 = 0) ∧
       (d.extractLsb' 10 6 = 0) ∧
       ((d.extractLsb' 0 3 = 0 ∨ d.extractLsb' 0 3 = 2)) ∧
       (c.sq.length < 16) ∧
       (¬ mine) ∧
       (s.buckets.length < 64) ∧
       (2 ^ 28 ≤ z.pending + 1)) := by
  refine ⟨?_, ?_⟩ <;> decide +kernel
end WChannelAndCollectiveAcceptance

namespace WReplayAndWritePointer
def kc : Bank := { vb with sregs := [(1, 1024), (2, 9), (3, 2^24), (4,1025)] }
def q0 : State := stOf kc
def rec1 : SnapRecord := ⟨5, 9, 0, 3, [0], [0]⟩
def cmd0 : CopyCmd := { who := q0.capture, blocks := [], onEngine := false }
def qq (r : SnapRecord) : State := let s := { q0 with stages := [(5, { configured := true, cores := [3, 2], bank := 1 })] }; let s := s.setBank 2 1 { kc with task := some { tk with worker := 1 } }; let s := s.setDie 0 { s.die 0 with snaps := [r] }; s.setCore 3 { s.core 3 with channels := [(1, { offset := 1024 }), (2, { offset := 1024, queue := [cmd0] })] }
def q : State := qq rec1
theorem witness_ReplayAndWritePointer :
    (let s : State := q
     let opa : BitVec 6 := 1
     let opb : BitVec 6 := 2
     let chan : BitVec 2 := 1
     let r : SnapRecord := rec1
     let w : Nat := 0
     let i : Nat := 0
     (s.mayIssue) ∧
     (s.full [.s opa.toNat, .s opb.toNat]) ∧
     let a := (s.cur.s opa.toNat).toNat
     let stage := (s.cur.task.map (·.stage)).getD 0
     let tag := (s.cur.s opb.toNat).toNat % 65536
     let found := s.snapOf stage tag
     let l := (s.covered s.ctx.core s.ctx.bank r.scope).zipIdx
     (found = some r) ∧
     (l.length = r.covered.length) ∧
     ((l.filter fun e => e.1.2 = s.me) = [((w, s.me), i)]) ∧
     (a ≤ (s.curCore.channel chan.toNat).offset) ∧
     (a < 2 ^ 24))
    ∧ (let s : State := q
       let opa : BitVec 6 := 4
       let opb : BitVec 6 := 1
       let chan : BitVec 2 := 1
       let r : SnapRecord := rec1
       (s.mayIssue) ∧
       (s.full [.s opa.toNat, .s opb.toNat]) ∧
       let a := (s.cur.s opa.toNat).toNat
       let stage := (s.cur.task.map (·.stage)).getD 0
       let tag := (s.cur.s opb.toNat).toNat % 65536
       let found := s.snapOf stage tag
       let l := (s.covered s.ctx.core s.ctx.bank r.scope).zipIdx
       ((found = none ∨ (found = some r ∧ l.length ≠ r.covered.length))) ∧
       ((s.curCore.channel chan.toNat).offset < a) ∧
       (a < 2 ^ 24) ∧
       ((s.curCore.channel chan.toNat).queue = []))
    ∧ (let s : State := q
       let opa : BitVec 6 := 4
       let opb : BitVec 6 := 2
       let chan : BitVec 2 := 2
       (s.mayIssue) ∧
       (s.full [.s opa.toNat, .s opb.toNat]) ∧
       let a := (s.cur.s opa.toNat).toNat
       ((s.curCore.channel chan.toNat).offset < a) ∧
       (a < 2 ^ 24) ∧
       ((s.curCore.channel chan.toNat).queue ≠ []))
    ∧ (let s : State := q
       let opa : BitVec 6 := 3
       let opb : BitVec 6 := 2
       (s.mayIssue) ∧
       (s.full [.s opa.toNat, .s opb.toNat]) ∧
       let a := (s.cur.s opa.toNat).toNat
       (2 ^ 24 ≤ a)) := by
  refine ⟨?_, ?_, ?_, ?_⟩ <;> decide +kernel
end WReplayAndWritePointer

namespace WWorkQueues
def rr (n : Nat) : QRecord := ⟨[BitVec.ofNat 64 n,2,3,4],[3],false,false,[]⟩
def kc (w : SReg) : Bank := { vb with sregs := [(8, w), (9, 88), (10, 99), (11, 77)] }
def qs (q : WorkQueue) (w : SReg := 0) : State := { (stOf (kc w)) with stages := [(5, { configured := true, nq := 2, cores := [3], bank := 1 })], queues := [(21, q)] }
def qf : State := let s := qs {} 0x80; { s with stages := [(5, { configured := true, nq := 2, cores := [3], bank := 1, fReserved := 256, bReserved := 63 })] }
theorem witness_WorkQueues_1 :
    (let s : State := qf
     let grp : BitVec 4 := 2
     let wq : BitVec 6 := 21
     let stage : Nat := 5
     (s.mayIssue) ∧
     (s.full (quad grp)) ∧
     (grp ≠ 0) ∧
     (s.ownerOf wq.toNat = some stage) ∧
     let q := s.wq wq.toNat
     let word (j : Nat) : SReg := s.cur.s (4 * grp.toNat + j)
     let kind := ((word 0).extractLsb' 0 3).toNat
     let arrival := (word 0).getLsbD 7
     let sound : Prop := (word 0).extractLsb' 34 30 = 0 ∧ (word 0).extractLsb' 3 4 = 0 ∧ (kind < 4 ∨ kind = 7)
              ∧ (arrival = true → kind = 0 ∨ kind = 2) ∧ (word 3).extractLsb' 32 32 = 0
     let full : Prop := (s.stage stage).arrivalFull (decide (kind = 2)) = true
     (sound) ∧
     (arrival = true) ∧
     (full) ∧
     (q.closed = false))
    ∧ (let s : State := qs { records := [rr 1], closed := true, reserved := 62 } 7
       let grp : BitVec 4 := 2
       let wq : BitVec 6 := 21
       let stage : Nat := 5
       (s.mayIssue) ∧
       (s.full (quad grp)) ∧
       (grp ≠ 0) ∧
       (s.ownerOf wq.toNat = some stage) ∧
       let q := s.wq wq.toNat
       let word (j : Nat) : SReg := s.cur.s (4 * grp.toNat + j)
       let kind := ((word 0).extractLsb' 0 3).toNat
       let arrival := (word 0).getLsbD 7
       let sound : Prop := (word 0).extractLsb' 34 30 = 0 ∧ (word 0).extractLsb' 3 4 = 0 ∧ (kind < 4 ∨ kind = 7)
                ∧ (arrival = true → kind = 0 ∨ kind = 2) ∧ (word 3).extractLsb' 32 32 = 0
       (sound) ∧
       (arrival = false) ∧
       (q.closed = true))
    ∧ (let s : State := qs { records := [rr 1, rr 5] }
       let grp : BitVec 4 := 2
       let wq : BitVec 6 := 21
       let stage : Nat := 5
       (s.mayIssue) ∧
       (s.full (quad grp)) ∧
       (grp ≠ 0) ∧
       (s.ownerOf wq.toNat = some stage) ∧
       let q := s.wq wq.toNat
       (q.bound = []) ∧
       ((q.waiters = [] ∨ q.waiters = [(s.ctx.core, s.ctx.bank)])) ∧
       (match q.records with
        | r :: rest => true
        | _ => false) = true)
    ∧ (let s : State := qs { records := [], closed := true }
       let grp : BitVec 4 := 1
       let wq : BitVec 6 := 21
       let stage : Nat := 5
       (s.mayIssue) ∧
       (s.full (quad grp)) ∧
       (grp ≠ 0) ∧
       (s.ownerOf wq.toNat = some stage) ∧
       let q := s.wq wq.toNat
       (q.bound = []) ∧
       ((q.waiters = [] ∨ q.waiters = [(s.ctx.core, s.ctx.bank)])) ∧
       (q.records = []) ∧
       (q.closed = true))
    ∧ (let s : State := qs { records := [], closed := false }
       let grp : BitVec 4 := 1
       let wq : BitVec 6 := 21
       let stage : Nat := 5
       (s.mayIssue) ∧
       (s.full (quad grp)) ∧
       (grp ≠ 0) ∧
       (s.ownerOf wq.toNat = some stage) ∧
       let q := s.wq wq.toNat
       (q.bound = []) ∧
       ((q.waiters = [] ∨ q.waiters = [(s.ctx.core, s.ctx.bank)])) ∧
       (q.records = []) ∧
       (q.closed = false)) := by
  refine ⟨?_, ?_, ?_, ?_, ?_⟩ <;> decide +kernel
theorem witness_WorkQueues_2 :
    (let s : State := qs { records := [rr 1], closed := false }
     let grp : BitVec 4 := 2
     let wq : BitVec 6 := 21
     let stage : Nat := 5
     (s.mayIssue) ∧
     (s.full (quad grp)) ∧
     (grp ≠ 0) ∧
     (s.ownerOf wq.toNat = some stage) ∧
     let q := s.wq wq.toNat
     let taken := q.records.length + q.reserved
     let word (j : Nat) : SReg := s.cur.s (4 * grp.toNat + j)
     let kind := ((word 0).extractLsb' 0 3).toNat
     let arrival := (word 0).getLsbD 7
     let sound : Prop := (word 0).extractLsb' 34 30 = 0 ∧ (word 0).extractLsb' 3 4 = 0 ∧ (kind < 4 ∨ kind = 7)
              ∧ (arrival = true → kind = 0 ∨ kind = 2) ∧ (word 3).extractLsb' 32 32 = 0
     (sound) ∧
     (arrival = false) ∧
     (q.closed = false) ∧
     (taken < 64))
    ∧ (let s : State := qs { records := [rr 1], closed := false, reserved := 63 }
       let grp : BitVec 4 := 2
       let wq : BitVec 6 := 21
       let stage : Nat := 5
       (s.mayIssue) ∧
       (s.full (quad grp)) ∧
       (grp ≠ 0) ∧
       (s.ownerOf wq.toNat = some stage) ∧
       let q := s.wq wq.toNat
       let taken := q.records.length + q.reserved
       let word (j : Nat) : SReg := s.cur.s (4 * grp.toNat + j)
       let kind := ((word 0).extractLsb' 0 3).toNat
       let arrival := (word 0).getLsbD 7
       let sound : Prop := (word 0).extractLsb' 34 30 = 0 ∧ (word 0).extractLsb' 3 4 = 0 ∧ (kind < 4 ∨ kind = 7)
                ∧ (arrival = true → kind = 0 ∨ kind = 2) ∧ (word 3).extractLsb' 32 32 = 0
       (sound) ∧
       (arrival = false) ∧
       (q.closed = false) ∧
       (64 ≤ taken))
    ∧ (let s : State := qs { records := [rr 1], closed := true, reserved := 62 } 8
       let grp : BitVec 4 := 2
       let wq : BitVec 6 := 21
       let stage : Nat := 5
       (s.mayIssue) ∧
       (s.full (quad grp)) ∧
       (grp ≠ 0) ∧
       (s.ownerOf wq.toNat = some stage) ∧
       let word (j : Nat) : SReg := s.cur.s (4 * grp.toNat + j)
       let kind := ((word 0).extractLsb' 0 3).toNat
       let arrival := (word 0).getLsbD 7
       let sound : Prop := (word 0).extractLsb' 34 30 = 0 ∧ (word 0).extractLsb' 3 4 = 0 ∧ (kind < 4 ∨ kind = 7)
                ∧ (arrival = true → kind = 0 ∨ kind = 2) ∧ (word 3).extractLsb' 32 32 = 0
       (¬ sound))
    ∧ (let s : State := qs { records := [rr 1], closed := true, reserved := 62 } 0x80
       let grp : BitVec 4 := 2
       let wq : BitVec 6 := 21
       let stage : Nat := 5
       (s.mayIssue) ∧
       (s.full (quad grp)) ∧
       (grp ≠ 0) ∧
       (s.ownerOf wq.toNat = some stage) ∧
       let word (j : Nat) : SReg := s.cur.s (4 * grp.toNat + j)
       let kind := ((word 0).extractLsb' 0 3).toNat
       let arrival := (word 0).getLsbD 7
       let sound : Prop := (word 0).extractLsb' 34 30 = 0 ∧ (word 0).extractLsb' 3 4 = 0 ∧ (kind < 4 ∨ kind = 7)
                ∧ (arrival = true → kind = 0 ∨ kind = 2) ∧ (word 3).extractLsb' 32 32 = 0
       let full : Prop := (s.stage stage).arrivalFull (decide (kind = 2)) = true
       (sound) ∧
       (arrival = true) ∧
       (¬ full)) := by
  refine ⟨?_, ?_, ?_, ?_⟩ <;> decide +kernel
end WWorkQueues

namespace WMarkersAndAtomics
def kc : Bank := { vb with sregs := [(1, 65535), (2, 65536), (3, 2^28-1), (4, 2^28), (5, 0x300000000001004)] }
theorem witness_MarkersAndAtomics :
    (let s : State := stOf kc
     let opa : BitVec 6 := 1
     let opb : BitVec 6 := 5
     let order : BitVec 2 := 1
     let size : BitVec 1 := 0
     let scope : BitVec 3 := 0
     let fn : BitVec 4 := 8
     (s.mayIssue) ∧
     (s.full [.s opa.toNat, .s (opa.toNat + 1), .s opb.toNat]) ∧
     let b := s.cur.s opb.toNat
     let a := s.cur.s opa.toNat
     (0 < a.toNat) ∧
     (a.toNat ≤ 65535) ∧
     (a.toNat < 2 ^ 28) ∧
     (order ≠ 0) ∧
     (scope.toNat ≤ 5) ∧
     (fn.toNat ≤ 10) ∧
     (¬ (fn = 10 ∧ size = 1)) ∧
     ((fn = 9 → opa.getLsbD 0 = false)) ∧
     (b.toNat % (if size = 0 then 4 else 8) = 0))
    ∧ (let s : State := stOf kc
       let opa : BitVec 6 := 2
       let opb : BitVec 6 := 5
       let size : BitVec 1 := 1
       let scope : BitVec 3 := 3
       let fn : BitVec 4 := 8
       (s.mayIssue) ∧
       (s.full [.s opa.toNat, .s (opa.toNat + 1), .s opb.toNat]) ∧
       let b := s.cur.s opb.toNat
       (fn.toNat ≤ 10) ∧
       (¬ (fn = 10 ∧ size = 1)) ∧
       ((fn = 9 → opa.getLsbD 0 = false)) ∧
       (scope.toNat ≤ 5) ∧
       (b.toNat % (if size = 0 then 4 else 8) ≠ 0)) := by
  refine ⟨?_, ?_⟩ <;> decide +kernel
end WMarkersAndAtomics

namespace WBarrierWaitAndPhase
def bs (x : Barrier) (k : Bank := vb) : State := (stOf k).setBarrier 0 9 x
theorem witness_BarrierWaitAndPhase :
    (let s : State := bs { phase := 5, doneClk := 3, lastErr := 0x211 } {vb with arrival := [(9, 5)]}
     let opa : BitVec 6 := 5
     let bar : BitVec 6 := 9
     ((s.mayIssue) ∧
       (s.full [.s opa.toNat]) ∧
       let neighbours := s.regs.lasts
       (neighbours = [])) ∧
     ((s.mayIssue) ∧
       (s.full [.s opa.toNat]) ∧
       let x := s.barrier (clusterOf s.ctx.core) bar.toNat
       let awaited := (tfind bar.toNat s.cur.arrival).getD x.phase
       let held (q : BitVec 8) : Prop := ∃ w ∈ s.cur.waiting, w.bundle = s.ctx.addr ∧ w.phase = some q
       let fresh : Prop := ∀ w ∈ s.cur.waiting, w.bundle ≠ s.ctx.addr ∨ w.phase = none
       let chosen (q : BitVec 8) : Prop := held q ∨ (fresh ∧ s.cur.barrPending s.clk bar.toNat = false ∧ q = awaited)
       let q : BitVec 8 := 5
       (chosen q) ∧
       (x.phase = q ∨ (x.phase = q + 1 ∧ s.clk ≤ x.doneClk))))
    ∧ (let s : State := {bs {} with regs.nbr := [(2, 2^32 + 2^39)], regs.lead := 1, regs.phase := 5}
       let opa : BitVec 6 := 0
       (s.mayIssue) ∧
       (s.full [.s opa.toNat]) ∧
       let p := s.regs.phase
       let ahead (l : BitVec 32) : Prop := (s.regs.lead : Int) < (p + 1 - l).toInt
       let neighbours := s.regs.lasts
       let least (l : BitVec 32) : Prop := l ∈ neighbours ∧ (neighbours.all fun m => (l - p).toInt ≤ (m - p).toInt) = true
       ((neighbours).any fun l => decide (
        (least l) ∧
       (ahead l))) = true)
    ∧ (let s : State := {bs {} with regs.nbr := [(2, 2^32 + 2^39 + 5)], regs.lead := 1, regs.phase := 5}
       let opa : BitVec 6 := 0
       (s.mayIssue) ∧
       (s.full [.s opa.toNat]) ∧
       let p := s.regs.phase
       let ahead (l : BitVec 32) : Prop := (s.regs.lead : Int) < (p + 1 - l).toInt
       let neighbours := s.regs.lasts
       let least (l : BitVec 32) : Prop := l ∈ neighbours ∧ (neighbours.all fun m => (l - p).toInt ≤ (m - p).toInt) = true
       ((neighbours).any fun l => decide (
        (least l) ∧
       (¬ ahead l))) = true)
    ∧ (let s : State := bs { phase := 9, doneClk := 3, lastErr := 0x211 } {vb with arrival := [(9, 5)]}
       let opa : BitVec 6 := 5
       let bar : BitVec 6 := 9
       let te : BitVec 1 := 1
       (s.mayIssue) ∧
       (s.full [.s opa.toNat]) ∧
       let x := s.barrier (clusterOf s.ctx.core) bar.toNat
       let awaited := (tfind bar.toNat s.cur.arrival).getD x.phase
       let held (q : BitVec 8) : Prop := ∃ w ∈ s.cur.waiting, w.bundle = s.ctx.addr ∧ w.phase = some q
       let fresh : Prop := ∀ w ∈ s.cur.waiting, w.bundle ≠ s.ctx.addr ∨ w.phase = none
       let chosen (q : BitVec 8) : Prop := held q ∨ (fresh ∧ s.cur.barrPending s.clk bar.toNat = false ∧ q = awaited)
       let code (q : BitVec 8) : Nat := if x.phase = q + 1 then x.lastErr else 0xFFFF
       let q : BitVec 8 := 5
       (chosen q) ∧
       (x.phase ≠ q) ∧
       ((x.phase = q + 1 → x.doneClk < s.clk)) ∧
       (te = 1) ∧
       (code q ≠ 0))
    ∧ (let s : State := bs { phase := 6, doneClk := 3, lastErr := 0x211 } {vb with barrClk := [(9, 77)]}
       let opa : BitVec 6 := 5
       let bar : BitVec 6 := 9
       (s.mayIssue) ∧
       (s.full [.s opa.toNat]) ∧
       (s.cur.waiting = none) ∧
       (s.cur.barrPending s.clk bar.toNat = true))
    ∧ (let s : State := bs { phase := 6, doneClk := 76, lastErr := 0xFFFF } {vb with arrival := [(9, 5)]}
       let opa : BitVec 6 := 0
       let bar : BitVec 6 := 9
       let te : BitVec 1 := 0
       (s.mayIssue) ∧
       (s.full [.s opa.toNat]) ∧
       let x := s.barrier (clusterOf s.ctx.core) bar.toNat
       let awaited := (tfind bar.toNat s.cur.arrival).getD x.phase
       let held (q : BitVec 8) : Prop := ∃ w ∈ s.cur.waiting, w.bundle = s.ctx.addr ∧ w.phase = some q
       let fresh : Prop := ∀ w ∈ s.cur.waiting, w.bundle ≠ s.ctx.addr ∨ w.phase = none
       let chosen (q : BitVec 8) : Prop := held q ∨ (fresh ∧ s.cur.barrPending s.clk bar.toNat = false ∧ q = awaited)
       let code (q : BitVec 8) : Nat := if x.phase = q + 1 then x.lastErr else 0xFFFF
       let q : BitVec 8 := 5
       (chosen q) ∧
       (x.phase ≠ q) ∧
       ((x.phase = q + 1 → x.doneClk < s.clk)) ∧
       (te = 0 ∨ code q = 0)) := by
  refine ⟨?_, ?_, ?_, ?_, ?_, ?_⟩ <;> decide +kernel
end WBarrierWaitAndPhase

namespace WCsrAccess
def kc : Bank := { vb with priv := true, tvec := 0x101, trec := [(0,0x1234),(1,8),(2,16),(3,9)] }
theorem witness_CsrAccess :
    (let s : State := stOf kc
     let opa : BitVec 6 := 1
     let csr : BitVec 12 := 0
     (s.mayIssue) ∧
     (s.full [.s opa.toNat]) ∧
     (s.cur.priv = true) ∧
     (csrKnown csr.toNat = true) ∧
     let n := csr.toNat
     (csrLocal n = true))
    ∧ (let s : State := stOf kc
       let opa : BitVec 6 := 1
       let csr : BitVec 12 := 0x20
       (s.mayIssue) ∧
       (s.full [.s opa.toNat]) ∧
       (s.cur.priv = true) ∧
       (csrKnown csr.toNat = true) ∧
       let n := csr.toNat
       (csrLocal n = false)) := by
  refine ⟨?_, ?_⟩ <;> decide +kernel
end WCsrAccess

namespace WReturnSwitchIdleAndSwap
def kc : Bank := { vb with priv := true, tvec := 0x101, trec := [(0,0x1234),(1,8),(2,16),(3,9)], sregs := [(1, 21), (2, 5), (3, 32)] }
def ws (f : Core → Core) (k : Bank := kc) : State := let s := stOf k; s.setCore 3 (f (s.core 3))
def stg (l : List Nat) (s : State) : State := { s with stages := [(5, { configured := true, partition := 5, cores := l, bank := 1 })] }
theorem witness_ReturnSwitchIdleAndSwap :
    (let s : State := ws (fun x => x) { kc with idle := true }
     (s.mayIssue) ∧
     (s.cur.priv = true) ∧
     let x := s.core s.ctx.core
     let other := x.bank (1 - s.ctx.bank)
     (¬ (other.state = .runnable ∧ other.stopped = false)) ∧
     (x.wakePending = false) ∧
     (s.cur.woken = false))
    ∧ (let s : State := stg [4] (ws fun x => x)
       let opa : BitVec 6 := 2
       (s.mayIssue) ∧
       (s.full [.s opa.toNat]) ∧
       (s.cur.priv = true) ∧
       ((s.cur.s opa.toNat).toNat < 32) ∧
       let p := (s.cur.s opa.toNat).toNat % 16
       let b := (s.cur.s opa.toNat).toNat / 16
       let inside : Prop := s.ctx.core ∈ s.partitionCores p
       let resumes : Prop := inside ∧ s.ctx.bank = b ∧ s.swapStatus p b = 2
                ∧ ∀ c ∈ s.partitionCores p, c ≠ s.ctx.core → (s.bank c b).idle = true
       (inside ∨ s.swapStatus p b ≠ 0) ∧
       (¬ resumes))
    ∧ (let s : State := stg [8, 9] (ws fun x => x)
       let opa : BitVec 6 := 1
       (s.mayIssue) ∧
       (s.full [.s opa.toNat]) ∧
       (s.cur.priv = true) ∧
       ((s.cur.s opa.toNat).toNat < 32) ∧
       let p := (s.cur.s opa.toNat).toNat % 16
       let b := (s.cur.s opa.toNat).toNat / 16
       let inside : Prop := s.ctx.core ∈ s.partitionCores p
       (¬ inside) ∧
       (s.swapStatus p b = 0) ∧
       (s.needsAlternate p b = false))
    ∧ (let s : State := ws fun x => { x with bank0 := { state := .runnable } }
       (s.mayIssue) ∧
       (s.cur.priv = true) ∧
       let x := s.core s.ctx.core
       let other := x.bank (1 - s.ctx.bank)
       (other.state = .runnable) ∧
       (other.stopped = false) ∧
       (x.drain = none))
    ∧ (let s : State := ws fun x => { x with bank0 := { state := .runnable, stopped := true }, wakePending := true }
       (s.mayIssue) ∧
       (s.cur.priv = true) ∧
       let x := s.core s.ctx.core
       (x.wakePending = true))
    ∧ (let s : State := [0,1,2,4,5,6,7].foldl (fun s c => s.setBank c 1 { s.bank c 1 with idle := true }) (let s := stg [3, 4] (ws fun x => x); s.setCluster 0 { s.cluster 0 with shadow := (List.range 8).map fun c => (c, 1, {}) })
       let opa : BitVec 6 := 1
       (s.mayIssue) ∧
       (s.full [.s opa.toNat]) ∧
       (s.cur.priv = true) ∧
       ((s.cur.s opa.toNat).toNat < 32) ∧
       let p := (s.cur.s opa.toNat).toNat % 16
       let b := (s.cur.s opa.toNat).toNat / 16
       let inside : Prop := s.ctx.core ∈ s.partitionCores p
       let resumes : Prop := inside ∧ s.ctx.bank = b ∧ s.swapStatus p b = 2
                ∧ ∀ c ∈ s.partitionCores p, c ≠ s.ctx.core → (s.bank c b).idle = true
       (resumes)) := by
  refine ⟨?_, ?_, ?_, ?_, ?_, ?_⟩ <;> decide +kernel
end WReturnSwitchIdleAndSwap

namespace WSystemCommands
def kc : Bank := { vb with priv := true, sregs := [(1, 4096), (2, 2^48), (3, 4095), (4, 64), (5, 0x1000000000000)] }
theorem witness_SystemCommands :
    (let s : State := stOf kc
     let opa : BitVec 6 := 1
     let opb : BitVec 6 := 2
     (s.mayIssue) ∧
     (s.full [.s opa.toNat, .s opb.toNat]) ∧
     (s.cur.priv = true) ∧
     let a := s.cur.s opa.toNat
     let b := s.cur.s opb.toNat
     (a.toNat % 4096 = 0) ∧
     (b.toNat % 4096 = 0) ∧
     (0 < b.toNat) ∧
     (b.toNat ≤ 2 ^ 48) ∧
     (a.toNat % 64 = 0))
    ∧ (let s : State := stOf kc
       let opa : BitVec 6 := 4
       let opb : BitVec 6 := 3
       (s.mayIssue) ∧
       (s.full [.s opa.toNat, .s opb.toNat]) ∧
       (s.cur.priv = true) ∧
       let b := s.cur.s opb.toNat
       (b.toNat < 4096)) := by
  refine ⟨?_, ?_⟩ <;> decide +kernel
end WSystemCommands

namespace WLoadsPerformed
def ls (e : QEntry) : State := memd (evOf { vb with queue := [qe (.barr 3), e], sEmpty := 0x300 })
def c1 (sz : BitVec 3) (a : Nat) := ls (qe (.ldc sz 8 1 3) a)
def g1 (sz : BitVec 3) (a : Nat) := ls (qe (.ldg sz 8 1 3) a)
def st2 (e : QEntry) : State := let s := ls e; { (s.setDie 0 { s.die 0 with stash := [(77, {state := 3, mode := 2, checksum := some 4, err := 0x11, loc := 2, stage := 5, len := 64})] }) with norms := [(3, ⟨BitVec.allOnes 128, 0x85⟩), (4, ⟨12345678901234567890123, 3⟩)] }
def lrow (i : Instr) (a : Nat) (d : List Nat) : QEntry := { qe i a with done := d, got := 0x77 }
def d31 : List Nat := (List.range 32).filter (· ≠ 3)
def lcl (z : BitVec 3) (sure : Bool) : QEntry := { qe (.ldg z 8 1 3) 0x10030 with claimed := some 0x123456789ABCDEF0112233445566778899, sure := sure }
theorem witness_LoadsPerformed_1 :
    (let s : State := c1 0 48
     let c : Nat := 3
     let b : Nat := 1
     let i : Nat := 1
     let e : QEntry := qe (.ldc 0 8 1 3) 48
     let size : BitVec 3 := 0
     let rd : BitVec 6 := 8
     let x : BitVec 6 := 1
     let off : BitVec 8 := 3
     (s.failed = false) ∧
     (s.performable c b i = some e) ∧
     (e.done = []) ∧
     (e.got = 0) ∧
     (e.phase = 0) ∧
     let n := loadBytes size
     (e.addr % n = 0 ∨ e.addr % 32 + n ≤ 32) ∧
     let q := s.cluster (clusterOf c)
     (e.ins = .ldc size rd x off) ∧
     (e.claimed = none) ∧
     (q.check e.addr n = none))
    ∧ (let s : State := g1 0 0x10030
       let c : Nat := 3
       let b : Nat := 1
       let i : Nat := 1
       let out : List (Bool × Nat × BitVec 8) := []
       let e : QEntry := qe (.ldg 0 8 1 3) 0x10030
       let size : BitVec 3 := 0
       let rd : BitVec 6 := 8
       let x : BitVec 6 := 1
       let off : BitVec 8 := 3
       (s.failed = false) ∧
       (s.performable c b i = some e) ∧
       (e.done = []) ∧
       (e.got = 0) ∧
       (e.phase = 0) ∧
       let n := loadBytes size
       (e.addr % n = 0 ∨ e.addr % 32 + n ≤ 32) ∧
       let s' := s.outside out
       let k := s'.bank c b
       let checked := s'.checkGlobal (s'.extentsOf k) e.priv false true e.addr n
       (e.ins = .ldg size rd x off) ∧
       (match checked with
        | .inr l => decide ((e.claimed = none ∨ e.sure = false))
        | _ => false) = true)
    ∧ (let s : State := g1 4 0x300000
       let c : Nat := 3
       let b : Nat := 1
       let i : Nat := 1
       let out : List (Bool × Nat × BitVec 8) := []
       let e : QEntry := qe (.ldg 4 8 1 3) 0x300000
       let size : BitVec 3 := 4
       let rd : BitVec 6 := 8
       let x : BitVec 6 := 1
       let off : BitVec 8 := 3
       (s.failed = false) ∧
       (s.performable c b i = some e) ∧
       (e.done = []) ∧
       (e.got = 0) ∧
       (e.phase = 0) ∧
       let n := loadBytes size
       (e.addr % n = 0 ∨ e.addr % 32 + n ≤ 32) ∧
       let s' := s.outside out
       let k := s'.bank c b
       let checked := s'.checkGlobal (s'.extentsOf k) e.priv false true e.addr n
       (e.ins = .ldg size rd x off) ∧
       (match checked with
        | .inl cause => decide ((0x30 ≤ cause))
        | _ => false) = true)
    ∧ (let s : State := g1 4 0x500000
       let c : Nat := 3
       let b : Nat := 1
       let i : Nat := 1
       let out : List (Bool × Nat × BitVec 8) := []
       let e : QEntry := qe (.ldg 4 8 1 3) 0x500000
       let size : BitVec 3 := 4
       let rd : BitVec 6 := 8
       let x : BitVec 6 := 1
       let off : BitVec 8 := 3
       (s.failed = false) ∧
       (s.performable c b i = some e) ∧
       (e.done = []) ∧
       (e.got = 0) ∧
       (e.phase = 0) ∧
       let n := loadBytes size
       (e.addr % n = 0 ∨ e.addr % 32 + n ≤ 32) ∧
       let s' := s.outside out
       let k := s'.bank c b
       let checked := s'.checkGlobal (s'.extentsOf k) e.priv false true e.addr n
       (e.ins = .ldg size rd x off) ∧
       (match checked with
        | .inl cause => decide ((cause < 0x30))
        | _ => false) = true)
    ∧ (let s : State := c1 0 0x2000000
       let c : Nat := 3
       let b : Nat := 1
       let i : Nat := 1
       let e : QEntry := qe (.ldc 0 8 1 3) 0x2000000
       let size : BitVec 3 := 0
       let rd : BitVec 6 := 8
       let x : BitVec 6 := 1
       let off : BitVec 8 := 3
       (s.failed = false) ∧
       (s.performable c b i = some e) ∧
       (e.done = []) ∧
       (e.got = 0) ∧
       (e.phase = 0) ∧
       let n := loadBytes size
       (e.addr % n = 0 ∨ e.addr % 32 + n ≤ 32) ∧
       let q := s.cluster (clusterOf c)
       (e.ins = .ldc size rd x off) ∧
       (e.claimed = none) ∧
       (match q.check e.addr n with
        | some cause => true
        | _ => false) = true) := by
  refine ⟨?_, ?_, ?_, ?_, ?_⟩ <;> decide +kernel
theorem witness_LoadsPerformed_2 :
    (let s : State := st2 (qe (.nrmrd 8 1 3) 0 [])
     let c : Nat := 3
     let b : Nat := 1
     let i : Nat := 1
     let e : QEntry := qe (.nrmrd 8 1 3) 0 []
     let rd : BitVec 6 := 8
     let wantE : BitVec 1 := 1
     let norm : BitVec 8 := 3
     (s.failed = false) ∧
     (s.performable c b i = some e) ∧
     (e.ins = .nrmrd rd wantE norm) ∧
     (wantE = 1))
    ∧ (let s : State := st2 (qe (.nrmrd 8 0 4) 0 [])
       let c : Nat := 3
       let b : Nat := 1
       let i : Nat := 1
       let e : QEntry := qe (.nrmrd 8 0 4) 0 []
       let rd : BitVec 6 := 8
       let wantE : BitVec 1 := 0
       let norm : BitVec 8 := 4
       (s.failed = false) ∧
       (s.performable c b i = some e) ∧
       (e.ins = .nrmrd rd wantE norm) ∧
       (wantE = 0))
    ∧ (let s : State := ls (lrow (.ldcv 9 1 2) 0 d31)
       let c : Nat := 3
       let b : Nat := 1
       let i : Nat := 1
       let j : Nat := 3
       let e : QEntry := lrow (.ldcv 9 1 2) 0 d31
       let rd : BitVec 7 := 9
       let x : BitVec 6 := 1
       let off : BitVec 8 := 2
       (s.failed = false) ∧
       (s.performable c b i = some e) ∧
       (j < 32) ∧
       (j ∉ e.done) ∧
       (b < 2) ∧
       (e.phase = 0) ∧
       let q := s.cluster (clusterOf c)
       (e.ins = .ldcv rd x off) ∧
       ((e.done = [] → q.check e.addr 512 = none)))
    ∧ (let s : State := st2 (qe (.csrr 9 0x400) 0 [])
       let c : Nat := 3
       let b : Nat := 1
       let i : Nat := 1
       let e : QEntry := qe (.csrr 9 0x400) 0 []
       let rd : BitVec 6 := 9
       let csr : BitVec 12 := 0x400
       (s.failed = false) ∧
       (s.performable c b i = some e) ∧
       (e.ins = .csrr rd csr))
    ∧ (let s : State := ls (lrow (.ldgv 9 1 2) 0x10000 [])
       let c : Nat := 3
       let b : Nat := 1
       let i : Nat := 1
       let j : Nat := 3
       let out : List (Bool × Nat × BitVec 8) := []
       let e : QEntry := lrow (.ldgv 9 1 2) 0x10000 []
       let rd : BitVec 7 := 9
       let x : BitVec 6 := 1
       let off : BitVec 8 := 2
       (s.failed = false) ∧
       (s.performable c b i = some e) ∧
       (j < 32) ∧
       (j ∉ e.done) ∧
       (b < 2) ∧
       (e.phase = 0) ∧
       let s' := s.outside out
       let k := s'.bank c b
       let xt := s'.extentsOf k
       (e.ins = .ldgv rd x off) ∧
       (e.done = []) ∧
       (match s'.checkGlobal xt e.priv false true e.addr 512 with
        | .inr l => true
        | _ => false) = true) := by
  refine ⟨?_, ?_, ?_, ?_, ?_⟩ <;> decide +kernel
theorem witness_LoadsPerformed_3 :
    (let s : State := ls (lrow (.ldgv 9 1 2) 0x10000 d31)
     let c : Nat := 3
     let b : Nat := 1
     let i : Nat := 1
     let j : Nat := 3
     let e : QEntry := lrow (.ldgv 9 1 2) 0x10000 d31
     let rd : BitVec 7 := 9
     let x : BitVec 6 := 1
     let off : BitVec 8 := 2
     (s.failed = false) ∧
     (s.performable c b i = some e) ∧
     (j < 32) ∧
     (j ∉ e.done) ∧
     (b < 2) ∧
     (e.phase = 0) ∧
     (e.ins = .ldgv rd x off) ∧
     (e.done ≠ []))
    ∧ (let s : State := st2 (qe (.sprobe 9 8) 0 [0xFFFF00000000004D])
       let c : Nat := 3
       let b : Nat := 1
       let i : Nat := 1
       let e : QEntry := qe (.sprobe 9 8) 0 [0xFFFF00000000004D]
       let rd : BitVec 6 := 9
       let x : BitVec 6 := 8
       (s.failed = false) ∧
       (s.performable c b i = some e) ∧
       let d := dieOf c
       let key := (e.ops.headD 0).toNat % 2 ^ 32
       (e.ins = .sprobe rd x) ∧
       (s.unseen d key = false))
    ∧ (let s : State := g1 2 0x10030 |> fun s => s.setBank 3 1 { s.bank 3 1 with queue := (s.bank 3 1).queue.map fun e => if e.ins = .ldg 2 8 1 3 then lcl 2 true else e }
       let c : Nat := 3
       let b : Nat := 1
       let i : Nat := 1
       let out : List (Bool × Nat × BitVec 8) := []
       let e : QEntry := lcl 2 true
       let size : BitVec 3 := 2
       let rd : BitVec 6 := 8
       let x : BitVec 6 := 1
       let off : BitVec 8 := 3
       (s.failed = false) ∧
       (s.performable c b i = some e) ∧
       (e.done = []) ∧
       (e.got = 0) ∧
       (e.phase = 0) ∧
       let n := loadBytes size
       (e.addr % n = 0 ∨ e.addr % 32 + n ≤ 32) ∧
       let s' := s.outside out
       let k := s'.bank c b
       let checked := s'.checkGlobal (s'.extentsOf k) e.priv false true e.addr n
       (e.ins = .ldg size rd x off) ∧
       (match checked with
        | .inr l => decide ((match e.claimed with
        | some d => decide ((e.sure = true))
        | _ => false) = true)
        | _ => false) = true) := by
  refine ⟨?_, ?_, ?_⟩ <;> decide +kernel
end WLoadsPerformed

namespace WStoresAndAtomicsPerformed
def ls (e : QEntry) : State := memd (evOf { vb with queue := [qe (.bpoll 1 3), e], sEmpty := 0x300 })
def qs (e : QEntry) : State := let s := ls e; { (s) with norms := [(3, ⟨BitVec.allOnes 128, 0x85⟩), (4, ⟨12345678901234567890123, 3⟩)] }
def d2 : List SReg := [0x1122334455667788, 0x99AABBCCDDEEFF00]
def srow (i : Instr) (a : Nat) (d : List Nat) (v : SReg := 128) : QEntry := { qe i a [v] with done := d, row := r32 3 }
def nob (s : State) : State := s.setDie 0 { s.die 0 with free := [] }
def sxe : QEntry := { qe (.stgx 9 1 2) 0x10200 [2, 0] with row := rowOf 32 ((List.range 128).map fun i => if i % 9 = 0 then 0x40000000 else 0) }
def sx (h : Nat) : State := let s := qs sxe; s.setDie 0 { s.die 0 with home := lay (s.die 0).home 0x400200 (natBytes 64 h) }
def sc (z : BitVec 3) (a : Nat) : QEntry := qe (.stc z 8 1 3) a d2
def sg (z : BitVec 3) (a : Nat) : QEntry := qe (.stg z 8 1 3) a d2
def am (nr size : BitVec 1) (fn : BitVec 4) (a : Nat := 0x10008) (o : BitVec 2 := 0) (sc : BitVec 3 := 2) (d : List SReg := d2) : QEntry := qe (.amo o 8 9 nr sc size fn) a d
theorem witness_StoresAndAtomicsPerformed_1 :
    (let s : State := qs (sc 0 48)
     let c : Nat := 3
     let b : Nat := 1
     let i : Nat := 1
     let e : QEntry := sc 0 48
     let size : BitVec 3 := 0
     let rd : BitVec 6 := 8
     let x : BitVec 6 := 1
     let off : BitVec 8 := 3
     (s.failed = false) ∧
     (s.performable c b i = some e) ∧
     (e.done = []) ∧
     (size.toNat ≤ 4) ∧
     let n := 2 ^ size.toNat
     (e.addr % n = 0) ∧
     let q := s.cluster (clusterOf c)
     (e.ins = .stc size rd x off) ∧
     (q.check e.addr n = none))
    ∧ (let s : State := qs (am 0 0 0)
       let c : Nat := 3
       let b : Nat := 1
       let i : Nat := 1
       let out : List (Bool × Nat × BitVec 8) := []
       let e : QEntry := am 0 0 0
       let order : BitVec 2 := 0
       let rd : BitVec 6 := 8
       let x : BitVec 6 := 9
       let nr : BitVec 1 := 0
       let size : BitVec 1 := 0
       let scope : BitVec 3 := 2
       let fn : BitVec 4 := 0
       (s.failed = false) ∧
       (s.performable c b i = some e) ∧
       (e.ins = .amo order rd x nr scope size fn) ∧
       (fn.toNat ≤ 10) ∧
       let n := if size = 0 then 4 else 8
       let s' := s.outside out
       let xt := s'.extentsOf (s'.bank c b)
       (match s'.checkGlobal xt e.priv true true e.addr n with
        | .inr l => decide ((s'.heldByMigration l = false) ∧
       let loc := (l.head?.map (·.loc)).getD .nothing
       let m := ((if order = 2 ∨ order = 3 then s'.release c b scope.toNat else s').toMemory (clusterOf c) loc n)
       let old := m.rawRead loc n
       let v0 := (e.ops.headD 0).toNat
       let v := v0 % 2 ^ (8 * n)
       let signed (y : Nat) : Int := (BitVec.ofNat (8 * n) y).toInt
       let new : Option Nat := match fn.toNat with
                      | 0 => some ((old + v) % 2 ^ (8 * n))
                      | 1 => some (if signed old ≤ signed v then old else v)
                      | 2 => some (if signed old ≤ signed v then v else old)
                      | 3 => some (min old v)
                      | 4 => some (max old v)
                      | 5 => some (old &&& v)
                      | 6 => some (old ||| v)
                      | 7 => some (old ^^^ v)
                      | 8 => some v
                      | 9 => if old = v then some (((e.ops[1]?).getD 0).toNat % 2 ^ (8 * n)) else none
                      | _ => some (Fmt.fp32.ofVal .rne false ((Fmt.fp32.decode old).add (Fmt.fp32.decode v)))
       let written : State ⊕ (Nat × Nat) := match new with
                      | none => .inl m
                      | some y => account m (m.rawWrite loc n y) (.bank c b) (touches l)
       (match written with
        | .inl w => true
        | _ => false) = true)
        | _ => false) = true)
    ∧ (let s : State := sx (hdrN 0x10400 65 64 2 0 1 0)
       let c : Nat := 3
       let b : Nat := 1
       let i : Nat := 1
       let e : QEntry := sxe
       let rd : BitVec 7 := 9
       let x : BitVec 6 := 1
       let o : BitVec 8 := 2
       (s.failed = false) ∧
       (s.performable c b i = some e) ∧
       (e.ins = .stgx rd x o) ∧
       (e.phase = 0) ∧
       let k := s.bank c b
       let xt := s.extentsOf k
       (match s.checkGlobal xt e.priv true true e.addr 64 with
        | .inr hl => decide (let loc := (hl.head?.map (·.loc)).getD .nothing
       let m := s.toMemory (clusterOf c) loc 64
       let h := Header.ofNat (m.rawRead loc 64)
       let f := (e.ops.headD 0).toNat
       let src : SparseSource := { fmt := f, tag := ((e.ops[1]?).getD 0).setWidth 16, elems := unpack (8 * codeBytes f) 128 e.row.toNat }
       let block := sparseStored src h.point
       (sparseHeaderBad h src false = false) ∧
       (h.cap < h.len + block.length))
        | _ => false) = true)
    ∧ (let s : State := qs (sg 0 0x10030)
       let c : Nat := 3
       let b : Nat := 1
       let i : Nat := 1
       let e : QEntry := sg 0 0x10030
       let size : BitVec 3 := 0
       let rd : BitVec 6 := 8
       let x : BitVec 6 := 1
       let off : BitVec 8 := 3
       (s.failed = false) ∧
       (s.performable c b i = some e) ∧
       (e.done = []) ∧
       (size.toNat ≤ 4) ∧
       let n := 2 ^ size.toNat
       (e.addr % n = 0) ∧
       let k := s.bank c b
       let xt := s.extentsOf k
       let data := (e.ops.headD 0).toNat + 2 ^ 64 * ((e.ops[1]?).getD 0).toNat
       let checked := s.checkGlobal xt e.priv true true e.addr n
       (e.ins = .stg size rd x off) ∧
       (match checked with
        | .inr l => decide ((s.heldByMigration l = false) ∧
       let whole := account s (s.wholeStore c b l (data % 256 ^ n)) (.bank c b) (touches l)
       (match whole with
        | .inl w => true
        | _ => false) = true)
        | _ => false) = true)
    ∧ (let s : State := sx (hdrN 0x10400 512 64 0 0 1 7)
       let c : Nat := 3
       let b : Nat := 1
       let i : Nat := 1
       let e : QEntry := sxe
       let rd : BitVec 7 := 9
       let x : BitVec 6 := 1
       let o : BitVec 8 := 2
       (s.failed = false) ∧
       (s.performable c b i = some e) ∧
       (e.ins = .stgx rd x o) ∧
       (e.phase = 0) ∧
       let k := s.bank c b
       let xt := s.extentsOf k
       (match s.checkGlobal xt e.priv true true e.addr 64 with
        | .inr hl => decide (let loc := (hl.head?.map (·.loc)).getD .nothing
       let m := s.toMemory (clusterOf c) loc 64
       let h := Header.ofNat (m.rawRead loc 64)
       let f := (e.ops.headD 0).toNat
       let src : SparseSource := { fmt := f, tag := ((e.ops[1]?).getD 0).setWidth 16, elems := unpack (8 * codeBytes f) 128 e.row.toNat }
       (sparseHeaderBad h src false = true))
        | _ => false) = true) := by
  refine ⟨?_, ?_, ?_, ?_, ?_⟩ <;> decide +kernel
theorem witness_StoresAndAtomicsPerformed_2 :
    (let s : State := sx (hdrN 0x10400 512 64 2 1 1 0)
     let c : Nat := 3
     let b : Nat := 1
     let i : Nat := 1
     let e : QEntry := sxe
     let rd : BitVec 7 := 9
     let x : BitVec 6 := 1
     let o : BitVec 8 := 2
     (s.failed = false) ∧
     (s.performable c b i = some e) ∧
     (e.ins = .stgx rd x o) ∧
     (e.phase = 0) ∧
     let k := s.bank c b
     let xt := s.extentsOf k
     (match s.checkGlobal xt e.priv true true e.addr 64 with
      | .inr hl => decide (let loc := (hl.head?.map (·.loc)).getD .nothing
     let m := s.toMemory (clusterOf c) loc 64
     let h := Header.ofNat (m.rawRead loc 64)
     let f := (e.ops.headD 0).toNat
     let src : SparseSource := { fmt := f, tag := ((e.ops[1]?).getD 0).setWidth 16, elems := unpack (8 * codeBytes f) 128 e.row.toNat }
     let block := sparseStored src h.point
     let place := (h.addr + h.len) % 2 ^ 64
     let lenPart : Part := { va := e.addr + 12, n := 4, ext := (hl.head?.bind (·.ext)), loc := loc.add 12 }
     (sparseHeaderBad h src false = false) ∧
     (h.len + block.length ≤ h.cap) ∧
     (match m.checkGlobal xt e.priv true true place block.length with
      | .inr bl => decide ((m.heldByMigration (hl ++ bl) = false) ∧
     let whole := account m ((m.wholeStore c b bl (bytesNat block)).rawWrite (loc.add 12) 4 (h.len + block.length)) (.bank c b)
                          (touches (bl ++ [lenPart]))
     (match whole with
      | .inl w => true
      | _ => false) = true)
      | _ => false) = true)
      | _ => false) = true)
    ∧ (let s : State := sx (hdrN 0x200000 512 64 2 0 1 0)
       let c : Nat := 3
       let b : Nat := 1
       let i : Nat := 1
       let e : QEntry := sxe
       let rd : BitVec 7 := 9
       let x : BitVec 6 := 1
       let o : BitVec 8 := 2
       (s.failed = false) ∧
       (s.performable c b i = some e) ∧
       (e.ins = .stgx rd x o) ∧
       (e.phase = 0) ∧
       let k := s.bank c b
       let xt := s.extentsOf k
       (match s.checkGlobal xt e.priv true true e.addr 64 with
        | .inr hl => decide (let loc := (hl.head?.map (·.loc)).getD .nothing
       let m := s.toMemory (clusterOf c) loc 64
       let h := Header.ofNat (m.rawRead loc 64)
       let f := (e.ops.headD 0).toNat
       let src : SparseSource := { fmt := f, tag := ((e.ops[1]?).getD 0).setWidth 16, elems := unpack (8 * codeBytes f) 128 e.row.toNat }
       let block := sparseStored src h.point
       let place := (h.addr + h.len) % 2 ^ 64
       (sparseHeaderBad h src false = false) ∧
       (h.len + block.length ≤ h.cap) ∧
       (match m.checkGlobal xt e.priv true true place block.length with
        | .inl cause => decide ((cause < 0x30))
        | _ => false) = true)
        | _ => false) = true)
    ∧ (let s : State := sx (hdrN 0x300000 512 64 2 0 1 0)
       let c : Nat := 3
       let b : Nat := 1
       let i : Nat := 1
       let e : QEntry := sxe
       let rd : BitVec 7 := 9
       let x : BitVec 6 := 1
       let o : BitVec 8 := 2
       (s.failed = false) ∧
       (s.performable c b i = some e) ∧
       (e.ins = .stgx rd x o) ∧
       (e.phase = 0) ∧
       let k := s.bank c b
       let xt := s.extentsOf k
       (match s.checkGlobal xt e.priv true true e.addr 64 with
        | .inr hl => decide (let loc := (hl.head?.map (·.loc)).getD .nothing
       let m := s.toMemory (clusterOf c) loc 64
       let h := Header.ofNat (m.rawRead loc 64)
       let f := (e.ops.headD 0).toNat
       let src : SparseSource := { fmt := f, tag := ((e.ops[1]?).getD 0).setWidth 16, elems := unpack (8 * codeBytes f) 128 e.row.toNat }
       let block := sparseStored src h.point
       let place := (h.addr + h.len) % 2 ^ 64
       (sparseHeaderBad h src false = false) ∧
       (h.len + block.length ≤ h.cap) ∧
       (match m.checkGlobal xt e.priv true true place block.length with
        | .inl cause => decide ((0x30 ≤ cause))
        | _ => false) = true)
        | _ => false) = true)
    ∧ (let s : State := qs (sg 2 0x200000)
       let c : Nat := 3
       let b : Nat := 1
       let i : Nat := 1
       let e : QEntry := sg 2 0x200000
       let size : BitVec 3 := 2
       let rd : BitVec 6 := 8
       let x : BitVec 6 := 1
       let off : BitVec 8 := 3
       (s.failed = false) ∧
       (s.performable c b i = some e) ∧
       (e.done = []) ∧
       (size.toNat ≤ 4) ∧
       let n := 2 ^ size.toNat
       (e.addr % n = 0) ∧
       let k := s.bank c b
       let xt := s.extentsOf k
       let checked := s.checkGlobal xt e.priv true true e.addr n
       (e.ins = .stg size rd x off) ∧
       (match checked with
        | .inl cause => decide ((cause < 0x30))
        | _ => false) = true)
    ∧ (let s : State := qs (sg 2 0x300000)
       let c : Nat := 3
       let b : Nat := 1
       let i : Nat := 1
       let e : QEntry := sg 2 0x300000
       let size : BitVec 3 := 2
       let rd : BitVec 6 := 8
       let x : BitVec 6 := 1
       let off : BitVec 8 := 3
       (s.failed = false) ∧
       (s.performable c b i = some e) ∧
       (e.done = []) ∧
       (size.toNat ≤ 4) ∧
       let n := 2 ^ size.toNat
       (e.addr % n = 0) ∧
       let k := s.bank c b
       let xt := s.extentsOf k
       let checked := s.checkGlobal xt e.priv true true e.addr n
       (e.ins = .stg size rd x off) ∧
       (match checked with
        | .inl cause => decide ((0x30 ≤ cause))
        | _ => false) = true) := by
  refine ⟨?_, ?_, ?_, ?_, ?_⟩ <;> decide +kernel
theorem witness_StoresAndAtomicsPerformed_3 :
    (let s : State := qs (sc 2 0x2000000)
     let c : Nat := 3
     let b : Nat := 1
     let i : Nat := 1
     let e : QEntry := sc 2 0x2000000
     let size : BitVec 3 := 2
     let rd : BitVec 6 := 8
     let x : BitVec 6 := 1
     let off : BitVec 8 := 3
     (s.failed = false) ∧
     (s.performable c b i = some e) ∧
     (e.done = []) ∧
     (size.toNat ≤ 4) ∧
     let n := 2 ^ size.toNat
     (e.addr % n = 0) ∧
     let q := s.cluster (clusterOf c)
     (e.ins = .stc size rd x off) ∧
     (match q.check e.addr n with
      | some cause => true
      | _ => false) = true)
    ∧ (let s : State := nob (qs (am 0 0 0))
       let c : Nat := 3
       let b : Nat := 1
       let i : Nat := 1
       let out : List (Bool × Nat × BitVec 8) := []
       let e : QEntry := am 0 0 0
       let order : BitVec 2 := 0
       let rd : BitVec 6 := 8
       let x : BitVec 6 := 9
       let nr : BitVec 1 := 0
       let size : BitVec 1 := 0
       let scope : BitVec 3 := 2
       let fn : BitVec 4 := 0
       (s.failed = false) ∧
       (s.performable c b i = some e) ∧
       (e.ins = .amo order rd x nr scope size fn) ∧
       (fn.toNat ≤ 10) ∧
       let n := if size = 0 then 4 else 8
       let s' := s.outside out
       let xt := s'.extentsOf (s'.bank c b)
       (match s'.checkGlobal xt e.priv true true e.addr n with
        | .inr l => decide ((s'.heldByMigration l = false) ∧
       let loc := (l.head?.map (·.loc)).getD .nothing
       let m := ((if order = 2 ∨ order = 3 then s'.release c b scope.toNat else s').toMemory (clusterOf c) loc n)
       let old := m.rawRead loc n
       let v0 := (e.ops.headD 0).toNat
       let v := v0 % 2 ^ (8 * n)
       let signed (y : Nat) : Int := (BitVec.ofNat (8 * n) y).toInt
       let new : Option Nat := match fn.toNat with
                      | 0 => some ((old + v) % 2 ^ (8 * n))
                      | 1 => some (if signed old ≤ signed v then old else v)
                      | 2 => some (if signed old ≤ signed v then v else old)
                      | 3 => some (min old v)
                      | 4 => some (max old v)
                      | 5 => some (old &&& v)
                      | 6 => some (old ||| v)
                      | 7 => some (old ^^^ v)
                      | 8 => some v
                      | 9 => if old = v then some (((e.ops[1]?).getD 0).toNat % 2 ^ (8 * n)) else none
                      | _ => some (Fmt.fp32.ofVal .rne false ((Fmt.fp32.decode old).add (Fmt.fp32.decode v)))
       let written : State ⊕ (Nat × Nat) := match new with
                      | none => .inl m
                      | some y => account m (m.rawWrite loc n y) (.bank c b) (touches l)
       (match written with
        | .inr (d, need) => true
        | _ => false) = true)
        | _ => false) = true)
    ∧ (let s : State := nob (qs (sg 2 0x10030))
       let c : Nat := 3
       let b : Nat := 1
       let i : Nat := 1
       let e : QEntry := sg 2 0x10030
       let size : BitVec 3 := 2
       let rd : BitVec 6 := 8
       let x : BitVec 6 := 1
       let off : BitVec 8 := 3
       (s.failed = false) ∧
       (s.performable c b i = some e) ∧
       (e.done = []) ∧
       (size.toNat ≤ 4) ∧
       let n := 2 ^ size.toNat
       (e.addr % n = 0) ∧
       let k := s.bank c b
       let xt := s.extentsOf k
       let data := (e.ops.headD 0).toNat + 2 ^ 64 * ((e.ops[1]?).getD 0).toNat
       let checked := s.checkGlobal xt e.priv true true e.addr n
       (e.ins = .stg size rd x off) ∧
       (match checked with
        | .inr l => decide ((s.heldByMigration l = false) ∧
       let whole := account s (s.wholeStore c b l (data % 256 ^ n)) (.bank c b) (touches l)
       (match whole with
        | .inr (d, need) => true
        | _ => false) = true)
        | _ => false) = true)
    ∧ (let s : State := nob (sx (hdrN 0x10400 4096 64 2 0 1 0))
       let c : Nat := 3
       let b : Nat := 1
       let i : Nat := 1
       let e : QEntry := sxe
       let rd : BitVec 7 := 9
       let x : BitVec 6 := 1
       let o : BitVec 8 := 2
       (s.failed = false) ∧
       (s.performable c b i = some e) ∧
       (e.ins = .stgx rd x o) ∧
       (e.phase = 0) ∧
       let k := s.bank c b
       let xt := s.extentsOf k
       (match s.checkGlobal xt e.priv true true e.addr 64 with
        | .inr hl => decide (let loc := (hl.head?.map (·.loc)).getD .nothing
       let m := s.toMemory (clusterOf c) loc 64
       let h := Header.ofNat (m.rawRead loc 64)
       let f := (e.ops.headD 0).toNat
       let src : SparseSource := { fmt := f, tag := ((e.ops[1]?).getD 0).setWidth 16, elems := unpack (8 * codeBytes f) 128 e.row.toNat }
       let block := sparseStored src h.point
       let place := (h.addr + h.len) % 2 ^ 64
       let lenPart : Part := { va := e.addr + 12, n := 4, ext := (hl.head?.bind (·.ext)), loc := loc.add 12 }
       (sparseHeaderBad h src false = false) ∧
       (h.len + block.length ≤ h.cap) ∧
       (match m.checkGlobal xt e.priv true true place block.length with
        | .inr bl => decide ((m.heldByMigration (hl ++ bl) = false) ∧
       let whole := account m ((m.wholeStore c b bl (bytesNat block)).rawWrite (loc.add 12) 4 (h.len + block.length)) (.bank c b)
                            (touches (bl ++ [lenPart]))
       (match whole with
        | .inr (d, need) => true
        | _ => false) = true)
        | _ => false) = true)
        | _ => false) = true)
    ∧ (let s : State := qs (qe (.nrmclr 4) 0 [])
       let c : Nat := 3
       let b : Nat := 1
       let i : Nat := 1
       let e : QEntry := qe (.nrmclr 4) 0 []
       let size : BitVec 3 := 0
       let norm : BitVec 8 := 4
       (s.failed = false) ∧
       (s.performable c b i = some e) ∧
       (e.done = []) ∧
       (size.toNat ≤ 4) ∧
       let n := 2 ^ size.toNat
       (e.addr % n = 0) ∧
       (e.ins = .nrmclr norm)) := by
  refine ⟨?_, ?_, ?_, ?_, ?_⟩ <;> decide +kernel
theorem witness_StoresAndAtomicsPerformed_4 :
    (let s : State := qs (qe (.nrmset 8 4) 0 d2)
     let c : Nat := 3
     let b : Nat := 1
     let i : Nat := 1
     let e : QEntry := qe (.nrmset 8 4) 0 d2
     let size : BitVec 3 := 0
     let rd : BitVec 6 := 8
     let norm : BitVec 8 := 4
     (s.failed = false) ∧
     (s.performable c b i = some e) ∧
     (e.done = []) ∧
     (size.toNat ≤ 4) ∧
     let n := 2 ^ size.toNat
     (e.addr % n = 0) ∧
     (e.ins = .nrmset rd norm))
    ∧ (let s : State := qs (am 0 0 0 0x300000 1 3)
       let c : Nat := 3
       let b : Nat := 1
       let i : Nat := 1
       let out : List (Bool × Nat × BitVec 8) := []
       let e : QEntry := am 0 0 0 0x300000 1 3
       let order : BitVec 2 := 1
       let rd : BitVec 6 := 8
       let x : BitVec 6 := 9
       let nr : BitVec 1 := 0
       let size : BitVec 1 := 0
       let scope : BitVec 3 := 3
       let fn : BitVec 4 := 0
       (s.failed = false) ∧
       (s.performable c b i = some e) ∧
       (e.ins = .amo order rd x nr scope size fn) ∧
       (fn.toNat ≤ 10) ∧
       let n := if size = 0 then 4 else 8
       let s' := s.outside out
       let xt := s'.extentsOf (s'.bank c b)
       (match s'.checkGlobal xt e.priv true true e.addr n with
        | .inl cause => decide ((0x30 ≤ cause))
        | _ => false) = true)
    ∧ (let s : State := qs (am 0 0 0 0x200000 1 3)
       let c : Nat := 3
       let b : Nat := 1
       let i : Nat := 1
       let out : List (Bool × Nat × BitVec 8) := []
       let e : QEntry := am 0 0 0 0x200000 1 3
       let order : BitVec 2 := 1
       let rd : BitVec 6 := 8
       let x : BitVec 6 := 9
       let nr : BitVec 1 := 0
       let size : BitVec 1 := 0
       let scope : BitVec 3 := 3
       let fn : BitVec 4 := 0
       (s.failed = false) ∧
       (s.performable c b i = some e) ∧
       (e.ins = .amo order rd x nr scope size fn) ∧
       (fn.toNat ≤ 10) ∧
       let n := if size = 0 then 4 else 8
       let s' := s.outside out
       let xt := s'.extentsOf (s'.bank c b)
       (match s'.checkGlobal xt e.priv true true e.addr n with
        | .inl cause => decide ((cause < 0x30))
        | _ => false) = true)
    ∧ (let s : State := qs (srow (.stcv 9 1 2) 512 [])
       let c : Nat := 3
       let b : Nat := 1
       let i : Nat := 1
       let j : Nat := 3
       let e : QEntry := srow (.stcv 9 1 2) 512 []
       let rd : BitVec 7 := 9
       let x : BitVec 6 := 1
       let off : BitVec 8 := 2
       (s.failed = false) ∧
       (s.performable c b i = some e) ∧
       (j < 32) ∧
       (j ∉ e.done) ∧
       let q := s.cluster (clusterOf c)
       (e.ins = .stcv rd x off) ∧
       ((e.done = [] → q.check e.addr 512 = none)))
    ∧ (let s : State := qs { sxe with addr := 0x200000 }
       let c : Nat := 3
       let b : Nat := 1
       let i : Nat := 1
       let e : QEntry := { sxe with addr := 0x200000 }
       let rd : BitVec 7 := 9
       let x : BitVec 6 := 1
       let o : BitVec 8 := 2
       (s.failed = false) ∧
       (s.performable c b i = some e) ∧
       (e.ins = .stgx rd x o) ∧
       (e.phase = 0) ∧
       let k := s.bank c b
       let xt := s.extentsOf k
       (match s.checkGlobal xt e.priv true true e.addr 64 with
        | .inl cause => decide ((cause < 0x30))
        | _ => false) = true) := by
  refine ⟨?_, ?_, ?_, ?_, ?_⟩ <;> decide +kernel
theorem witness_StoresAndAtomicsPerformed_5 :
    (let s : State := qs (srow (.stgv 9 1 2) 0x10000 [])
     let c : Nat := 3
     let b : Nat := 1
     let i : Nat := 1
     let j : Nat := 3
     let e : QEntry := srow (.stgv 9 1 2) 0x10000 []
     let rd : BitVec 7 := 9
     let x : BitVec 6 := 1
     let off : BitVec 8 := 2
     (s.failed = false) ∧
     (s.performable c b i = some e) ∧
     (j < 32) ∧
     (j ∉ e.done) ∧
     (e.ins = .stgv rd x off))
    ∧ (let s : State := qs (srow (.stgn 9 1 4) 0x10000 [])
       let c : Nat := 3
       let b : Nat := 1
       let i : Nat := 1
       let j : Nat := 3
       let e : QEntry := srow (.stgn 9 1 4) 0x10000 []
       let rd : BitVec 7 := 9
       let x : BitVec 6 := 1
       let norm : BitVec 8 := 4
       (s.failed = false) ∧
       (s.performable c b i = some e) ∧
       (j < 32) ∧
       (j ∉ e.done) ∧
       (e.ins = .stgn rd x norm))
    ∧ (let s : State := let s := qs (am 0 0 0); { s with migrations := [{ who := s.capture, addr := 0, final := true, pages := [0x10000] }] }
       let c : Nat := 3
       let b : Nat := 1
       let i : Nat := 1
       let out : List (Bool × Nat × BitVec 8) := []
       let e : QEntry := am 0 0 0
       let order : BitVec 2 := 0
       let rd : BitVec 6 := 8
       let x : BitVec 6 := 9
       let nr : BitVec 1 := 0
       let size : BitVec 1 := 0
       let scope : BitVec 3 := 2
       let fn : BitVec 4 := 0
       (s.failed = false) ∧
       (s.performable c b i = some e) ∧
       (e.ins = .amo order rd x nr scope size fn) ∧
       (fn.toNat ≤ 10) ∧
       let n := if size = 0 then 4 else 8
       let s' := s.outside out
       let xt := s'.extentsOf (s'.bank c b)
       (match s'.checkGlobal xt e.priv true true e.addr n with
        | .inr l => decide ((s'.heldByMigration l = true))
        | _ => false) = true)
    ∧ (let s : State := let s := qs (sg 2 0x10030); { s with migrations := [{ who := s.capture, addr := 0, final := true, pages := [0x10000] }] }
       let c : Nat := 3
       let b : Nat := 1
       let i : Nat := 1
       let e : QEntry := sg 2 0x10030
       let size : BitVec 3 := 2
       let rd : BitVec 6 := 8
       let x : BitVec 6 := 1
       let off : BitVec 8 := 3
       (s.failed = false) ∧
       (s.performable c b i = some e) ∧
       (e.done = []) ∧
       (size.toNat ≤ 4) ∧
       let n := 2 ^ size.toNat
       (e.addr % n = 0) ∧
       let k := s.bank c b
       let xt := s.extentsOf k
       let checked := s.checkGlobal xt e.priv true true e.addr n
       (e.ins = .stg size rd x off) ∧
       (match checked with
        | .inr l => decide ((s.heldByMigration l = true))
        | _ => false) = true)
    ∧ (let s : State := let s := sx (hdrN 0x10400 4096 64 2 0 1 0); { s with migrations := [{ who := s.capture, addr := 0, final := true, pages := [0x10000] }] }
       let c : Nat := 3
       let b : Nat := 1
       let i : Nat := 1
       let e : QEntry := sxe
       let rd : BitVec 7 := 9
       let x : BitVec 6 := 1
       let o : BitVec 8 := 2
       (s.failed = false) ∧
       (s.performable c b i = some e) ∧
       (e.ins = .stgx rd x o) ∧
       (e.phase = 0) ∧
       let k := s.bank c b
       let xt := s.extentsOf k
       (match s.checkGlobal xt e.priv true true e.addr 64 with
        | .inr hl => decide (let loc := (hl.head?.map (·.loc)).getD .nothing
       let m := s.toMemory (clusterOf c) loc 64
       let h := Header.ofNat (m.rawRead loc 64)
       let f := (e.ops.headD 0).toNat
       let src : SparseSource := { fmt := f, tag := ((e.ops[1]?).getD 0).setWidth 16, elems := unpack (8 * codeBytes f) 128 e.row.toNat }
       let block := sparseStored src h.point
       let place := (h.addr + h.len) % 2 ^ 64
       (sparseHeaderBad h src false = false) ∧
       (h.len + block.length ≤ h.cap) ∧
       (match m.checkGlobal xt e.priv true true place block.length with
        | .inr bl => decide ((m.heldByMigration (hl ++ bl) = true))
        | _ => false) = true)
        | _ => false) = true) := by
  refine ⟨?_, ?_, ?_, ?_, ?_⟩ <;> decide +kernel
end WStoresAndAtomicsPerformed

namespace WPiecewiseAccesses
def ls (e : QEntry) : State := memd (evOf { vb with queue := [qe (.bpoll 1 3), e], sEmpty := 0x300 })
def qs (e : QEntry) : State := let s := ls e; { (s) with norms := [(3, ⟨BitVec.allOnes 128, 0x85⟩), (4, ⟨12345678901234567890123, 3⟩)] }
def d2 : List SReg := [0x1122334455667788, 0x99AABBCCDDEEFF00]
def nob (s : State) : State := s.setDie 0 { s.die 0 with free := [] }
def sg (z : BitVec 3) (a : Nat) : QEntry := qe (.stg z 8 1 3) a d2
def lg (z : BitVec 3) (a : Nat) (d : List Nat := []) (cl : Option Nat := none) (sure : Bool := false) : QEntry := { qe (.ldg z 8 1 3) a with done := d, got := 0x77, claimed := cl, sure := sure }
def lx (a : Nat) (d : List Nat := []) (ph : Nat := 0) (g : Nat := 0) (cl : Option Nat := none) (sure : Bool := false) : QEntry := { qe (.ldgx 9 1 3) a with done := d, phase := ph, got := BitVec.ofNat 4608 g, claimed := cl, sure := sure }
def blkB : Nat := 3 + 2^16*2 + 2^22 + 2^64 * (5 + 2^127) + 256^24 * 0x3F2E1D
def blkL : Nat := 40 + 2^16*2 + 2^22 + 2^64 * (2^40 - 1) + 256^24 * (256^40 / 3)
def hm (e : QEntry) (x : Nat) : State := let s := qs e; s.setDie 0 { s.die 0 with home := lay (s.die 0).home 0x400080 (natBytes 96 x) }
def sy (d : List Nat) (ph : Nat) : QEntry := { qe (.stgx 9 1 2) 0x10080 [2, 0] with row := r32 3, done := d, phase := ph, got := BitVec.ofNat 4608 blkL }
def nq (e : QEntry) : State := nob (qs e)
theorem witness_PiecewiseAccesses_1 :
    (let s : State := qs (sy [] 32)
     let c : Nat := 3
     let b : Nat := 1
     let i : Nat := 1
     let j : Nat := 0
     let e : QEntry := sy [] 32
     let rd : BitVec 7 := 9
     let x : BitVec 6 := 1
     let o : BitVec 8 := 2
     (s.failed = false) ∧
     (s.performable c b i = some e) ∧
     (e.ins = .stgx rd x o) ∧
     (16 < e.phase) ∧
     (16 * j + 16 ≤ e.phase) ∧
     (j ∉ e.done) ∧
     let k := s.bank c b
     let xt := s.extentsOf k
     let l := s.parts xt 64 (e.addr % 2 ^ 56) e.phase
     let rest := account s (s.restStore c b xt e) (.bank c b) (touches l)
     (match rest with
      | .inl w => decide ((e.done.length + 1 ≠ e.phase / 16))
      | _ => false) = true)
    ∧ (let s : State := nq (sy [] 32)
       let c : Nat := 3
       let b : Nat := 1
       let i : Nat := 1
       let j : Nat := 0
       let e : QEntry := sy [] 32
       let rd : BitVec 7 := 9
       let x : BitVec 6 := 1
       let o : BitVec 8 := 2
       (s.failed = false) ∧
       (s.performable c b i = some e) ∧
       (e.ins = .stgx rd x o) ∧
       (16 < e.phase) ∧
       (16 * j + 16 ≤ e.phase) ∧
       (j ∉ e.done) ∧
       let k := s.bank c b
       let xt := s.extentsOf k
       let l := s.parts xt 64 (e.addr % 2 ^ 56) e.phase
       let rest := account s (s.restStore c b xt e) (.bank c b) (touches l)
       (match rest with
        | .inr (d, need) => true
        | _ => false) = true)
    ∧ (let s : State := qs (sy [0] 32)
       let c : Nat := 3
       let b : Nat := 1
       let i : Nat := 1
       let j : Nat := 1
       let e : QEntry := sy [0] 32
       let rd : BitVec 7 := 9
       let x : BitVec 6 := 1
       let o : BitVec 8 := 2
       (s.failed = false) ∧
       (s.performable c b i = some e) ∧
       (e.ins = .stgx rd x o) ∧
       (16 < e.phase) ∧
       (16 * j + 16 ≤ e.phase) ∧
       (j ∉ e.done) ∧
       let k := s.bank c b
       let xt := s.extentsOf k
       let l := s.parts xt 64 (e.addr % 2 ^ 56) e.phase
       let rest := account s (s.restStore c b xt e) (.bank c b) (touches l)
       (match rest with
        | .inl w => decide ((e.done.length + 1 = e.phase / 16))
        | _ => false) = true)
    ∧ (let s : State := qs (lx 0x20080)
       let c : Nat := 3
       let b : Nat := 1
       let i : Nat := 1
       let j : Nat := 1
       let out : List (Bool × Nat × BitVec 8) := []
       let e : QEntry := lx 0x20080
       let rd : BitVec 7 := 9
       let x : BitVec 6 := 1
       let o : BitVec 8 := 3
       (s.failed = false) ∧
       (s.performable c b i = some e) ∧
       (b < 2) ∧
       (j ∉ e.done) ∧
       (e.ins = .ldgx rd x o) ∧
       let s' := s.outside out
       let k := s'.bank c b
       let xt := s'.extentsOf k
       (e.phase = 0) ∧
       (j < 2) ∧
       (e.done = []) ∧
       (match s'.checkGlobal xt e.priv false true e.addr 32 with
        | .inr l => true
        | _ => false) = true)
    ∧ (let s : State := qs (lx 0x300000)
       let c : Nat := 3
       let b : Nat := 1
       let i : Nat := 1
       let j : Nat := 1
       let out : List (Bool × Nat × BitVec 8) := []
       let e : QEntry := lx 0x300000
       let rd : BitVec 7 := 9
       let x : BitVec 6 := 1
       let o : BitVec 8 := 3
       (s.failed = false) ∧
       (s.performable c b i = some e) ∧
       (b < 2) ∧
       (j ∉ e.done) ∧
       (e.ins = .ldgx rd x o) ∧
       let s' := s.outside out
       let k := s'.bank c b
       let xt := s'.extentsOf k
       (e.phase = 0) ∧
       (j < 2) ∧
       (e.done = []) ∧
       (match s'.checkGlobal xt e.priv false true e.addr 32 with
        | .inl cause => decide ((0x30 ≤ cause))
        | _ => false) = true)
    ∧ (let s : State := qs (lx 0x500000)
       let c : Nat := 3
       let b : Nat := 1
       let i : Nat := 1
       let j : Nat := 1
       let out : List (Bool × Nat × BitVec 8) := []
       let e : QEntry := lx 0x500000
       let rd : BitVec 7 := 9
       let x : BitVec 6 := 1
       let o : BitVec 8 := 3
       (s.failed = false) ∧
       (s.performable c b i = some e) ∧
       (b < 2) ∧
       (j ∉ e.done) ∧
       (e.ins = .ldgx rd x o) ∧
       let s' := s.outside out
       let k := s'.bank c b
       let xt := s'.extentsOf k
       (e.phase = 0) ∧
       (j < 2) ∧
       (e.done = []) ∧
       (match s'.checkGlobal xt e.priv false true e.addr 32 with
        | .inl cause => decide ((cause < 0x30))
        | _ => false) = true) := by
  refine ⟨?_, ?_, ?_, ?_, ?_, ?_⟩ <;> decide +kernel
theorem witness_PiecewiseAccesses_2 :
    (let s : State := qs (lg 6 0x1001d [] none false)
     let c : Nat := 3
     let b : Nat := 1
     let i : Nat := 1
     let j : Nat := 0
     let out : List (Bool × Nat × BitVec 8) := []
     let e : QEntry := lg 6 0x1001d [] none false
     let size : BitVec 3 := 6
     let rd : BitVec 6 := 8
     let x : BitVec 6 := 1
     let o : BitVec 8 := 3
     (s.failed = false) ∧
     (s.performable c b i = some e) ∧
     (b < 2) ∧
     (j < 2) ∧
     (e.phase = 0) ∧
     (e.ins = .ldg size rd x o) ∧
     let n := loadBytes size
     (4 ≤ n) ∧
     (e.addr % n ≠ 0) ∧
     (32 < e.addr % 32 + n) ∧
     let s' := s.outside out
     let k := s'.bank c b
     let xt := s'.extentsOf k
     (e.done = []) ∧
     (match s'.checkGlobal xt e.priv false true e.addr n with
      | .inr l => true
      | _ => false) = true)
    ∧ (let s : State := qs (lg 6 0x1001d [1] none false)
       let c : Nat := 3
       let b : Nat := 1
       let i : Nat := 1
       let j : Nat := 0
       let e : QEntry := lg 6 0x1001d [1] none false
       let size : BitVec 3 := 6
       let rd : BitVec 6 := 8
       let x : BitVec 6 := 1
       let o : BitVec 8 := 3
       (s.failed = false) ∧
       (s.performable c b i = some e) ∧
       (b < 2) ∧
       (j < 2) ∧
       (e.phase = 0) ∧
       (e.ins = .ldg size rd x o) ∧
       let n := loadBytes size
       (4 ≤ n) ∧
       (e.addr % n ≠ 0) ∧
       (32 < e.addr % 32 + n) ∧
       (e.done = [1 - j]))
    ∧ (let s : State := qs (lg 6 0x30001c [] none false)
       let c : Nat := 3
       let b : Nat := 1
       let i : Nat := 1
       let j : Nat := 0
       let out : List (Bool × Nat × BitVec 8) := []
       let e : QEntry := lg 6 0x30001c [] none false
       let size : BitVec 3 := 6
       let rd : BitVec 6 := 8
       let x : BitVec 6 := 1
       let o : BitVec 8 := 3
       (s.failed = false) ∧
       (s.performable c b i = some e) ∧
       (b < 2) ∧
       (j < 2) ∧
       (e.phase = 0) ∧
       (e.ins = .ldg size rd x o) ∧
       let n := loadBytes size
       (4 ≤ n) ∧
       (e.addr % n ≠ 0) ∧
       (32 < e.addr % 32 + n) ∧
       let s' := s.outside out
       let k := s'.bank c b
       let xt := s'.extentsOf k
       (e.done = []) ∧
       (match s'.checkGlobal xt e.priv false true e.addr n with
        | .inl cause => decide ((0x30 ≤ cause))
        | _ => false) = true)
    ∧ (let s : State := qs (lg 6 0x10fffc [] none false)
       let c : Nat := 3
       let b : Nat := 1
       let i : Nat := 1
       let j : Nat := 0
       let out : List (Bool × Nat × BitVec 8) := []
       let e : QEntry := lg 6 0x10fffc [] none false
       let size : BitVec 3 := 6
       let rd : BitVec 6 := 8
       let x : BitVec 6 := 1
       let o : BitVec 8 := 3
       (s.failed = false) ∧
       (s.performable c b i = some e) ∧
       (b < 2) ∧
       (j < 2) ∧
       (e.phase = 0) ∧
       (e.ins = .ldg size rd x o) ∧
       let n := loadBytes size
       (4 ≤ n) ∧
       (e.addr % n ≠ 0) ∧
       (32 < e.addr % 32 + n) ∧
       let s' := s.outside out
       let k := s'.bank c b
       let xt := s'.extentsOf k
       (e.done = []) ∧
       (match s'.checkGlobal xt e.priv false true e.addr n with
        | .inl cause => decide ((cause < 0x30))
        | _ => false) = true)
    ∧ (let s : State := qs ({ sg 3 0x1001d with done := [] })
       let c : Nat := 3
       let b : Nat := 1
       let i : Nat := 1
       let j : Nat := 0
       let e : QEntry := { sg 3 0x1001d with done := [] }
       let size : BitVec 3 := 3
       let rd : BitVec 6 := 8
       let x : BitVec 6 := 1
       let o : BitVec 8 := 3
       (s.failed = false) ∧
       (s.performable c b i = some e) ∧
       (j < 2) ∧
       (size.toNat ≤ 4) ∧
       (e.ins = .stg size rd x o) ∧
       let n := 2 ^ size.toNat
       (4 ≤ n) ∧
       (e.addr % n ≠ 0) ∧
       (32 < e.addr % 32 + n) ∧
       let k := s.bank c b
       let xt := s.extentsOf k
       let data := ((e.ops.headD 0).toNat + 2 ^ 64 * ((e.ops[1]?).getD 0).toNat) % 256 ^ n
       (e.done = []) ∧
       (match s.checkGlobal xt e.priv true true e.addr n with
        | .inr l => decide ((s.heldByMigration l = false) ∧
       let whole := account s (s.wholeStore c b l data) (.bank c b) (touches l)
       (match whole with
        | .inl w => true
        | _ => false) = true)
        | _ => false) = true)
    ∧ (let s : State := nq ({ sg 3 0x1001d with done := [] })
       let c : Nat := 3
       let b : Nat := 1
       let i : Nat := 1
       let j : Nat := 0
       let e : QEntry := { sg 3 0x1001d with done := [] }
       let size : BitVec 3 := 3
       let rd : BitVec 6 := 8
       let x : BitVec 6 := 1
       let o : BitVec 8 := 3
       (s.failed = false) ∧
       (s.performable c b i = some e) ∧
       (j < 2) ∧
       (size.toNat ≤ 4) ∧
       (e.ins = .stg size rd x o) ∧
       let n := 2 ^ size.toNat
       (4 ≤ n) ∧
       (e.addr % n ≠ 0) ∧
       (32 < e.addr % 32 + n) ∧
       let k := s.bank c b
       let xt := s.extentsOf k
       let data := ((e.ops.headD 0).toNat + 2 ^ 64 * ((e.ops[1]?).getD 0).toNat) % 256 ^ n
       (e.done = []) ∧
       (match s.checkGlobal xt e.priv true true e.addr n with
        | .inr l => decide ((s.heldByMigration l = false) ∧
       let whole := account s (s.wholeStore c b l data) (.bank c b) (touches l)
       (match whole with
        | .inr (d, need) => true
        | _ => false) = true)
        | _ => false) = true) := by
  refine ⟨?_, ?_, ?_, ?_, ?_, ?_⟩ <;> decide +kernel
theorem witness_PiecewiseAccesses_3 :
    (let s : State := qs ({ sg 3 0x1001d with done := [1] })
     let c : Nat := 3
     let b : Nat := 1
     let i : Nat := 1
     let j : Nat := 0
     let e : QEntry := { sg 3 0x1001d with done := [1] }
     let size : BitVec 3 := 3
     let rd : BitVec 6 := 8
     let x : BitVec 6 := 1
     let o : BitVec 8 := 3
     (s.failed = false) ∧
     (s.performable c b i = some e) ∧
     (j < 2) ∧
     (size.toNat ≤ 4) ∧
     (e.ins = .stg size rd x o) ∧
     let n := 2 ^ size.toNat
     (4 ≤ n) ∧
     (e.addr % n ≠ 0) ∧
     (32 < e.addr % 32 + n) ∧
     let m := 32 - e.addr % 32
     let k := s.bank c b
     let xt := s.extentsOf k
     let data := ((e.ops.headD 0).toNat + 2 ^ 64 * ((e.ops[1]?).getD 0).toNat) % 256 ^ n
     let put (t : State) : State :=
              if j = 0 then t.pieceStore c b xt e.addr m (data % 256 ^ m) else t.pieceStore c b xt (e.addr + m) (n - m) (data / 256 ^ m)
     (e.done = [1 - j]) ∧
     let rest := account s (put s) (.bank c b) (touches (s.parts xt 64 (e.addr % 2 ^ 56) n))
     (match rest with
      | .inl w => true
      | _ => false) = true)
    ∧ (let s : State := nq ({ sg 3 0x1001d with done := [1] })
       let c : Nat := 3
       let b : Nat := 1
       let i : Nat := 1
       let j : Nat := 0
       let e : QEntry := { sg 3 0x1001d with done := [1] }
       let size : BitVec 3 := 3
       let rd : BitVec 6 := 8
       let x : BitVec 6 := 1
       let o : BitVec 8 := 3
       (s.failed = false) ∧
       (s.performable c b i = some e) ∧
       (j < 2) ∧
       (size.toNat ≤ 4) ∧
       (e.ins = .stg size rd x o) ∧
       let n := 2 ^ size.toNat
       (4 ≤ n) ∧
       (e.addr % n ≠ 0) ∧
       (32 < e.addr % 32 + n) ∧
       let m := 32 - e.addr % 32
       let k := s.bank c b
       let xt := s.extentsOf k
       let data := ((e.ops.headD 0).toNat + 2 ^ 64 * ((e.ops[1]?).getD 0).toNat) % 256 ^ n
       let put (t : State) : State :=
                if j = 0 then t.pieceStore c b xt e.addr m (data % 256 ^ m) else t.pieceStore c b xt (e.addr + m) (n - m) (data / 256 ^ m)
       (e.done = [1 - j]) ∧
       let rest := account s (put s) (.bank c b) (touches (s.parts xt 64 (e.addr % 2 ^ 56) n))
       (match rest with
        | .inr (d, need) => true
        | _ => false) = true)
    ∧ (let s : State := hm (lx 0x10080 [0,1] 64 (blkL % 256 ^ 80)) blkL
       let c : Nat := 3
       let b : Nat := 1
       let i : Nat := 1
       let j : Nat := 2
       let out : List (Bool × Nat × BitVec 8) := []
       let e : QEntry := lx 0x10080 [0,1] 64 (blkL % 256 ^ 80)
       let rd : BitVec 7 := 9
       let x : BitVec 6 := 1
       let o : BitVec 8 := 3
       (s.failed = false) ∧
       (s.performable c b i = some e) ∧
       (b < 2) ∧
       (j ∉ e.done) ∧
       (e.ins = .ldgx rd x o) ∧
       let s' := s.outside out
       let k := s'.bank c b
       let xt := s'.extentsOf k
       (32 < e.phase) ∧
       (16 * j + 16 ≤ e.phase) ∧
       (2 ≤ e.done.length) ∧
       (e.done.length = 2) ∧
       (e.phase ≠ 48) ∧
       (match s'.checkGlobal xt e.priv false true e.addr e.phase with
        | .inr l => true
        | _ => false) = true)
    ∧ (let s : State := hm (lx 0x10080 [0,1,2] 64 (blkL % 256 ^ 80)) blkL
       let c : Nat := 3
       let b : Nat := 1
       let i : Nat := 1
       let j : Nat := 3
       let out : List (Bool × Nat × BitVec 8) := []
       let e : QEntry := lx 0x10080 [0,1,2] 64 (blkL % 256 ^ 80)
       let rd : BitVec 7 := 9
       let x : BitVec 6 := 1
       let o : BitVec 8 := 3
       (s.failed = false) ∧
       (s.performable c b i = some e) ∧
       (b < 2) ∧
       (j ∉ e.done) ∧
       (e.ins = .ldgx rd x o) ∧
       let s' := s.outside out
       let k := s'.bank c b
       let xt := s'.extentsOf k
       let value (fresh : Nat) : Nat := match e.claimed with
                | some d => if e.sure ∧ 16 * j + 16 ≤ 32 then d / 256 ^ (16 * j) % 256 ^ 16 else fresh
                | none => fresh
       let with' (v : Nat) : QEntry := { e with done := e.done ++ [j], got := e.got ||| BitVec.ofNat 4608 (v * 256 ^ (16 * j)) }
       let fresh (u : State) : QEntry := with' (value (u.pieceLoad c xt (e.addr + 16 * j) 16).1)
       (32 < e.phase) ∧
       (16 * j + 16 ≤ e.phase) ∧
       (2 ≤ e.done.length) ∧
       (2 < e.done.length) ∧
       (e.done.length + 1 = e.phase / 16) ∧
       (match sparseBlock ((fresh s').got.toNat % 2 ^ 256) with
        | some blk => true
        | _ => false) = true)
    ∧ (let s : State := hm (lx 0x10080 [0,1,2] 80 (blkL % 256 ^ 80)) blkL
       let c : Nat := 3
       let b : Nat := 1
       let i : Nat := 1
       let j : Nat := 3
       let e : QEntry := lx 0x10080 [0,1,2] 80 (blkL % 256 ^ 80)
       let rd : BitVec 7 := 9
       let x : BitVec 6 := 1
       let o : BitVec 8 := 3
       (s.failed = false) ∧
       (s.performable c b i = some e) ∧
       (b < 2) ∧
       (j ∉ e.done) ∧
       (e.ins = .ldgx rd x o) ∧
       (32 < e.phase) ∧
       (16 * j + 16 ≤ e.phase) ∧
       (2 ≤ e.done.length) ∧
       (2 < e.done.length) ∧
       (e.done.length + 1 < e.phase / 16))
    ∧ (let s : State := hm (lx 0x10080 [0] 0 (blkB / 256 ^ 0 % 256 ^ 16 * 256 ^ 0) none false) blkB
       let c : Nat := 3
       let b : Nat := 1
       let i : Nat := 1
       let j : Nat := 1
       let out : List (Bool × Nat × BitVec 8) := []
       let e : QEntry := lx 0x10080 [0] 0 (blkB / 256 ^ 0 % 256 ^ 16 * 256 ^ 0) none false
       let rd : BitVec 7 := 9
       let x : BitVec 6 := 1
       let o : BitVec 8 := 3
       (s.failed = false) ∧
       (s.performable c b i = some e) ∧
       (b < 2) ∧
       (j ∉ e.done) ∧
       (e.ins = .ldgx rd x o) ∧
       let s' := s.outside out
       let k := s'.bank c b
       let xt := s'.extentsOf k
       let value (fresh : Nat) : Nat := match e.claimed with
                | some d => if e.sure ∧ 16 * j + 16 ≤ 32 then d / 256 ^ (16 * j) % 256 ^ 16 else fresh
                | none => fresh
       let with' (v : Nat) : QEntry := { e with done := e.done ++ [j], got := e.got ||| BitVec.ofNat 4608 (v * 256 ^ (16 * j)) }
       let fresh (u : State) : QEntry := with' (value (u.pieceLoad c xt (e.addr + 16 * j) 16).1)
       (e.phase = 0) ∧
       (j < 2) ∧
       (e.done = [1 - j]) ∧
       let y := fresh s'
       (match sparseBlock (y.got.toNat % 2 ^ 256) with
        | some blk => decide ((blk.bytes ≤ 32))
        | _ => false) = true) := by
  refine ⟨?_, ?_, ?_, ?_, ?_, ?_⟩ <;> decide +kernel
theorem witness_PiecewiseAccesses_4 :
    (let s : State := hm (lx 0x10080 [0] 0 (blkL / 256 ^ 0 % 256 ^ 16 * 256 ^ 0) none false) blkL
     let c : Nat := 3
     let b : Nat := 1
     let i : Nat := 1
     let j : Nat := 1
     let out : List (Bool × Nat × BitVec 8) := []
     let e : QEntry := lx 0x10080 [0] 0 (blkL / 256 ^ 0 % 256 ^ 16 * 256 ^ 0) none false
     let rd : BitVec 7 := 9
     let x : BitVec 6 := 1
     let o : BitVec 8 := 3
     (s.failed = false) ∧
     (s.performable c b i = some e) ∧
     (b < 2) ∧
     (j ∉ e.done) ∧
     (e.ins = .ldgx rd x o) ∧
     let s' := s.outside out
     let k := s'.bank c b
     let xt := s'.extentsOf k
     let value (fresh : Nat) : Nat := match e.claimed with
              | some d => if e.sure ∧ 16 * j + 16 ≤ 32 then d / 256 ^ (16 * j) % 256 ^ 16 else fresh
              | none => fresh
     let with' (v : Nat) : QEntry := { e with done := e.done ++ [j], got := e.got ||| BitVec.ofNat 4608 (v * 256 ^ (16 * j)) }
     let fresh (u : State) : QEntry := with' (value (u.pieceLoad c xt (e.addr + 16 * j) 16).1)
     (e.phase = 0) ∧
     (j < 2) ∧
     (e.done = [1 - j]) ∧
     let y := fresh s'
     (match sparseBlock (y.got.toNat % 2 ^ 256) with
      | some blk => decide ((32 < blk.bytes))
      | _ => false) = true)
    ∧ (let s : State := hm (lx 0x10080 [0] 0 (0xFFFFFFFFFFFFFF / 256 ^ 0 % 256 ^ 16 * 256 ^ 0) none false) 0xFFFFFFFFFFFFFF
       let c : Nat := 3
       let b : Nat := 1
       let i : Nat := 1
       let j : Nat := 1
       let out : List (Bool × Nat × BitVec 8) := []
       let e : QEntry := lx 0x10080 [0] 0 (0xFFFFFFFFFFFFFF / 256 ^ 0 % 256 ^ 16 * 256 ^ 0) none false
       let rd : BitVec 7 := 9
       let x : BitVec 6 := 1
       let o : BitVec 8 := 3
       (s.failed = false) ∧
       (s.performable c b i = some e) ∧
       (b < 2) ∧
       (j ∉ e.done) ∧
       (e.ins = .ldgx rd x o) ∧
       let s' := s.outside out
       let k := s'.bank c b
       let xt := s'.extentsOf k
       let value (fresh : Nat) : Nat := match e.claimed with
                | some d => if e.sure ∧ 16 * j + 16 ≤ 32 then d / 256 ^ (16 * j) % 256 ^ 16 else fresh
                | none => fresh
       let with' (v : Nat) : QEntry := { e with done := e.done ++ [j], got := e.got ||| BitVec.ofNat 4608 (v * 256 ^ (16 * j)) }
       let fresh (u : State) : QEntry := with' (value (u.pieceLoad c xt (e.addr + 16 * j) 16).1)
       (e.phase = 0) ∧
       (j < 2) ∧
       (e.done = [1 - j]) ∧
       let y := fresh s'
       (sparseBlock (y.got.toNat % 2 ^ 256) = none))
    ∧ (let s : State := let s := hm (lx 0x1ffe0 [0,1] 64 (blkL % 256^32)) blkL; { s with extents := [(4, [{ vbase := 0x10000, units := 1, w := true, u := true, pbase := 0x400000 }])] }
       let c : Nat := 3
       let b : Nat := 1
       let i : Nat := 1
       let j : Nat := 2
       let out : List (Bool × Nat × BitVec 8) := []
       let e : QEntry := lx 0x1ffe0 [0,1] 64 (blkL % 256^32)
       let rd : BitVec 7 := 9
       let x : BitVec 6 := 1
       let o : BitVec 8 := 3
       (s.failed = false) ∧
       (s.performable c b i = some e) ∧
       (b < 2) ∧
       (j ∉ e.done) ∧
       (e.ins = .ldgx rd x o) ∧
       let s' := s.outside out
       let k := s'.bank c b
       let xt := s'.extentsOf k
       (32 < e.phase) ∧
       (16 * j + 16 ≤ e.phase) ∧
       (2 ≤ e.done.length) ∧
       (e.done.length = 2) ∧
       (match s'.checkGlobal xt e.priv false true e.addr e.phase with
        | .inl cause => decide ((cause < 0x30))
        | _ => false) = true)
    ∧ (let s : State := let s := hm (lx 0x1ffe0 [0,1] 64 (blkL % 256^32)) blkL; { s with extents := [(4, [{ vbase := 0x10000, units := 1, w := true, u := true, pbase := 0x400000 }, { vbase := 0x20000, units := 4, w := true, u := true, p := false, fine := true }])] }
       let c : Nat := 3
       let b : Nat := 1
       let i : Nat := 1
       let j : Nat := 2
       let out : List (Bool × Nat × BitVec 8) := []
       let e : QEntry := lx 0x1ffe0 [0,1] 64 (blkL % 256^32)
       let rd : BitVec 7 := 9
       let x : BitVec 6 := 1
       let o : BitVec 8 := 3
       (s.failed = false) ∧
       (s.performable c b i = some e) ∧
       (b < 2) ∧
       (j ∉ e.done) ∧
       (e.ins = .ldgx rd x o) ∧
       let s' := s.outside out
       let k := s'.bank c b
       let xt := s'.extentsOf k
       (32 < e.phase) ∧
       (16 * j + 16 ≤ e.phase) ∧
       (2 ≤ e.done.length) ∧
       (e.done.length = 2) ∧
       (match s'.checkGlobal xt e.priv false true e.addr e.phase with
        | .inl cause => decide ((0x30 ≤ cause))
        | _ => false) = true) := by
  refine ⟨?_, ?_, ?_, ?_⟩ <;> decide +kernel
end WPiecewiseAccesses

namespace WMarkersAndBuffers
def ls (e : QEntry) : State := let s := memd (evOf { vb with queue := [e, qe (.barr 3)], sEmpty := 0xF0, runAhead := [⟨0,4,0,0⟩] }); s.setCluster 0 { s.cluster 0 with lines := [(0x400000/128, { bytes := 0xABCDEF, valid := 0xFF, dirty := 0x7, writers := 128 })] }
def de (i : Instr) (sd : SReg := 2) : QEntry := { qe i 70 [5,6,7,8] with phase := 1, side := sd }
def ex : QEntry := { qe (.extinv 2 3) 0 [4096,4096] with phase := 1, done := [9] }
def ex0 : QEntry := { qe (.extinv 2 3) 0 [0x10000,4096] with phase := 0 }
def e0 : QEntry := qe .qalign
def ldw : Slot := ((encode (.ldg 4 8 1 2)).getD 0) ||| 0x80000000
def ks : Bank := { vb with pc := 0, sregs := [(1, 0x10000)] }
def ln1 : Line := { bytes := 0xABCDEF, valid := 0xFF, dirty := 0x7, writers := 64 }
def ln2 : Line := { bytes := 0xABCDEF, valid := 0xFF, dirty := 0, writers := 64 }
def s2 (seg : List Nat := [7,8]) : State := let s := memd (evOf ks); let s := { s with slots := [(2, { loaded := true, code := [ldw, w0, w0], segments := [(0, 8), (8, 4)] })] }; let s := s.setCore 3 { s.core 3 with active := 1, tlb := [(4, 0x10000, false)], segments := seg }; s.setCluster 0 { s.cluster 0 with lines := [(0x400000/128, ln1), (0x400080/128, ln2)] }
def lpart (s : State) : List Part := match s.checkGlobal (s.extentsOf (s.bank 3 1)) false false false 0x10008 4 with | .inr l => l | _ => []
def sg0 : Nat := 2 * 2^32
theorem witness_MarkersAndBuffers_1 :
    (let s : State := s2
     let c : Nat := 3
     let a : Nat := 0x10008
     let n : Nat := 4
     let g : Nat := sg0
     let cl : Nat := 0
     let line : Nat := 0x400000/128
     let l : List Part := lpart s2
     let z : Line := ln1
     (s.failed = false) ∧
     let x := s.core c
     let k := x.bank x.active
     (k.state = .runnable) ∧
     (k.runAhead.length < 64) ∧
     ((runAheadLoads (s.codeOf k) k 257 ⟨k.pc, k.loops⟩).contains (a, n) = true) ∧
     (s.checkGlobal (s.extentsOf k) k.priv false false a n = .inr l) ∧
     ((l.all fun p => p.ext.any fun e => x.tlbHolds k e) = true) ∧
     ((l.all fun p => match p.loc with | .other _ => false | _ => true) = true) ∧
     (s.segmentWanted c = some g) ∧
     (tfind line (s.cluster cl).lines = some z))
    ∧ (let s : State := ls e0
       let c : Nat := 3
       let b : Nat := 1
       let i : Nat := 0
       let e : QEntry := e0
       (s.failed = false) ∧
       (s.performable c b i = some e) ∧
       (e.ins = .qalign))
    ∧ (let s : State := ls ex
       let c : Nat := 3
       let b : Nat := 1
       let i : Nat := 0
       let e : QEntry := ex
       let x : BitVec 6 := 2
       let y : BitVec 6 := 3
       (s.failed = false) ∧
       (s.performable c b i = some e) ∧
       (e.ins = .extinv x y) ∧
       (e.phase ≠ 0) ∧
       ((∀ u ∈ e.done, u ∉ s.underWay)))
    ∧ (let s : State := ls ex0
       let c : Nat := 3
       let b : Nat := 1
       let i : Nat := 0
       let e : QEntry := ex0
       let x : BitVec 6 := 2
       let y : BitVec 6 := 3
       (s.failed = false) ∧
       (s.performable c b i = some e) ∧
       (e.ins = .extinv x y) ∧
       (e.phase = 0))
    ∧ (let s : State := ls (de (.deq 1 20))
       let c : Nat := 3
       let b : Nat := 1
       let i : Nat := 0
       let e : QEntry := de (.deq 1 20)
       let grp : BitVec 4 := 1
       let wq : BitVec 6 := 20
       let w0 : SReg := 5
       let w1 : SReg := 6
       let w2 : SReg := 7
       let w3 : SReg := 8
       (s.failed = false) ∧
       (s.performable c b i = some e) ∧
       ((e.ins = .deq grp wq ∨ e.ins = .deqt grp wq)) ∧
       (grp ≠ 0) ∧
       (e.phase = 1) ∧
       (e.addr ≤ s.clk) ∧
       (s.owesRelease e.done e.clk = false) ∧
       (e.ops = [w0, w1, w2, w3])) := by
  refine ⟨?_, ?_, ?_, ?_, ?_⟩ <;> decide +kernel
theorem witness_MarkersAndBuffers_2 :
    (let s : State := ls (qe (.fence 2 2))
     let c : Nat := 3
     let b : Nat := 1
     let i : Nat := 0
     let e : QEntry := qe (.fence 2 2)
     let scope : BitVec 3 := 2
     (s.failed = false) ∧
     (s.performable c b i = some e) ∧
     (e.ins = .fence 2 scope))
    ∧ (let s : State := ls (qe (.fence 3 2))
       let c : Nat := 3
       let b : Nat := 1
       let i : Nat := 0
       let e : QEntry := qe (.fence 3 2)
       let scope : BitVec 3 := 2
       (s.failed = false) ∧
       (s.performable c b i = some e) ∧
       (e.ins = .fence 3 scope))
    ∧ (let s : State := ls (qe (.fence 1 0))
       let c : Nat := 3
       let b : Nat := 1
       let i : Nat := 0
       let e : QEntry := qe (.fence 1 0)
       let scope : BitVec 3 := 0
       (s.failed = false) ∧
       (s.performable c b i = some e) ∧
       (e.ins = .fence 1 scope))
    ∧ (let s : State := ls { qe (.deqt 15 20) 4 with phase := 0 }
       let c : Nat := 3
       let b : Nat := 1
       let i : Nat := 0
       let e : QEntry := { qe (.deqt 15 20) 4 with phase := 0 }
       let grp : BitVec 4 := 15
       let wq : BitVec 6 := 20
       (s.failed = false) ∧
       (s.performable c b i = some e) ∧
       ((e.ins = .deq grp wq ∨ e.ins = .deqt grp wq)) ∧
       (e.phase = 0 ∨ (e.phase = 2 ∧ s.atIssue c b e.bundle = false))) := by
  refine ⟨?_, ?_, ?_, ?_⟩ <;> decide +kernel
end WMarkersAndBuffers

namespace WPostedTraps
def p1 : PostedTrap := { clk := 70, cause := 0x0B, bundle := 4, pos := 3, issued := 60, row := some 5, addr := some 77 }
def pk (l : List PostedTrap) (pr : Bool := false) (tv : SReg := 0x1001) (rp : Option (Nat × Nat) := none) : Bank := { vb with replaying := rp, posted := l, tvec := tv, priv := pr, pc := 40, waiting := some ⟨40, 60, none⟩ }
def pst (k : Bank) : State := let s := stOf k; s.setCore 3 { s.core 3 with active := 1 }
theorem witness_PostedTraps :
    let s : State := pst (pk [p1])
    let c : Nat := 3
    let b : Nat := 1
    let p : PostedTrap := p1
    (s.failed = false) ∧
    let k := s.bank c b
    let z := k.detect s.clk
    (k.posted ≠ []) ∧
    (oldestPosted z.posted = some p) ∧
    (k.state = .runnable) ∧
    ((s.core c).drain = none) ∧
    (k.tvec.getLsbD 0 = true) ∧
    (k.inTrap = false) ∧
    (k.eng0.ops = []) ∧
    (k.eng1.ops = []) ∧
    ((∀ f ∈ k.inFlight, s.clk < f.due)) := by
  decide +kernel
end WPostedTraps

namespace WDrainsHaltsAndSwaps
def dst (k : Bank) (d : Option Drain) (o : Bank := { state := .runnable }) : State := let s := stOf k; let s := s.setCore 3 { s.core 3 with active := 1, drain := d, bank0 := o }; { s with stages := [(5, { configured := true, partition := 5, cores := [3, 6], bank := 1 })], regs.pvec := [(5, 0x1003F)] }
def dr (r : DrainReason) : Drain := ⟨1, r, 73⟩
def w1 : Swap := { partition := 5, bank := 1, inward := false, save := 0, command := none }
def w2 : Swap := { w1 with inward := true }
def cmdE : JournalEntry := { seq := 4, queue := 0, state := 2, ring := 0, body := 0x0B }
def sw (s : State) (w : Swap) : State := { s with swaps := [w], journal := [cmdE] }
def img (s : State) : State := s.setCluster 0 { s.cluster 0 with shadow := [(3, 1, { vb with pc := 8, stopped := true }), (6, 1, { vb with state := .waiting, queue := [{ qe (.barr 3) with kept := true }] })] }
def stp (s : State) : State := (List.range 8).foldl (fun s c => s.setBank c 1 { s.bank c 1 with stopped := true }) s
def hk (f : Bool := false) : Bank := { vb with state := .halted, haltFault := f, haltClk := 60, trec := [(0, 0x55)] }
theorem witness_DrainsHaltsAndSwaps :
    (let s : State := dst hk none
     let c : Nat := 3
     let b : Nat := 1
     (s.failed = false) ∧
     (b < 2) ∧
     let k := s.bank c b
     (k.state = .halted) ∧
     (k.haltReported = false) ∧
     (k.quiet = true))
    ∧ (let s : State := sw (dst vb none) w1
       let c : Nat := 3
       let b : Nat := 1
       let w : Swap := w1
       (s.failed = false) ∧
       (b < 2) ∧
       let x := s.core c
       let k := s.bank c b
       (w ∈ s.swaps) ∧
       (w.inward = false) ∧
       (w.bank = b) ∧
       (c ∈ s.partitionCores w.partition) ∧
       (k.stopped = false) ∧
       (x.active = b) ∧
       (k.state = .runnable) ∧
       (x.drain = none))
    ∧ (let s : State := dst vb (some (dr .ctxsw))
       let c : Nat := 3
       let b : Nat := 1
       let d : Drain := dr .ctxsw
       (s.failed = false) ∧
       (b < 2) ∧
       let x := s.core c
       let k := s.bank c b
       (x.drain = some d) ∧
       (d.bank = b) ∧
       (d.since + 4 ≤ s.clk) ∧
       (k.drained = true))
    ∧ (let s : State := sw (dst { vb with idle := true } none) w1
       let c : Nat := 6
       let b : Nat := 1
       let w : Swap := w1
       (s.failed = false) ∧
       (b < 2) ∧
       let x := s.core c
       let k := s.bank c b
       (w ∈ s.swaps) ∧
       (w.inward = false) ∧
       (w.bank = b) ∧
       (c ∈ s.partitionCores w.partition) ∧
       (k.stopped = false) ∧
       (x.active ≠ b ∨ k.state ≠ .runnable) ∧
       ((k.state = .halted → k.landed = true)))
    ∧ (let s : State := stp (sw (dst { vb with idle := true } none) w1)
       let b : Nat := 1
       let p : Nat := 5
       let w : Swap := w1
       (s.failed = false) ∧
       (b < 2) ∧
       (s.swapOf p b false = some w) ∧
       ((∀ o ∈ s.coresInOrder p, (s.bank o b).stopped = true)))
    ∧ (let s : State := img (stp (sw (dst { vb with idle := true } none) w2))
       let b : Nat := 1
       let p : Nat := 5
       let w : Swap := w2
       (s.failed = false) ∧
       (b < 2) ∧
       (s.swapOf p b true = some w) ∧
       ((∀ o ∈ s.coresInOrder p, ∀ e ∈ (s.core o).drain, e.bank ≠ b))) := by
  refine ⟨?_, ?_, ?_, ?_, ?_, ?_⟩ <;> decide +kernel
end WDrainsHaltsAndSwaps

namespace WRoundsRecordsAndArrivals
def arr : Arrival := ⟨9, 33, 0x10000, some 3, 0⟩
def arr2 : Arrival := ⟨11, 34, 0x10000, none, 1⟩
def pe : PolicyEntry := { act := 0, valid := true, kinds := 0xF, lo := 0, hi := 511, below := true, stash := 10^9, slmax := 1000, slmin := 0, age := 0 }
def sched (ws : List (Nat × Nat)) (ready : List ReadyItem) (round : Option Nat) (gs : Nat := 1) (once : Bool := false) (q : WorkQueue := {}) : State :=
  { evOf vb with stages := [(5, { configured := true, nq := 2, qkinds := [0, gs], cores := [3], bank := 1, slot := 2, fArr := [arr, arr2], entries := [pe], ready, round, arrivals := 7, fReserved := 2 })],
                 queues := [(21, { q with waiters := ws, reserved := q.reserved + 2, once })], slots := [(2, { loaded := true, present := 3, current := 1 })] }
def enq (w : SReg) : QEntry := qe (.enq 2 21) 0 [w, 33, 0x4000, 5]
def en (w : SReg) (q : WorkQueue := {}) (ws : List (Nat × Nat) := []) : State := let s := sched ws [] none 1 false q; s.setBank 3 1 { vb with queue := [qe (.bpoll 1 2), enq w] }
def bst (i : Instr) (ops : List SReg) (y : Barrier) : State := let s := sched [] [] none; (s.setBank 3 1 { vb with queue := [qe i 0 ops] }).setBarrier 0 9 y
def pol (clk : Nat) : QEntry := { qe (.bpoll 21 9) 0 [] with clk := clk }
def pst (clk : Nat) (y : Barrier) : State := let s := sched [] [] none; (s.setBank 3 1 { vb with queue := [qe (.barr 9) 0 [], pol clk, qe (.binit 1 9) 0 [5]] }).setBarrier 0 9 y
theorem witness_RoundsRecordsAndArrivals_1 :
    (let s : State := sched [] [] (some 70) 1 true
     let g : Nat := 5
     let u : Nat := 70
     (s.failed = false) ∧
     let r := s.refreshStage g
     let x := r.stage g
     (x.round = some u) ∧
     (u ≤ s.clk))
    ∧ (let s : State := en 0x000B0000
       let c : Nat := 3
       let b : Nat := 1
       let i : Nat := 1
       let e : QEntry := enq 0x000B0000
       let grp : BitVec 4 := 2
       let wq : BitVec 6 := 21
       let w0 : SReg := 0x000B0000
       let w1 : SReg := 33
       let w2 : SReg := 0x4000
       let w3 : SReg := 5
       (s.failed = false) ∧
       (s.performable c b i = some e) ∧
       (e.ins = .enq grp wq) ∧
       (e.ops = [w0, w1, w2, w3]))
    ∧ (let s : State := bst (.barr 9) [] {phase := 255, expect := 0, remain := 1}
       let c : Nat := 3
       let b : Nat := 1
       let i : Nat := 0
       let e : QEntry := qe (.barr 9) 0 []
       let bar : BitVec 6 := 9
       (s.failed = false) ∧
       (s.performable c b i = some e) ∧
       let cl := clusterOf c
       let y := s.barrier cl bar.toNat
       (e.ins = .barr bar) ∧
       ((y.expect = 0 ∨ (y.remain = 0 ∧ y.expect ≤ y.early + 1))))
    ∧ (let s : State := bst (.binit 1 9) [65535] {phase := 3, pending := 1}
       let c : Nat := 3
       let b : Nat := 1
       let i : Nat := 0
       let e : QEntry := qe (.binit 1 9) 0 [65535]
       let opa : BitVec 6 := 1
       let bar : BitVec 6 := 9
       (s.failed = false) ∧
       (s.performable c b i = some e) ∧
       let cl := clusterOf c
       let y := s.barrier cl bar.toNat
       (e.ins = .binit opa bar) ∧
       (y.pending ≠ 0))
    ∧ (let s : State := bst (.barr 9) [] {phase := 255, expect := 4, remain := 0, early := 1, pending := 6}
       let c : Nat := 3
       let b : Nat := 1
       let i : Nat := 0
       let e : QEntry := qe (.barr 9) 0 []
       let bar : BitVec 6 := 9
       (s.failed = false) ∧
       (s.performable c b i = some e) ∧
       let cl := clusterOf c
       let y := s.barrier cl bar.toNat
       (e.ins = .barr bar) ∧
       (y.expect ≠ 0) ∧
       (y.remain = 0) ∧
       (y.early + 1 < y.expect))
    ∧ (let s : State := bst (.barr 9) [] {phase := 3, expect := 4, remain := 2, early := 1, pending := 2^28-65536}
       let c : Nat := 3
       let b : Nat := 1
       let i : Nat := 0
       let e : QEntry := qe (.barr 9) 0 []
       let bar : BitVec 6 := 9
       (s.failed = false) ∧
       (s.performable c b i = some e) ∧
       let cl := clusterOf c
       let y := s.barrier cl bar.toNat
       (e.ins = .barr bar) ∧
       (y.expect ≠ 0) ∧
       (0 < y.remain)) := by
  refine ⟨?_, ?_, ?_, ?_, ?_, ?_⟩ <;> decide +kernel
theorem witness_RoundsRecordsAndArrivals_2 :
    (let s : State := pst 70 {phase := 1, expect := 4, remain := 65535, errCode := 0x2}
     let c : Nat := 3
     let b : Nat := 1
     let l : List QEntry := [qe (.barr 9) 0 []]
     let r : List QEntry := [qe (.binit 1 9) 0 [5]]
     let e : QEntry := pol 70
     let opa : BitVec 6 := 21
     let bar : BitVec 6 := 9
     (b < 2) ∧
     let k := s.bank c b
     let y := s.barrier (clusterOf c) bar.toNat
     let polls (o : QEntry) : Prop := ∃ q n, o.ins = .bpoll q n
     (k.queue = l ++ e :: r) ∧
     (e.ins = .bpoll opa bar) ∧
     ((∀ o ∈ l ++ r, ¬ polls o)) ∧
     (e.clk + 2 ≤ s.clk) ∧
     (y.remain < 2 ^ 16) ∧
     (y.pending < 2 ^ 28))
    ∧ (let s : State := bst (.bexp 1 9) [65535] {phase := 3, expect := 4, remain := 2, early := 1, pending := 2^28-65536}
       let c : Nat := 3
       let b : Nat := 1
       let i : Nat := 0
       let e : QEntry := qe (.bexp 1 9) 0 [65535]
       let opa : BitVec 6 := 1
       let bar : BitVec 6 := 9
       (s.failed = false) ∧
       (s.performable c b i = some e) ∧
       let cl := clusterOf c
       let y := s.barrier cl bar.toNat
       let n := (e.ops.headD 0).toNat
       (e.ins = .bexp opa bar) ∧
       (y.pending + n < 2 ^ 28))
    ∧ (let s : State := bst (.bexp 1 9) [65535] {phase := 3, expect := 4, remain := 2, early := 1, pending := 2^28-65535}
       let c : Nat := 3
       let b : Nat := 1
       let i : Nat := 0
       let e : QEntry := qe (.bexp 1 9) 0 [65535]
       let opa : BitVec 6 := 1
       let bar : BitVec 6 := 9
       (s.failed = false) ∧
       (s.performable c b i = some e) ∧
       let cl := clusterOf c
       let y := s.barrier cl bar.toNat
       let n := (e.ops.headD 0).toNat
       (e.ins = .bexp opa bar) ∧
       (2 ^ 28 ≤ y.pending + n))
    ∧ (let s : State := bst (.binit 1 9) [65535] {phase := 3, expect := 4, remain := 2, early := 1, err := true, errCode := 5}
       let c : Nat := 3
       let b : Nat := 1
       let i : Nat := 0
       let e : QEntry := qe (.binit 1 9) 0 [65535]
       let opa : BitVec 6 := 1
       let bar : BitVec 6 := 9
       (s.failed = false) ∧
       (s.performable c b i = some e) ∧
       let cl := clusterOf c
       let y := s.barrier cl bar.toNat
       (e.ins = .binit opa bar) ∧
       (y.pending = 0))
    ∧ (let s : State := pst 76 {phase := 255, expect := 4, remain := 700, early := 1, err := true, errCode := 0x612, pending := 2^27+5}
       let c : Nat := 3
       let b : Nat := 1
       let l : List QEntry := [qe (.barr 9) 0 []]
       let r : List QEntry := [qe (.binit 1 9) 0 [5]]
       let e : QEntry := pol 76
       let opa : BitVec 6 := 21
       let bar : BitVec 6 := 9
       (b < 2) ∧
       let k := s.bank c b
       let polls (o : QEntry) : Prop := ∃ q n, o.ins = .bpoll q n
       (k.queue = l ++ e :: r) ∧
       (e.ins = .bpoll opa bar) ∧
       ((∀ o ∈ l ++ r, ¬ polls o)) ∧
       (s.clk < e.clk + 2)) := by
  refine ⟨?_, ?_, ?_, ?_, ?_⟩ <;> decide +kernel
end WRoundsRecordsAndArrivals

namespace WCopyChannels
def out0 : List (Bool × Nat × BitVec 8) := []
def wh : Captured := { (evOf vb).capture with issued := 60 }
def b0 : CopyBlock := CopyBlock.ofNat (blkN 0 0 0 1 3 64 0x2000 96 1)
def b0b : CopyBlock := CopyBlock.ofNat (blkN 0 0 0 1 3 64 0x3000 96 1)
def bf : CopyBlock := CopyBlock.ofNat (blkN 0 0 (4+8) 0 3 64 0 0 0)
def bfill : CopyBlock := CopyBlock.ofNat (blkN 5 0 1 0 3 0 0x2000 96 1 0 0 0x1122334455667788)
def bpat : CopyBlock := CopyBlock.ofNat (blkN 7 0 0 0 3 64 0 0 0 0 0 5)
def bnc : CopyBlock := CopyBlock.ofNat (blkN 0 0 1 2 3 0x900000 0x40 96 1)
def bexp : CopyBlock := CopyBlock.ofNat (blkN 4 0 0 0 3 64 128 0 0)
def cc0 : CopyCmd := { who := wh, blocks := [b0], onEngine := false, fixed := true, counted := [96], started := true, progress := 1, left := 64, heads := [0,0] }
def cst (cmd : CopyCmd) : State := let s := memd (evOf vb); let s := s.setCore 3 { s.core 3 with pad := padM, channels := [(2, { queue := [cmd, cc0] }), (1, { queue := [cc0] })] }; s.setBarrier 0 3 { pending := 1000, expect := 1, remain := 1 }
def fen : FifoEntry := ⟨2, 5, 6, 7, 8⟩
def waitF (v : Nat) (s : State) : State := { s with engineWaits := [{ who := .copy 3 2, invocation := 4, page := 0, cause := v, write := true, verdict := some v }] }
def bexpg : CopyBlock := CopyBlock.ofNat (blkN 4 0 0 2 3 0x300000 128 0 0)
def bpk : CopyBlock := CopyBlock.ofNat (blkN 3 2 0 0 3 0x10000 0 0 0)
def ccp : CopyCmd := { cc0 with fixed := false, started := false, progress := 0, provisional := [3], blocks := [bpk], inter := [(0, 1), (2, 4)] }
def ccg : CopyCmd := { cc0 with fixed := false, started := false, progress := 0, provisional := [3], blocks := [bexpg] }
def ccs : CopyCmd := { cc0 with started := false, progress := 0, blocks := [b0, b0b] }
theorem witness_CopyChannels_1 :
    (let s : State := cst ccp
     let c : Nat := 3
     let n : Nat := 2
     ((s.failed = false)) ∧
     ((s.failed = false) ∧
       (match s.headCmd c n with
        | some cmd => decide ((cmd.fixed = false) ∧
       (s.copyMayRun c cmd = true) ∧
       (s.standing (.copy c n) = .free) ∧
       (((cmd.blocks.any (·.kind = 1)) = true → s.patternBefore cmd = false)) ∧
       let ahead := if (cmd.blocks.any (·.unclear)) = true then s.foresee c n cmd cmd.blocks else (cmd.blocks.map fun _ => none, false)
       (ahead.2 = true))
        | _ => false) = true))
    ∧ (let s : State := cst ccs
       let c : Nat := 3
       let n : Nat := 2
       let out : List (Bool × Nat × BitVec 8) := out0
       let cmd : CopyCmd := ccs
       let b : CopyBlock := b0
       let r : List CopyBlock := [b0b]
       ((s.failed = false) ∧
         (s.headCmd c n = some cmd) ∧
         (cmd.blocks = b :: r) ∧
         (cmd.fixed = true) ∧
         (s.copyMayRun c cmd = true) ∧
         ((cmd.started = false → b.kind = 1 → s.patternBefore cmd = false)) ∧
         (cmd.started = false) ∧
         (out = [])) ∧
       ((s.failed = false) ∧
         (s.headCmd c n = some cmd) ∧
         (cmd.blocks = b :: r) ∧
         (cmd.fixed = true) ∧
         (s.copyMayRun c cmd = true) ∧
         ((cmd.started = false → b.kind = 1 → s.patternBefore cmd = false)) ∧
         let s' := (s.outside out).startCommand c n cmd
         let going : CopyCmd := { cmd with started := true }
         (s.standing (.copy c n) = .free) ∧
         (cmd.heads ≠ []) ∧
         (cmd.progress < cmd.units b) ∧
         ((b.to.isFifo = true → cmd.waiting = [])) ∧
         (match s'.blockUnit c n going b with
          | .value bytes t => true
          | _ => false) = true))
    ∧ (let s : State := cst { cc0 with progress := 3, blocks := [bf], waiting := [fen,fen], left := 700 }
       let c : Nat := 3
       let n : Nat := 2
       let eng : Nat := 1
       let isB : Bool := true
       let cmd : CopyCmd := ({ cc0 with progress := 3, blocks := [bf], waiting := [fen,fen], left := 700 } : CopyCmd)
       let b : CopyBlock := (({ cc0 with progress := 3, blocks := [bf], waiting := [fen,fen], left := 700 } : CopyCmd).blocks.headD b0)
       let r : List CopyBlock := (({ cc0 with progress := 3, blocks := [bf], waiting := [fen,fen], left := 700 } : CopyCmd).blocks.drop 1)
       let e : FifoEntry := fen
       let es : List FifoEntry := (({ cc0 with progress := 3, blocks := [bf], waiting := [fen,fen], left := 700 } : CopyCmd).waiting.drop 1)
       ((s.failed = false) ∧
         (s.headCmd c n = some cmd) ∧
         (cmd.blocks = b :: r) ∧
         let k := s.bankOf cmd.who
         let m := k.eng eng
         (b.to = .fifo eng isB) ∧
         (cmd.waiting = e :: es) ∧
         (s.mayDeliver c n (if isB then m.bLast else m.aLast) = true) ∧
         (isB = true) ∧
         (m.bFifo.length < 128)) ∧
       ((s.failed = false) ∧
         (s.headCmd c n = some cmd) ∧
         (cmd.blocks = b :: r) ∧
         let k := s.bankOf cmd.who
         let m := k.eng eng
         (b.to = .fifo eng isB) ∧
         (cmd.waiting = e :: es) ∧
         (s.mayDeliver c n (if isB then m.bLast else m.aLast) = true) ∧
         (match m.accept isB e with
          | some m' => true
          | _ => false) = true))
    ∧ (let s : State := cst ccg
       let c : Nat := 3
       let n : Nat := 2
       (s.failed = false) ∧
       (match s.headCmd c n with
        | some cmd => decide ((cmd.fixed = false) ∧
       (s.copyMayRun c cmd = true) ∧
       (s.standing (.copy c n) = .free) ∧
       (((cmd.blocks.any (·.kind = 1)) = true → s.patternBefore cmd = false)) ∧
       let ahead := if (cmd.blocks.any (·.unclear)) = true then s.foresee c n cmd cmd.blocks else (cmd.blocks.map fun _ => none, false)
       let read := s.readCounts c n cmd (cmd.blocks.zip ahead.1)
       (ahead.2 = false) ∧
       (read.1 = none))
        | _ => false) = true)
    ∧ (let s : State := cst { cc0 with fixed := false, provisional := [3] }
       let c : Nat := 3
       let n : Nat := 2
       (s.failed = false) ∧
       let k := clusterOf c
       (match s.headCmd c n with
        | some cmd => decide ((cmd.fixed = false) ∧
       (s.copyMayRun c cmd = true) ∧
       (s.standing (.copy c n) = .free) ∧
       (((cmd.blocks.any (·.kind = 1)) = true → s.patternBefore cmd = false)) ∧
       let ahead := if (cmd.blocks.any (·.unclear)) = true then s.foresee c n cmd cmd.blocks else (cmd.blocks.map fun _ => none, false)
       let read := s.readCounts c n cmd (cmd.blocks.zip ahead.1)
       (ahead.2 = false) ∧
       (match read.1 with
        | some found => decide (let u := read.2
       let counts := found.map fun o => o.getD 0
       (match u.countBlocks k ((cmd.blocks.map (·.bar)).zip counts) with
        | some w => true
        | _ => false) = true)
        | _ => false) = true)
        | _ => false) = true) := by
  refine ⟨?_, ?_, ?_, ?_, ?_⟩ <;> decide +kernel
theorem witness_CopyChannels_2 :
    (let s : State := cst cc0
     let c : Nat := 3
     let n : Nat := 2
     let out : List (Bool × Nat × BitVec 8) := out0
     let cmd : CopyCmd := cc0
     let b : CopyBlock := cc0.blocks.headD b0
     let r : List CopyBlock := cc0.blocks.drop 1
     (s.failed = false) ∧
     (s.headCmd c n = some cmd) ∧
     (cmd.blocks = b :: r) ∧
     (cmd.fixed = true) ∧
     (s.copyMayRun c cmd = true) ∧
     ((cmd.started = false → b.kind = 1 → s.patternBefore cmd = false)) ∧
     let x := s.core c
     let q := s.cluster (clusterOf c)
     let i := 32 * cmd.progress
     (s.standing (.copy c n) = .free) ∧
     (cmd.heads ≠ []) ∧
     (cmd.progress < cmd.units b) ∧
     ((b.to.isFifo = true → cmd.waiting = [])) ∧
     (b.kind = 0) ∧
     (b.from = .cluster) ∧
     (b.to = .pad) ∧
     (b.rows = 1) ∧
     (i + 32 ≤ b.len) ∧
     (q.check (b.src + i) 32 = none) ∧
     (b.dst + i + 32 ≤ 2 ^ 23) ∧
     (s.padRoom c n 32 = true) ∧
     (cmd.started = true) ∧
     (r = []) ∧
     ((x.channel n).offset ≤ b.dst + i) ∧
     (cmd.top ≤ b.dst + i) ∧
     (out = []))
    ∧ (let s : State := waitF 0x14 (cst cc0)
       let c : Nat := 3
       let n : Nat := 2
       let cause : Nat := 0x14
       let cmd : CopyCmd := cc0
       let b : CopyBlock := cc0.blocks.headD b0
       let r : List CopyBlock := cc0.blocks.drop 1
       (s.failed = false) ∧
       (s.headCmd c n = some cmd) ∧
       (cmd.blocks = b :: r) ∧
       (cmd.fixed = true) ∧
       (s.copyMayRun c cmd = true) ∧
       ((cmd.started = false → b.kind = 1 → s.patternBefore cmd = false)) ∧
       (s.standing (.copy c n) = .failed cause) ∧
       ((b.kind ≠ 1 ∨ cmd.progress ≠ 0)))
    ∧ (let s : State := (cst { cc0 with fixed := false, provisional := [3] }).setBarrier 0 3 { pending := 2^28-1 }
       let c : Nat := 3
       let n : Nat := 2
       (s.failed = false) ∧
       let k := clusterOf c
       (match s.headCmd c n with
        | some cmd => decide ((cmd.fixed = false) ∧
       (s.copyMayRun c cmd = true) ∧
       (s.standing (.copy c n) = .free) ∧
       (((cmd.blocks.any (·.kind = 1)) = true → s.patternBefore cmd = false)) ∧
       let ahead := if (cmd.blocks.any (·.unclear)) = true then s.foresee c n cmd cmd.blocks else (cmd.blocks.map fun _ => none, false)
       let read := s.readCounts c n cmd (cmd.blocks.zip ahead.1)
       (ahead.2 = false) ∧
       (match read.1 with
        | some found => decide (let u := read.2
       let counts := found.map fun o => o.getD 0
       (u.countBlocks k ((cmd.blocks.map (·.bar)).zip counts) = none))
        | _ => false) = true)
        | _ => false) = true)
    ∧ (let s : State := cst { cc0 with heads := [], progress := 0, blocks := [bexpg] }
       let c : Nat := 3
       let n : Nat := 2
       let out : List (Bool × Nat × BitVec 8) := out0
       let cmd : CopyCmd := { cc0 with heads := [], progress := 0, blocks := [bexpg] }
       let b : CopyBlock := bexpg
       let r : List CopyBlock := []
       (s.failed = false) ∧
       (s.headCmd c n = some cmd) ∧
       (cmd.blocks = b :: r) ∧
       (cmd.fixed = true) ∧
       (s.copyMayRun c cmd = true) ∧
       ((cmd.started = false → b.kind = 1 → s.patternBefore cmd = false)) ∧
       let s' := (s.outside out).startCommand c n cmd
       let going : CopyCmd := { cmd with started := true }
       (s.standing (.copy c n) = .free) ∧
       (cmd.heads = []) ∧
       (match s'.startBlock c n going b with
        | .wait t => true
        | _ => false) = true)
    ∧ (let s : State := let s := cst cc0; let s := s.setChannel 3 2 { (s.core 3).channel 2 with rateClk := 77, rateBytes := 500 }; s
       let c : Nat := 3
       let n : Nat := 2
       let out : List (Bool × Nat × BitVec 8) := out0
       let cmd : CopyCmd := cc0
       let b : CopyBlock := cc0.blocks.headD b0
       let r : List CopyBlock := cc0.blocks.drop 1
       (s.failed = false) ∧
       (s.headCmd c n = some cmd) ∧
       (cmd.blocks = b :: r) ∧
       (cmd.fixed = true) ∧
       (s.copyMayRun c cmd = true) ∧
       ((cmd.started = false → b.kind = 1 → s.patternBefore cmd = false)) ∧
       let s' := (s.outside out).startCommand c n cmd
       let going : CopyCmd := { cmd with started := true }
       (s.standing (.copy c n) = .free) ∧
       (cmd.heads ≠ []) ∧
       (cmd.progress < cmd.units b) ∧
       ((b.to.isFifo = true → cmd.waiting = [])) ∧
       (match s'.blockUnit c n going b with
        | .wait t => true
        | _ => false) = true) := by
  refine ⟨?_, ?_, ?_, ?_, ?_⟩ <;> decide +kernel
theorem witness_CopyChannels_3 :
    (let s : State := cst { cc0 with blocks := [bfill] }
     let c : Nat := 3
     let n : Nat := 2
     let out : List (Bool × Nat × BitVec 8) := out0
     let cmd : CopyCmd := ({ cc0 with blocks := [bfill] } : CopyCmd)
     let b : CopyBlock := (({ cc0 with blocks := [bfill] } : CopyCmd).blocks.headD b0)
     let r : List CopyBlock := (({ cc0 with blocks := [bfill] } : CopyCmd).blocks.drop 1)
     (s.failed = false) ∧
     (s.headCmd c n = some cmd) ∧
     (cmd.blocks = b :: r) ∧
     (cmd.fixed = true) ∧
     (s.copyMayRun c cmd = true) ∧
     ((cmd.started = false → b.kind = 1 → s.patternBefore cmd = false)) ∧
     let q := s.cluster (clusterOf c)
     let i := 32 * cmd.progress
     (s.standing (.copy c n) = .free) ∧
     (cmd.heads ≠ []) ∧
     (cmd.progress < cmd.units b) ∧
     ((b.to.isFifo = true → cmd.waiting = [])) ∧
     (b.kind = 5) ∧
     (b.param % 2 = 0) ∧
     (b.to = .cluster) ∧
     (b.rows = 1) ∧
     (i + 32 ≤ b.len) ∧
     (q.check (b.dst + i) 32 = none) ∧
     (out = []))
    ∧ (let s : State := cst { cc0 with heads := [], progress := 0 }
       let c : Nat := 3
       let n : Nat := 2
       let out : List (Bool × Nat × BitVec 8) := out0
       let cmd : CopyCmd := ({ cc0 with heads := [], progress := 0 } : CopyCmd)
       let b : CopyBlock := (({ cc0 with heads := [], progress := 0 } : CopyCmd).blocks.headD b0)
       let r : List CopyBlock := (({ cc0 with heads := [], progress := 0 } : CopyCmd).blocks.drop 1)
       (s.failed = false) ∧
       (s.headCmd c n = some cmd) ∧
       (cmd.blocks = b :: r) ∧
       (cmd.fixed = true) ∧
       (s.copyMayRun c cmd = true) ∧
       ((cmd.started = false → b.kind = 1 → s.patternBefore cmd = false)) ∧
       let s' := (s.outside out).startCommand c n cmd
       let going : CopyCmd := { cmd with started := true }
       (s.standing (.copy c n) = .free) ∧
       (cmd.heads = []) ∧
       (match s'.startBlock c n going b with
        | .value v t => true
        | _ => false) = true)
    ∧ (let s : State := cst { cc0 with progress := 3 }
       let c : Nat := 3
       let n : Nat := 2
       let cmd : CopyCmd := ({ cc0 with progress := 3 } : CopyCmd)
       let b : CopyBlock := (({ cc0 with progress := 3 } : CopyCmd).blocks.headD b0)
       let r : List CopyBlock := (({ cc0 with progress := 3 } : CopyCmd).blocks.drop 1)
       (s.failed = false) ∧
       (s.headCmd c n = some cmd) ∧
       (cmd.blocks = b :: r) ∧
       (cmd.heads ≠ []) ∧
       (cmd.units b ≤ cmd.progress) ∧
       ((b.to.isFifo = true → cmd.waiting = [])) ∧
       (r = []))
    ∧ (let s : State := cst { cc0 with blocks := [bnc], progress := 0 }
       let c : Nat := 3
       let n : Nat := 2
       let out : List (Bool × Nat × BitVec 8) := out0
       let cmd : CopyCmd := ({ cc0 with blocks := [bnc], progress := 0 } : CopyCmd)
       let b : CopyBlock := (({ cc0 with blocks := [bnc], progress := 0 } : CopyCmd).blocks.headD b0)
       let r : List CopyBlock := (({ cc0 with blocks := [bnc], progress := 0 } : CopyCmd).blocks.drop 1)
       (s.failed = false) ∧
       (s.headCmd c n = some cmd) ∧
       (cmd.blocks = b :: r) ∧
       (cmd.fixed = true) ∧
       (s.copyMayRun c cmd = true) ∧
       ((cmd.started = false → b.kind = 1 → s.patternBefore cmd = false)) ∧
       let s' := (s.outside out).startCommand c n cmd
       let going : CopyCmd := { cmd with started := true }
       (s.standing (.copy c n) = .free) ∧
       (cmd.heads ≠ []) ∧
       (cmd.progress < cmd.units b) ∧
       ((b.to.isFifo = true → cmd.waiting = [])) ∧
       (match s'.blockUnit c n going b with
        | .fail code => true
        | _ => false) = true)
    ∧ (let s : State := cst { cc0 with blocks := [bpat], progress := 0, left := 32 }
       let c : Nat := 3
       let n : Nat := 2
       let out : List (Bool × Nat × BitVec 8) := out0
       let cmd : CopyCmd := ({ cc0 with blocks := [bpat], progress := 0, left := 32 } : CopyCmd)
       let b : CopyBlock := (({ cc0 with blocks := [bpat], progress := 0, left := 32 } : CopyCmd).blocks.headD b0)
       let r : List CopyBlock := (({ cc0 with blocks := [bpat], progress := 0, left := 32 } : CopyCmd).blocks.drop 1)
       (s.failed = false) ∧
       (s.headCmd c n = some cmd) ∧
       (cmd.blocks = b :: r) ∧
       (cmd.fixed = true) ∧
       (s.copyMayRun c cmd = true) ∧
       ((cmd.started = false → b.kind = 1 → s.patternBefore cmd = false)) ∧
       (s.standing (.copy c n) = .free) ∧
       (cmd.heads ≠ []) ∧
       (cmd.progress < cmd.units b) ∧
       ((b.to.isFifo = true → cmd.waiting = [])) ∧
       (b.kind = 7) ∧
       (b.from = .pad) ∧
       (b.src + 32 ≤ 2 ^ 23) ∧
       (out = [])) := by
  refine ⟨?_, ?_, ?_, ?_, ?_⟩ <;> decide +kernel
theorem witness_CopyChannels_4 :
    (let s : State := cst { cc0 with heads := [], progress := 0, blocks := [bexp] }
     let c : Nat := 3
     let n : Nat := 2
     let out : List (Bool × Nat × BitVec 8) := out0
     let cmd : CopyCmd := ({ cc0 with heads := [], progress := 0, blocks := [bexp] } : CopyCmd)
     let b : CopyBlock := (({ cc0 with heads := [], progress := 0, blocks := [bexp] } : CopyCmd).blocks.headD b0)
     let r : List CopyBlock := (({ cc0 with heads := [], progress := 0, blocks := [bexp] } : CopyCmd).blocks.drop 1)
     (s.failed = false) ∧
     (s.headCmd c n = some cmd) ∧
     (cmd.blocks = b :: r) ∧
     (cmd.fixed = true) ∧
     (s.copyMayRun c cmd = true) ∧
     ((cmd.started = false → b.kind = 1 → s.patternBefore cmd = false)) ∧
     let s' := (s.outside out).startCommand c n cmd
     let going : CopyCmd := { cmd with started := true }
     (s.standing (.copy c n) = .free) ∧
     (cmd.heads = []) ∧
     (match s'.startBlock c n going b with
      | .fail code => true
      | _ => false) = true)
    ∧ (let s : State := cst { cc0 with progress := 3, blocks := [b0, b0b], counted := [96, 97] }
       let c : Nat := 3
       let n : Nat := 2
       let cmd : CopyCmd := ({ cc0 with progress := 3, blocks := [b0, b0b], counted := [96, 97] } : CopyCmd)
       let b : CopyBlock := (({ cc0 with progress := 3, blocks := [b0, b0b], counted := [96, 97] } : CopyCmd).blocks.headD b0)
       let r : List CopyBlock := (({ cc0 with progress := 3, blocks := [b0, b0b], counted := [96, 97] } : CopyCmd).blocks.drop 1)
       (s.failed = false) ∧
       (s.headCmd c n = some cmd) ∧
       (cmd.blocks = b :: r) ∧
       (cmd.heads ≠ []) ∧
       (cmd.units b ≤ cmd.progress) ∧
       ((b.to.isFifo = true → cmd.waiting = [])) ∧
       (r ≠ []))
    ∧ (let s : State := let s := cst { cc0 with progress := 3, blocks := [bf], waiting := [fen,fen], left := 700 }; s.setCore 3 { s.core 3 with examined := 78 }
       let c : Nat := 3
       let n : Nat := 2
       let eng : Nat := 1
       let isB : Bool := true
       let cmd : CopyCmd := ({ cc0 with progress := 3, blocks := [bf], waiting := [fen,fen], left := 700 } : CopyCmd)
       let b : CopyBlock := (({ cc0 with progress := 3, blocks := [bf], waiting := [fen,fen], left := 700 } : CopyCmd).blocks.headD b0)
       let r : List CopyBlock := (({ cc0 with progress := 3, blocks := [bf], waiting := [fen,fen], left := 700 } : CopyCmd).blocks.drop 1)
       (s.failed = false) ∧
       (s.headCmd c n = some cmd) ∧
       (cmd.blocks = b :: r) ∧
       (b.to = .fifo eng isB) ∧
       ((s.core c).examined = s.clk + 1))
    ∧ (let s : State := let s := cst { cc0 with progress := 3, blocks := [bf], waiting := [fen,fen], left := 700 }; let k := s.bank 3 1; s.setBank 3 1 (k.setEng 1 { k.eng 1 with aFifo := List.replicate 256 fen, bFifo := List.replicate 128 fen })
       let c : Nat := 3
       let n : Nat := 2
       let eng : Nat := 1
       let isB : Bool := true
       let cmd : CopyCmd := ({ cc0 with progress := 3, blocks := [bf], waiting := [fen,fen], left := 700 } : CopyCmd)
       let b : CopyBlock := (({ cc0 with progress := 3, blocks := [bf], waiting := [fen,fen], left := 700 } : CopyCmd).blocks.headD b0)
       let r : List CopyBlock := (({ cc0 with progress := 3, blocks := [bf], waiting := [fen,fen], left := 700 } : CopyCmd).blocks.drop 1)
       let e : FifoEntry := fen
       let es : List FifoEntry := (({ cc0 with progress := 3, blocks := [bf], waiting := [fen,fen], left := 700 } : CopyCmd).waiting.drop 1)
       (s.failed = false) ∧
       (s.headCmd c n = some cmd) ∧
       (cmd.blocks = b :: r) ∧
       let k := s.bankOf cmd.who
       let m := k.eng eng
       (b.to = .fifo eng isB) ∧
       (cmd.waiting = e :: es) ∧
       (s.mayDeliver c n (if isB then m.bLast else m.aLast) = true) ∧
       (m.accept isB e = none)) := by
  refine ⟨?_, ?_, ?_, ?_⟩ <;> decide +kernel
end WCopyChannels

namespace WStashSteps
def wh : Captured := { (evOf vb).capture with issued := 60 }
def hh : Nat := hdrN 0x10100 0x80 0x80 6 0 0 0 1 32 0x80
def hh2 : Nat := hdrN 0x10300 0x80 0x0 6 0 0 0 1 32 0x80
def e0 : StashEntry := { state := 10, stage := 5, mode := 0, header := 0x10000, len := 128, loc := 1, fmt := 6, rows := 1, rowLen := 32, payload := 0x10100, checksum := none }
def cm : StashCmd := { op := 0, mode := 0, header := 0x10000, key := 77, bar := some 3, who := wh }
def sst (run : List StashCmd) (e : StashEntry) (q : List Nat := []) : State :=
  let s := { evOf vb with extents := [(4, xt1 ++ [({ vbase := 0x1000000, units := 16, w := true, u := true, pbase := 0x900000 } : Extent), { vbase := 0x90000000, units := 1, w := true, u := true, pbase := 0xA00000 }])] }
  let s := s.setDie 0 { s.die 0 with home := lay (lay (lay homeM 0x400000 (natBytes 64 hh)) 0x400200 (natBytes 64 hh2)) 0x400100 ((List.range 4).map fun i => BitVec.ofNat 8 (i * 3 + 1)), stash := [(77, e)], stashRunning := run, regions := [(0, 1 + 2^20 * 0x10), (1, 1), (2, 1), (3, 1 + 2^20 * 0x900)] }
  let s := s.setCore 3 { s.core 3 with stashQueue := q }
  s.setBarrier 0 3 { pending := 1000, expect := 1, remain := 1 }
def waitF (w : Writer) (v : Nat) (s : State) : State := { s with engineWaits := [{ who := w, invocation := 4, page := 0, cause := v, write := true, verdict := some v }] }
def W : Writer := .stash 0 77
def sc (c : StashCmd) (e : StashEntry) := sst [c] e
def cb (op mode : Nat) : StashCmd := { cm with op, mode, begun := true, id := 5 }
def drp : StashEntry := { e0 with state := 8, checksum := some 5 }
def cr (op mode : Nat) : StashCmd := { cb op mode with running := true, left := 128, old := some e0 }
def nopol (s : State) : State := s.setDie 0 { s.die 0 with stpol := [(5, 0x320000)] }
def noroom (s : State) : State := s.setDie 0 { s.die 0 with regions := [] }
def unmap (s : State) : State := { s with extents := [] }
def overf (s : State) : State := s.setBarrier 0 3 { pending := 2^28-2, expect := 1, remain := 1 }
def cmdK : Command := { who := wh, ins := .ckpt 1 2, ops := [0x10009, 44], id := 12, covers := [(3, 3, 1, some 99), (0, 5, 0, some 77)] }
def P0 : State := { sst [] e0 with commands := [cmdK] }
def Wk : Writer := .ckpt 3 12
def P1 : State := { evOf vb with calendar := [(99, .phaseFlit), (60, .replayRestore 3 1 6 9 [(1,⟨5,6⟩)] [(1,⟨7,8⟩)])] }
theorem witness_StashSteps_1 :
    (let s : State := sc (cr 0 4) e0
     let d : Nat := 0
     let key : Nat := 77
     let c : StashCmd := cr 0 4
     let e : StashEntry := e0
     ((s.failed = false) ∧
       ((s.die d).turn key = some c) ∧
       (tfind key (s.die d).stash = some e) ∧
       (c.running = true) ∧
       (c.op = 0) ∧
       (c.mode = 4) ∧
       (c.copied = none) ∧
       (((s.die d).policy c.who.stage).getLsbD 3 = true)) ∧
     ((s.failed = false) ∧
       ((s.die d).turn key = some c) ∧
       let who := Writer.stash d key
       (tfind key (s.die d).stash = some e) ∧
       (c.running = true) ∧
       (c.op = 0) ∧
       (c.aborted = false) ∧
       (s.standing who = .free) ∧
       (c.copied = none) ∧
       (match s.readBytes who c.who e.payload e.len with
        | .value p u => decide (let sum : Option SReg := some (BitVec.ofNat 64 (checksumOf p e.len))
       (match u.markHeader who c.who e.header sum with
        | .value v w => decide (((c.mode = 1 ∨ c.mode = 3 ∨ c.mode = 4)))
        | _ => false) = true)
        | _ => false) = true))
    ∧ (let s : State := sst [] e0 [1,2]
       let core : Nat := 3
       let i : Nat := 1
       let is : List Nat := [2]
       (s.failed = false) ∧
       ((s.core core).stashQueue = i :: is))
    ∧ (let s : State := sc (cb 2 0) e0
       let d : Nat := 0
       let key : Nat := 77
       let c : StashCmd := cb 2 0
       (s.failed = false) ∧
       ((s.die d).turn key = some c) ∧
       (c.op = 2) ∧
       (s.stashTaken c = true))
    ∧ (let s : State := sc (cr 0 0) e0
       let d : Nat := 0
       let key : Nat := 77
       let c : StashCmd := cr 0 0
       let e : StashEntry := e0
       (s.failed = false) ∧
       ((s.die d).turn key = some c) ∧
       let who := Writer.stash d key
       (tfind key (s.die d).stash = some e) ∧
       (c.running = true) ∧
       (c.op = 0) ∧
       (c.aborted = false) ∧
       (s.standing who = .free) ∧
       (c.copied = none) ∧
       (match s.readBytes who c.who e.payload e.len with
        | .value p u => decide (let sum : Option SReg := some (BitVec.ofNat 64 (checksumOf p e.len))
       (match u.markHeader who c.who e.header sum with
        | .value v w => decide ((c.mode = 0))
        | _ => false) = true)
        | _ => false) = true) := by
  refine ⟨?_, ?_, ?_, ?_⟩ <;> decide +kernel
theorem witness_StashSteps_2 :
    (let s : State := sc (cr 0 2) e0
     let d : Nat := 0
     let key : Nat := 77
     let c : StashCmd := cr 0 2
     let e : StashEntry := e0
     (s.failed = false) ∧
     ((s.die d).turn key = some c) ∧
     let who := Writer.stash d key
     (tfind key (s.die d).stash = some e) ∧
     (c.running = true) ∧
     (c.op = 0) ∧
     (c.aborted = false) ∧
     (s.standing who = .free) ∧
     (c.copied = none) ∧
     (match s.readBytes who c.who e.payload e.len with
      | .value p u => decide ((c.mode = 2))
      | _ => false) = true)
    ∧ (let s : State := sc (cr 0 5) e0
       let d : Nat := 0
       let key : Nat := 77
       let c : StashCmd := cr 0 5
       let e : StashEntry := e0
       (s.failed = false) ∧
       ((s.die d).turn key = some c) ∧
       let who := Writer.stash d key
       (tfind key (s.die d).stash = some e) ∧
       (c.running = true) ∧
       (c.op = 0) ∧
       (c.aborted = false) ∧
       (s.standing who = .free) ∧
       (c.copied = none) ∧
       (match s.readBytes who c.who e.payload e.len with
        | .value p u => decide (let sum : Option SReg := some (BitVec.ofNat 64 (checksumOf p e.len))
       (match u.markHeader who c.who e.header sum with
        | .value v w => decide ((c.mode = 5))
        | _ => false) = true)
        | _ => false) = true)
    ∧ (let s : State := sc (cb 1 0) e0
       let d : Nat := 0
       let key : Nat := 77
       let c : StashCmd := cb 1 0
       (s.failed = false) ∧
       let who := Writer.stash d key
       let entry (t : State) : StashEntry := (tfind key (t.die d).stash).getD {}
       ((s.die d).turn key = some c) ∧
       (c.begun = true) ∧
       (c.running = false) ∧
       (s.stashTaken c = true) ∧
       (s.released c.who = true) ∧
       (s.tooSoon d c = false) ∧
       (s.standing who = .free) ∧
       ((c.op = 1 ∨ c.op = 3)) ∧
       (match s.stashCount c (entry s).len with
        | some u => decide (((entry s).state = 10))
        | _ => false) = true)
    ∧ (let s : State := sc (cb 0 0) e0
       let d : Nat := 0
       let key : Nat := 77
       let c : StashCmd := cb 0 0
       (s.failed = false) ∧
       let who := Writer.stash d key
       ((s.die d).turn key = some c) ∧
       (c.begun = true) ∧
       (c.running = false) ∧
       (s.stashTaken c = true) ∧
       (s.released c.who = true) ∧
       (s.tooSoon d c = false) ∧
       (s.standing who = .free) ∧
       (c.op = 0) ∧
       (match s.engineRead who c.who c.header 64 with
        | .value v u => decide (let h := Header.ofNat v
       (stashHeaderBad h c.mode = false) ∧
       (c.mode ≠ 6) ∧
       (c.prev ≠ 8) ∧
       (match u.stashCount c h.len with
        | some w => true
        | _ => false) = true)
        | _ => false) = true) := by
  refine ⟨?_, ?_, ?_, ?_⟩ <;> decide +kernel
theorem witness_StashSteps_3 :
    (let s : State := sc (cb 0 2) e0
     let d : Nat := 0
     let key : Nat := 77
     let c : StashCmd := cb 0 2
     (s.failed = false) ∧
     let who := Writer.stash d key
     ((s.die d).turn key = some c) ∧
     (c.begun = true) ∧
     (c.running = false) ∧
     (s.stashTaken c = true) ∧
     (s.released c.who = true) ∧
     (s.tooSoon d c = false) ∧
     (s.standing who = .free) ∧
     (c.op = 0) ∧
     (match s.engineRead who c.who c.header 64 with
      | .value v u => decide (let h := Header.ofNat v
     (stashHeaderBad h c.mode = true))
      | _ => false) = true)
    ∧ (let s : State := sc (cb 0 6) e0
       let d : Nat := 0
       let key : Nat := 77
       let c : StashCmd := cb 0 6
       (s.failed = false) ∧
       let who := Writer.stash d key
       let entry (t : State) : StashEntry := (tfind key (t.die d).stash).getD {}
       ((s.die d).turn key = some c) ∧
       (c.begun = true) ∧
       (c.running = false) ∧
       (s.stashTaken c = true) ∧
       (s.released c.who = true) ∧
       (s.tooSoon d c = false) ∧
       (s.standing who = .free) ∧
       (c.op = 0) ∧
       (match s.engineRead who c.who c.header 64 with
        | .value v u => decide (let h := Header.ofNat v
       (stashHeaderBad h c.mode = false) ∧
       ((c.mode = 6 ∨ c.prev = 8)) ∧
       (match u.readBytes who c.who h.addr h.len with
        | .value p m => decide ((match m.stashCount c h.len with
        | some w => decide (let sum : Option SReg := some (BitVec.ofNat 64 (checksumOf p h.len))
       ((c.prev ≠ 8 ∨ (entry w).checksum = sum)))
        | _ => false) = true)
        | _ => false) = true)
        | _ => false) = true)
    ∧ (let s : State := nopol (sc (cr 0 4) e0)
       let d : Nat := 0
       let key : Nat := 77
       let c : StashCmd := cr 0 4
       let e : StashEntry := e0
       (s.failed = false) ∧
       ((s.die d).turn key = some c) ∧
       (tfind key (s.die d).stash = some e) ∧
       (c.running = true) ∧
       (c.op = 0) ∧
       (c.mode = 4) ∧
       (c.copied = none) ∧
       (((s.die d).policy c.who.stage).getLsbD 3 = false))
    ∧ (let s : State := overf (sc (cb 1 0) e0)
       let d : Nat := 0
       let key : Nat := 77
       let c : StashCmd := cb 1 0
       (s.failed = false) ∧
       let who := Writer.stash d key
       let entry (t : State) : StashEntry := (tfind key (t.die d).stash).getD {}
       ((s.die d).turn key = some c) ∧
       (c.begun = true) ∧
       (c.running = false) ∧
       (s.stashTaken c = true) ∧
       (s.released c.who = true) ∧
       (s.tooSoon d c = false) ∧
       (s.standing who = .free) ∧
       ((c.op = 1 ∨ c.op = 3)) ∧
       (s.stashCount c (entry s).len = none)) := by
  refine ⟨?_, ?_, ?_, ?_⟩ <;> decide +kernel
theorem witness_StashSteps_4 :
    (let s : State := overf (sc (cb 0 0) e0)
     let d : Nat := 0
     let key : Nat := 77
     let c : StashCmd := cb 0 0
     (s.failed = false) ∧
     let who := Writer.stash d key
     ((s.die d).turn key = some c) ∧
     (c.begun = true) ∧
     (c.running = false) ∧
     (s.stashTaken c = true) ∧
     (s.released c.who = true) ∧
     (s.tooSoon d c = false) ∧
     (s.standing who = .free) ∧
     (c.op = 0) ∧
     (match s.engineRead who c.who c.header 64 with
      | .value v u => decide (let h := Header.ofNat v
     (stashHeaderBad h c.mode = false) ∧
     (c.mode ≠ 6) ∧
     (c.prev ≠ 8) ∧
     (u.stashCount c h.len = none))
      | _ => false) = true)
    ∧ (let s : State := overf (sc (cb 0 6) e0)
       let d : Nat := 0
       let key : Nat := 77
       let c : StashCmd := cb 0 6
       (s.failed = false) ∧
       let who := Writer.stash d key
       ((s.die d).turn key = some c) ∧
       (c.begun = true) ∧
       (c.running = false) ∧
       (s.stashTaken c = true) ∧
       (s.released c.who = true) ∧
       (s.tooSoon d c = false) ∧
       (s.standing who = .free) ∧
       (c.op = 0) ∧
       (match s.engineRead who c.who c.header 64 with
        | .value v u => decide (let h := Header.ofNat v
       (stashHeaderBad h c.mode = false) ∧
       ((c.mode = 6 ∨ c.prev = 8)) ∧
       (match u.readBytes who c.who h.addr h.len with
        | .value p m => decide ((m.stashCount c h.len = none))
        | _ => false) = true)
        | _ => false) = true)
    ∧ (let s : State := unmap (sc (cb 0 0) e0)
       let d : Nat := 0
       let key : Nat := 77
       let c : StashCmd := cb 0 0
       (s.failed = false) ∧
       let who := Writer.stash d key
       ((s.die d).turn key = some c) ∧
       (c.begun = true) ∧
       (c.running = false) ∧
       (s.stashTaken c = true) ∧
       (s.released c.who = true) ∧
       (s.tooSoon d c = false) ∧
       (s.standing who = .free) ∧
       (c.op = 0) ∧
       (match s.engineRead who c.who c.header 64 with
        | .fail cause => true
        | _ => false) = true)
    ∧ (let s : State := waitF W 0x12 (sc (cr 0 0) e0)
       let d : Nat := 0
       let key : Nat := 77
       let c : StashCmd := cr 0 0
       let e : StashEntry := e0
       (s.failed = false) ∧
       ((s.die d).turn key = some c) ∧
       let who := Writer.stash d key
       (tfind key (s.die d).stash = some e) ∧
       (c.running = true) ∧
       (c.op = 0) ∧
       (c.aborted = false) ∧
       (match s.standing who with
        | .failed cause => decide ((c.mode = 0))
        | _ => false) = true) := by
  refine ⟨?_, ?_, ?_, ?_⟩ <;> decide +kernel
theorem witness_StashSteps_5 :
    (let s : State := waitF W 0x12 (sc (cr 0 1) e0)
     let d : Nat := 0
     let key : Nat := 77
     let c : StashCmd := cr 0 1
     let e : StashEntry := e0
     (s.failed = false) ∧
     ((s.die d).turn key = some c) ∧
     let who := Writer.stash d key
     (tfind key (s.die d).stash = some e) ∧
     (c.running = true) ∧
     (c.op = 0) ∧
     (c.aborted = false) ∧
     (match s.standing who with
      | .failed cause => decide ((1 ≤ c.mode) ∧
     (c.mode ≤ 4))
      | _ => false) = true)
    ∧ (let s : State := waitF W 0x12 (sc (cr 0 5) e0)
       let d : Nat := 0
       let key : Nat := 77
       let c : StashCmd := cr 0 5
       let e : StashEntry := e0
       (s.failed = false) ∧
       ((s.die d).turn key = some c) ∧
       let who := Writer.stash d key
       (tfind key (s.die d).stash = some e) ∧
       (c.running = true) ∧
       (c.op = 0) ∧
       (c.aborted = false) ∧
       (match s.standing who with
        | .failed cause => decide ((c.mode = 5))
        | _ => false) = true)
    ∧ (let s : State := waitF W 0x12 (sc (cr 1 0) e0)
       let d : Nat := 0
       let key : Nat := 77
       let c : StashCmd := cr 1 0
       let e : StashEntry := e0
       (s.failed = false) ∧
       ((s.die d).turn key = some c) ∧
       let who := Writer.stash d key
       (tfind key (s.die d).stash = some e) ∧
       (c.running = true) ∧
       ((c.op = 1 ∨ c.op = 3)) ∧
       (match s.standing who with
        | .failed cause => true
        | _ => false) = true)
    ∧ (let s : State := waitF W 0x12 (sc (cb 1 0) e0)
       let d : Nat := 0
       let key : Nat := 77
       let c : StashCmd := cb 1 0
       (s.failed = false) ∧
       let who := Writer.stash d key
       ((s.die d).turn key = some c) ∧
       (c.begun = true) ∧
       (c.running = false) ∧
       (s.stashTaken c = true) ∧
       (s.released c.who = true) ∧
       (s.tooSoon d c = false) ∧
       (match s.standing who with
        | .failed cause => decide ((c.op ≠ 2))
        | _ => false) = true) := by
  refine ⟨?_, ?_, ?_, ?_⟩ <;> decide +kernel
theorem witness_StashSteps_6 :
    (let s : State := sc (cb 1 0) { e0 with state := 9 }
     let d : Nat := 0
     let key : Nat := 77
     let c : StashCmd := cb 1 0
     (s.failed = false) ∧
     let who := Writer.stash d key
     let entry (t : State) : StashEntry := (tfind key (t.die d).stash).getD {}
     ((s.die d).turn key = some c) ∧
     (c.begun = true) ∧
     (c.running = false) ∧
     (s.stashTaken c = true) ∧
     (s.released c.who = true) ∧
     (s.tooSoon d c = false) ∧
     (s.standing who = .free) ∧
     ((c.op = 1 ∨ c.op = 3)) ∧
     (match s.stashCount c (entry s).len with
      | some u => decide (((entry s).state ≠ 10))
      | _ => false) = true)
    ∧ (let s : State := P0
       let c : Nat := 3
       let b : Nat := 1
       let cmd : Command := cmdK
       let opb : BitVec 6 := 1
       let scope : BitVec 3 := 2
       (s.failed = false) ∧
       let d := dieOf c
       let who := Writer.ckpt c cmd.id
       let st := cmd.who.stage
       let tg := (cmd.ops.headD 0).toNat % 65536
       let covered := cmd.covers.map fun e => (e.1, e.2.2.2.getD 0)
       let data := snapBytes st scope.toNat tg ((cmd.ops[1]?).getD 0).toNat covered
       let room := ((s.freeSnaps st tg).die d).allocate 3 (64 + 256 * covered.length)
       (s.commands.find? (fun x => x.snaps && x.who.core = c && x.who.bank = b && x.covers.all fun e => e.2.2.2.isSome) = some cmd) ∧
       (cmd.ins = .ckpt opb scope) ∧
       (match room with
        | some g => decide ((s.standing who = .free) ∧
       let written : Got := g.zipIdx.foldl (fun (acc : Got) (o : Nat × Nat) =>
                        match acc with
                        | .value _ u => u.engineWrite who cmd.who true (((u.die d).region 3).1 + 256 * o.1) 256 (data / 256 ^ (256 * o.2) % 256 ^ 256)
                        | x => x) (.value 0 s)
       (match written with
        | .value v u => true
        | _ => false) = true)
        | _ => false) = true)
    ∧ (let s : State := P1
       let c : Nat := 3
       let b : Nat := 1
       let stage : Nat := 6
       let tag : Nat := 9
       let gens : Table Gen := [(1,⟨5,6⟩)]
       let seeds : Table Seed := [(1,⟨7,8⟩)]
       let l : List (Nat × Due) := [(99, .phaseFlit)]
       (s.failed = false) ∧
       (takeReplay s.clk c b s.calendar = some (((stage, tag), gens, seeds), l)))
    ∧ (let s : State := sc (cr 1 0) { e0 with loc := 4 }
       let d : Nat := 0
       let key : Nat := 77
       let c : StashCmd := cr 1 0
       let e : StashEntry := { e0 with loc := 4 }
       (s.failed = false) ∧
       ((s.die d).turn key = some c) ∧
       (tfind key (s.die d).stash = some e) ∧
       (c.running = true) ∧
       ((c.op = 1 ∨ c.op = 3)) ∧
       (e.loc = 4)) := by
  refine ⟨?_, ?_, ?_, ?_⟩ <;> first | decide +kernel | exact ⟨by decide +kernel, rfl⟩
theorem witness_StashSteps_7 :
    (let s : State := noroom P0
     let c : Nat := 3
     let b : Nat := 1
     let cmd : Command := cmdK
     let opb : BitVec 6 := 1
     let scope : BitVec 3 := 2
     (s.failed = false) ∧
     let d := dieOf c
     let st := cmd.who.stage
     let tg := (cmd.ops.headD 0).toNat % 65536
     let covered := cmd.covers.map fun e => (e.1, e.2.2.2.getD 0)
     let room := ((s.freeSnaps st tg).die d).allocate 3 (64 + 256 * covered.length)
     (s.commands.find? (fun x => x.snaps && x.who.core = c && x.who.bank = b && x.covers.all fun e => e.2.2.2.isSome) = some cmd) ∧
     (cmd.ins = .ckpt opb scope) ∧
     (room = none))
    ∧ (let s : State := waitF Wk 0x12 P0
       let c : Nat := 3
       let b : Nat := 1
       let cmd : Command := cmdK
       let opb : BitVec 6 := 1
       let scope : BitVec 3 := 2
       (s.failed = false) ∧
       let d := dieOf c
       let who := Writer.ckpt c cmd.id
       let st := cmd.who.stage
       let tg := (cmd.ops.headD 0).toNat % 65536
       let covered := cmd.covers.map fun e => (e.1, e.2.2.2.getD 0)
       let room := ((s.freeSnaps st tg).die d).allocate 3 (64 + 256 * covered.length)
       (s.commands.find? (fun x => x.snaps && x.who.core = c && x.who.bank = b && x.covers.all fun e => e.2.2.2.isSome) = some cmd) ∧
       (cmd.ins = .ckpt opb scope) ∧
       (match room with
        | some g => decide ((match s.standing who with
        | .failed cause => true
        | _ => false) = true)
        | _ => false) = true)
    ∧ (let s : State := sc { cr 0 4 with aborted := true } e0
       let d : Nat := 0
       let key : Nat := 77
       let c : StashCmd := { cr 0 4 with aborted := true }
       let e : StashEntry := e0
       (s.failed = false) ∧
       ((s.die d).turn key = some c) ∧
       let who := Writer.stash d key
       (tfind key (s.die d).stash = some e) ∧
       (c.running = true) ∧
       (c.op = 0) ∧
       (c.mode = 4) ∧
       (c.copied = none) ∧
       (c.aborted = true) ∧
       (s.standing who = .free))
    ∧ (let s : State := sc { cb 0 0 with old := some drp } drp
       let d : Nat := 0
       let key : Nat := 77
       let c : StashCmd := { cb 0 0 with old := some drp }
       (s.failed = false) ∧
       let who := Writer.stash d key
       let entry (t : State) : StashEntry := (tfind key (t.die d).stash).getD {}
       ((s.die d).turn key = some c) ∧
       (c.begun = true) ∧
       (c.running = false) ∧
       (s.stashTaken c = true) ∧
       (s.released c.who = true) ∧
       (s.tooSoon d c = false) ∧
       (s.standing who = .free) ∧
       (c.op = 0) ∧
       (match s.engineRead who c.who c.header 64 with
        | .value v u => decide (let h := Header.ofNat v
       (stashHeaderBad h c.mode = false) ∧
       ((c.mode = 6 ∨ c.prev = 8)) ∧
       (match u.readBytes who c.who h.addr h.len with
        | .value p m => decide ((match m.stashCount c h.len with
        | some w => decide (let sum : Option SReg := some (BitVec.ofNat 64 (checksumOf p h.len))
       (c.prev = 8) ∧
       ((entry w).checksum ≠ sum))
        | _ => false) = true)
        | _ => false) = true)
        | _ => false) = true) := by
  refine ⟨?_, ?_, ?_, ?_⟩ <;> decide +kernel
theorem witness_StashSteps_8 :
    (let s : State := sc { cr 1 0 with header := 0x10240 } e0
     let d : Nat := 0
     let key : Nat := 77
     let c : StashCmd := { cr 1 0 with header := 0x10240 }
     let e : StashEntry := e0
     (s.failed = false) ∧
     ((s.die d).turn key = some c) ∧
     let who := Writer.stash d key
     (tfind key (s.die d).stash = some e) ∧
     (c.running = true) ∧
     ((c.op = 1 ∨ c.op = 3)) ∧
     (s.standing who = .free) ∧
     (match s.engineRead who c.who c.header 64 with
      | .value x u => decide (let h := Header.ofNat x
     let bad : Prop := h.fault = true ∨ h.form ≠ 0 ∨ h.fmt ≠ e.fmt ∨ h.rows ≠ e.rows ∨ h.rowLen ≠ e.rowLen
                  ∨ h.pitch ≠ h.rowLen * codeBytes h.fmt
     (bad))
      | _ => false) = true)
    ∧ (let s : State := { unmap P0 with failed := false }
       let c : Nat := 3
       let b : Nat := 1
       let cmd : Command := cmdK
       let opb : BitVec 6 := 1
       let scope : BitVec 3 := 2
       (s.failed = false) ∧
       let d := dieOf c
       let who := Writer.ckpt c cmd.id
       let st := cmd.who.stage
       let tg := (cmd.ops.headD 0).toNat % 65536
       let covered := cmd.covers.map fun e => (e.1, e.2.2.2.getD 0)
       let data := snapBytes st scope.toNat tg ((cmd.ops[1]?).getD 0).toNat covered
       let room := ((s.freeSnaps st tg).die d).allocate 3 (64 + 256 * covered.length)
       (s.commands.find? (fun x => x.snaps && x.who.core = c && x.who.bank = b && x.covers.all fun e => e.2.2.2.isSome) = some cmd) ∧
       (cmd.ins = .ckpt opb scope) ∧
       (match room with
        | some g => decide ((s.standing who = .free) ∧
       let written : Got := g.zipIdx.foldl (fun (acc : Got) (o : Nat × Nat) =>
                        match acc with
                        | .value _ u => u.engineWrite who cmd.who true (((u.die d).region 3).1 + 256 * o.1) 256 (data / 256 ^ (256 * o.2) % 256 ^ 256)
                        | x => x) (.value 0 s)
       (match written with
        | .fail cause => true
        | _ => false) = true)
        | _ => false) = true)
    ∧ (let s : State := sc { cr 0 1 with copied := some { e0 with state := 7, loc := 3, granules := [0] } } e0
       let d : Nat := 0
       let key : Nat := 77
       let c : StashCmd := { cr 0 1 with copied := some { e0 with state := 7, loc := 3, granules := [0] } }
       let e : StashEntry := e0
       (s.failed = false) ∧
       ((s.die d).turn key = some c) ∧
       let who := Writer.stash d key
       (tfind key (s.die d).stash = some e) ∧
       (c.running = true) ∧
       (c.op = 0) ∧
       (c.aborted = false) ∧
       (s.standing who = .free) ∧
       (match c.copied with
        | some y => decide ((match s.writeBytes who c.who y.payload y.len 0 with
        | .value v u => decide ((1 ≤ c.mode) ∧
       (c.mode ≤ 4))
        | _ => false) = true)
        | _ => false) = true)
    ∧ (let s : State := sc { cr 0 5 with copied := some { e0 with state := 7, loc := 3, granules := [0] } } e0
       let d : Nat := 0
       let key : Nat := 77
       let c : StashCmd := { cr 0 5 with copied := some { e0 with state := 7, loc := 3, granules := [0] } }
       let e : StashEntry := e0
       (s.failed = false) ∧
       ((s.die d).turn key = some c) ∧
       let who := Writer.stash d key
       (tfind key (s.die d).stash = some e) ∧
       (c.running = true) ∧
       (c.op = 0) ∧
       (c.aborted = false) ∧
       (s.standing who = .free) ∧
       (match c.copied with
        | some y => decide ((match s.writeBytes who c.who y.payload y.len 0 with
        | .value v u => decide ((c.mode = 5))
        | _ => false) = true)
        | _ => false) = true) := by
  refine ⟨?_, ?_, ?_, ?_⟩ <;> decide +kernel
theorem witness_StashSteps_9 :
    (let s : State := sc { cr 1 0 with header := 0x10200, old := some { e0 with state := 1 } } { e0 with state := 9, loc := 3, granules := [1] }
     let d : Nat := 0
     let key : Nat := 77
     let c : StashCmd := { cr 1 0 with header := 0x10200, old := some { e0 with state := 1 } }
     let e : StashEntry := { e0 with state := 9, loc := 3, granules := [1] }
     (s.failed = false) ∧
     ((s.die d).turn key = some c) ∧
     let who := Writer.stash d key
     (tfind key (s.die d).stash = some e) ∧
     (c.running = true) ∧
     ((c.op = 1 ∨ c.op = 3)) ∧
     (s.standing who = .free) ∧
     (match s.engineRead who c.who c.header 64 with
      | .value x u => decide (let h := Header.ofNat x
     let bad : Prop := h.fault = true ∨ h.form ≠ 0 ∨ h.fmt ≠ e.fmt ∨ h.rows ≠ e.rows ∨ h.rowLen ≠ e.rowLen
                  ∨ h.pitch ≠ h.rowLen * codeBytes h.fmt
     (¬ bad) ∧
     (match (if c.prev = 1 ∨ c.prev = 10 then u.readBytes who c.who e.payload e.len else u.copyIn d who c.who e.loc e.granules) with
      | .value y m => decide ((match e.restore c.prev y with
      | .inr p => decide ((match m.writeBytes who c.who h.addr e.len p with
      | .value v1 u1 => decide ((match u1.engineRead who c.who e.header 64 with
      | .value z u2 => decide (let home := Header.ofNat z
     let old := fieldAt x 48 8
     let flags := old - (old &&& 2 ^ 33) + if home.ckValid then 2 ^ 33 else 0
     (match u2.engineWrite who c.who true ((c.header + 12) % 2 ^ 64) 4 e.len with
      | .value v3 u3 => decide ((match u3.engineWrite who c.who true ((c.header + 40) % 2 ^ 64) 16 (home.cksum + 2 ^ 64 * flags) with
      | .value v4 u4 => true
      | _ => false) = true)
      | _ => false) = true)
      | _ => false) = true)
      | _ => false) = true)
      | _ => false) = true)
      | _ => false) = true)
      | _ => false) = true)
    ∧ (let s : State := sc { cr 3 0 with header := 0x10200, old := some { e0 with state := 3 } } { e0 with state := 9, loc := 3, granules := [1] }
       let d : Nat := 0
       let key : Nat := 77
       let c : StashCmd := { cr 3 0 with header := 0x10200, old := some { e0 with state := 3 } }
       let e : StashEntry := { e0 with state := 9, loc := 3, granules := [1] }
       (s.failed = false) ∧
       ((s.die d).turn key = some c) ∧
       let who := Writer.stash d key
       (tfind key (s.die d).stash = some e) ∧
       (c.running = true) ∧
       ((c.op = 1 ∨ c.op = 3)) ∧
       (s.standing who = .free) ∧
       (match s.engineRead who c.who c.header 64 with
        | .value x u => decide (let h := Header.ofNat x
       let bad : Prop := h.fault = true ∨ h.form ≠ 0 ∨ h.fmt ≠ e.fmt ∨ h.rows ≠ e.rows ∨ h.rowLen ≠ e.rowLen
                    ∨ h.pitch ≠ h.rowLen * codeBytes h.fmt
       (¬ bad) ∧
       (match (if c.prev = 1 ∨ c.prev = 10 then u.readBytes who c.who e.payload e.len else u.copyIn d who c.who e.loc e.granules) with
        | .value y m => decide ((match e.restore c.prev y with
        | .inl cause => true
        | _ => false) = true)
        | _ => false) = true)
        | _ => false) = true) := by
  refine ⟨?_, ?_⟩ <;> decide +kernel
end WStashSteps

namespace WChannelSteps
def wh : Captured := { (evOf vb).capture with issued := 60 }
def hh : Nat := hdrN 0x10100 0x80 100 6 0 0 0 1 25 100
def evC (t : TensorChannel) (k : Bank := vb) : State := let s := (evOf k).setTensor 7 t; s.setDie 0 { s.die 0 with home := lay (lay homeM 0x400000 (natBytes 64 hh)) 0x400100 ((List.range 128).map fun i => BitVec.ofNat 8 (i * 3 + 1)) }
def pk : Packet := { who := wh, descriptor := 0x0000000500090000, headerAddr := 0x10000, header := some hh, seq := 0 }
def tc : TensorChannel := { bound := true, sender := true, stage := 5, peer := 7, peerPos := 77, w := 4096, sent := 4096 - 192, consumed := 4096 - 192, seq := 0xFFFFFFFF, sq := [pk, pk], replay := [{pk with seq := 0xFFFFFFFE}] }
def dat : List (BitVec 8) := natBytes 64 hh ++ (List.range 128).map fun i => BitVec.ofNat 8 (i*7)
def waitF (w : Writer) (v : Nat) (s : State) : State := { s with engineWaits := [{ who := w, invocation := 4, page := 0, cause := v, write := true, verdict := some v }] }
def unmap (s : State) : State := { s with extents := [] }
def W : Writer := .channel 7
def D : Writer := .deposit 7
def ph : Packet := { pk with header := none }
def phb : Packet := { ph with descriptor := 0x0000000500090038, provisional := true }
def bar (n : Nat) (s : State) : State := s.setBarrier 0 3 { pending := n, expect := 1, remain := 1 }
def tr : TensorChannel := { bound := true, sender := false, stage := 5, peer := 7, peerPos := 77, w := 4096, deposited := 4096, consumed := 4096-192, seq := 5, rbase := 0x12000, who := some wh }
def cmdP (hd : Nat) : Command := { who := wh, ins := .chpost 3 7, addr := hd, id := 8 }
def cmdA (n : Nat) : Command := { who := wh, ins := .chack 3 7, ops := [BitVec.ofNat 64 n], id := 8 }
def wcm (c : Command) (s : State) : State := { s with commands := [{ c with id := 3, who := { wh with core := 5 } }, c] }
def hw : Nat := hdrN 0x12000 4096 100 6 0 0 0 1 25 100
def hwS (s : State) : State := s.setDie 0 { s.die 0 with home := lay (s.die 0).home 0x400040 (natBytes 64 hw) }
theorem witness_ChannelSteps_1 :
    (let s : State := wcm (cmdA 64) (evC tr)
     let c : Nat := 3
     let b : Nat := 1
     let i : Nat := 1
     let chan : Nat := 7
     let seq : Nat := 5
     let step : Nat := 44
     let tag : Nat := 9
     let kind : Nat := 0
     let offset : Nat := 0
     let pad : Nat := 0
     let data : List (BitVec 8) := dat
     let w : Captured := wh
     let cmd : Command := cmdA 64
     let hd : BitVec 6 := 3
     let ch : BitVec 6 := 7
     ((s.failed = false) ∧
       let t := s.tensor chan
       let n := (cmd.ops.headD 0).toNat
       let next := t.consumedAfter n
       let may : Prop := t.bound = true ∧ t.sender = false ∧ t.stage = cmd.who.stage ∧ n % 64 = 0 ∧ next ≤ t.deposited
       (t.bound = true) ∧
       (t.sender = false) ∧
       (s.linkBrings t seq step tag kind offset pad data = true) ∧
       (t.who = some w) ∧
       (s.outPort (.ack chan t.seq) = none) ∧
       (s.commandAt c b i = some cmd) ∧
       (s.commandReady cmd = true) ∧
       (ch.toNat = chan) ∧
       (cmd.ins = .chack hd ch) ∧
       (may) ∧
       (t.selfConsumed = [])) ∧
     ((s.failed = false) ∧
       let t := s.tensor chan
       let dep := Writer.deposit chan
       let size := data.length
       let a := t.rbase + offset
       (t.bound = true) ∧
       (t.sender = false) ∧
       (s.linkBrings t seq step tag kind offset pad data = true) ∧
       (seq = t.seq) ∧
       (s.depositor t = some w) ∧
       let room : Prop := offset + size ≤ t.w ∧ (s.stage t.stage).arrivalFull (decide (kind = 2)) = false
       let image := depositedHeader (bytesNat (data.take 64)) (a + 64) tag + 2 ^ 512 * bytesNat (data.drop 64)
       (room) ∧
       (s.standing dep = .free) ∧
       (match s.writeBytes dep w a size image with
        | .value v u => true
        | _ => false) = true))
    ∧ (let s : State := unmap (evC tc)
       let chan : Nat := 7
       let v : Nat := 64
       let p : Packet := pk
       let ps : List Packet := [pk]
       ((s.failed = false) ∧
         let t := s.tensor chan
         let brought (f : Flit) : Prop := s.peerHere t = true → (s.sent.find? fun g => g.control == f.control) = some f
         (t.bound = true) ∧
         (t.sender = true) ∧
         (brought (.window t.peer v)) ∧
         (v < t.consumed ∨ t.sent < v)) ∧
       ((s.failed = false) ∧
         let t := s.tensor chan
         let who := Writer.channel chan
         let size := packetBytes p.len
         let o := t.sent % t.w
         let pad := if t.w < o + size then t.w - o else 0
         (t.sq = p :: ps) ∧
         (p.header ≠ none) ∧
         (0 < t.w) ∧
         (size ≤ t.w) ∧
         (pad + t.sent + size ≤ t.w + t.consumed) ∧
         ((∀ r, s.regs.route t.peerPos = some r → (s.port r).1 = 0)) ∧
         (s.standing who = .free) ∧
         let a := (Header.ofNat (p.header.getD 0)).addr
         (match s.readBytes who p.who a p.len with
          | .fail cause => true
          | _ => false) = true))
    ∧ (let s : State := evC { tc with sent := 4096, consumed := 0 }
       let chan : Nat := 7
       let v : Nat := 64
       let p : Packet := pk
       let ps : List Packet := [pk]
       (s.failed = false) ∧
       let t := s.tensor chan
       let brought (f : Flit) : Prop := s.peerHere t = true → (s.sent.find? fun g => g.control == f.control) = some f
       let size := packetBytes p.len
       let o := t.sent % t.w
       let pad := if t.w < o + size then t.w - o else 0
       (t.sq = p :: ps) ∧
       (p.header ≠ none) ∧
       (0 < t.w) ∧
       (size ≤ t.w) ∧
       ((t.w + t.consumed < pad + t.sent + size ∨ ∃ r, s.regs.route t.peerPos = some r ∧ (s.port r).1 ≠ 0)) ∧
       (t.bound = true) ∧
       (t.sender = true) ∧
       (t.consumed ≤ v) ∧
       (v ≤ t.sent) ∧
       (brought (.consumed t.peer v))) := by
  refine ⟨?_, ?_, ?_⟩ <;> decide +kernel
theorem witness_ChannelSteps_2 :
    (let s : State := wcm (cmdP 0x10040) (unmap (hwS (evC { tr with consumed := 4096 })))
     let c : Nat := 3
     let b : Nat := 1
     let i : Nat := 1
     let chan : Nat := 7
     let seq : Nat := 5
     let step : Nat := 44
     let tag : Nat := 9
     let kind : Nat := 0
     let offset : Nat := 0
     let pad : Nat := 0
     let data : List (BitVec 8) := dat
     let w : Captured := wh
     let cmd : Command := cmdP 0x10040
     let hd : BitVec 6 := 3
     let ch : BitVec 6 := 7
     ((s.failed = false) ∧
       let t := s.tensor chan
       let dep := Writer.deposit chan
       let size := data.length
       let a := t.rbase + offset
       (t.bound = true) ∧
       (t.sender = false) ∧
       (s.linkBrings t seq step tag kind offset pad data = true) ∧
       (seq = t.seq) ∧
       (s.depositor t = some w) ∧
       let room : Prop := offset + size ≤ t.w ∧ (s.stage t.stage).arrivalFull (decide (kind = 2)) = false
       let image := depositedHeader (bytesNat (data.take 64)) (a + 64) tag + 2 ^ 512 * bytesNat (data.drop 64)
       (room) ∧
       (s.standing dep = .free) ∧
       (match s.writeBytes dep w a size image with
        | .fail cause => true
        | _ => false) = true) ∧
     ((s.failed = false) ∧
       let t := s.tensor chan
       let dep := Writer.deposit chan
       (s.commandAt c b i = some cmd) ∧
       (s.commandReady cmd = true) ∧
       (ch.toNat = chan) ∧
       (cmd.ins = .chpost hd ch) ∧
       (s.released cmd.who = true) ∧
       let may : Prop := t.bound = true ∧ t.sender = false ∧ t.stage = cmd.who.stage ∧ t.deposited = t.consumed
       (may) ∧
       (s.standing dep = .free) ∧
       (match s.engineRead dep cmd.who cmd.addr 64 with
        | .fail cause => true
        | _ => false) = true))
    ∧ (let s : State := wcm (cmdP 0x10040) (waitF D 0x12 (hwS (evC { tr with consumed := 4096 })))
       let c : Nat := 3
       let b : Nat := 1
       let i : Nat := 1
       let chan : Nat := 7
       let seq : Nat := 5
       let step : Nat := 44
       let tag : Nat := 9
       let kind : Nat := 0
       let offset : Nat := 0
       let pad : Nat := 0
       let data : List (BitVec 8) := dat
       let w : Captured := wh
       let cmd : Command := cmdP 0x10040
       let hd : BitVec 6 := 3
       let ch : BitVec 6 := 7
       ((s.failed = false) ∧
         let t := s.tensor chan
         let dep := Writer.deposit chan
         let size := data.length
         (t.bound = true) ∧
         (t.sender = false) ∧
         (s.linkBrings t seq step tag kind offset pad data = true) ∧
         (seq = t.seq) ∧
         (s.depositor t = some w) ∧
         let room : Prop := offset + size ≤ t.w ∧ (s.stage t.stage).arrivalFull (decide (kind = 2)) = false
         (room) ∧
         (match s.standing dep with
          | .failed cause => true
          | _ => false) = true) ∧
       ((s.failed = false) ∧
         let t := s.tensor chan
         let dep := Writer.deposit chan
         (s.commandAt c b i = some cmd) ∧
         (s.commandReady cmd = true) ∧
         (ch.toNat = chan) ∧
         (cmd.ins = .chpost hd ch) ∧
         (s.released cmd.who = true) ∧
         let may : Prop := t.bound = true ∧ t.sender = false ∧ t.stage = cmd.who.stage ∧ t.deposited = t.consumed
         (may) ∧
         (match s.standing dep with
          | .failed cause => true
          | _ => false) = true))
    ∧ (let s : State := evC tc
       let chan : Nat := 7
       let p : Packet := pk
       let ps : List Packet := [pk]
       (s.failed = false) ∧
       let t := s.tensor chan
       let who := Writer.channel chan
       let size := packetBytes p.len
       let o := t.sent % t.w
       let pad := if t.w < o + size then t.w - o else 0
       (t.sq = p :: ps) ∧
       (p.header ≠ none) ∧
       (0 < t.w) ∧
       (size ≤ t.w) ∧
       (pad + t.sent + size ≤ t.w + t.consumed) ∧
       ((∀ r, s.regs.route t.peerPos = some r → (s.port r).1 = 0)) ∧
       (s.standing who = .free) ∧
       let a := (Header.ofNat (p.header.getD 0)).addr
       (match s.readBytes who p.who a p.len with
        | .value x u => true
        | _ => false) = true) := by
  refine ⟨?_, ?_, ?_⟩ <;> decide +kernel
theorem witness_ChannelSteps_3 :
    (let s : State := waitF W 0x12 (evC tc)
     let chan : Nat := 7
     let p : Packet := pk
     let ps : List Packet := [pk]
     (s.failed = false) ∧
     let t := s.tensor chan
     let who := Writer.channel chan
     let size := packetBytes p.len
     let o := t.sent % t.w
     let pad := if t.w < o + size then t.w - o else 0
     (t.sq = p :: ps) ∧
     (p.header ≠ none) ∧
     (0 < t.w) ∧
     (size ≤ t.w) ∧
     (pad + t.sent + size ≤ t.w + t.consumed) ∧
     ((∀ r, s.regs.route t.peerPos = some r → (s.port r).1 = 0)) ∧
     (match s.standing who with
      | .failed cause => true
      | _ => false) = true)
    ∧ (let s : State := evC { tc with w := 64 }
       let chan : Nat := 7
       let p : Packet := pk
       let ps : List Packet := [pk]
       (s.failed = false) ∧
       let t := s.tensor chan
       let size := packetBytes p.len
       (t.sq = p :: ps) ∧
       (p.header ≠ none) ∧
       (0 < t.w) ∧
       (t.w < size))
    ∧ (let s : State := evC tr
       let chan : Nat := 7
       let seq : Nat := 3
       let step : Nat := 44
       let tag : Nat := 9
       let kind : Nat := 0
       let offset : Nat := 0
       let pad : Nat := 0
       let data : List (BitVec 8) := dat
       (s.failed = false) ∧
       let t := s.tensor chan
       (t.bound = true) ∧
       (t.sender = false) ∧
       (s.linkBrings t seq step tag kind offset pad data = true) ∧
       (seq ≠ t.seq) ∧
       ((t.seq + 2 ^ 32 - seq) % 2 ^ 32 < 2 ^ 31)) := by
  refine ⟨?_, ?_, ?_⟩ <;> decide +kernel
theorem witness_ChannelSteps_4 :
    (let s : State := evC tr
     let chan : Nat := 7
     let seq : Nat := 5
     let step : Nat := 44
     let tag : Nat := 9
     let kind : Nat := 2
     let offset : Nat := 3905
     let pad : Nat := 64
     let data : List (BitVec 8) := dat
     let w : Captured := wh
     (s.failed = false) ∧
     let t := s.tensor chan
     let size := data.length
     (t.bound = true) ∧
     (t.sender = false) ∧
     (s.linkBrings t seq step tag kind offset pad data = true) ∧
     (seq = t.seq) ∧
     (s.depositor t = some w) ∧
     let room : Prop := offset + size ≤ t.w ∧ (s.stage t.stage).arrivalFull (decide (kind = 2)) = false
     (¬ room))
    ∧ (let s : State := bar 500 (evC { tc with sq := [pk, ph] })
       let chan : Nat := 7
       let i : Nat := 1
       let p : Packet := ph
       (s.failed = false) ∧
       let t := s.tensor chan
       let who := Writer.channel chan
       (t.sq.findIdx? (fun q => q.header.isNone) = some i) ∧
       (t.sq[i]? = some p) ∧
       (s.released p.who = true) ∧
       (s.standing who = .free) ∧
       (match s.engineRead who p.who p.headerAddr 64 with
        | .value x u => decide (((Header.ofNat x).fault = false) ∧
       (p.bv = false))
        | _ => false) = true)
    ∧ (let s : State := bar 500 (evC { tc with sq := [pk, phb] })
       let chan : Nat := 7
       let i : Nat := 1
       let p : Packet := phb
       (s.failed = false) ∧
       let t := s.tensor chan
       let who := Writer.channel chan
       let k := clusterOf p.who.core
       (t.sq.findIdx? (fun q => q.header.isNone) = some i) ∧
       (t.sq[i]? = some p) ∧
       (s.released p.who = true) ∧
       (s.standing who = .free) ∧
       (match s.engineRead who p.who p.headerAddr 64 with
        | .value x u => decide (let n := (Header.ofNat x).len
       ((Header.ofNat x).fault = false) ∧
       (p.bv = true) ∧
       (match u.countUp k p.bar n with
        | some w => true
        | _ => false) = true)
        | _ => false) = true) := by
  refine ⟨?_, ?_, ?_⟩ <;> decide +kernel
theorem witness_ChannelSteps_5 :
    (let s : State := waitF W 0x12 (evC { tc with sq := [pk, ph] })
     let chan : Nat := 7
     let i : Nat := 1
     let p : Packet := ph
     (s.failed = false) ∧
     let t := s.tensor chan
     let who := Writer.channel chan
     (t.sq.findIdx? (fun q => q.header.isNone) = some i) ∧
     (t.sq[i]? = some p) ∧
     (s.released p.who = true) ∧
     (match s.standing who with
      | .failed cause => true
      | _ => false) = true)
    ∧ (let s : State := wcm (cmdA 65) (evC tr)
       let c : Nat := 3
       let b : Nat := 1
       let i : Nat := 1
       let chan : Nat := 7
       let cmd : Command := cmdA 65
       let hd : BitVec 6 := 3
       let ch : BitVec 6 := 7
       (s.failed = false) ∧
       let t := s.tensor chan
       let n := (cmd.ops.headD 0).toNat
       (s.commandAt c b i = some cmd) ∧
       (s.commandReady cmd = true) ∧
       (ch.toNat = chan) ∧
       (cmd.ins = .chack hd ch) ∧
       let next := t.consumedAfter n
       let may : Prop := t.bound = true ∧ t.sender = false ∧ t.stage = cmd.who.stage ∧ n % 64 = 0 ∧ next ≤ t.deposited
       (¬ may))
    ∧ (let s : State := bar 9 (unmap (evC { tc with sq := [pk, ph] }))
       let chan : Nat := 7
       let i : Nat := 1
       let p : Packet := ph
       (s.failed = false) ∧
       let t := s.tensor chan
       let who := Writer.channel chan
       (t.sq.findIdx? (fun q => q.header.isNone) = some i) ∧
       (t.sq[i]? = some p) ∧
       (s.released p.who = true) ∧
       (s.standing who = .free) ∧
       (match s.engineRead who p.who p.headerAddr 64 with
        | .fail cause => true
        | _ => false) = true) := by
  refine ⟨?_, ?_, ?_⟩ <;> decide +kernel
theorem witness_ChannelSteps_6 :
    (let s : State := bar (2^28-1) (evC { tc with sq := [pk, phb] })
     let chan : Nat := 7
     let i : Nat := 1
     let p : Packet := phb
     (s.failed = false) ∧
     let t := s.tensor chan
     let who := Writer.channel chan
     let k := clusterOf p.who.core
     (t.sq.findIdx? (fun q => q.header.isNone) = some i) ∧
     (t.sq[i]? = some p) ∧
     (s.released p.who = true) ∧
     (s.standing who = .free) ∧
     (match s.engineRead who p.who p.headerAddr 64 with
      | .value x u => decide (let n := (Header.ofNat x).len
     ((Header.ofNat x).fault = false) ∧
     (p.bv = true) ∧
     (u.countUp k p.bar n = none))
      | _ => false) = true)
    ∧ (let s : State := wcm (cmdP 0x10040) (hwS (evC tr))
       let c : Nat := 3
       let b : Nat := 1
       let i : Nat := 1
       let chan : Nat := 7
       let cmd : Command := cmdP 0x10040
       let hd : BitVec 6 := 3
       let ch : BitVec 6 := 7
       (s.failed = false) ∧
       let t := s.tensor chan
       (s.commandAt c b i = some cmd) ∧
       (s.commandReady cmd = true) ∧
       (ch.toNat = chan) ∧
       (cmd.ins = .chpost hd ch) ∧
       (s.released cmd.who = true) ∧
       let may : Prop := t.bound = true ∧ t.sender = false ∧ t.stage = cmd.who.stage ∧ t.deposited = t.consumed
       (¬ may))
    ∧ (let s : State := evC { tc with replay := [{ pk with seq := 3 }, pk] }
       let chan : Nat := 7
       let seq : Nat := 3
       let p : Packet := { pk with seq := 3 }
       let ps : List Packet := [pk]
       (s.failed = false) ∧
       let t := s.tensor chan
       let brought (f : Flit) : Prop := s.peerHere t = true → (s.sent.find? fun g => g.control == f.control) = some f
       (t.bound = true) ∧
       (t.sender = true) ∧
       (t.replay = p :: ps) ∧
       (p.seq = seq) ∧
       (brought (.ack t.peer seq))) := by
  refine ⟨?_, ?_, ?_⟩ <;> decide +kernel
theorem witness_ChannelSteps_7 :
    (let s : State := wcm (cmdP 65536) (hwS (evC { tr with consumed := 4096 }))
     let c : Nat := 3
     let b : Nat := 1
     let i : Nat := 1
     let chan : Nat := 7
     let cmd : Command := cmdP 65536
     let hd : BitVec 6 := 3
     let ch : BitVec 6 := 7
     (s.failed = false) ∧
     let t := s.tensor chan
     let dep := Writer.deposit chan
     (s.commandAt c b i = some cmd) ∧
     (s.commandReady cmd = true) ∧
     (ch.toNat = chan) ∧
     (cmd.ins = .chpost hd ch) ∧
     (s.released cmd.who = true) ∧
     let may : Prop := t.bound = true ∧ t.sender = false ∧ t.stage = cmd.who.stage ∧ t.deposited = t.consumed
     (may) ∧
     (s.standing dep = .free) ∧
     (match s.engineRead dep cmd.who cmd.addr 64 with
      | .value x u => decide (let h := Header.ofNat x
     let good : Prop := h.fault = false ∧ h.addr % 64 = 0 ∧ h.cap % 64 = 0 ∧ 128 ≤ h.cap
                        ∧ u.homeOf (tget [] cmd.who.invocation u.extents) (dieOf cmd.who.core) h.addr h.cap = true
     (good))
      | _ => false) = true)
    ∧ (let s : State := wcm (cmdP 65601) (hwS (evC { tr with consumed := 4096 }))
       let c : Nat := 3
       let b : Nat := 1
       let i : Nat := 1
       let chan : Nat := 7
       let cmd : Command := cmdP 65601
       let hd : BitVec 6 := 3
       let ch : BitVec 6 := 7
       (s.failed = false) ∧
       let t := s.tensor chan
       let dep := Writer.deposit chan
       (s.commandAt c b i = some cmd) ∧
       (s.commandReady cmd = true) ∧
       (ch.toNat = chan) ∧
       (cmd.ins = .chpost hd ch) ∧
       (s.released cmd.who = true) ∧
       let may : Prop := t.bound = true ∧ t.sender = false ∧ t.stage = cmd.who.stage ∧ t.deposited = t.consumed
       (may) ∧
       (s.standing dep = .free) ∧
       (match s.engineRead dep cmd.who cmd.addr 64 with
        | .value x u => decide (let h := Header.ofNat x
       let good : Prop := h.fault = false ∧ h.addr % 64 = 0 ∧ h.cap % 64 = 0 ∧ 128 ≤ h.cap
                          ∧ u.homeOf (tget [] cmd.who.invocation u.extents) (dieOf cmd.who.core) h.addr h.cap = true
       (¬ good))
        | _ => false) = true)
    ∧ (let s : State := evC { tc with sq := [pk, { ph with headerAddr := 0x10100 }] }
       let chan : Nat := 7
       let i : Nat := 1
       let p : Packet := { ph with headerAddr := 0x10100 }
       (s.failed = false) ∧
       let t := s.tensor chan
       let who := Writer.channel chan
       (t.sq.findIdx? (fun q => q.header.isNone) = some i) ∧
       (t.sq[i]? = some p) ∧
       (s.released p.who = true) ∧
       (s.standing who = .free) ∧
       (match s.engineRead who p.who p.headerAddr 64 with
        | .value x u => decide (((Header.ofNat x).fault = true))
        | _ => false) = true) := by
  refine ⟨?_, ?_, ?_⟩ <;> decide +kernel
theorem witness_ChannelSteps_8 :
    (let s : State := { evC { tr with peerPos := 1 } with ports := [(0, (1, 4)), (1, (0, 4))], regs.tcoord := BitVec.ofNat 64 (3 * 2^24 + 3 * 2^31 + 3 * 2^38) }
     let chan : Nat := 7
     (s.failed = false) ∧
     let t := s.tensor chan
     (match s.outPort (.ack chan t.seq) with
      | some p => decide (((s.port p).1 ≠ 0))
      | _ => false) = true)
    ∧ (let s : State := { evC { tr with peerPos := 1 } with ports := [(0, (0, 4)), (1, (2, 4))], regs.tcoord := BitVec.ofNat 64 (3 * 2^24 + 3 * 2^31 + 3 * 2^38) }
       let chan : Nat := 7
       (s.failed = false) ∧
       let t := s.tensor chan
       (match s.outPort (.ack chan t.seq) with
        | some p => decide (((s.port p).1 = 0))
        | _ => false) = true) := by
  refine ⟨?_, ?_⟩ <;> decide +kernel
end WChannelSteps

namespace WCollectiveSteps
def wh : Captured := { (evOf vb).capture with issued := 60 }
def desc (n : Nat) (f : Nat := 0) : Nat := 0x10100 + 256^8 * 0x10300 + 256^16 * n + 256^20 * 9 + 256^24 * 44 + 256^32 * 3 + 256^34 * 2 + 256^35 * f
def bk : Bucket := { who := wh, bar := 3, descAddr := 0x10000 }
def bkf : Bucket := { bk.read (desc 20 3) with fixed := true, left := 80 }
def cst (l : List Bucket) (pend : Nat := 1000) (cnt : Nat := 20) : State := let s := evOf vb; let s := s.setDie 0 { s.die 0 with home := lay (lay homeM 0x400000 (natBytes 64 (desc cnt 3))) 0x400100 ((List.range 4).map fun i => BitVec.ofNat 8 (i * 3 + 1)) }
  let s := s.setBarrier 0 3 { pending := pend, expect := 1, remain := 1 }
  { s with buckets := l, regs.ringcfg := 2^32 + 2^16*3 + 1, signal := lay [] 24 [5] }
def waitF (w : Writer) (v : Nat) (s : State) : State := { s with engineWaits := [{ who := w, invocation := 4, page := 0, cause := v, write := true, verdict := some v }] }
def unmap (s : State) : State := { s with extents := [] }
def dead (s : State) : State := { s with regs.ringcfg := 2^16*3 + 1 }
def bks : Bucket := { bkf with started := true }
def rem (s : State) : State := { s with remembered := [(44, 9)], failedBuckets := [(44, 9), (1, 1)] }
def early (s : State) : State := { s with earlyFailures := [(44, 8, 1), (44, 9, 0x12)] }
def one (s : State) : State := { s with regs.ringcfg := 2^32 + 2^16*1 }
theorem witness_CollectiveSteps_1 :
    (let s : State := cst [bk]
     let step : Nat := 44
     let bucket : Nat := 9
     let rank : Nat := 0
     let port : Nat := 1
     (s.failed = false) ∧
     let copy := (step, bucket, rank, port)
     (s.regs.live = true) ∧
     (rank ≠ s.regs.rank) ∧
     (port < 2) ∧
     (s.bucketOf step bucket = none) ∧
     (copy ∉ s.markCopies))
    ∧ (let s : State := cst [bk, bkf]
       let i : Nat := 1
       let step : Nat := 44
       let bucket : Nat := 9
       let rank : Nat := 0
       let port : Nat := 1
       let b : Bucket := (bkf : Bucket)
       (s.failed = false) ∧
       let copy := (step, bucket, rank, port)
       (s.regs.live = true) ∧
       (rank ≠ s.regs.rank) ∧
       (port < 2) ∧
       (s.bucketOf step bucket = some i) ∧
       (s.buckets[i]? = some b) ∧
       (b.full = false) ∧
       (copy ∉ s.markCopies) ∧
       (b.started = false))
    ∧ (let s : State := cst [bk, { bks with written := [(0,10),(10,10)], left := 4 }]
       let i : Nat := 1
       let step : Nat := 44
       let bucket : Nat := 9
       let rank : Nat := 0
       let port : Nat := 1
       let b : Bucket := ({ bks with written := [(0,10),(10,10)], left := 4 } : Bucket)
       (s.failed = false) ∧
       let copy := (step, bucket, rank, port)
       (s.regs.live = true) ∧
       (rank ≠ s.regs.rank) ∧
       (port < 2) ∧
       (s.bucketOf step bucket = some i) ∧
       (s.buckets[i]? = some b) ∧
       (b.full = true) ∧
       (copy ∉ s.markCopies) ∧
       (b.started = true))
    ∧ (let s : State := cst [bk, { bks with unsettled := true, added := [0x3F800000] }]
       let i : Nat := 1
       let rank : Nat := 1
       let reports : List Bool := [true, true]
       let b : Bucket := ({ bks with unsettled := true, added := [0x3F800000] } : Bucket)
       (s.failed = false) ∧
       let n := s.regs.ringSize
       let whole : Prop := reports.all id = true ∧ b.fixed = true ∧ b.full = true
       ((s.regs.live = false ∨ rank = s.regs.rank)) ∧
       (s.buckets[i]? = some b) ∧
       (b.unsettled = true) ∧
       (reports.length = n - 1) ∧
       (¬ whole))
    ∧ (let s : State := one (cst [bk, { bks with early := [⟨0, 0, 0, false, []⟩] }])
       let i : Nat := 1
       let step : Nat := 44
       let bucket : Nat := 9
       let half : Nat := 0
       let chunk : Nat := 0
       let count : Nat := 1
       let final : Bool := false
       let values : List Nat := [0x3F800000, 5, 6, 7]
       let b : Bucket := ({ bks with early := [⟨0, 0, 0, false, []⟩] } : Bucket)
       let ch : Chunk := ⟨0, 0, 0, false, []⟩
       let rest : List Chunk := (({ bks with early := [⟨0, 0, 0, false, []⟩] } : Bucket).early.drop 1)
       ((s.failed = false) ∧
         (s.buckets[i]? = some b) ∧
         let n := s.regs.ringSize
         let me := s.regs.rank
         let hops := hopsTo n chunk me half
         let fits : Prop := s.regs.live = true ∧ b.unsettled = false ∧ half < 2 ∧ chunk < n
                  ∧ values.length = (b.chunkRange n half chunk).2 ∧ values ≠ [] ∧ values.all (· < 2 ^ 32) = true
                  ∧ if final then count = n ∧ hops + 1 < n else count = hops ∧ hops ≠ 0
         (s.bucketOf step bucket = some i) ∧
         (¬ fits)) ∧
       ((s.failed = false) ∧
         (s.buckets[i]? = some b) ∧
         let n := s.regs.ringSize
         let span := b.chunkRange n ch.half ch.chunk
         let b0 : Bucket := { b with early := rest }
         let s0 := s.setBucket i b0
         (b.fixed = true) ∧
         (s.settling = false) ∧
         (b.started = true) ∧
         (b.early = ch :: rest) ∧
         (s.standing b.writer = .free) ∧
         (ch.final = false) ∧
         (match s0.readChunk b0 span.1 span.2 with
          | .value x u => decide (let own := unpack 32 span.2 x
         let sums := if ch.count = 0 then own
                            else (ch.values.zip own).map fun y => Fmt.fp32.rne ((Fmt.fp32.decode y.1).add (Fmt.fp32.decode y.2))
         let results := sums.map fun y =>
                            if b.avg then Fmt.fp32.div (Fmt.fp32.decode y) (FVal.ofInteger (ch.count + 1)) else y
         let done : Chunk := { ch with count := ch.count + 1, final := true, values := results }
         (n ≤ ch.count + 1) ∧
         (match u.writeChunk i b0 done span.1 results with
          | .value v w => true
          | _ => false) = true)
          | _ => false) = true)) := by
  refine ⟨?_, ?_, ?_, ?_, ?_⟩ <;> decide +kernel
theorem witness_CollectiveSteps_2 :
    (let s : State := cst [bk, { bks with early := [⟨0, 1, 0, false, []⟩, ⟨1, 1, 0, false, []⟩] }]
     let i : Nat := 1
     let step : Nat := 44
     let bucket : Nat := 9
     let half : Nat := 0
     let chunk : Nat := 0
     let count : Nat := 1
     let final : Bool := false
     let values : List Nat := [0x3F800000, 5, 6, 7]
     let b : Bucket := ({ bks with early := [⟨0, 1, 0, false, []⟩, ⟨1, 1, 0, false, []⟩] } : Bucket)
     let ch : Chunk := ⟨0, 1, 0, false, []⟩
     let rest : List Chunk := (({ bks with early := [⟨0, 1, 0, false, []⟩, ⟨1, 1, 0, false, []⟩] } : Bucket).early.drop 1)
     ((s.failed = false) ∧
       (s.buckets[i]? = some b) ∧
       let n := s.regs.ringSize
       let me := s.regs.rank
       let hops := hopsTo n chunk me half
       let fits : Prop := s.regs.live = true ∧ b.unsettled = false ∧ half < 2 ∧ chunk < n
                ∧ values.length = (b.chunkRange n half chunk).2 ∧ values ≠ [] ∧ values.all (· < 2 ^ 32) = true
                ∧ if final then count = n ∧ hops + 1 < n else count = hops ∧ hops ≠ 0
       (s.bucketOf step bucket = some i) ∧
       (fits)) ∧
     ((s.failed = false) ∧
       (s.buckets[i]? = some b) ∧
       let n := s.regs.ringSize
       let span := b.chunkRange n ch.half ch.chunk
       let b0 : Bucket := { b with early := rest }
       let s0 := s.setBucket i b0
       (b.fixed = true) ∧
       (s.settling = false) ∧
       (b.started = true) ∧
       (b.early = ch :: rest) ∧
       (s.standing b.writer = .free) ∧
       (ch.final = false) ∧
       (match s0.readChunk b0 span.1 span.2 with
        | .value x u => decide ((ch.count + 1 < n))
        | _ => false) = true))
    ∧ (let s : State := cst [bk]
       let i : Nat := 0
       let b : Bucket := bk
       (s.failed = false) ∧
       (s.buckets[i]? = some b) ∧
       let k := clusterOf b.who.core
       (b.fixed = false) ∧
       (s.released b.who = true) ∧
       (s.standing b.writer = .free) ∧
       (match s.engineRead b.writer b.who b.descAddr 64 with
        | .value x u => decide (let b' := b.read x
       let known := u.remembered.contains (b'.step, b'.bucket)
       let held := u.buckets.any fun o => o.fixed ∧ o.step = b'.step ∧ o.bucket = b'.bucket
       (known = false) ∧
       (u.regs.live = true) ∧
       (b'.bad x = false) ∧
       (held = false) ∧
       (match u.countUp k b.bar (4 * b'.count) with
        | some w => true
        | _ => false) = true)
        | _ => false) = true)
    ∧ (let s : State := cst [bk, bkf]
       let i : Nat := 0
       let b : Bucket := bk
       (s.failed = false) ∧
       (s.buckets[i]? = some b) ∧
       (b.fixed = false) ∧
       (s.released b.who = true) ∧
       (s.standing b.writer = .free) ∧
       (match s.engineRead b.writer b.who b.descAddr 64 with
        | .value x u => decide (let b' := b.read x
       let known := u.remembered.contains (b'.step, b'.bucket)
       let held := u.buckets.any fun o => o.fixed ∧ o.step = b'.step ∧ o.bucket = b'.bucket
       (known = false) ∧
       (u.regs.live = true) ∧
       (b'.bad x = false) ∧
       (held = true))
        | _ => false) = true)
    ∧ (let s : State := rem (cst [bk])
       let i : Nat := 0
       let b : Bucket := bk
       (s.failed = false) ∧
       (s.buckets[i]? = some b) ∧
       (b.fixed = false) ∧
       (s.released b.who = true) ∧
       (s.standing b.writer = .free) ∧
       (match s.engineRead b.writer b.who b.descAddr 64 with
        | .value x u => decide (let b' := b.read x
       let known := u.remembered.contains (b'.step, b'.bucket)
       (u.regs.live = true) ∧
       (known = true))
        | _ => false) = true)
    ∧ (let s : State := cst [bk, bkf]
       let i : Nat := 1
       let b : Bucket := bkf
       (s.failed = false) ∧
       (s.buckets[i]? = some b) ∧
       (b.fixed = true) ∧
       (s.settling = false) ∧
       (b.started = false) ∧
       (mread s.signal (8 * b.sig) 8 ≠ 0) ∧
       let early := s.earlyFailures.find? fun f => f.1 = b.step ∧ f.2.1 = b.bucket
       (early = none)) := by
  refine ⟨?_, ?_, ?_, ?_, ?_⟩ <;> decide +kernel
theorem witness_CollectiveSteps_3 :
    (let s : State := dead (cst [bk])
     let i : Nat := 0
     let b : Bucket := bk
     (s.failed = false) ∧
     (s.buckets[i]? = some b) ∧
     (b.fixed = false) ∧
     (s.released b.who = true) ∧
     (s.standing b.writer = .free) ∧
     (match s.engineRead b.writer b.who b.descAddr 64 with
      | .value x u => decide ((u.regs.live = false))
      | _ => false) = true)
    ∧ (let s : State := cst [bk] 1000 0
       let i : Nat := 0
       let b : Bucket := bk
       (s.failed = false) ∧
       (s.buckets[i]? = some b) ∧
       (b.fixed = false) ∧
       (s.released b.who = true) ∧
       (s.standing b.writer = .free) ∧
       (match s.engineRead b.writer b.who b.descAddr 64 with
        | .value x u => decide (let b' := b.read x
       let known := u.remembered.contains (b'.step, b'.bucket)
       (u.regs.live = true) ∧
       (known = false) ∧
       (b'.bad x = true))
        | _ => false) = true)
    ∧ (let s : State := unmap (cst [bk])
       let i : Nat := 0
       let b : Bucket := bk
       (s.failed = false) ∧
       (s.buckets[i]? = some b) ∧
       (b.fixed = false) ∧
       (s.released b.who = true) ∧
       (s.standing b.writer = .free) ∧
       (match s.engineRead b.writer b.who b.descAddr 64 with
        | .fail cause => true
        | _ => false) = true)
    ∧ (let s : State := cst [bk] (2^28-79)
       let i : Nat := 0
       let b : Bucket := bk
       (s.failed = false) ∧
       (s.buckets[i]? = some b) ∧
       let k := clusterOf b.who.core
       (b.fixed = false) ∧
       (s.released b.who = true) ∧
       (s.standing b.writer = .free) ∧
       (match s.engineRead b.writer b.who b.descAddr 64 with
        | .value x u => decide (let b' := b.read x
       let known := u.remembered.contains (b'.step, b'.bucket)
       let held := u.buckets.any fun o => o.fixed ∧ o.step = b'.step ∧ o.bucket = b'.bucket
       (known = false) ∧
       (u.regs.live = true) ∧
       (b'.bad x = false) ∧
       (held = false) ∧
       (u.countUp k b.bar (4 * b'.count) = none))
        | _ => false) = true)
    ∧ (let s : State := early (cst [bk, bkf])
       let i : Nat := 1
       let b : Bucket := bkf
       (s.failed = false) ∧
       (s.buckets[i]? = some b) ∧
       (b.fixed = true) ∧
       (s.settling = false) ∧
       (b.started = false) ∧
       (mread s.signal (8 * b.sig) 8 ≠ 0) ∧
       let early := s.earlyFailures.find? fun f => f.1 = b.step ∧ f.2.1 = b.bucket
       (match early with
        | some f => true
        | _ => false) = true) := by
  refine ⟨?_, ?_, ?_, ?_, ?_⟩ <;> decide +kernel
theorem witness_CollectiveSteps_4 :
    (let s : State := waitF bk.writer 0x12 (cst [bk])
     let i : Nat := 0
     let b : Bucket := bk
     (s.failed = false) ∧
     (s.buckets[i]? = some b) ∧
     (b.fixed = false) ∧
     (s.released b.who = true) ∧
     (match s.standing b.writer with
      | .failed cause => true
      | _ => false) = true)
    ∧ (let s : State := { cst [bk, bkf] with signal := [] }
       let i : Nat := 1
       let b : Bucket := bkf
       (s.failed = false) ∧
       (s.buckets[i]? = some b) ∧
       (b.fixed = true) ∧
       (s.settling = false) ∧
       (b.started = false) ∧
       (mread s.signal (8 * b.sig) 8 = 0))
    ∧ (let s : State := { cst [bk] with markCopies := [(44, 9, 0, 1)] }
       let step : Nat := 44
       let bucket : Nat := 9
       let rank : Nat := 0
       let port : Nat := 1
       (s.failed = false) ∧
       let copy := (step, bucket, rank, port)
       (s.regs.live = true) ∧
       (rank ≠ s.regs.rank) ∧
       (port < 2) ∧
       (s.bucketOf step bucket = none) ∧
       (copy ∈ s.markCopies))
    ∧ (let s : State := cst [bk, bkf]
       let i : Nat := 1
       let step : Nat := 45
       let bucket : Nat := 9
       let b : Bucket := bkf
       (s.failed = false) ∧
       (s.buckets[i]? = some b) ∧
       (s.bucketOf step bucket = none))
    ∧ (let s : State := { cst [bk, bks] with markCopies := [(44, 9, 0, 1), (44, 9, 0, 0)] }
       let i : Nat := 1
       let step : Nat := 44
       let bucket : Nat := 9
       let rank : Nat := 0
       let port : Nat := 1
       let b : Bucket := bks
       (s.failed = false) ∧
       let copy := (step, bucket, rank, port)
       (s.regs.live = true) ∧
       (rank ≠ s.regs.rank) ∧
       (port < 2) ∧
       (s.bucketOf step bucket = some i) ∧
       (s.buckets[i]? = some b) ∧
       (copy ∈ s.markCopies)) := by
  refine ⟨?_, ?_, ?_, ?_, ?_⟩ <;> decide +kernel
theorem witness_CollectiveSteps_5 :
    (let s : State := cst [bk, { bks with written := [(0,10),(10,10)], marks := [2], left := 4, unsettled := true, marked := true }]
     let i : Nat := 1
     let reports : List Bool := [true, true]
     let b : Bucket := ({ bks with written := [(0,10),(10,10)], marks := [2], left := 4, unsettled := true, marked := true } : Bucket)
     (s.failed = false) ∧
     let n := s.regs.ringSize
     (s.buckets[i]? = some b) ∧
     (b.unsettled = true) ∧
     (reports.length = n - 1) ∧
     let whole : Prop := reports.all id = true ∧ b.fixed = true ∧ b.full = true
     (whole))
    ∧ (let s : State := unmap (cst [bk, { bks with early := [⟨0, 1, 0, false, []⟩, ⟨1, 1, 0, false, []⟩] }])
       let i : Nat := 1
       let b : Bucket := ({ bks with early := [⟨0, 1, 0, false, []⟩, ⟨1, 1, 0, false, []⟩] } : Bucket)
       let ch : Chunk := ⟨0, 1, 0, false, []⟩
       let rest : List Chunk := (({ bks with early := [⟨0, 1, 0, false, []⟩, ⟨1, 1, 0, false, []⟩] } : Bucket).early.drop 1)
       (s.failed = false) ∧
       (s.buckets[i]? = some b) ∧
       let n := s.regs.ringSize
       let span := b.chunkRange n ch.half ch.chunk
       let b0 : Bucket := { b with early := rest }
       let s0 := s.setBucket i b0
       (b.fixed = true) ∧
       (s.settling = false) ∧
       (b.started = true) ∧
       (b.early = ch :: rest) ∧
       (s.standing b.writer = .free) ∧
       (ch.final = false) ∧
       (match s0.readChunk b0 span.1 span.2 with
        | .fail cause => true
        | _ => false) = true)
    ∧ (let s : State := cst [bk, { bks with early := [⟨1, 0, 3, true, [1, 2, 3, 4]⟩, ⟨1, 1, 0, false, []⟩] }]
       let i : Nat := 1
       let b : Bucket := ({ bks with early := [⟨1, 0, 3, true, [1, 2, 3, 4]⟩, ⟨1, 1, 0, false, []⟩] } : Bucket)
       let ch : Chunk := ⟨1, 0, 3, true, [1, 2, 3, 4]⟩
       let rest : List Chunk := (({ bks with early := [⟨1, 0, 3, true, [1, 2, 3, 4]⟩, ⟨1, 1, 0, false, []⟩] } : Bucket).early.drop 1)
       (s.failed = false) ∧
       (s.buckets[i]? = some b) ∧
       let n := s.regs.ringSize
       let span := b.chunkRange n ch.half ch.chunk
       let b0 : Bucket := { b with early := rest }
       let s0 := s.setBucket i b0
       (b.fixed = true) ∧
       (s.settling = false) ∧
       (b.started = true) ∧
       (b.early = ch :: rest) ∧
       (s.standing b.writer = .free) ∧
       (ch.final = true) ∧
       (match s0.writeChunk i b0 ch span.1 ch.values with
        | .value v u => true
        | _ => false) = true)
    ∧ (let s : State := unmap (cst [bk, { bks with early := [⟨1, 0, 3, true, [1, 2, 3, 4]⟩, ⟨1, 1, 0, false, []⟩] }])
       let i : Nat := 1
       let b : Bucket := ({ bks with early := [⟨1, 0, 3, true, [1, 2, 3, 4]⟩, ⟨1, 1, 0, false, []⟩] } : Bucket)
       let ch : Chunk := ⟨1, 0, 3, true, [1, 2, 3, 4]⟩
       let rest : List Chunk := (({ bks with early := [⟨1, 0, 3, true, [1, 2, 3, 4]⟩, ⟨1, 1, 0, false, []⟩] } : Bucket).early.drop 1)
       (s.failed = false) ∧
       (s.buckets[i]? = some b) ∧
       let n := s.regs.ringSize
       let span := b.chunkRange n ch.half ch.chunk
       let b0 : Bucket := { b with early := rest }
       let s0 := s.setBucket i b0
       (b.fixed = true) ∧
       (s.settling = false) ∧
       (b.started = true) ∧
       (b.early = ch :: rest) ∧
       (s.standing b.writer = .free) ∧
       (ch.final = true) ∧
       (match s0.writeChunk i b0 ch span.1 ch.values with
        | .fail cause => true
        | _ => false) = true)
    ∧ (let s : State := waitF bks.writer 0x12 (cst [bk, { bks with early := [⟨0, 1, 3, true, [1, 2, 3, 4]⟩, ⟨1, 1, 0, false, []⟩] }])
       let i : Nat := 1
       let b : Bucket := ({ bks with early := [⟨0, 1, 3, true, [1, 2, 3, 4]⟩, ⟨1, 1, 0, false, []⟩] } : Bucket)
       let ch : Chunk := ⟨0, 1, 3, true, [1, 2, 3, 4]⟩
       let rest : List Chunk := (({ bks with early := [⟨0, 1, 3, true, [1, 2, 3, 4]⟩, ⟨1, 1, 0, false, []⟩] } : Bucket).early.drop 1)
       (s.failed = false) ∧
       (s.buckets[i]? = some b) ∧
       (b.fixed = true) ∧
       (s.settling = false) ∧
       (b.started = true) ∧
       (b.early = ch :: rest) ∧
       (match s.standing b.writer with
        | .failed cause => true
        | _ => false) = true) := by
  refine ⟨?_, ?_, ?_, ?_, ?_⟩ <;> decide +kernel
end WCollectiveSteps

namespace WShadowsAndSplits
def wh : Captured := { (evOf vb).capture with issued := 60 }
def xts : List Extent := [{ vbase := 0x10000, units := 2, w := true, u := true, sh := true, pbase := 0x400000 }, { vbase := 0x30000, units := 2, w := true, u := true, pbase := 0x400000 }, { vbase := 0x50000, units := 2, w := false, u := true, sh := true, pbase := 0x400000 }]
def evC (cmds : List Command) (f : Cluster → Cluster := id) : State := let s := { evOf vb with extents := [(4, xts)], commands := cmds }; let s := s.setDie 0 { s.die 0 with home := homeM, pages := [(0x400, { batts := [7] })] }; s.setCluster 0 (f { s.cluster 0 with cmem := lay [] 0x17FFFFF [1,2,3] })
def so (a : Nat) : Command := { who := wh, ins := .shopen 1 2, addr := a, ops := [0x10000], id := 8 }
def pu (a : Nat) : Command := { who := wh, ins := .publish 1 2, addr := a, id := 8 }
def sl (n : Nat) (iss : Nat := 60) : Command := { who := { wh with issued := iss }, ins := .split 1, ops := [BitVec.ofNat 64 n], id := 8 }
def P (n : Nat) : List Nat := (List.range 16).map (n + ·)
def y0 : ShadowPage := { record := { batts := [5] }, bytes := [(3, 9)] }
def sh0 : Shadow := { base := 0x10000, bytes := 0x10000, invocation := 4, first := 0x400, pages := [(0x400, y0)] }
def withSh (s : State) : State := s.setDie 0 { s.die 0 with shadows := [(2, sh0)], pages := [(0x400, { batts := [7], shadow := true })], cmpctl := 0x21 }
def sh64 (s : State) : State := s.setDie 0 { s.die 0 with shadows := (List.range 64).map fun i => (i, { sh0 with base := 2^40, first := 2 }) }
def ln (s : State) : State := s.setCluster 0 { s.cluster 0 with lines := (List.range 12).map fun i => (0x400000 / 128 + i, { bytes := 5, valid := BitVec.allOnes 128, dirty := if i % 2 = 0 then 3 else 0 }) }
theorem witness_ShadowsAndSplits_1 :
    (let s : State := withSh (evC [pu 0x10000])
     let c : Nat := 3
     let b : Nat := 1
     let i : Nat := 0
     let d : Nat := 0
     let j : Nat := 2
     let p : Nat := 0x400
     let cmd : Command := pu 0x10000
     let opa : BitVec 6 := 1
     let scope : BitVec 3 := 2
     let h : Shadow := sh0
     let y : ShadowPage := y0
     (s.failed = false) ∧
     (s.commandAt c b i = some cmd) ∧
     (cmd.ins = .publish opa scope) ∧
     let ended := s.endCommand cmd
     (s.findShadow cmd.who.invocation cmd.addr = some (d, j)) ∧
     (s.commandReady cmd = true) ∧
     (s.shadowInUse (d, j) = false) ∧
     (s.midAccess = false) ∧
     let r := ended.release c b scope.toNat
     (tfind j (r.die d).shadows = some h) ∧
     (h.pages = [(p, y)]) ∧
     (Memory.wf y.bytes))
    ∧ (let s : State := evC [sl 0] fun q => { q with split := some ⟨5, 90⟩ }
       let c : Nat := 3
       let b : Nat := 1
       let i : Nat := 0
       let cl : Nat := 0
       let cmd : Command := sl 0
       let opa : BitVec 6 := 1
       let x : SplitDrain := ⟨5, 90⟩
       (s.failed = false) ∧
       let z := s.cluster cl
       let k := clusterOf c
       let q := s.cluster k
       (s.commandAt c b i = some cmd) ∧
       (cmd.ins = .split opa) ∧
       (cmd.who.issued + 4 ≤ s.clk) ∧
       (s.commandReady cmd = true) ∧
       (q.split ≠ none) ∧
       (z.split = some x) ∧
       (s.clk < x.ends))
    ∧ (let s : State := ln (evC [sl 0])
       let c : Nat := 3
       let b : Nat := 1
       let i : Nat := 0
       let cmd : Command := sl 0
       let opa : BitVec 6 := 1
       (s.failed = false) ∧
       let k := clusterOf c
       let q := s.cluster k
       let n := (cmd.ops.headD 0).toNat
       (s.commandAt c b i = some cmd) ∧
       (cmd.ins = .split opa) ∧
       (cmd.who.issued + 4 ≤ s.clk) ∧
       (s.commandReady cmd = true) ∧
       (q.split = none) ∧
       (n < q.banks))
    ∧ (let s : State := ln (evC [sl 4])
       let c : Nat := 3
       let b : Nat := 1
       let i : Nat := 0
       let cmd : Command := sl 4
       let opa : BitVec 6 := 1
       (s.failed = false) ∧
       let k := clusterOf c
       let q := s.cluster k
       let n := (cmd.ops.headD 0).toNat
       (s.commandAt c b i = some cmd) ∧
       (cmd.ins = .split opa) ∧
       (cmd.who.issued + 4 ≤ s.clk) ∧
       (s.commandReady cmd = true) ∧
       (q.split = none) ∧
       (n = q.banks))
    ∧ (let s : State := ln (evC [sl 5])
       let c : Nat := 3
       let b : Nat := 1
       let i : Nat := 0
       let cmd : Command := sl 5
       let opa : BitVec 6 := 1
       (s.failed = false) ∧
       let k := clusterOf c
       let q := s.cluster k
       let n := (cmd.ops.headD 0).toNat
       (s.commandAt c b i = some cmd) ∧
       (cmd.ins = .split opa) ∧
       (cmd.who.issued + 4 ≤ s.clk) ∧
       (s.commandReady cmd = true) ∧
       (q.split = none) ∧
       (q.banks < n)) := by
  refine ⟨?_, ?_, ?_, ?_, ?_⟩ <;> decide +kernel
theorem witness_ShadowsAndSplits_2 :
    (let s : State := evC [sl 4 74]
     let c : Nat := 3
     let b : Nat := 1
     let i : Nat := 0
     let cmd : Command := sl 4 74
     let opa : BitVec 6 := 1
     (s.failed = false) ∧
     (s.commandAt c b i = some cmd) ∧
     (cmd.ins = .split opa) ∧
     ((s.clk < cmd.who.issued + 4 ∨ s.commandReady cmd = false)))
    ∧ (let s : State := ln (evC [so 589824])
       let c : Nat := 3
       let b : Nat := 1
       let i : Nat := 0
       let cmd : Command := so 589824
       let opa : BitVec 6 := 1
       let opb : BitVec 6 := 2
       (s.failed = false) ∧
       (s.commandAt c b i = some cmd) ∧
       (cmd.ins = .shopen opa opb) ∧
       let w := cmd.who
       let n := (cmd.ops.headD 0).toNat
       let l := s.parts (tget [] w.invocation s.extents) (n / 4096 + 1) (cmd.addr % 2 ^ 56) n
       let mapped : Prop := ∀ p ∈ l, p.ext.isSome = true
       (cmd.addr / 2 ^ 56 % 16 = 0) ∧
       (¬ mapped))
    ∧ (let s : State := ln (evC [so 196608])
       let c : Nat := 3
       let b : Nat := 1
       let i : Nat := 0
       let cmd : Command := so 196608
       let opa : BitVec 6 := 1
       let opb : BitVec 6 := 2
       (s.failed = false) ∧
       (s.commandAt c b i = some cmd) ∧
       (cmd.ins = .shopen opa opb) ∧
       let w := cmd.who
       let n := (cmd.ops.headD 0).toNat
       let l := s.parts (tget [] w.invocation s.extents) (n / 4096 + 1) (cmd.addr % 2 ^ 56) n
       let mapped : Prop := ∀ p ∈ l, p.ext.isSome = true
       let denied : Prop := ∃ p ∈ l, ∃ x, p.ext = some x ∧ x.p = true ∧ (x.w = false ∨ (w.priv = false ∧ x.u = false))
       (cmd.addr / 2 ^ 56 % 16 = 0) ∧
       (mapped) ∧
       (¬ denied) ∧
       (s.shadowPages l = none))
    ∧ (let s : State := ln (evC [so 327680])
       let c : Nat := 3
       let b : Nat := 1
       let i : Nat := 0
       let cmd : Command := so 327680
       let opa : BitVec 6 := 1
       let opb : BitVec 6 := 2
       (s.failed = false) ∧
       (s.commandAt c b i = some cmd) ∧
       (cmd.ins = .shopen opa opb) ∧
       let w := cmd.who
       let n := (cmd.ops.headD 0).toNat
       let l := s.parts (tget [] w.invocation s.extents) (n / 4096 + 1) (cmd.addr % 2 ^ 56) n
       let mapped : Prop := ∀ p ∈ l, p.ext.isSome = true
       let denied : Prop := ∃ p ∈ l, ∃ x, p.ext = some x ∧ x.p = true ∧ (x.w = false ∨ (w.priv = false ∧ x.u = false))
       (cmd.addr / 2 ^ 56 % 16 = 0) ∧
       (mapped) ∧
       (denied))
    ∧ (let s : State := ln (evC [so 65536])
       let c : Nat := 3
       let b : Nat := 1
       let i : Nat := 0
       let d : Nat := 0
       let cmd : Command := so 65536
       let opa : BitVec 6 := 1
       let opb : BitVec 6 := 2
       let pages : List Nat := P 0x400
       (s.failed = false) ∧
       (s.commandAt c b i = some cmd) ∧
       (cmd.ins = .shopen opa opb) ∧
       let w := cmd.who
       let n := (cmd.ops.headD 0).toNat
       let l := s.parts (tget [] w.invocation s.extents) (n / 4096 + 1) (cmd.addr % 2 ^ 56) n
       let mapped : Prop := ∀ p ∈ l, p.ext.isSome = true
       let denied : Prop := ∃ p ∈ l, ∃ x, p.ext = some x ∧ x.p = true ∧ (x.w = false ∨ (w.priv = false ∧ x.u = false))
       (cmd.addr / 2 ^ 56 % 16 = 0) ∧
       (mapped) ∧
       (¬ denied) ∧
       (s.shadowPages l = some (d, pages)) ∧
       ((s.die d).shadows.length < 64)) := by
  refine ⟨?_, ?_, ?_, ?_, ?_⟩ <;> decide +kernel
theorem witness_ShadowsAndSplits_3 :
    (let s : State := sh64 (evC [so 65536])
     let c : Nat := 3
     let b : Nat := 1
     let i : Nat := 0
     let d : Nat := 0
     let cmd : Command := so 65536
     let opa : BitVec 6 := 1
     let opb : BitVec 6 := 2
     let pages : List Nat := P 0x400
     (s.failed = false) ∧
     (s.commandAt c b i = some cmd) ∧
     (cmd.ins = .shopen opa opb) ∧
     let w := cmd.who
     let n := (cmd.ops.headD 0).toNat
     let l := s.parts (tget [] w.invocation s.extents) (n / 4096 + 1) (cmd.addr % 2 ^ 56) n
     let mapped : Prop := ∀ p ∈ l, p.ext.isSome = true
     let denied : Prop := ∃ p ∈ l, ∃ x, p.ext = some x ∧ x.p = true ∧ (x.w = false ∨ (w.priv = false ∧ x.u = false))
     (cmd.addr / 2 ^ 56 % 16 = 0) ∧
     (mapped) ∧
     (¬ denied) ∧
     (s.shadowPages l = some (d, pages)) ∧
     (64 ≤ (s.die d).shadows.length))
    ∧ (let s : State := withSh (evC [pu 0x20000])
       let c : Nat := 3
       let b : Nat := 1
       let i : Nat := 0
       let cmd : Command := pu 0x20000
       let opa : BitVec 6 := 1
       let scope : BitVec 3 := 2
       (s.failed = false) ∧
       (s.commandAt c b i = some cmd) ∧
       (cmd.ins = .publish opa scope) ∧
       (s.findShadow cmd.who.invocation cmd.addr = none))
    ∧ (let s : State := ln (evC [so 72057594037993472])
       let c : Nat := 3
       let b : Nat := 1
       let i : Nat := 0
       let cmd : Command := so 72057594037993472
       let opa : BitVec 6 := 1
       let opb : BitVec 6 := 2
       (s.failed = false) ∧
       (s.commandAt c b i = some cmd) ∧
       (cmd.ins = .shopen opa opb) ∧
       (cmd.addr / 2 ^ 56 % 16 ≠ 0))
    ∧ (let s : State := evC [sl 0] fun q => { q with split := some ⟨5, 77⟩ }
       let cl : Nat := 0
       let x : SplitDrain := ⟨5, 77⟩
       (s.failed = false) ∧
       let z := s.cluster cl
       (z.split = some x) ∧
       (x.ends ≤ s.clk))
    ∧ (let s : State := let s := withSh (evC [{ pu 0x10000 with waits := [44] }]); s.setBank 3 0 { vb with queue := [{ qe .qalign with id := 44 }] }
       let c : Nat := 3
       let b : Nat := 1
       let i : Nat := 0
       let d : Nat := 0
       let j : Nat := 2
       let cmd : Command := { pu 0x10000 with waits := [44] }
       let opa : BitVec 6 := 1
       let scope : BitVec 3 := 2
       (s.failed = false) ∧
       (s.commandAt c b i = some cmd) ∧
       (cmd.ins = .publish opa scope) ∧
       (s.findShadow cmd.who.invocation cmd.addr = some (d, j)) ∧
       ((s.commandReady cmd = false ∨ s.shadowInUse (d, j) = true ∨ s.midAccess = true))) := by
  refine ⟨?_, ?_, ?_, ?_, ?_⟩ <;> decide +kernel
end WShadowsAndSplits

namespace WBalloonAndMigration
def wh : Captured := { (evOf vb).capture with issued := 60 }
def dst (x : Die → Die) : State := let s := evOf vb; s.setDie 0 (x { s.die 0 with home := homeM, pages := [(0x400, { blocks := [(1, 3)], batts := [5, 6], access := 9 }), (0x401, { batts := [], state := 1, access := 7, fwd := 0x4000 })] })
def w1 : Waiter := ⟨.host, 5, 3⟩
def cB : State := dst fun x => { x with balloonList := [0x402000], balloon := 1, lastClaim := 13, cmpctl := 0x3C09 }
def fr : SReg := 0x8000000000020000
def cC (fr : SReg) : State := dst fun x => { x with targetList := [fr], balloon := 2, free := [(0, 3)] }
def cD (fr : SReg) : State := dst fun x => { x with targetList := [], balloon := 2, free := [(0, 3)], evictions := [(0x400, fr, 50)] }
def cE : State := let s := dst fun x => { x with balloon := 4, lp := lay [] 0x4000 [1,2,3], home := [] }; s
def cF : State := dst fun x => { x with balloon := 3, free := [(0, 3)], waiters := [w1, w1] }
def cG : State := { dst id with clk := 2^20 * 3 }
def mg : Migration := { who := wh, addr := 0x10200 }
def cmdN (kind tr n : Nat) (list dest trl stat : Nat) : Nat := kind + 256 * tr + 256^2 * n + 256^8 * list + 256^16 * dest + 256^24 * trl + 256^32 * stat
def ms (kind tr : Nat) (m : Migration) : State := let s := evOf vb; let s := s.setDie 0 { s.die 0 with home := lay (lay (lay homeM 0x400200 (natBytes 64 (cmdN kind tr 1 0x10300 0x10308 0x10340 0x10380))) 0x400300 (natBytes 16 (0x20000 + 2^64 * 0x77000))) 0x410000 [1,2,3], pages := [(0x410, { batts := [9], tags := 0x77 })] }; { s with migrations := [m] }
def rM (s : State) (m : Migration) : Migration := match s.readMigration 0 m with | .inl (some m') => m' | _ => m
def mb : Migration := { mg with addr := 0x0100000000010200 }
def q1 (s : State) (d : Nat) : Page := ((s.recallable d).map (·.2)).getD {}
def m1 : Migration := rM (ms 1 1 mg) mg
def m0 : Migration := { m1 with kind := 0, trailer := false, frames := [0x2000000000000] }
def m2 : Migration := { who := wh, addr := 0x10200, kind := 2, taken := true, pages := [0x20000], frames := [0x411000], stat := 0x10380, dest := 0 }
def waitM (v : Nat) (s : State) : State := { s with engineWaits := [{ who := .migration 3 1, invocation := 4, page := 0, cause := v, write := true, verdict := some v }] }
def tgx (s : State) : State := { s with extents := [(4, xt1.map fun e => { e with tg := true })] }
def nofree (s : State) : State := s.setDie 0 { s.die 0 with cmpctl := 0x21, free := [] }
def nospace (s : State) : State := s.setDie 0 { s.die 0 with cmpctl := 0x21, free := [], home := [], pages := [(0x411, { blocks := List.replicate 16 (0, 8) })] }
def badtr (m : Migration) : Migration := { m with trl := 2^57 + 1, trailer := true }
def mgw : Migration := { mg with addr := 0x300000 }
theorem witness_BalloonAndMigration_1 :
    (let s : State := ms 1 1 mg
     let i : Nat := 0
     let m : Migration := mg
     (s.failed = false) ∧
     (s.migrations[i]? = some m) ∧
     let who := Writer.migration m.who.core m.who.bank
     (s.standing who = .free) ∧
     (m.ended = none) ∧
     (m.taken = false) ∧
     (match s.readMigration i m with
      | .inl (some m') => decide ((s.migrationRefused m' = false) ∧
     (s.migrationTagged m' = false) ∧
     (m'.kind ≠ 2))
      | _ => false) = true)
    ∧ (let s : State := ms 2 0 mg
       let i : Nat := 0
       let m : Migration := mg
       (s.failed = false) ∧
       (s.migrations[i]? = some m) ∧
       let who := Writer.migration m.who.core m.who.bank
       (s.standing who = .free) ∧
       (m.ended = none) ∧
       (m.taken = false) ∧
       (match s.readMigration i m with
        | .inl (some m') => decide ((s.migrationRefused m' = false) ∧
       (s.migrationTagged m' = false) ∧
       (m'.kind = 2))
        | _ => false) = true)
    ∧ (let s : State := ms 3 0 mg
       let i : Nat := 0
       let m : Migration := mg
       (s.failed = false) ∧
       (s.migrations[i]? = some m) ∧
       let who := Writer.migration m.who.core m.who.bank
       (s.standing who = .free) ∧
       (m.ended = none) ∧
       (m.taken = false) ∧
       (match s.readMigration i m with
        | .inl (some m') => decide ((s.migrationRefused m' = true))
        | _ => false) = true) := by
  refine ⟨?_, ?_, ?_⟩ <;> decide +kernel
theorem witness_BalloonAndMigration_2 :
    (let s : State := ms 0 0 mb
     let i : Nat := 0
     let m : Migration := mb
     (s.failed = false) ∧
     (s.migrations[i]? = some m) ∧
     let who := Writer.migration m.who.core m.who.bank
     (s.standing who = .free) ∧
     (m.ended = none) ∧
     (m.taken = false) ∧
     (s.readMigration i m = .inl none))
    ∧ (let s : State := ms 1 1 m1
       let i : Nat := 0
       let noSpace : Bool := false
       let m : Migration := m1
       (s.failed = false) ∧
       (s.migrations[i]? = some m) ∧
       let who := Writer.migration m.who.core m.who.bank
       (s.standing who = .free) ∧
       (m.ended = none) ∧
       (m.taken = true) ∧
       ((noSpace = false ∨ m.kind ≠ 0)) ∧
       let few : Prop := 1 ≤ m.pass ∧ (s.dirtyBlocks m < 256 ∨ 8 ≤ m.pass)
       (m.final = false) ∧
       (¬ few) ∧
       (match s.copyPages m with
        | .inl u => true
        | _ => false) = true)
    ∧ (let s : State := ms 1 1 mgw
       let i : Nat := 0
       let m : Migration := mgw
       (s.failed = false) ∧
       (s.migrations[i]? = some m) ∧
       let who := Writer.migration m.who.core m.who.bank
       (s.standing who = .free) ∧
       (m.ended = none) ∧
       (m.taken = false) ∧
       (match s.readMigration i m with
        | .inr t => true
        | _ => false) = true) := by
  refine ⟨?_, ?_, ?_⟩ <;> decide +kernel
theorem witness_BalloonAndMigration_3 :
    (let s : State := tgx (ms 1 0 mg)
     let i : Nat := 0
     let m : Migration := mg
     (s.failed = false) ∧
     (s.migrations[i]? = some m) ∧
     let who := Writer.migration m.who.core m.who.bank
     (s.standing who = .free) ∧
     (m.ended = none) ∧
     (m.taken = false) ∧
     (match s.readMigration i m with
      | .inl (some m') => decide ((s.migrationRefused m' = false) ∧
     (s.migrationTagged m' = true))
      | _ => false) = true)
    ∧ (let s : State := nospace (ms 2 0 m2)
       let i : Nat := 0
       let noSpace : Bool := false
       let m : Migration := m2
       (s.failed = false) ∧
       (s.migrations[i]? = some m) ∧
       let who := Writer.migration m.who.core m.who.bank
       (s.standing who = .free) ∧
       (m.ended = none) ∧
       (m.taken = true) ∧
       ((noSpace = false ∨ m.kind ≠ 0)) ∧
       let few : Prop := 1 ≤ m.pass ∧ (s.dirtyBlocks m < 256 ∨ 8 ≤ m.pass)
       (m.final = false) ∧
       (¬ few) ∧
       (match s.copyPages m with
        | .inr (d, need) => true
        | _ => false) = true)
    ∧ (let s : State := cB
       let d : Nat := 0
       let o : Nat := 4202496
       let os : List Nat := []
       (s.failed = false) ∧
       let x := s.die d
       let r := x.page (o / 4096)
       let skipped : Prop := x.presented ≤ o ∨ o % 4096 ≠ 0 ∨ r.state ≠ 0 ∨ r.shadow = true ∨ r.migrating = true
       (x.balloonList = o :: os) ∧
       (x.balloon = 1) ∧
       (¬ skipped) ∧
       ((x.lastClaim + 64 ≤ s.clk ∨ x.lastClaim = 0))) := by
  refine ⟨?_, ?_, ?_⟩ <;> decide +kernel
theorem witness_BalloonAndMigration_4 :
    (let s : State := cG
     let d : Nat := 0
     (s.failed = false) ∧
     let x := s.die d
     (x.halved < s.clk / 2 ^ 20))
    ∧ (let s : State := cD fr
       let d : Nat := 0
       let p : Nat := 1024
       let since : Nat := 50
       let f : SReg := fr
       (s.failed = false) ∧
       let x := s.die d
       let e := x.page p
       (x.evictions.find? (fun y => y.1 = p) = some (p, f, since)) ∧
       (e.leaves = true) ∧
       (f.getLsbD 63 = true))
    ∧ (let s : State := waitM 0x14 (ms 1 1 m1)
       let i : Nat := 0
       let m : Migration := m1
       (s.failed = false) ∧
       (s.migrations[i]? = some m) ∧
       let who := Writer.migration m.who.core m.who.bank
       (match s.standing who with
        | .failed cause => decide ((m.ended = none) ∧
       (m.known = true))
        | _ => false) = true) := by
  refine ⟨?_, ?_, ?_⟩ <;> decide +kernel
theorem witness_BalloonAndMigration_5 :
    (let s : State := cF
     let d : Nat := 0
     let w : Waiter := w1
     let ws : List Waiter := [w1]
     (s.failed = false) ∧
     let x := s.die d
     (x.waiters = w :: ws) ∧
     (x.balloon = 3) ∧
     (x.freeCount < w.need))
    ∧ (let s : State := cC fr
       let d : Nat := 0
       let p : Nat := 1024
       let f : SReg := fr
       (s.failed = false) ∧
       let x := s.die d
       (x.coldest = some p) ∧
       (x.target = some f) ∧
       (x.balloon = 2) ∧
       (x.evictions.length < 4) ∧
       (x.freeCount + x.leaving < x.high + (x.waiters.map (·.need)).sum))
    ∧ (let s : State := cE
       let d : Nat := 0
       let p : Nat := 1025
       let q : Page := q1 cE 0
       (s.failed = false) ∧
       let x := s.die d
       (s.recallable d = some (p, q)) ∧
       (x.balloon = 4)) := by
  refine ⟨?_, ?_, ?_⟩ <;> decide +kernel
theorem witness_BalloonAndMigration_6 :
    (let s : State := cD 0x5000
     let d : Nat := 0
     let p : Nat := 1024
     let since : Nat := 50
     let f : SReg := 0x5000
     (s.failed = false) ∧
     let x := s.die d
     let e := x.page p
     (x.evictions.find? (fun y => y.1 = p) = some (p, f, since)) ∧
     (e.leaves = true) ∧
     (f.getLsbD 63 = false))
    ∧ (let s : State := nofree (ms 0 0 { m0 with final := true })
       let i : Nat := 0
       let noSpace : Bool := false
       let m : Migration := { m0 with final := true }
       (s.failed = false) ∧
       (s.migrations[i]? = some m) ∧
       let who := Writer.migration m.who.core m.who.bank
       (s.standing who = .free) ∧
       (m.ended = none) ∧
       (m.taken = true) ∧
       ((noSpace = false ∨ m.kind ≠ 0)) ∧
       (m.final = true) ∧
       (s.midAccess = false) ∧
       (match s.copyPages m with
        | .inl u => decide ((match u.moveTags m with
        | .value v w => true
        | _ => false) = true)
        | _ => false) = true)
    ∧ (let s : State := nospace (ms 2 0 { m2 with final := true })
       let i : Nat := 0
       let noSpace : Bool := false
       let m : Migration := { m2 with final := true }
       (s.failed = false) ∧
       (s.migrations[i]? = some m) ∧
       let who := Writer.migration m.who.core m.who.bank
       (s.standing who = .free) ∧
       (m.ended = none) ∧
       (m.taken = true) ∧
       ((noSpace = false ∨ m.kind ≠ 0)) ∧
       (m.final = true) ∧
       (s.midAccess = false) ∧
       (match s.copyPages m with
        | .inr (d, need) => true
        | _ => false) = true) := by
  refine ⟨?_, ?_, ?_⟩ <;> decide +kernel
theorem witness_BalloonAndMigration_7 :
    (let s : State := waitM 0x12 (ms 1 1 { mg with known := false })
     let i : Nat := 0
     let m : Migration := { mg with known := false }
     (s.failed = false) ∧
     (s.migrations[i]? = some m) ∧
     let who := Writer.migration m.who.core m.who.bank
     (match s.standing who with
      | .failed cause => decide ((m.ended = none) ∧
     (m.known = false))
      | _ => false) = true)
    ∧ (let s : State := ms 1 1 (badtr { m1 with pass := 1, final := true })
       let i : Nat := 0
       let noSpace : Bool := false
       let m : Migration := badtr { m1 with pass := 1, final := true }
       (s.failed = false) ∧
       (s.migrations[i]? = some m) ∧
       let who := Writer.migration m.who.core m.who.bank
       (s.standing who = .free) ∧
       (m.ended = none) ∧
       (m.taken = true) ∧
       ((noSpace = false ∨ m.kind ≠ 0)) ∧
       (m.final = true) ∧
       (s.midAccess = false) ∧
       (match s.copyPages m with
        | .inl u => decide ((match u.moveTags m with
        | .fail cause => true
        | _ => false) = true)
        | _ => false) = true)
    ∧ (let s : State := ms 1 1 { m1 with pass := 1, pages := [], frames := [] }
       let i : Nat := 0
       let noSpace : Bool := true
       let m : Migration := { m1 with pass := 1, pages := [], frames := [] }
       (s.failed = false) ∧
       (s.migrations[i]? = some m) ∧
       let who := Writer.migration m.who.core m.who.bank
       (s.standing who = .free) ∧
       (m.ended = none) ∧
       (m.taken = true) ∧
       ((noSpace = false ∨ m.kind ≠ 0)) ∧
       let few : Prop := 1 ≤ m.pass ∧ (s.dirtyBlocks m < 256 ∨ 8 ≤ m.pass)
       (m.final = false) ∧
       (few)) := by
  refine ⟨?_, ?_, ?_⟩ <;> decide +kernel
theorem witness_BalloonAndMigration_8 :
    (let s : State := ms 0 0 { m0 with pass := 1, pages := [], frames := [] }
     let i : Nat := 0
     let noSpace : Bool := true
     let m : Migration := { m0 with pass := 1, pages := [], frames := [] }
     (s.failed = false) ∧
     (s.migrations[i]? = some m) ∧
     let who := Writer.migration m.who.core m.who.bank
     (s.standing who = .free) ∧
     (m.ended = none) ∧
     (m.taken = true) ∧
     (noSpace = true) ∧
     (m.kind = 0))
    ∧ (let s : State := ms 1 1 { m1 with ended := some 4, pages := [], frames := [] }
       let i : Nat := 0
       let m : Migration := { m1 with ended := some 4, pages := [], frames := [] }
       (s.failed = false) ∧
       (s.migrations[i]? = some m) ∧
       let who := Writer.migration m.who.core m.who.bank
       (match m.ended with
        | some status => decide ((s.standing who = .free))
        | _ => false) = true)
    ∧ (let s : State := let s := cD fr; s.setDie 0 ((s.die 0).setPage 0x400 { (s.die 0).page 0x400 with shadow := true })
       let d : Nat := 0
       let p : Nat := 1024
       let since : Nat := 50
       let f : SReg := fr
       (s.failed = false) ∧
       let x := s.die d
       let e := x.page p
       (x.evictions.find? (fun y => y.1 = p) = some (p, f, since)) ∧
       (e.leaves = false)) := by
  refine ⟨?_, ?_, ?_⟩ <;> decide +kernel
theorem witness_BalloonAndMigration_9 :
    (let s : State := dst fun x => { x with balloonList := [0x401000], balloon := 1, lastClaim := 0, cmpctl := 0x3C00 }
     let d : Nat := 0
     let o : Nat := 4198400
     let os : List Nat := []
     (s.failed = false) ∧
     let x := s.die d
     let r := x.page (o / 4096)
     let skipped : Prop := x.presented ≤ o ∨ o % 4096 ≠ 0 ∨ r.state ≠ 0 ∨ r.shadow = true ∨ r.migrating = true
     (x.balloonList = o :: os) ∧
     (x.balloon = 1) ∧
     (skipped))
    ∧ (let s : State := dst fun x => { x with balloonList := [0x400000], balloon := 1, lastClaim := 60, cmpctl := 0x3C00 }
       let d : Nat := 0
       let o : Nat := 4194304
       let os : List Nat := []
       (s.failed = false) ∧
       let x := s.die d
       let r := x.page (o / 4096)
       let skipped : Prop := x.presented ≤ o ∨ o % 4096 ≠ 0 ∨ r.state ≠ 0 ∨ r.shadow = true ∨ r.migrating = true
       (x.balloonList = o :: os) ∧
       (x.balloon = 1) ∧
       (¬ skipped) ∧
       (s.clk < x.lastClaim + 64) ∧
       (x.lastClaim ≠ 0))
    ∧ (let s : State := waitM 0x12 (ms 1 1 { m1 with ended := some 4, pages := [], frames := [] })
       let i : Nat := 0
       let m : Migration := { m1 with ended := some 4, pages := [], frames := [] }
       (s.failed = false) ∧
       (s.migrations[i]? = some m) ∧
       let who := Writer.migration m.who.core m.who.bank
       (match m.ended with
        | some status => decide ((match s.standing who with
        | .failed cause => true
        | _ => false) = true)
        | _ => false) = true) := by
  refine ⟨?_, ?_, ?_⟩ <;> decide +kernel
theorem witness_BalloonAndMigration_10 :
    let s : State := let s := ms 0 0 { m0 with final := true }; s.setBank 3 1 { s.bank 3 1 with queue := [{ qe (.ldg 4 8 1 3) 0x10000 with done := [0] }] }
    let i : Nat := 0
    let noSpace : Bool := false
    let m : Migration := { m0 with final := true }
    (s.failed = false) ∧
    (s.migrations[i]? = some m) ∧
    let who := Writer.migration m.who.core m.who.bank
    (s.standing who = .free) ∧
    (m.ended = none) ∧
    (m.taken = true) ∧
    ((noSpace = false ∨ m.kind ≠ 0)) ∧
    (m.final = true) ∧
    (s.midAccess = true) := by
  decide +kernel
end WBalloonAndMigration

namespace WFaultAnswers
def r1 : FaultRecord := ⟨4, 9, 0x30000, true, true, some 3, false⟩
def r2 : FaultRecord := ⟨4, 9, 0x31000, false, true, some 3, false⟩
def r3 : FaultRecord := ⟨4, 9, 0x41000, false, true, some 3, true⟩
def td : Teardown := ⟨9, 50, 0, 2, 77⟩
def inv : Invocation := { slot := 2, version := 0, queue := 1, seq := 3, cid := 6, stages := [5], recAddr := 0x5000, addrs := [], ranges := [], pasid := 9, partition := 5, running := true }
def fst' (f : List FaultRecord) (t : List Teardown := []) : State := { evOf vb with faults := f, teardowns := t, invocations := [(4, inv)], regs.teardown := 20 }
theorem witness_FaultAnswers_1 :
    (let s : State := fst' [r3] [td]
     let g : Nat := 3
     let pasid : Nat := 9
     let td : Teardown := td
     ((s.failed = false) ∧
       let asks : Prop := (∃ x ∈ s.faults, x.host = true ∧ x.pasid = pasid ∧ x.group.isSome = true)
                 ∨ ∃ v ∈ s.invocations, v.2.pasid = pasid ∧ v.2.walking = true ∧ v.2.asked ≠ []
       let granted := s.faults.filter fun x => x.host && x.granted && x.group = some g
       let down (l : List FaultRecord) : Prop := ∃ x ∈ l, x.pasid ∈ s.downPasids
       let mine := s.requested.filter fun x => x.group = some g
       (mine = []) ∧
       (granted ≠ []) ∧
       (¬ down granted) ∧
       (s.teardowns.find? (fun x => x.pasid = pasid) = some td) ∧
       (asks) ∧
       (td.since + s.regs.teardown ≤ s.clk)) ∧
     ((s.failed = false) ∧
       let id : Nat := 4
       (match tfind id s.extents with
        | some xt => decide (((tfind id s.invocations).any (fun v => v.pasid = pasid) = true))
        | _ => false) = true))
    ∧ (let s : State := { fst' [r1, r2, r3] with downPasids := [9] }
       let g : Nat := 3
       (s.failed = false) ∧
       let granted := s.faults.filter fun x => x.host && x.granted && x.group = some g
       let mine := s.requested.filter fun x => x.group = some g
       let down (l : List FaultRecord) : Prop := ∃ x ∈ l, x.pasid ∈ s.downPasids
       (mine ≠ []) ∧
       (down (mine.take 1)) ∧
       (granted ≠ []) ∧
       (down granted))
    ∧ (let s : State := fst' [] [td]
       let pasid : Nat := 9
       let td : Teardown := td
       (s.failed = false) ∧
       (s.teardowns.find? (fun x => x.pasid = pasid) = some td) ∧
       let asks : Prop := (∃ x ∈ s.faults, x.host = true ∧ x.pasid = pasid ∧ x.group.isSome = true)
                 ∨ ∃ v ∈ s.invocations, v.2.pasid = pasid ∧ v.2.walking = true ∧ v.2.asked ≠ []
       (¬ asks))
    ∧ (let s : State := fst' [r1, r2, r3]
       let g : Nat := 3
       let code : Nat := 0
       (s.failed = false) ∧
       let mine := s.requested.filter fun x => x.group = some g
       let down (l : List FaultRecord) : Prop := ∃ x ∈ l, x.pasid ∈ s.downPasids
       (mine ≠ []) ∧
       (¬ down (mine.take 1)) ∧
       (code = 0)) := by
  refine ⟨?_, ?_, ?_, ?_⟩ <;> decide +kernel
theorem witness_FaultAnswers_2 :
    (let s : State := fst' [r1, r2, r3]
     let g : Nat := 3
     let code : Nat := 1
     (s.failed = false) ∧
     let mine := s.requested.filter fun x => x.group = some g
     let down (l : List FaultRecord) : Prop := ∃ x ∈ l, x.pasid ∈ s.downPasids
     (mine ≠ []) ∧
     (¬ down (mine.take 1)) ∧
     (code = 1))
    ∧ (let s : State := fst' [r1, r2, r3]
       let g : Nat := 3
       let code : Nat := 2
       (s.failed = false) ∧
       let mine := s.requested.filter fun x => x.group = some g
       let down (l : List FaultRecord) : Prop := ∃ x ∈ l, x.pasid ∈ s.downPasids
       (mine ≠ []) ∧
       (¬ down (mine.take 1)) ∧
       (1 < code))
    ∧ (let s : State := fst' [r3] [{ td with since := 60 }]
       let pasid : Nat := 9
       let td : Teardown := { td with since := 60 }
       (s.failed = false) ∧
       (s.teardowns.find? (fun x => x.pasid = pasid) = some td) ∧
       (s.clk < td.since + s.regs.teardown)) := by
  refine ⟨?_, ?_, ?_⟩ <;> decide +kernel
end WFaultAnswers

namespace WHostInterface
def hq : HostQueue := { ring := 0x100, cpl := 0x9000, valid := true, written := 5, taken := 4, rlog := 6 }
def hst (g : Nat) (f : Die → Die := id) : State := let s := evOf vb; let s := s.setDie 0 (f { s.die 0 with home := homeM }); { s with withies := true, frames := [(1, (7, g))], hostQueues := [(0, { valid := true, mapped := true }), (3, hq)], regs.frame := 70 }
def dat : List (BitVec 8) := [1,2,3,4,5,0,7,8]
def noB (s : State) : State := s.setDie 0 { s.die 0 with cmpctl := 0x21, free := [] }
def ringM (s : State) (l : List (BitVec 8)) : State := { s with hostMem := lay [] 0x140 l }
def hq2 (h t : Nat) : HostQueue := { hq with head := h, tail := t, seq := 9, pnotify := true, rlog := 6 }
def wq (x : HostQueue) (s : State) : State := { s with hostQueues := [(0, { valid := true, mapped := true, head := 0, tail := 0 }), (3, x)] }
def waitH (v : Nat) (s : State) : State := { s with engineWaits := [{ who := .host, invocation := 4, page := 0, cause := v, write := true, verdict := some v }] }
def mig (s : State) : State := { s with migrations := [{ who := { (evOf vb).capture with issued := 60 }, addr := 0, kind := 1, taken := true, final := true, pages := [0x10000], frames := [0] }] }
def full (x : HostQueue) (s : State) : State := { s with hostSlots := (List.range 64).map (fun i => (i, i)), hostQueues := (List.range 64).map (fun i => (i, { hq with mapped := true })) ++ [(70, { hq with pnotify := true })] } |>.setHostQueue 5 x |>.setHostQueue 3 hq
def hw (s : State) : State := { s with hostWrites := [(0x400FFC, dat), (5, [1])], hostMaps := [((2, 5), 9)] }
theorem witness_HostInterface_1 :
    (let s : State := hw (hst 7)
     let d : Nat := 1
     let q : Nat := 3
     let off : Nat := 0
     let width : Nat := 4
     let taken : Nat := 0
     let a : Nat := 0x400FFC
     let data : List (BitVec 8) := dat
     let later : List (Nat × List (BitVec 8)) := [(5, [1])]
     let stored : List (Nat × BitVec 8) := [(0x140, 7)]
     let maps : List (Nat × Nat × Nat) := [(9, 5, 6)]
     ((s.failed = false) ∧
       (q < 1024) ∧
       (off < 4096) ∧
       let x := s.hostQueue q
       let held : State := { s with hostMem := stored.foldl (fun m o => mset o.1 o.2 m) s.hostMem,
                                        hostMaps := maps.map (fun (m : Nat × Nat × Nat) => ((m.1, m.2.1), m.2.2)) ++ s.hostMaps }
       let told := (held.setHostQueue q { x with taken := min x.written (x.taken + taken) }).flushHeld q x.heldCpl.length
       let z := told.hostQueue q
       let frame := tget (0, 0) d s.frames
       (s.withies = true) ∧
       (d < 4) ∧
       (frame.2 + s.regs.frame ≤ s.clk) ∧
       (off = 0) ∧
       (4 ≤ width) ∧
       (z.valid = true) ∧
       (z.stopped = false) ∧
       (x.valid = true) ∧
       (x.stopped = false) ∧
       (x.cplFull = false) ∧
       (x.heldCpl = []) ∧
       (x.head = x.tail % 2 ^ x.rlog)) ∧
     ((s.failed = false) ∧
       (q < 1024) ∧
       (off < 4096) ∧
       let l := s.windowParts (data.length / 4096 + 2) a data.length
       let written := (partData l (bytesNat data)).foldl (fun (u : State) o => u.rawWrite o.1.loc o.1.n o.2) s
       (s.hostWrites = (a, data) :: later) ∧
       (s.standing .host = .free) ∧
       ((∀ p ∈ l, s.claimed p = false)) ∧
       (s.heldByMigration l = false) ∧
       (match account s written .host (touches l) with
        | .inl u => true
        | _ => false) = true))
    ∧ (let s : State := wq { hq with heldCpl := [⟨1, 2, 3, 4, none⟩, ⟨5, 6, 7, 8, some 3⟩], written := 64, taken := 0 } (hst 7)
       let q : Nat := 3
       let off : Nat := 4
       let width : Nat := 4
       let taken : Nat := 2
       let stored : List (Nat × BitVec 8) := []
       let maps : List (Nat × Nat × Nat) := []
       (s.failed = false) ∧
       (q < 1024) ∧
       (off < 4096) ∧
       let x := s.hostQueue q
       let held : State := { s with hostMem := stored.foldl (fun m o => mset o.1 o.2 m) s.hostMem,
                                        hostMaps := maps.map (fun (m : Nat × Nat × Nat) => ((m.1, m.2.1), m.2.2)) ++ s.hostMaps }
       let told := (held.setHostQueue q { x with taken := min x.written (x.taken + taken) }).flushHeld q x.heldCpl.length
       let z := told.hostQueue q
       (x.cplFull = true) ∧
       ((off ≠ 0 ∨ width < 4 ∨ z.valid = false ∨ z.stopped = true)))
    ∧ (let s : State := hst 8
       let d : Nat := 1
       let q : Nat := 3
       let off : Nat := 0
       (s.failed = false) ∧
       (q < 1024) ∧
       (off < 4096) ∧
       let frame := tget (0, 0) d s.frames
       (s.clk < frame.2 + s.regs.frame))
    ∧ (let s : State := hw (noB (hst 7))
       let q : Nat := 3
       let off : Nat := 0
       let a : Nat := 0x400FFC
       let data : List (BitVec 8) := dat
       let later : List (Nat × List (BitVec 8)) := [(5, [1])]
       (s.failed = false) ∧
       (q < 1024) ∧
       (off < 4096) ∧
       let l := s.windowParts (data.length / 4096 + 2) a data.length
       let written := (partData l (bytesNat data)).foldl (fun (u : State) o => u.rawWrite o.1.loc o.1.n o.2) s
       (s.hostWrites = (a, data) :: later) ∧
       (s.standing .host = .free) ∧
       ((∀ p ∈ l, s.claimed p = false)) ∧
       (s.heldByMigration l = false) ∧
       (match account s written .host (touches l) with
        | .inr (die, need) => true
        | _ => false) = true)
    ∧ (let s : State := hw (mig (hst 7))
       let q : Nat := 3
       let off : Nat := 0
       let a : Nat := 0x400FFC
       let data : List (BitVec 8) := dat
       let later : List (Nat × List (BitVec 8)) := [(5, [1])]
       (s.failed = false) ∧
       (q < 1024) ∧
       (off < 4096) ∧
       let l := s.windowParts (data.length / 4096 + 2) a data.length
       (s.hostWrites = (a, data) :: later) ∧
       (s.standing .host = .free) ∧
       ((∀ p ∈ l, s.claimed p = false)) ∧
       (s.heldByMigration l = true)) := by
  refine ⟨?_, ?_, ?_, ?_, ?_⟩ <;> decide +kernel
theorem witness_HostInterface_2 :
    (let s : State := hw (waitH 0x14 (hst 7))
     let q : Nat := 3
     let off : Nat := 0
     let a : Nat := 0x400FFC
     let cause : Nat := 0x14
     let data : List (BitVec 8) := dat
     let later : List (Nat × List (BitVec 8)) := [(5, [1])]
     (s.failed = false) ∧
     (q < 1024) ∧
     (off < 4096) ∧
     (s.hostWrites = (a, data) :: later) ∧
     (s.standing .host = .failed cause))
    ∧ (let s : State := full { hq with emptied := true, mapped := true } (hst 7)
       let d : Nat := 1
       let q : Nat := 70
       let off : Nat := 0
       (s.failed = false) ∧
       (q < 1024) ∧
       (off < 4096) ∧
       (match s.freeSlot d with
        | some slot => decide ((match tfind slot s.hostSlots with
        | some o => decide ((o ≠ q))
        | _ => false) = true)
        | _ => false) = true)
    ∧ (let s : State := ringM (wq (hq2 1 66) (hst 7)) (natBytes 64 (4 + 256^8 * 77 + 256^24 * 2))
       let q : Nat := 3
       let off : Nat := 0
       (s.failed = false) ∧
       (q < 1024) ∧
       (off < 4096) ∧
       let x := s.hostQueue q
       (x.valid = true) ∧
       (x.stopped = false) ∧
       (x.cplFull = false) ∧
       (x.heldCpl = []) ∧
       (x.head ≠ x.tail % 2 ^ x.rlog) ∧
       let e : JournalEntry := { die := s.queueDie q, seq := x.seq, queue := q, state := 1, ring := x.ring + 64 * x.head,
                                         body := mread s.hostMem (x.ring + 64 * x.head) 64 }
       (e.wellFormed = true) ∧
       (e.queueOk = true))
    ∧ (let s : State := hw (hst 7 fun x => x.setPage 0x401 { x.page 0x401 with state := 3 })
       let q : Nat := 3
       let off : Nat := 0
       let a : Nat := 0x400FFC
       let data : List (BitVec 8) := dat
       let later : List (Nat × List (BitVec 8)) := [(5, [1])]
       (s.failed = false) ∧
       (q < 1024) ∧
       (off < 4096) ∧
       let l := s.windowParts (data.length / 4096 + 2) a data.length
       (s.hostWrites = (a, data) :: later) ∧
       (s.standing .host = .free) ∧
       ((∃ p ∈ l, s.claimed p = true)))
    ∧ (let s : State := let s := noB (hst 7); hw { s with engineWaits := [{ who := .host, invocation := 4, page := 0, cause := 0x14, write := true, verdict := none }] }
       let q : Nat := 3
       let off : Nat := 0
       let a : Nat := 0x400FFC
       let data : List (BitVec 8) := dat
       let later : List (Nat × List (BitVec 8)) := [(5, [1])]
       (s.failed = false) ∧
       (q < 1024) ∧
       (off < 4096) ∧
       (s.hostWrites = (a, data) :: later) ∧
       (s.standing .host = .waiting)) := by
  refine ⟨?_, ?_, ?_, ?_, ?_⟩ <;> decide +kernel
end WHostInterface

namespace WSlotCommands
def body (op len cid addr : Nat) (args : List (Nat × Nat)) : Nat := op + 256^4*len + 256^8*cid + 256^16*addr + (args.map fun (p, v) => 256^p * v).foldl (·+·) 0
def ent (q n op : Nat) (args : List (Nat × Nat)) (len : Nat := 0) : JournalEntry := { seq := n, queue := q, state := 1, ring := 0x100, body := body op len 0xC1D 0x50000 args }
def hq0 : HostQueue := { valid := true, mapped := true, cpl := 0x9000, clog := 6, part := 0 }
def sl (g : ModelSlot → ModelSlot) (ext : List (BitVec 8)) (e : JournalEntry) : State := let s := evOf vb; { s with withies := true, hostQueues := [(0, hq0), (3, { hq0 with cpl := 0xA000, cphase := true })], journal := [{ e with seq := 99, state := 3 }, e], hostMem := lay [] 0x50000 ext, slots := [(2, g (tget {} 2 s.slots))] }
def f1 : ModelSlot → ModelSlot := fun m => { m with present := 0b0011, relocs := 2 }
def ix : List (BitVec 8) := natBytes 8 0x10000 ++ natBytes 8 0x10040 ++ natBytes 8 0x7000 ++ natBytes 8 (2^63 + 4096)
def ei (args : List (Nat × Nat)) : JournalEntry := ent 3 8 1 args 32
def v0 : Invocation := { slot := 2, version := 0, queue := 3, seq := 8, cid := 7, stages := [5], recAddr := 0x1234, addrs := [1, 2], ranges := [], pasid := 9, partition := 0, walking := true }
def e1 : JournalEntry := ei [(24, 2), (25, 1), (26, 2), (27, 1), (28, 0x20), (32, 0x7000)]
def e2 : JournalEntry := ei [(24, 2), (25, 2), (26, 2), (27, 1), (28, 0x20), (32, 0x7000)]
def e3 : JournalEntry := ei [(24, 2), (25, 1), (26, 1), (27, 1), (28, 0x20), (32, 0x7000)]
def tr0 : Translated := ⟨[], 0, 0, [], [], []⟩
def rr (s : State) (e : JournalEntry) : List (Nat × Nat × Bool) := (rangesOf (e.arg 26 1) (e.arg 27 1) (bytesNat (s.extended e))).getD []
def cw : State := { sl f1 ix e1 with invocations := [(6, v0)], stages := [(5, { configured := true, partition := 0, slot := 2, nq := 2, cores := [9, 3], bank := 1, entry := 0x10, tvec := 0x44, fwPriv := true })] }
def img : List (BitVec 8) := let sec := natBytes 8 0x1234567888000000 ++ natBytes 8 1; let dir := natBytes 16 (1 + 256^4 * 96 + 256^8 * 8) ++ natBytes 16 (3 + 256^4*104 + 256^8 * 4); let r := dir ++ sec; let d := sha256 r; natBytes 8 (0x4B57484C + 256^4) ++ natBytes 4 (64 + r.length) ++ natBytes 4 2 ++ d ++ natBytes 16 0 ++ r
def el : JournalEntry := ent 0 8 2 [(24, 2), (25, 1), (32, 0x70000)] img.length
def elb : JournalEntry := ent 0 8 2 [(24, 2), (25, 1), (32, 0x70000)] (img.length - 1)
def sL : State := sl f1 img el
def sLb : State := sl f1 img elb
def trn (s : State) (e : JournalEntry) : Nat ⊕ Translated := (s.markDispatched 0 8).translate (s.extended e) (e.arg 25 1) (e.arg 32 8)
def trS (s : State) (e : JournalEntry) : Translated := match trn s e with | .inr t => t | _ => tr0
def trR (s : State) (e : JournalEntry) : Nat := match trn s e with | .inl t => t | _ => 99
def eu : JournalEntry := ent 0 8 3 [(24, 2)]
def run (s : State) : State := { s with invocations := [(6, { v0 with walking := false, workers := [(3, 1)], version := 1 })] }
def ev (n : Nat) : JournalEntry := ent 3 8 4 [(24, 2), (25, n)] 5
def noLS (s : State) : State := { s with slots := [] }
def ixb : List (BitVec 8) := natBytes 8 0x10000 ++ natBytes 8 0x10040 ++ natBytes 8 0x7000 ++ natBytes 8 (2^62 + 4096)
def xtOf (s : State) (v : Invocation) (ats : List (Nat × Nat × Bool)) : List Extent := (tableOf (s.walkSet v.partition v.ranges (ats.filter fun t => v.asked.contains t.1))).getD []
def vr : Invocation := { v0 with ranges := [(0x10000, 4096, true)] }
def cwr : State := { cw with invocations := [(6, vr)] }
def cwm : State := cwr.setDie 0 { cwr.die 0 with home := lay [] 0 (natBytes 8 (2^64-1)) }
def swait (v : Option Nat) : State := { sL with engineWaits := [{ who := .load 0 8, invocation := 4, page := 0, cause := 0x14, write := true, verdict := v }] }
def imgD : List (BitVec 8) := let sec := natBytes 8 0x1234567888000000 ++ natBytes 8 1 ++ natBytes 8 0x7766554433221100; let dir := natBytes 16 (1 + 256^4 * 112 + 256^8 * 8) ++ natBytes 16 (3 + 256^4*120 + 256^8 * 4) ++ natBytes 16 (10 + 256^4*128 + 256^8 * 8); let r := dir ++ sec; let d := sha256 r; natBytes 8 (0x4B57484C + 256^4) ++ natBytes 4 (64 + r.length) ++ natBytes 4 3 ++ d ++ natBytes 16 0 ++ r
def elD : JournalEntry := ent 0 8 2 [(24, 2), (25, 1), (32, 0x70000)] imgD.length
def tabD (s : State) : State := s.setDie 0 { s.die 0 with home := lay (lay (lay (lay [] 0 (natBytes 8 0x1001)) 0x1000 (natBytes 8 0x2001)) 0x2000 (natBytes 8 0x3001)) 0x3380 (natBytes 8 0x500187) }
def sLD : State := tabD (sl f1 imgD elD)
def sLDn : State := let s := sLD; s.setDie 0 { s.die 0 with cmpctl := 0x21, free := [] }
theorem witness_SlotCommands_1 :
    (let s : State := cw
     let q : Nat := 3
     let n : Nat := 8
     let id : Nat := 6
     let e : JournalEntry := e1
     let v : Invocation := v0
     let xt : List Extent := xtOf cw v0 []
     let ats : List (Nat × Nat × Bool) := []
     let l := s.walkSet v.partition v.ranges (ats.filter fun t => v.asked.contains t.1)
     let v' : Invocation := { v with walking := false, hostPages := hostPagesOf l }
     let walked : State := { s.markLeaves (l.filterMap fun o => o) with invocations := tset id v' s.invocations }
     let z : State := { walked with extents := tset id xt walked.extents }
     let ws := z.workersOf id v'
     let slot := e.arg 24 1
     (s.commanded 0x01 q n e) ∧
     (s.slotRuns slot = true) ∧
     (s.failed = false) ∧
     (tfind id s.invocations = some v) ∧
     (v.walking = true) ∧
     (s.jobHeld v.stages = false) ∧
     ((v.pasid ∉ s.downPasids ∨ v.asked = [])) ∧
     (tableOf l = some xt) ∧
     (ws ≠ []) ∧
     ((ws.map fun w => (w.1, w.2.1)).Nodup) ∧
     ((∀ w ∈ ws, w.2.1 < 2)))
    ∧ (let s : State := sL
       let q : Nat := 0
       let n : Nat := 8
       let e : JournalEntry := el
       let tr : Translated := trS sL el
       (let slot := e.arg 24 1
         let version := e.arg 25 1
         let bytes := s.extended e
         let translated := s.translate bytes version (e.arg 32 8)
         let who := Writer.load q n
         (s.commanded 0x02 q n e) ∧
         (s.slotRuns slot = false) ∧
         (translated = .inr tr) ∧
         (s.standing who = .free) ∧
         (sizeOf' tr.sections 10 = 0) ∧
         (sizeOf' tr.sections 6 = 0)) ∧
       (let slot := e.arg 24 1
         let version := e.arg 25 1
         let bytes := s.extended e
         let taken := s.markDispatched q n
         let translated := s.translate bytes version (e.arg 32 8)
         let who := Writer.load q n
         (s.commanded 0x02 q n e) ∧
         (s.slotRuns slot = false) ∧
         (translated = .inr tr) ∧
         let place := taken.placeImage who (s.tableRoot version) tr
         (s.standing who = .free) ∧
         (match place with
          | .inl u => true
          | _ => false) = true))
    ∧ (let s : State := cwm
       let id : Nat := 6
       let v : Invocation := vr
       let ats : List (Nat × Nat × Bool) := []
       let l := s.walkSet v.partition v.ranges (ats.filter fun t => v.asked.contains t.1)
       (s.failed = false) ∧
       (tfind id s.invocations = some v) ∧
       (v.walking = true) ∧
       (s.jobHeld v.stages = false) ∧
       ((v.pasid ∉ s.downPasids ∨ v.asked = [])) ∧
       (tableOf l = none))
    ∧ (let s : State := sl f1 ix e2
       let q : Nat := 3
       let n : Nat := 8
       let e : JournalEntry := e2
       let slot := e.arg 24 1
       let version := e.arg 25 1
       let m := tget {} slot s.slots
       let resident : Prop := slot < 32 ∧ version < 4 ∧ m.loaded = true ∧ m.present.getLsbD version = true
       (s.commanded 0x01 q n e) ∧
       (s.slotRuns slot = false) ∧
       (¬ resident))
    ∧ (let s : State := sl f1 ix e3
       let q : Nat := 3
       let n : Nat := 8
       let e : JournalEntry := e3
       let slot := e.arg 24 1
       let version := e.arg 25 1
       let naddr := e.arg 26 1
       let m := tget {} slot s.slots
       let resident : Prop := slot < 32 ∧ version < 4 ∧ m.loaded = true ∧ m.present.getLsbD version = true
       (s.commanded 0x01 q n e) ∧
       (s.slotRuns slot = false) ∧
       (resident) ∧
       (naddr < m.relocs)) := by
  refine ⟨?_, ?_, ?_, ?_, ?_⟩ <;> decide +kernel
theorem witness_SlotCommands_2 :
    (let s : State := sl f1 [] eu
     let q : Nat := 0
     let n : Nat := 8
     let e : JournalEntry := eu
     let slot := e.arg 24 1
     (s.commanded 0x03 q n e) ∧
     (s.slotRuns slot = false))
    ∧ (let s : State := sl f1 ixb e1
       let q : Nat := 3
       let n : Nat := 8
       let e : JournalEntry := e1
       let slot := e.arg 24 1
       let version := e.arg 25 1
       let naddr := e.arg 26 1
       let m := tget {} slot s.slots
       let bytes := s.extended e
       let resident : Prop := slot < 32 ∧ version < 4 ∧ m.loaded = true ∧ m.present.getLsbD version = true
       (s.commanded 0x01 q n e) ∧
       (s.slotRuns slot = false) ∧
       (resident) ∧
       (m.relocs ≤ naddr) ∧
       (rangesOf naddr (e.arg 27 1) (bytesNat bytes) = none))
    ∧ (let s : State := run sL
       let q : Nat := 0
       let n : Nat := 8
       let e : JournalEntry := el
       let slot := e.arg 24 1
       (s.commanded 0x02 q n e) ∧
       (s.slotRuns slot = true))
    ∧ (let s : State := sLb
       let q : Nat := 0
       let n : Nat := 8
       let reason : Nat := trR sLb elb
       let e : JournalEntry := elb
       let slot := e.arg 24 1
       let version := e.arg 25 1
       let bytes := s.extended e
       let translated := s.translate bytes version (e.arg 32 8)
       (s.commanded 0x02 q n e) ∧
       (s.slotRuns slot = false) ∧
       (translated = .inl reason))
    ∧ (let s : State := swait none
       let q : Nat := 0
       let n : Nat := 8
       let e : JournalEntry := el
       let tr : Translated := trS sL el
       let slot := e.arg 24 1
       let version := e.arg 25 1
       let bytes := s.extended e
       let translated := s.translate bytes version (e.arg 32 8)
       let who := Writer.load q n
       (s.commanded 0x02 q n e) ∧
       (s.slotRuns slot = false) ∧
       (translated = .inr tr) ∧
       (s.standing who = .waiting)) := by
  refine ⟨?_, ?_, ?_, ?_, ?_⟩ <;> decide +kernel
theorem witness_SlotCommands_3 :
    (let s : State := run (sl f1 [] eu)
     let q : Nat := 0
     let n : Nat := 8
     let e : JournalEntry := eu
     let slot := e.arg 24 1
     (s.commanded 0x03 q n e) ∧
     (s.slotRuns slot = true))
    ∧ (let s : State := swait (some 0x14)
       let q : Nat := 0
       let n : Nat := 8
       let e : JournalEntry := el
       let tr : Translated := trS sL el
       let slot := e.arg 24 1
       let version := e.arg 25 1
       let bytes := s.extended e
       let translated := s.translate bytes version (e.arg 32 8)
       let who := Writer.load q n
       (s.commanded 0x02 q n e) ∧
       (s.slotRuns slot = false) ∧
       (translated = .inr tr) ∧
       (match s.standing who with
        | .failed cause => true
        | _ => false) = true)
    ∧ (let s : State := sLDn
       let q : Nat := 0
       let n : Nat := 8
       let e : JournalEntry := elD
       let tr : Translated := trS sLDn elD
       let slot := e.arg 24 1
       let version := e.arg 25 1
       let bytes := s.extended e
       let taken := s.markDispatched q n
       let translated := s.translate bytes version (e.arg 32 8)
       let who := Writer.load q n
       (s.commanded 0x02 q n e) ∧
       (s.slotRuns slot = false) ∧
       (translated = .inr tr) ∧
       let place := taken.placeImage who (s.tableRoot version) tr
       (s.standing who = .free) ∧
       (match place with
        | .inr (d, need) => true
        | _ => false) = true)
    ∧ (let s : State := sl f1 ix e1
       let q : Nat := 3
       let n : Nat := 8
       let e : JournalEntry := e1
       let declared : List (Nat × Nat × Bool) := rr (sl f1 ix e1) e1
       let slot := e.arg 24 1
       let version := e.arg 25 1
       let naddr := e.arg 26 1
       let m := tget {} slot s.slots
       let bytes := s.extended e
       let resident : Prop := slot < 32 ∧ version < 4 ∧ m.loaded = true ∧ m.present.getLsbD version = true
       (s.commanded 0x01 q n e) ∧
       (s.slotRuns slot = false) ∧
       (resident) ∧
       (m.relocs ≤ naddr) ∧
       (rangesOf naddr (e.arg 27 1) (bytesNat bytes) = some declared))
    ∧ (let s : State := run (sl f1 [1,2,3,4,5] (ev 1))
       let q : Nat := 3
       let n : Nat := 8
       let e : JournalEntry := ev 1
       let slot := e.arg 24 1
       let version := e.arg 25 1
       let m := tget {} slot s.slots
       (s.commanded 0x04 q n e) ∧
       (m.loaded = true) ∧
       (version < 4) ∧
       (s.versionHeld slot version = false)) := by
  refine ⟨?_, ?_, ?_, ?_, ?_⟩ <;> decide +kernel
theorem witness_SlotCommands_4 :
    (let s : State := run (sl f1 [1,2,3,4,5] (ev 0))
     let q : Nat := 3
     let n : Nat := 8
     let e : JournalEntry := ev 0
     let slot := e.arg 24 1
     let version := e.arg 25 1
     let m := tget {} slot s.slots
     (s.commanded 0x04 q n e) ∧
     (m.loaded = true) ∧
     (s.versionHeld slot version = true))
    ∧ (let s : State := noLS (sl f1 [1,2,3,4,5] (ev 1))
       let q : Nat := 3
       let n : Nat := 8
       let e : JournalEntry := ev 1
       let slot := e.arg 24 1
       let m := tget {} slot s.slots
       (s.commanded 0x04 q n e) ∧
       (m.loaded = false))
    ∧ (let s : State := { cwr with fill := some {} }
       let id : Nat := 6
       let v : Invocation := vr
       (s.failed = false) ∧
       (tfind id s.invocations = some v) ∧
       (s.jobHeld v.stages = true))
    ∧ (let s : State := { cwr with downPasids := [9], invocations := [(6, { vr with asked := [0x5000] })] }
       let id : Nat := 6
       let v : Invocation := { vr with asked := [0x5000] }
       (s.failed = false) ∧
       (tfind id s.invocations = some v) ∧
       (v.walking = true) ∧
       (s.jobHeld v.stages = false) ∧
       (v.pasid ∈ s.downPasids) ∧
       (v.asked ≠ [])) := by
  refine ⟨?_, ?_, ?_, ?_⟩ <;> decide +kernel
end WSlotCommands

namespace WDeviceCommands
def body (op len cid addr : Nat) (args : List (Nat × Nat)) : Nat := op + 256^4*len + 256^8*cid + 256^16*addr + (args.map fun (p, v) => 256^p * v).foldl (·+·) 0
def ent (q n op : Nat) (args : List (Nat × Nat)) (len : Nat := 0) : JournalEntry := { seq := n, queue := q, state := 1, ring := 0x100, body := body op len 0xC1D 0x50000 args }
def hq0 : HostQueue := { valid := true, mapped := true, cpl := 0x9000, clog := 6, part := 0 }
def sl (g : ModelSlot → ModelSlot) (ext : List (BitVec 8)) (e : JournalEntry) : State := let s := evOf vb; { s with withies := true, hostQueues := [(0, hq0), (3, { hq0 with cpl := 0xA000, cphase := true })], journal := [{ e with seq := 99, state := 3 }, e], hostMem := lay [] 0x50000 ext, slots := [(2, g (tget {} 2 s.slots))] }
def jb : Job := { holders := [4, 5], stages := [5], extents := [(0x400000, 64)] }
def f1 : ModelSlot → ModelSlot := fun m => { m with present := 0b0011, relocs := 2 }
def st0 (op : Nat) (args : List (Nat × Nat)) (ext : List (BitVec 8)) (len : Nat) : State × JournalEntry := let e := ent 0 8 op args len; (sl f1 ext e, e)
def ca (f : State → State) (op : Nat) (args : List (Nat × Nat) := []) (ext : List (BitVec 8) := []) (len : Nat := 0) : State × JournalEntry := let p := st0 op args ext len; (f p.1, p.2)
def c5 := ca id 5
def c6 := ca id 6 [] [] 24
def c6b := ca id 6 [] (natBytes 8 0 ++ natBytes 8 77) 16
def c7 := ca id 7
def c8 := ca id 8 [(24, 321)]
def c9 := ca (fun s => { s with faults := [{ invocation := 0, pasid := 0, page := 0, write := true, host := false }, { invocation := 3, pasid := 0, page := 0, write := true, host := false }] }) 9
def ca_ := ca (fun s => { s with hostQueues := tset 7 { hq0 with pasid := 33 } s.hostQueues, sent := [.ready] }) 10 [(24, 33)]
def cb := ca (fun s => s) 11
def cc := ca (fun s => s) 12
def dsc : Nat := 0x1000 + 2^64 * 0x2000 + 256^16 * 6 + 256^17*7 + 256^18 * 3 + 256^20 * 5 + 256^37*3
def xq := (HostQueue.ofNat dsc).getD {}
def cde := ca (fun s => s) 13 [] (natBytes 64 (dsc + 256^50)) 64
def cdf := ca (fun s => { s with hostSlots := [(0,0),(1,3)] }) 14
def e3 : JournalEntry := ent 3 8 13 [] 64
def sq3 : State := sl f1 (natBytes 64 dsc) e3
theorem witness_DeviceCommands_1 :
    (let s : State := c6.1
     let q : Nat := 0
     let n : Nat := 8
     let r : Nat := 0
     let v : Nat := 0
     let op : Nat := 6
     let e : JournalEntry := c6.2
     (s.commanded op q n e) ∧
     (s.commanded 0x06 q n e) ∧
     let pairs := pairsOf (unpack 64 (e.arg 4 4 / 8) (bytesNat (s.extended e)))
     (e.arg 4 4 % 16 ≠ 0) ∧
     (pairs = [(r, v)]))
    ∧ (let s : State := sq3
       let q : Nat := 3
       let n : Nat := 8
       let e : JournalEntry := e3
       let x : HostQueue := xq
       (s.commanded 0x0D q n e) ∧
       (HostQueue.ofNat (bytesNat (s.extended e) % 2 ^ 512) = some x))
    ∧ (let s : State := c8.1
       let q : Nat := 0
       let n : Nat := 8
       let e : JournalEntry := c8.2
       let f := s.field e
       (s.commanded 0x08 q n e) ∧
       (tfind (f 0) s.jobs = none))
    ∧ (let s : State := c9.1
       let q : Nat := 0
       let n : Nat := 8
       let e : JournalEntry := c9.2
       (s.commanded 0x09 q n e)) := by
  refine ⟨?_, ?_, ?_, ?_⟩ <;> decide +kernel
theorem witness_DeviceCommands_2 :
    (let s : State := c6b.1
     let q : Nat := 0
     let n : Nat := 8
     let e : JournalEntry := c6b.2
     (s.commanded 0x06 q n e) ∧
     (e.arg 4 4 % 16 = 0))
    ∧ (let s : State := ca_.1
       let q : Nat := 0
       let n : Nat := 8
       let e : JournalEntry := ca_.2
       (s.commanded 0x0A q n e))
    ∧ (let s : State := cde.1
       let q : Nat := 0
       let n : Nat := 8
       let e : JournalEntry := cde.2
       (s.commanded 0x0D q n e) ∧
       (HostQueue.ofNat (bytesNat (s.extended e) % 2 ^ 512) = none)) := by
  refine ⟨?_, ?_, ?_⟩ <;> decide +kernel
def fieldOf (p : State × JournalEntry) (n : Nat) : Nat := p.1.field p.2 n
/-- A snapshot of a job whose name is the value that the command's field holds, whatever that is. -/
def c8b : State × JournalEntry := let p := ca id 8 [(24, 321)]; ({ p.1 with jobs := [(fieldOf p 0, jb)] }, p.2)
/-- Every partition and bank is swapping out. -/
def cb3 : State × JournalEntry := ca (fun s => { s with swaps := (List.range 32).map fun n => { partition := n % 16, bank := n / 16, inward := false, save := 0 } }) 11
/-- Every partition has a core whose cluster shadows both banks. -/
def cc2 : State × JournalEntry := ca (fun s => { s.setCluster 0 { s.cluster 0 with shadow := [(3, 0, bb), (3, 1, bb)] } with
  stages := (List.range 16).map fun n => (n, { configured := true, partition := n, slot := 2, nq := 2, cores := [3], bank := 1 }) }) 12
/-- The queue that the command's field names has a command that is not COMPLETED. -/
def cdb : State × JournalEntry := let p := ca id 14
  ({ p.1 with journal := p.1.journal ++ [{ p.2 with seq := 77, queue := fieldOf p 0 % 1024, state := 2 }] }, p.2)

/-- What a `STAGECFG`, a `TAGSET` and a `QDELETE` do next goes by a field whose place the spec leaves open (log 22): one of their two cases
holds, and the spec does not say which. -/
theorem witness_DeviceCommands_fields :
    c7.1.commanded 0x07 0 8 c7.2 ∧ c5.1.commanded 0x05 0 8 c5.2 ∧ cdf.1.commanded 0x0E 0 8 cdf.2 := by
  decide +kernel
theorem witness_DeviceCommands_job :
    c8b.1.commanded 0x08 0 8 c8b.2 ∧ tfind (c8b.1.field c8b.2 0) c8b.1.jobs = some jb :=
  ⟨by decide +kernel, if_pos rfl⟩
theorem witness_DeviceCommands_preempt :
    (cb.1.commanded 0x0B 0 8 cb.2 ∧ (cb.1.markDispatched 0 8).swapAllowed (cb.1.field cb.2 0 % 16) (cb.1.field cb.2 1 % 2) = true)
      ∧ cb3.1.commanded 0x0B 0 8 cb3.2 ∧ (cb3.1.markDispatched 0 8).swapAllowed (cb3.1.field cb3.2 0 % 16) (cb3.1.field cb3.2 1 % 2) = false := by
  have h1 : ∀ p < 16, ∀ b < 2, (cb.1.markDispatched 0 8).swapAllowed p b = true := by decide +kernel
  have h2 : ∀ p < 16, ∀ b < 2, (cb3.1.markDispatched 0 8).swapAllowed p b = false := by decide +kernel
  exact ⟨⟨by decide +kernel, h1 _ (Nat.mod_lt _ (by decide)) _ (Nat.mod_lt _ (by decide))⟩,
    by decide +kernel, h2 _ (Nat.mod_lt _ (by decide)) _ (Nat.mod_lt _ (by decide))⟩
theorem witness_DeviceCommands_restore :
    (cc.1.commanded 0x0C 0 8 cc.2 ∧ (cc.1.markDispatched 0 8).swapStatus (cc.1.field cc.2 0 % 16) (cc.1.field cc.2 1 % 2) ≠ 2)
      ∧ cc2.1.commanded 0x0C 0 8 cc2.2 ∧ (cc2.1.markDispatched 0 8).swapStatus (cc2.1.field cc2.2 0 % 16) (cc2.1.field cc2.2 1 % 2) = 2 := by
  have h1 : ∀ p < 16, ∀ b < 2, (cc.1.markDispatched 0 8).swapStatus p b ≠ 2 := by decide +kernel
  have h2 : ∀ p < 16, ∀ b < 2, (cc2.1.markDispatched 0 8).swapStatus p b = 2 := by decide +kernel
  exact ⟨⟨by decide +kernel, h1 _ (Nat.mod_lt _ (by decide)) _ (Nat.mod_lt _ (by decide))⟩,
    by decide +kernel, h2 _ (Nat.mod_lt _ (by decide)) _ (Nat.mod_lt _ (by decide))⟩
theorem witness_DeviceCommands_delete :
    cdb.1.commanded 0x0E 0 8 cdb.2 ∧ ∃ y ∈ cdb.1.journal, y.queue = cdb.1.field cdb.2 0 % 1024 ∧ y.state ≠ 3 :=
  ⟨by decide +kernel, _, List.mem_append_right _ (List.mem_singleton.2 rfl), rfl, by decide⟩
end WDeviceCommands

namespace WSnapshotsResetAndFailure
def body (op len cid addr : Nat) (args : List (Nat × Nat)) : Nat := op + 256^4*len + 256^8*cid + 256^16*addr + (args.map fun (p, v) => 256^p * v).foldl (·+·) 0
def ent (q n op : Nat) (args : List (Nat × Nat)) (len : Nat := 0) : JournalEntry := { seq := n, queue := q, state := 1, ring := 0x100, body := body op len 0xC1D 0x50000 args }
def hq0 : HostQueue := { valid := true, mapped := true, cpl := 0x9000, clog := 6, part := 0 }
def sl (g : ModelSlot → ModelSlot) (ext : List (BitVec 8)) (e : JournalEntry) : State := let s := evOf vb; { s with withies := true, hostQueues := [(0, hq0), (3, { hq0 with cpl := 0xA000, cphase := true })], journal := [{ e with seq := 99, state := 3 }, e], hostMem := lay [] 0x50000 ext, slots := [(2, g (tget {} 2 s.slots))] }
def jb : Job := { holders := [4, 5, 6], stages := [5], extents := [(0x400000, 64)] }
def z0 : SnapshotSet := { step := 9, queue := 3, mark := 8, digest := 12345, memory := [(.home 0 0x400100, 3, 0x030201)], slots := [], tensors := [], phase := 7 }
def sj (j : Job) : State := { sl (fun m => m) [] (ent 3 8 8 []) with jobs := [(2, j)], regs.phase := 19 }
def jw : Job := {jb with wanted := [(3, 8, 9), (1, 2, 3)]}
def j1 : Job := {jw with sent := some z0}
def zz : SnapshotSet := { z0 with mark := 4, step := 2, slots := [(2, { loaded := true, measure := 5 }), (7, {})], tensors := [(1, { bound := true, w := 6, replay := [] })] }
def inv1 : Invocation := { slot := 2, version := 0, queue := 3, seq := 8, cid := 0, stages := [5], recAddr := 0, addrs := [], ranges := [], pasid := 9, partition := 0, running := true }
def sx (j : Job) : State := { sj j with invocations := [(4, inv1), (6, { inv1 with stages := [3] })], remembered := [(1,2), (5,3)], earlyFailures := [(1,2,3),(4,4,4)], clusters := [(0, { shadow := [(0, 0, vb)] })], tensors := [(1, { bound := true, stage := 5, w := 9 }), (2, { bound := true, stage := 3, deposited := 4 })] }
def sm (s : State) : State := { s with mirror := s.journal }
def j1a : Job := {j1 with answered := [5]}
def jk : Job := {jb with kept := [z0]}
def jkz : Job := {jb with kept := [{z0 with step := 7}, zz]}
def je : Job := {jkz with elastic := true}
def jr : Job := {jb with rolling := true}
def img : List (BitVec 8) := let sec := natBytes 8 0x1234567888000000 ++ natBytes 8 1; let dir := natBytes 16 (1 + 256^4 * 96 + 256^8 * 8) ++ natBytes 16 (3 + 256^4*104 + 256^8 * 4); let r := dir ++ sec; let d := sha256 r; natBytes 8 (0x4B57484C + 256^4) ++ natBytes 4 (64 + r.length) ++ natBytes 4 2 ++ d ++ natBytes 16 0 ++ r
def fp1 : FillPart := { source := 3, bytes := [(0x400100, [1,2,3])] }
def fp2 : FillPart := { source := 3, elastic := true, phase := 5, bytes := [(0x400100, [1,2,3])], slots := [(2, 1, 0x10000, img)], weights := [(2, 1, [7,7])], channels := [⟨1, 3, 0, 4, 4, 9, 0x1000⟩] }
def sf (f : Fill) : State := { (sx jb) with fill := some f }
def f2 : Fill := { next := 2, parts := [fp1], source := 3 }
def e8 : JournalEntry := ent 3 8 8 []
theorem witness_SnapshotsResetAndFailure_1 :
    (let s : State := sx jr
     let job : Nat := 2
     let step : Nat := 9
     let j : Job := jr
     (s.failed = false) ∧
     (tfind job s.jobs = some j) ∧
     let quiet : Prop := (∀ v ∈ s.invocations, v.2.walking = true ∨ v.2.running = true → ∀ i ∈ v.2.stages, i ∉ j.stages)
              ∧ (∀ o ∈ s.tensors, o.2.bound = true → o.2.stage ∈ j.stages → o.2.sq = [] ∧ (o.2.sender = true ∨ o.2.deposited = o.2.consumed))
              ∧ ∀ k ∈ s.jobClusters j, ∀ o ∈ (s.cluster k).barriers, o.2.pending = 0
     (¬ quiet) ∧
     ((∀ o ∈ j.kept, o.step ≠ step)) ∧
     (s.fill = none) ∧
     (j.elastic = false) ∧
     (j.rolling = true))
    ∧ (let s : State := { sj jb with devStatus := 1 }
       (s.failed = false) ∧
       (s.withies = true))
    ∧ (let s : State := sf f2
       let chunk : Nat := 2
       let part : FillPart := fp2
       let lost : Bool := false
       ((s.failed = false)) ∧
       ((s.failed = false) ∧
         let f := s.fill.getD {}
         let open' : Prop := chunk = f.next ∧ f.stage = 0 ∧ lost = false ∧ fillSize part ≤ 2 ^ 26
         let first := (if chunk = 0 ∧ part.elastic = true then s.emptied else s).forgetWriter .fill
         (open') ∧
         (s.standing .fill ≠ .waiting) ∧
         (match first.fillWith part with
          | .inl t => true
          | _ => false) = true))
    ∧ (let s : State := sm (sj jb)
       let part : Nat := 0
       let lostA : List (Nat × Nat) := []
       let lostB : List (Nat × Nat) := []
       (s.failed = false) ∧
       (s.mirror = s.journal) ∧
       ((∀ x ∈ s.journal, x.intact = true)) ∧
       let gone (x : JournalEntry) : Prop := x.state ≠ 3 ∧ (part = 2 + 2 * x.die ∨ (x.queue, x.seq) ∈ lostA)
                ∧ (part = 3 + 2 * x.die ∨ (x.queue, x.seq) ∈ lostB)
       ((∀ x ∈ s.journal, ¬ gone x)))
    ∧ (let s : State := sm (sj jb)
       let part : Nat := 2
       let lostA : List (Nat × Nat) := []
       let lostB : List (Nat × Nat) := [(3,8)]
       let e : JournalEntry := e8
       (s.failed = false) ∧
       (s.mirror = s.journal) ∧
       ((∀ x ∈ s.journal, x.intact = true)) ∧
       let gone (x : JournalEntry) : Prop := x.state ≠ 3 ∧ (part = 2 + 2 * x.die ∨ (x.queue, x.seq) ∈ lostA)
                ∧ (part = 3 + 2 * x.die ∨ (x.queue, x.seq) ∈ lostB)
       (s.journal.filter (fun x => gone x) = [e]) ∧
       (s.openEntry e.queue e.seq = some e) ∧
       (s.answered e.queue e.seq = false) ∧
       ((s.hostQueue e.queue).cplFull = false) ∧
       ((s.hostQueue e.queue).heldCpl = []))
    ∧ (let s : State := { sx jk with journal := [] }
       let job : Nat := 2
       let step : Nat := 9
       let j : Job := jk
       let z : SnapshotSet := z0
       (s.failed = false) ∧
       (tfind job s.jobs = some j) ∧
       ((j.kept.find? fun o => o.step = step) = some z) ∧
       (s.standing .fill ≠ .waiting) ∧
       let ended := (s.journal.filter (s.rolledBack job j z)).foldl (fun (u : State) y => u.cancelEntry y y.queue 5) (s.stopJob j)
       let written := (ended.forgetWriter .fill).writeAll z.memory
       (match written with
        | .inl u => true
        | _ => false) = true) := by
  refine ⟨?_, ?_, ?_, ?_, ?_, ?_⟩ <;> decide +kernel
theorem witness_SnapshotsResetAndFailure_2 :
    (let s : State := sj jw
     let job : Nat := 2
     let q : Nat := 3
     let n : Nat := 8
     let step : Nat := 9
     let j : Job := jw
     let later : List (Nat × Nat × Nat) := [(1,2,3)]
     (s.failed = false) ∧
     (tfind job s.jobs = some j) ∧
     let quiet : Prop := (∀ v ∈ s.invocations, v.2.walking = true ∨ v.2.running = true → ∀ i ∈ v.2.stages, i ∉ j.stages)
              ∧ (∀ o ∈ s.tensors, o.2.bound = true → o.2.stage ∈ j.stages → o.2.sq = [] ∧ (o.2.sender = true ∨ o.2.deposited = o.2.consumed))
              ∧ ∀ k ∈ s.jobClusters j, ∀ o ∈ (s.cluster k).barriers, o.2.pending = 0
     (j.wanted = (q, n, step) :: later) ∧
     (j.sent = none) ∧
     (quiet))
    ∧ (let s : State := sj j1
       let job : Nat := 2
       let holder : Nat := 4
       let q : Nat := 3
       let n : Nat := 8
       let step : Nat := 9
       let digest : BitVec 256 := 12345
       let j : Job := j1
       let z : SnapshotSet := z0
       let later : List (Nat × Nat × Nat) := [(1,2,3)]
       (s.failed = false) ∧
       (tfind job s.jobs = some j) ∧
       (j.wanted = (q, n, step) :: later) ∧
       (j.sent = some z) ∧
       (digest.toNat = z.digest) ∧
       (holder ∈ j.holders.take 2) ∧
       ((∃ o ∈ j.holders.take 2, o ≠ holder ∧ o ∉ j.answered)))
    ∧ (let s : State := sj j1
       let job : Nat := 2
       let holder : Nat := 4
       let q : Nat := 3
       let n : Nat := 8
       let step : Nat := 9
       let digest : BitVec 256 := 12346
       let j : Job := j1
       let z : SnapshotSet := z0
       let later : List (Nat × Nat × Nat) := [(1,2,3)]
       (s.failed = false) ∧
       (tfind job s.jobs = some j) ∧
       (j.wanted = (q, n, step) :: later) ∧
       (j.sent = some z) ∧
       (digest.toNat ≠ z.digest ∨ holder ∉ j.holders.take 2))
    ∧ (let s : State := sj j1a
       let job : Nat := 2
       let holder : Nat := 4
       let q : Nat := 3
       let n : Nat := 8
       let step : Nat := 9
       let digest : BitVec 256 := 12345
       let j : Job := j1a
       let z : SnapshotSet := z0
       let later : List (Nat × Nat × Nat) := [(1,2,3)]
       (s.failed = false) ∧
       (tfind job s.jobs = some j) ∧
       (j.wanted = (q, n, step) :: later) ∧
       (j.sent = some z) ∧
       (digest.toNat = z.digest) ∧
       (holder ∈ j.holders.take 2) ∧
       ((∀ o ∈ j.holders.take 2, o = holder ∨ o ∈ j.answered)))
    ∧ (let s : State := { sj jb with devStatus := 1, withies := false }
       (s.failed = false) ∧
       (s.withies = false) ∧
       (s.devStatus.getLsbD 0 = true))
    ∧ (let s : State := { sj jb with devStatus := 0, withies := false }
       (s.failed = false) ∧
       (s.withies = false) ∧
       (s.devStatus.getLsbD 0 = false)) := by
  refine ⟨?_, ?_, ?_, ?_, ?_, ?_⟩ <;> decide +kernel
theorem witness_SnapshotsResetAndFailure_3 :
    (let s : State := { (sx jkz) with fill := some {} }
     let job : Nat := 2
     let step : Nat := 1
     let j : Job := jkz
     (s.failed = false) ∧
     (tfind job s.jobs = some j) ∧
     ((∀ o ∈ j.kept, o.step ≠ step)) ∧
     (s.fill.isSome = true))
    ∧ (let s : State := sf f2
       let chunk : Nat := 2
       let lost : Bool := true
       (s.failed = false) ∧
       let f := s.fill.getD {}
       (chunk = f.next) ∧
       (f.stage = 0) ∧
       (lost = true))
    ∧ (let s : State := sf f2
       let chunk : Nat := 1
       (s.failed = false) ∧
       let f := s.fill.getD {}
       ((chunk ≠ f.next ∨ f.stage = 1 ∨ 2 < f.stage)))
    ∧ (let s : State := sf { f2 with stage := 2 }
       let chunk : Nat := 2
       (s.failed = false) ∧
       let f := s.fill.getD {}
       (chunk = f.next) ∧
       (f.stage = 2))
    ∧ (let s : State := { sj jb with devStatus := 1, withies := false, failed := true }
       (s.failed = true))
    ∧ (let s : State := (sx jkz).setDie 0 { (sx jkz).die 0 with cmpctl := 0x21, free := [] }
       let job : Nat := 2
       let step : Nat := 2
       let j : Job := jkz
       let z : SnapshotSet := zz
       (s.failed = false) ∧
       (tfind job s.jobs = some j) ∧
       ((j.kept.find? fun o => o.step = step) = some z) ∧
       (s.standing .fill ≠ .waiting) ∧
       let ended := (s.journal.filter (s.rolledBack job j z)).foldl (fun (u : State) y => u.cancelEntry y y.queue 5) (s.stopJob j)
       let written := (ended.forgetWriter .fill).writeAll z.memory
       (match written with
        | .inr (die, need) => true
        | _ => false) = true) := by
  refine ⟨?_, ?_, ?_, ?_, ?_, ?_⟩ <;> decide +kernel
theorem witness_SnapshotsResetAndFailure_4 :
    (let s : State := (sf f2).setDie 0 { (sf f2).die 0 with cmpctl := 0x21, free := [] }
     let chunk : Nat := 2
     let part : FillPart := fp2
     let lost : Bool := false
     (s.failed = false) ∧
     let f := s.fill.getD {}
     let open' : Prop := chunk = f.next ∧ f.stage = 0 ∧ lost = false ∧ fillSize part ≤ 2 ^ 26
     let first := (if chunk = 0 ∧ part.elastic = true then s.emptied else s).forgetWriter .fill
     (open') ∧
     (s.standing .fill ≠ .waiting) ∧
     (match first.fillWith part with
      | .inr (die, need) => true
      | _ => false) = true)
    ∧ (let s : State := { (sx jkz) with engineWaits := [{ who := .fill, invocation := 4, page := 0, cause := 0x14, write := true, verdict := none }] }
       let job : Nat := 2
       let step : Nat := 2
       let j : Job := jkz
       let z : SnapshotSet := zz
       (s.failed = false) ∧
       (tfind job s.jobs = some j) ∧
       ((j.kept.find? fun o => o.step = step) = some z) ∧
       (s.standing .fill = .waiting))
    ∧ (let s : State := { (sf f2) with engineWaits := [{ who := .fill, invocation := 4, page := 0, cause := 0x14, write := true, verdict := none }] }
       let chunk : Nat := 2
       let part : FillPart := fp2
       let lost : Bool := false
       (s.failed = false) ∧
       let f := s.fill.getD {}
       let open' : Prop := chunk = f.next ∧ f.stage = 0 ∧ lost = false ∧ fillSize part ≤ 2 ^ 26
       (open') ∧
       (s.standing .fill = .waiting))
    ∧ (let s : State := { (sx je) with stages := [(5, { configured := true, fArr := [{ tag := 3, step := 1, addr := 0, producer := none, entered := 4 }, { tag := 4, step := 2, addr := 0, producer := none, entered := 4 }] })] }
       let job : Nat := 2
       let step : Nat := 1
       let j : Job := je
       (s.failed = false) ∧
       (tfind job s.jobs = some j) ∧
       ((∀ o ∈ j.kept, o.step ≠ step)) ∧
       (s.fill = none) ∧
       (j.elastic = true)) := by
  refine ⟨?_, ?_, ?_, ?_⟩ <;> decide +kernel
theorem fillSize_replicate (n a : Nat) (h : 2 ^ 26 < n) :
    2 ^ 26 < fillSize ({ source := 3, bytes := [(a, List.replicate n 1)] } : FillPart) := by
  simpa [fillSize] using h
/-- A chunk of more than 64 MiB. -/
theorem witness_SnapshotsResetAndFailure_chunk :
    ((sf f2).failed = false ∧ 2 = ((sf f2).fill.getD {}).next ∧ ((sf f2).fill.getD {}).stage = 0)
      ∧ ∃ part : FillPart, 2 ^ 26 < fillSize part :=
  ⟨by decide +kernel, _, fillSize_replicate (2 ^ 26 + 1) 0x400100 (by decide)⟩
end WSnapshotsResetAndFailure

namespace WPortsPowerAndAttestation
def wh : Captured := { (evOf vb).capture with issued := 60 }
def xt2 : List Extent := xt1 ++ [{ vbase := 0x800000, units := 16, w := true, u := true, pbase := 2^46 + 0x400000 }]
def eg : QEntry := qe (.ldg 6 8 1 3) 0x800000
def b0 : CopyBlock := CopyBlock.ofNat (blkN 0 0 2 1 3 0x2000 0x800000 96 1)
def cc0 : CopyCmd := { who := wh, blocks := [b0], onEngine := false, fixed := true, counted := [96], started := true, progress := 1, left := 64, heads := [0,0] }
def s0 : State := let s := memd (evOf { vb with queue := [qe (.barr 3), eg], sEmpty := 0x300 }); let s := { s with extents := [(4, xt2)], clk := 200000, ports := [(1,(1,100000)), (2,(2,1000)), (3,(1,199000)), (4, (1, 75000))], regs := { s.regs with nbr := [(0, 2^32 + 2^36 + 5), (3, 2^32 + 2^39 + 2^36), (5, 2^36), (6, 2^32 + 3 * 2^36)], phase := 77, pwrctl := 1000 + 0x1000 } }; s.setCore 3 { s.core 3 with pad := padM, channels := [(1, { queue := [cc0] })] }
def pk0 : Packet := { seq := 5, descriptor := 0, who := wh, headerAddr := 0 }
def ep (s : State) : List Nat × Captured := (s.enginePorts (.copy 3 1)).getD ([], wh)
def s0r : State := { s0 with retries := [(0, 15), (2, 3), (6, 1)], tensors := [(3, { bound := true, sender := true, peerPos := 1, replay := [pk0] })], regs := { s0.regs with tcoord := 3 * 2^24 }, held := [(1, .phase 1 9), (3, .ack 3 4), (3, .phase 3 2)] }
theorem witness_PortsPowerAndAttestation :
    (let s : State := s0
     let p : Nat := 0
     let c : Nat := 3
     let k : Nat := 1
     let i : Nat := 1
     let pattern : Bool := true
     let fatal : Bool := true
     let e : QEntry := eg
     (s.failed = false) ∧
     let late : Prop := e.clk + s.regs.tlink ≤ s.clk ∧ ∃ x ∈ s.partsOf (s.bank c k) e, (s.accessPort x.loc).isSome = true
     let dead : Prop := fatal = true ∨ ∀ r ∈ s.regs.portsTo p, (s.port r).1 = 2 ∧ (s.port r).2 + s.regs.tfail ≤ s.clk
     let state := (s.port p).1
     let since := (s.port p).2
     (state = 0) ∧
     (p < 8) ∧
     (tget 0 p s.retries ≠ 15) ∧
     (state = 0 ∨ (state = 1 ∧ since + 125000 < s.clk)) ∧
     (state ≠ 1 ∨ (s.clk < since + 125000 ∧ (pattern = true ∨ s.clk < since + 1250))) ∧
     (dead) ∧
     (k < 2) ∧
     (s.ripe c k i = some e) ∧
     (¬ late))
    ∧ (let s : State := s0r
       let p : Nat := 4
       let c : Nat := 3
       let k : Nat := 1
       let i : Nat := 1
       let pattern : Bool := true
       let fatal : Bool := false
       let e : QEntry := eg
       (s.failed = false) ∧
       let late : Prop := e.clk + s.regs.tlink ≤ s.clk ∧ ∃ x ∈ s.partsOf (s.bank c k) e, (s.accessPort x.loc).isSome = true
       let dead : Prop := fatal = true ∨ ∀ r ∈ s.regs.portsTo p, (s.port r).1 = 2 ∧ (s.port r).2 + s.regs.tfail ≤ s.clk
       let state := (s.port p).1
       let since := (s.port p).2
       (state ≠ 0 ∨ 8 ≤ p) ∧
       ((state = 1 ∧ s.clk ≤ since + 125000) ∨ 2 ≤ state) ∧
       (state = 1) ∧
       (since + 125000 ≤ s.clk ∨ (pattern = false ∧ since + 1250 ≤ s.clk)) ∧
       (8 ≤ p ∨ ¬ dead) ∧
       (k < 2) ∧
       (s.ripe c k i = some e) ∧
       (late))
    ∧ (let s : State := s0r
       let p : Nat := 0
       let c : Nat := 3
       let k : Nat := 3
       let i : Nat := 0
       let who : Writer := .copy 3 1
       let ports : List Nat := (ep (s0r)).1
       let w : Captured := (ep (s0r)).2
       (s.failed = false) ∧
       let late : Prop := ports ≠ [] ∧ w.issued + s.regs.tlink ≤ s.clk ∧ ∀ x ∈ s.engineWaits, x.who ≠ who
       let state := (s.port p).1
       (state = 0) ∧
       (p < 8) ∧
       (tget 0 p s.retries = 15) ∧
       (2 ≤ k) ∧
       (s.timedEngine c k i = some who) ∧
       (s.enginePorts who = some (ports, w)) ∧
       (late))
    ∧ (let s : State := s0
       (s.failed = false) ∧
       (s.lastArbitration + 12500 ≤ s.clk))
    ∧ (let s : State := s0
       let c : Nat := 3
       let k : Nat := 3
       let i : Nat := 0
       let who : Writer := .copy 3 1
       let ports : List Nat := (ep (s0)).1
       let w : Captured := (ep (s0)).2
       (s.failed = false) ∧
       (2 ≤ k) ∧
       (s.timedEngine c k i = some who) ∧
       (s.enginePorts who = some (ports, w)) ∧
       let late : Prop := ports ≠ [] ∧ w.issued + s.regs.tlink ≤ s.clk ∧ ∀ x ∈ s.engineWaits, x.who ≠ who
       (¬ late))
    ∧ (let s : State := { s0 with clk := 500 }
       (s.failed = false) ∧
       (s.clk < s.lastArbitration + 12500)) := by
  refine ⟨?_, ?_, ?_, ?_, ?_, ?_⟩ <;> decide +kernel
end WPortsPowerAndAttestation

namespace WRegisterWrites
def rst (x : Die → Die) (c3 : Core → Core) (b0 : Barrier) : State := let s := memd (evOf vb); let s := (s.setDie 2 (x (s.die 2))).setCore 3 (c3 (s.core 3)); s.setBarrier 1 5 b0
def dd (r : Nat) (en : Bool) : Die → Die := fun x => { x with cmpctl := BitVec.ofNat 64 (2 * r + en.toNat) }
def s1 : State := rst (dd 0 false) id { pending := 0, expect := 3 }
def s2 : State := rst (dd 8 true) (fun c => { c with bank0 := { c.bank0 with idle := true } }) { pending := 2, expect := 3 }
def b00 : Bucket := { who := (evOf vb).capture, bar := 3, descAddr := 0, fixed := true, step := 3, bucket := 2, count := 4, written := [(0,4)] }
def s4 : State := { (rst (fun x => { x with cmpctl := 17, pages := [(5, { batts := [3] })], regions := [(0, 0x0100002)], snaps := [] }) id { pending := 0 }) with ports := [(6, (2, 5)), (7, (2, 5))], buckets := [b00], regs := { s1.regs with nbr := [(0, 2^32 + 2^36 * 6 + 5), (3, 2^32 + 2^39 + 2^36*7)], rport := [(1, 2^32 + 77)], ringcfg := 0x404040404 } }
theorem witness_RegisterWrites :
    (let s : State := s1
     let d : Nat := 2
     let r : Nat := 0
     let v : BitVec 64 := 0
     ((s.failed = false) ∧
       let new := v &&& 0x1FFFFFFFF
       let x := s.die d
       let f (lo n : Nat) : Nat := v.toNat / 2 ^ lo % 2 ^ n
       let bad : Prop := v &&& ~~~0x3F7F ≠ 0 ∨ f 8 2 = 3 ∨ 16 < f 1 5 ∨ (f 1 5 ≠ 0 ∧ f 0 1 = 0)
               ∨ (v.getLsbD 0 ≠ x.en ∧ ((∃ o ∈ x.pages, o.2.batts ≠ [] ∨ o.2.state ≠ 0) ∨ ∃ o ∈ x.shadows, ∃ y ∈ o.2.pages, y.2.record.batts ≠ []))
               ∨ (f 1 5 < x.ratio ∧ ((∃ o ∈ x.pages, presentedAt (f 1 5) ≤ 4096 * o.1 ∧ (o.2.batts ≠ [] ∨ o.2.state ≠ 0))
                 ∨ (∃ o ∈ x.shadows, ∃ y ∈ o.2.pages, presentedAt (f 1 5) ≤ 4096 * y.1 ∧ y.2.record.batts ≠ []) ∨ s.mappedBeyond d (presentedAt (f 1 5)) = true))
               ∨ (x.ratio < f 1 5 ∧ ∃ y ∈ x.heldBatts, storeAt (f 1 5) ≤ y)
       (¬ bad) ∧
       (new.setWidth 32 = s.regs.ringcfg.setWidth 32) ∧
       (d < 4) ∧
       (r < 16) ∧
       (r < 25)) ∧
     ((s.failed = false) ∧
       let x := s.die d
       let f (lo n : Nat) : Nat := v.toNat / 2 ^ lo % 2 ^ n
       (r < 4) ∧
       let new : Nat × Nat := (f 20 36 * 2 ^ 20, f 0 20 * 2 ^ 20)
       let overlaps : Prop := ∃ o ∈ s.regionsBeside d r, new.2 ≠ 0 ∧ o.2 ≠ 0 ∧ new.1 < o.1 + o.2 ∧ o.1 < new.1 + new.2
       let bad : Prop := 2 ^ 56 ≤ v.toNat ∨ overlaps ∨ (v ≠ tget 0 r x.regions ∧ x.regionUsed r = true)
       (¬ bad)) ∧
     ((s.failed = false) ∧
       let f (lo n : Nat) : Nat := v.toNat / 2 ^ lo % 2 ^ n
       let bad : Prop := 2 ^ 13 ≤ v.toNat ∨ f 0 12 < 1000 ∨ 3400 < f 0 12 ∨ f 0 12 < s.regs.floors
       (bad)))
    ∧ (let s : State := s1
       let d : Nat := 2
       let c : Nat := 3
       let r : Nat := 0
       let v : BitVec 64 := 0
       (s.failed = false) ∧
       let x := s.die d
       let f (lo n : Nat) : Nat := v.toNat / 2 ^ lo % 2 ^ n
       let new : Regs := { s.regs with pisl := tset r v s.regs.pisl }
       let bad : Prop := 2 ^ 28 ≤ v.toNat ∨ f 12 12 < f 0 12 ∨ s.regs.pwrctl.toNat % 2 ^ 12 < new.floors
       (f 32 32 ≤ f 0 32 ∨ storeAt x.ratio < f 32 32) ∧
       ((s.core c).bank0.idle = false ∧ (s.core c).bank1.idle = false) ∧
       (r < 2) ∧
       (r < 24) ∧
       (¬ bad) ∧
       (d < 4) ∧
       (r < 64) ∧
       (r < 8))
    ∧ (let s : State := s1
       let d : Nat := 2
       let k : Nat := 1
       let r : Nat := 0
       let v : BitVec 64 := 0
       ((s.failed = false) ∧
         let f (lo n : Nat) : Nat := v.toNat / 2 ^ lo % 2 ^ n
         let bad : Prop := 2 ^ 35 ≤ v.toNat ∨ (v.getLsbD 32 = true ∧ f 0 32 = 0)
         (r < 64) ∧
         ((s.barrier k r).pending = 0) ∧
         (¬ bad) ∧
         (d < 4) ∧
         (r < 4) ∧
         (r < 2)) ∧
       ((s.failed = false) ∧
         let f (lo n : Nat) : Nat := v.toNat / 2 ^ lo % 2 ^ n
         let bad : Prop := v &&& ~~~0x1FFFFF1FFFFF ≠ 0 ∨ f 24 7 < f 0 7 ∨ f 31 7 < f 7 7 ∨ f 38 7 < f 14 7
         (¬ bad)))
    ∧ (let s : State := s2
       let d : Nat := 2
       let c : Nat := 3
       let k : Nat := 1
       let r : Nat := 5
       let v : BitVec 64 := 1152921504606846976
       ((s.failed = false) ∧
         let x := s.die d
         let f (lo n : Nat) : Nat := v.toNat / 2 ^ lo % 2 ^ n
         let bad : Prop := v &&& ~~~0x3F7F ≠ 0 ∨ f 8 2 = 3 ∨ 16 < f 1 5 ∨ (f 1 5 ≠ 0 ∧ f 0 1 = 0)
                 ∨ (v.getLsbD 0 ≠ x.en ∧ ((∃ o ∈ x.pages, o.2.batts ≠ [] ∨ o.2.state ≠ 0) ∨ ∃ o ∈ x.shadows, ∃ y ∈ o.2.pages, y.2.record.batts ≠ []))
                 ∨ (f 1 5 < x.ratio ∧ ((∃ o ∈ x.pages, presentedAt (f 1 5) ≤ 4096 * o.1 ∧ (o.2.batts ≠ [] ∨ o.2.state ≠ 0))
                   ∨ (∃ o ∈ x.shadows, ∃ y ∈ o.2.pages, presentedAt (f 1 5) ≤ 4096 * y.1 ∧ y.2.record.batts ≠ []) ∨ s.mappedBeyond d (presentedAt (f 1 5)) = true))
                 ∨ (x.ratio < f 1 5 ∧ ∃ y ∈ x.heldBatts, storeAt (f 1 5) ≤ y)
         (bad) ∧
         (f 0 32 < f 32 32 ∧ f 32 32 ≤ storeAt x.ratio) ∧
         ((s.core c).bank0.idle = true ∨ (s.core c).bank1.idle = true) ∧
         (r < 64) ∧
         ((s.barrier k r).pending ≠ 0)) ∧
       ((s.failed = false) ∧
         let f (lo n : Nat) : Nat := v.toNat / 2 ^ lo % 2 ^ n
         (4 ≤ r) ∧
         (r < 20) ∧
         let bad : Prop := v &&& ~~~0xFFF00F ≠ 0 ∨ 100 < f 16 8
         (bad)) ∧
       ((s.failed = false) ∧
         let f (lo n : Nat) : Nat := v.toNat / 2 ^ lo % 2 ^ n
         let bad : Prop := 2 ^ 35 ≤ v.toNat ∨ (v.getLsbD 32 = true ∧ f 0 32 = 0)
         (bad)) ∧
       ((s.failed = false) ∧
         let f (lo n : Nat) : Nat := v.toNat / 2 ^ lo % 2 ^ n
         (r < 24) ∧
         let new : Regs := { s.regs with pisl := tset r v s.regs.pisl }
         let bad : Prop := 2 ^ 28 ≤ v.toNat ∨ f 12 12 < f 0 12 ∨ s.regs.pwrctl.toNat % 2 ^ 12 < new.floors
         (bad)) ∧
       ((s.failed = false) ∧
         let f (lo n : Nat) : Nat := v.toNat / 2 ^ lo % 2 ^ n
         let bad : Prop := v &&& ~~~0x1FFFFF1FFFFF ≠ 0 ∨ f 24 7 < f 0 7 ∨ f 31 7 < f 7 7 ∨ f 38 7 < f 14 7
         (bad)))
    ∧ (let s : State := s4
       let d : Nat := 2
       let r : Nat := 3
       let v : BitVec 64 := 5096
       ((s.failed = false) ∧
         let x := s.die d
         let f (lo n : Nat) : Nat := v.toNat / 2 ^ lo % 2 ^ n
         (r < 4) ∧
         let new : Nat × Nat := (f 20 36 * 2 ^ 20, f 0 20 * 2 ^ 20)
         let overlaps : Prop := ∃ o ∈ s.regionsBeside d r, new.2 ≠ 0 ∧ o.2 ≠ 0 ∧ new.1 < o.1 + o.2 ∧ o.1 < new.1 + new.2
         let bad : Prop := 2 ^ 56 ≤ v.toNat ∨ overlaps ∨ (v ≠ tget 0 r x.regions ∧ x.regionUsed r = true)
         (bad)) ∧
       ((s.failed = false) ∧
         let f (lo n : Nat) : Nat := v.toNat / 2 ^ lo % 2 ^ n
         let bad : Prop := 2 ^ 13 ≤ v.toNat ∨ f 0 12 < 1000 ∨ 3400 < f 0 12 ∨ f 0 12 < s.regs.floors
         let new := v &&& 0x1FFFFFFFF
         (new.setWidth 32 ≠ s.regs.ringcfg.setWidth 32) ∧
         (¬ bad)))
    ∧ (let s : State := s1
       let r : Nat := 4
       let v : BitVec 64 := 0
       (s.failed = false) ∧
       let f (lo n : Nat) : Nat := v.toNat / 2 ^ lo % 2 ^ n
       (4 ≤ r) ∧
       (r < 20) ∧
       let bad : Prop := v &&& ~~~0xFFF00F ≠ 0 ∨ 100 < f 16 8
       (¬ bad)) := by
  refine ⟨?_, ?_, ?_, ?_, ?_, ?_⟩ <;> decide +kernel
end WRegisterWrites

/-! ## Witnesses written by hand -/

theorem witness_EncodingsAgree :
    (Instr.add 3 17 42 1).wf = true ∧ encode (.add 3 17 42 1) = some 0x0800D1AA ∧ readsAs (0x0800D1AA, .add 3 17 42 1) = true := by
  decide +kernel

/-- A state at 5 clk. -/
def atFive : State := { State.reset with clk := 5 }

theorem witness_ConfigurationLegal : atFive.regs.Legal ∧ (match step atFive with | .next _ => true | _ => false) = true := by
  unfold Regs.Legal
  decide +kernel

/-- The state with the word of `.add 3 17 42 1` placed. -/
def addPlaced : State := State.reset.withFetchWord 32 0x0800D1AA

theorem witness_StepRunsBundle :
    let s := addPlaced
    let w : Slot := 0x8800D1AA
    let b := s.begin 0
    let l := placeSlots 0 [] [w]
    let t := b.withBundle 1 l
    s.failed = false ∧ s.script = [] ∧ (takeDue s.clk s.calendar).isNone = true ∧ (firstProgress s s.ownSteps).isNone = true
      ∧ s.nextIssuer = some 0 ∧ s.segmentMissing 0 = none ∧ bundleAt (s.codeOf ((s.core 0).bank (s.core 0).active)) b.ctx.addr = some [w]
      ∧ readsAs (w, .add 3 17 42 1) = true ∧ composed [w] = true ∧ (bundleTrap t l).isNone = true ∧ fallsThrough t l = false
      ∧ (match exec (.add 3 17 42 1) t with
        | .next u => decide (u.ctx.status = .open ∧ u.ctx.core = 0 ∧ u.ctx.bank = t.ctx.bank)
        | _ => false) = true := by
  decide +kernel

end Sys2Proof.Tests
end

/-! # Decoding and encoding (R36 to R59)

A word is put together from the fields that the decoder reads from it. `IsField` says that a vector is a field of another; the fields of a
body side by side are the body, and a field whose bits are all reserved is zero. -/

namespace Sys2Proof.Laws

/-! ## Fields of a word -/

/-- `x` is the field of `b` whose lowest bit is `lo`. -/
def IsField {v n : Nat} (b : BitVec v) (lo : Nat) (x : BitVec n) : Prop := bits lo n b = x

@[simp] theorem isField_bits {v : Nat} (b : BitVec v) (lo n : Nat) : IsField b lo (bits lo n b) := rfl

/-- The field at bit 0 that is as wide as the word is the word. -/
theorem IsField.eq {v : Nat} {b x : BitVec v} (h : IsField b 0 x) : x = b := h.symm.trans (bits_all b)

/-- Two adjacent fields side by side are one field. -/
theorem IsField.append {v m n : Nat} {b : BitVec v} {lo : Nat} {x : BitVec m} {y : BitVec n} (hx : IsField b (lo + n) x)
    (hy : IsField b lo y) : IsField b lo (x ++ y) := by
  obtain rfl := hx
  obtain rfl := hy
  apply BitVec.eq_of_getLsbD_eq
  intro i hi
  rw [BitVec.getLsbD_append]
  by_cases hn : i < n
  · simp [bits, hi, hn]
  · have hm : i - n < m := by omega
    have he : lo + n + (i - n) = lo + i := by omega
    simp [bits, hi, hn, hm, he]

/-- A field whose bits are all reserved is zero. -/
theorem isField_reserved {v : Nat} {b m : BitVec v} (h : b &&& m = 0) (lo n : Nat) (hm : m.extractLsb' lo n = BitVec.allOnes n) :
    IsField b lo (0#n) := by
  have hb : b.extractLsb' lo n &&& BitVec.allOnes n = 0#n := by
    rw [← hm, ← BitVec.extractLsb'_and, h]
    exact BitVec.extractLsb'_zero
  rwa [BitVec.and_allOnes] at hb

/-- A field of the lower part of a word is a field of the word. -/
theorem bits_low {v k : Nat} (b : BitVec v) {lo n : Nat} (hk : lo + n ≤ k) : bits lo n (bits 0 k b) = bits lo n b := by
  apply BitVec.eq_of_getLsbD_eq
  intro i hi
  have hl : lo + i < k := by omega
  simp [bits, hi, hl]

theorem isField_low {v k lo n : Nat} (b : BitVec v) (hk : lo + n ≤ k) : IsField (bits 0 k b) lo (bits lo n b) := bits_low b hk

/-! ## The word of a decoded body -/

/-- A body that decodes has its reserved bits zero, and the instruction is well formed (R40). -/
theorem encode_of_fixed {v : Nat} {b m : BitVec v} {i j : Instr} {w : Slot} (h : fixed b m j = .ok i)
    (hj : b &&& m = 0 → encode j = some w) : encode i = some w ∧ i.wf = true := by
  unfold fixed at h
  split at h
  · next hb =>
    obtain ⟨hm, hwf⟩ := hb
    cases h
    exact ⟨hj hm, hwf⟩
  · cases h

theorem pack7_congr {c : BitVec 4} {op o : BitVec 7} {b x : BitVec 20} (ho : op.toNat = o.toNat) (hb : IsField b 0 x) :
    some (pack7 c o x) = some (pack7 c op b) := by
  rw [BitVec.eq_of_toNat_eq ho, hb.eq]

theorem pack6_congr {c : BitVec 4} {op o : BitVec 6} {b x : BitVec 21} (ho : op.toNat = o.toNat) (hb : IsField b 0 x) :
    some (pack6 c o x) = some (pack6 c op b) := by
  rw [BitVec.eq_of_toNat_eq ho, hb.eq]

theorem pack5_congr {c : BitVec 4} {op o : BitVec 5} {b x : BitVec 22} (ho : op.toNat = o.toNat) (hb : IsField b 0 x) :
    some (pack5 c o x) = some (pack5 c op b) := by
  rw [BitVec.eq_of_toNat_eq ho, hb.eq]

/-! The two classes without an operation, their fields read from the slot itself. -/

theorem encode_of_decodeP {w : Slot} {i : Instr}
    (h : fixed (bits 0 27 w) 0x7000000 (.pfx (bits 21 3 w) (bits 20 1 w) (bits 16 4 w) (bits 0 16 w)) = .ok i) :
    encode i = some (packBare 0 (bits 0 27 w)) ∧ i.wf = true := by
  refine encode_of_fixed h fun hm => congrArg (some <| packBare 0 ·) (IsField.eq ?_)
  refine .append (.append (.append (.append (isField_reserved hm 24 3 rfl) ?_) ?_) ?_) ?_
  all_goals exact isField_low w (by decide)

theorem encode_of_decodeE {w : Slot} {i : Instr} (h : fixed (bits 0 27 w) 0x6000000 (.ext (bits 0 25 w)) = .ok i) :
    encode i = some (packBare 11 (bits 0 27 w)) ∧ i.wf = true := by
  refine encode_of_fixed h fun hm => congrArg (some <| packBare 11 ·) (IsField.eq ?_)
  exact .append (isField_reserved hm 25 2 rfl) (isField_low w (by decide))

/-! One lemma for each class decoder, one case for each of its operations: the body is its fields side by side, each of them read where it
stands or reserved. The last case is the operation without an entry. -/

theorem encode_of_decodeS {op : BitVec 7} {n : Nat} {b : BitVec 20} {i : Instr} (ho : op.toNat = n)
    (h : decodeS n b = .ok i) : encode i = some (pack7 1 op b) ∧ i.wf = true := by
  unfold decodeS at h
  split at h
  case h_50 => cases h
  all_goals
    refine encode_of_fixed h fun hm => pack7_congr ho ?_
    repeat' apply IsField.append
    all_goals simp [isField_reserved hm]

theorem encode_of_decodeB {op : BitVec 5} {n : Nat} {b : BitVec 22} {i : Instr} (ho : op.toNat = n)
    (h : decodeB n b = .ok i) : encode i = some (pack5 2 op b) ∧ i.wf = true := by
  unfold decodeB at h
  split at h
  case h_17 => cases h
  all_goals
    refine encode_of_fixed h fun hm => pack5_congr ho ?_
    repeat' apply IsField.append
    all_goals simp [isField_reserved hm]

theorem encode_of_decodeV {op : BitVec 6} {n : Nat} {b : BitVec 21} {i : Instr} (ho : op.toNat = n)
    (h : decodeV n b = .ok i) : encode i = some (pack6 3 op b) ∧ i.wf = true := by
  unfold decodeV at h
  split at h
  case h_49 => cases h
  all_goals
    refine encode_of_fixed h fun hm => pack6_congr ho ?_
    repeat' apply IsField.append
    all_goals simp [isField_reserved hm]

theorem encode_of_decodeVX {op : BitVec 6} {n : Nat} {b : BitVec 21} {i : Instr} (ho : op.toNat = n)
    (h : decodeVX n b = .ok i) : encode i = some (pack6 4 op b) ∧ i.wf = true := by
  unfold decodeVX at h
  split at h
  case h_27 => cases h
  all_goals
    refine encode_of_fixed h fun hm => pack6_congr ho ?_
    repeat' apply IsField.append
    all_goals simp [isField_reserved hm]

theorem encode_of_decodeM0 {op : BitVec 5} {n : Nat} {b : BitVec 22} {i : Instr} (ho : op.toNat = n)
    (h : decodeM0 n b = .ok i) : encode i = some (pack5 5 op b) ∧ i.wf = true := by
  unfold decodeM0 at h
  split at h
  case h_8 => cases h
  all_goals
    refine encode_of_fixed h fun hm => pack5_congr ho ?_
    repeat' apply IsField.append
    all_goals simp [isField_reserved hm]

theorem encode_of_decodeM1 {op : BitVec 5} {n : Nat} {b : BitVec 22} {i : Instr} (ho : op.toNat = n)
    (h : decodeM1 n b = .ok i) : encode i = some (pack5 6 op b) ∧ i.wf = true := by
  unfold decodeM1 at h
  split at h
  case h_8 => cases h
  all_goals
    refine encode_of_fixed h fun hm => pack5_congr ho ?_
    repeat' apply IsField.append
    all_goals simp [isField_reserved hm]

theorem encode_of_decodeL {op : BitVec 6} {n : Nat} {b : BitVec 21} {i : Instr} (ho : op.toNat = n)
    (h : decodeL n b = .ok i) : encode i = some (pack6 7 op b) ∧ i.wf = true := by
  unfold decodeL at h
  split at h
  case h_32 => cases h
  all_goals
    refine encode_of_fixed h fun hm => pack6_congr ho ?_
    repeat' apply IsField.append
    all_goals simp [isField_reserved hm]

theorem encode_of_decodeT {op : BitVec 6} {n : Nat} {b : BitVec 21} {i : Instr} (ho : op.toNat = n)
    (h : decodeT n b = .ok i) : encode i = some (pack6 8 op b) ∧ i.wf = true := by
  unfold decodeT at h
  split at h
  case h_23 => cases h
  all_goals
    refine encode_of_fixed h fun hm => pack6_congr ho ?_
    repeat' apply IsField.append
    all_goals simp [isField_reserved hm]

theorem encode_of_decodeA {op : BitVec 6} {n : Nat} {b : BitVec 21} {i : Instr} (ho : op.toNat = n)
    (h : decodeA n b = .ok i) : encode i = some (pack6 9 op b) ∧ i.wf = true := by
  unfold decodeA at h
  split at h
  case h_20 => cases h
  all_goals
    refine encode_of_fixed h fun hm => pack6_congr ho ?_
    repeat' apply IsField.append
    all_goals simp [isField_reserved hm]

theorem encode_of_decodeQ {op : BitVec 6} {n : Nat} {b : BitVec 21} {i : Instr} (ho : op.toNat = n)
    (h : decodeQ n b = .ok i) : encode i = some (pack6 10 op b) ∧ i.wf = true := by
  unfold decodeQ at h
  split at h
  case h_17 => cases h
  all_goals
    refine encode_of_fixed h fun hm => pack6_congr ho ?_
    repeat' apply IsField.append
    all_goals simp [isField_reserved hm]

/-- SEL 2:0 below twelve reserved bits (R59). -/
theorem isField_sel {b : BitVec 21} {sel : BitVec 15} (hm : b &&& 0x7FF8 = 0) (hsel : (bits 0 3 b).toNat = sel.toNat) :
    IsField b 0 sel := by
  have h : IsField b 0 (0#12 ++ bits 0 3 b) := .append (isField_reserved hm 3 12 rfl) (isField_bits b 0 3)
  have hs : sel = 0#12 ++ bits 0 3 b := by
    apply BitVec.eq_of_toNat_eq
    rw [BitVec.toNat_append, hsel, BitVec.toNat_ofNat, Nat.zero_mod, Nat.zero_shiftLeft, Nat.zero_or]
  rwa [hs]

theorem encode_of_decodeBalloon {b : BitVec 21} {i : Instr} (h : decodeBalloon b = .ok i) :
    encode i = some (pack6 12 0x0D b) ∧ i.wf = true := by
  unfold decodeBalloon at h
  split at h
  case h_6 => cases h
  all_goals
    next hsel =>
    exact encode_of_fixed h fun hm => pack6_congr rfl (.append (isField_bits b 15 6) (isField_sel hm hsel))

/-- The system class; its operation 0x0D is `BALLOON` (R59). -/
theorem encode_of_decodeY {op : BitVec 6} {n : Nat} {b : BitVec 21} {i : Instr} (ho : op.toNat = n)
    (h : decodeY n b = .ok i) : encode i = some (pack6 12 op b) ∧ i.wf = true := by
  unfold decodeY at h
  split at h
  case h_16 => cases h
  case h_14 =>
    rw [BitVec.eq_of_toNat_eq (y := 0x0D) ho]
    exact encode_of_decodeBalloon h
  all_goals
    refine encode_of_fixed h fun hm => pack6_congr ho ?_
    repeat' apply IsField.append
    all_goals simp [isField_reserved hm]

/-! ## The word of a decoded slot -/

/-- The decoder reads the bits below STOP alone (R36). -/
theorem decodeSlot_congr {w x : Slot} (h : bits 0 31 w = bits 0 31 x) : decodeSlot w = decodeSlot x := by
  have hb (lo n : Nat) (hn : lo + n ≤ 31) : bits lo n w = bits lo n x := by
    rw [← bits_low w hn, h, bits_low x hn]
  unfold decodeSlot
  rw [hb 27 4 (by decide), hb 20 7 (by decide), hb 0 20 (by decide), hb 22 5 (by decide), hb 0 22 (by decide), hb 21 6 (by decide),
    hb 0 21 (by decide), hb 0 27 (by decide), hb 21 3 (by decide), hb 20 1 (by decide), hb 16 4 (by decide), hb 0 16 (by decide),
    hb 0 25 (by decide)]

/-! A word with STOP clear is its class and its body, or its class, its operation and its body. -/

section
variable {w : Slot} {c : BitVec 4} (hs : bits 31 1 w = 0) (hc : (bits 27 4 w).toNat = c.toNat)
include hs hc

theorem isField_class : IsField w 27 (0#1 ++ c) := .append hs (BitVec.eq_of_toNat_eq hc)

theorem packBare_parts : packBare c (bits 0 27 w) = w := (isField_class hs hc).append (isField_bits w 0 27) |>.eq

theorem pack7_parts : pack7 c (bits 20 7 w) (bits 0 20 w) = w :=
  ((isField_class hs hc).append (isField_bits w 20 7)).append (isField_bits w 0 20) |>.eq

theorem pack6_parts : pack6 c (bits 21 6 w) (bits 0 21 w) = w :=
  ((isField_class hs hc).append (isField_bits w 21 6)).append (isField_bits w 0 21) |>.eq

theorem pack5_parts : pack5 c (bits 22 5 w) (bits 0 22 w) = w :=
  ((isField_class hs hc).append (isField_bits w 22 5)).append (isField_bits w 0 22) |>.eq

end

/-- A word with STOP clear is the word of what it decodes to: class by class, its parts are those that the encoder packs. -/
theorem encode_of_decodeSlot {w : Slot} {i : Instr} (hs : bits 31 1 w = 0) (h : decodeSlot w = .ok i) :
    encode i = some w ∧ i.wf = true := by
  unfold decodeSlot at h
  split at h
  case h_1 hc => exact packBare_parts (c := 0) hs hc ▸ encode_of_decodeP h
  case h_2 hc => exact pack7_parts (c := 1) hs hc ▸ encode_of_decodeS rfl h
  case h_3 hc => exact pack5_parts (c := 2) hs hc ▸ encode_of_decodeB rfl h
  case h_4 hc => exact pack6_parts (c := 3) hs hc ▸ encode_of_decodeV rfl h
  case h_5 hc => exact pack6_parts (c := 4) hs hc ▸ encode_of_decodeVX rfl h
  case h_6 hc => exact pack5_parts (c := 5) hs hc ▸ encode_of_decodeM0 rfl h
  case h_7 hc => exact pack5_parts (c := 6) hs hc ▸ encode_of_decodeM1 rfl h
  case h_8 hc => exact pack6_parts (c := 7) hs hc ▸ encode_of_decodeL rfl h
  case h_9 hc => exact pack6_parts (c := 8) hs hc ▸ encode_of_decodeT rfl h
  case h_10 hc => exact pack6_parts (c := 9) hs hc ▸ encode_of_decodeA rfl h
  case h_11 hc => exact pack6_parts (c := 10) hs hc ▸ encode_of_decodeQ rfl h
  case h_12 hc => exact packBare_parts (c := 11) hs hc ▸ encode_of_decodeE h
  case h_13 hc => exact pack6_parts (c := 12) hs hc ▸ encode_of_decodeY rfl h
  case h_14 => cases h

/-! ## The word of an instruction -/

/-- Only the steps that are no slots of a bundle have no word. -/
theorem encode_isSome (i : Instr) : (encode i).isSome = !i.isStep := by
  cases i <;> rfl

/-- The decoder reads every well-formed instruction back from its word: each slot by its own lemma, and a step has no word. -/
theorem decodeSlot_of_encode (i : Instr) : Encoding.Statement i := by
  cases i with
  | pfx => apply Encoding.pfx | ext => apply Encoding.ext | add => apply Encoding.add | sub => apply Encoding.sub
  | addi => apply Encoding.addi | addsh => apply Encoding.addsh | mul => apply Encoding.mul | mulh => apply Encoding.mulh
  | div => apply Encoding.div | divu => apply Encoding.divu | rem => apply Encoding.rem | and => apply Encoding.and
  | or => apply Encoding.or | xor => apply Encoding.xor | andn => apply Encoding.andn | shl => apply Encoding.shl
  | shr => apply Encoding.shr | sar => apply Encoding.sar | shli => apply Encoding.shli | shri => apply Encoding.shri
  | sari => apply Encoding.sari | clz => apply Encoding.clz | popc => apply Encoding.popc | bext => apply Encoding.bext
  | bins => apply Encoding.bins | min => apply Encoding.min | max => apply Encoding.max | minu => apply Encoding.minu
  | maxu => apply Encoding.maxu | seq => apply Encoding.seq | sne => apply Encoding.sne | slt => apply Encoding.slt
  | sltu => apply Encoding.sltu | sle => apply Encoding.sle | sleu => apply Encoding.sleu | sel => apply Encoding.sel
  | movi => apply Encoding.movi | movhi => apply Encoding.movhi | fadd => apply Encoding.fadd | fsub => apply Encoding.fsub
  | fmul => apply Encoding.fmul | ffma => apply Encoding.ffma | fdiv => apply Encoding.fdiv | fsqrt => apply Encoding.fsqrt
  | fmin => apply Encoding.fmin | fmax => apply Encoding.fmax | feq => apply Encoding.feq | flt => apply Encoding.flt
  | fle => apply Encoding.fle | fcvti => apply Encoding.fcvti | fcvtf => apply Encoding.fcvtf | brz => apply Encoding.brz
  | brnz => apply Encoding.brnz | brkt => apply Encoding.brkt | brkf => apply Encoding.brkf | jmp => apply Encoding.jmp
  | jmpi => apply Encoding.jmpi | call => apply Encoding.call | ret => apply Encoding.ret | loop => apply Encoding.loop
  | loopi => apply Encoding.loopi | lset => apply Encoding.lset | lidx => apply Encoding.lidx | lbrk => apply Encoding.lbrk
  | waitc => apply Encoding.waitc | trap => apply Encoding.trap | halt => apply Encoding.halt | vadd => apply Encoding.vadd
  | vsub => apply Encoding.vsub | vmul => apply Encoding.vmul | vfma => apply Encoding.vfma | vfms => apply Encoding.vfms
  | vmin => apply Encoding.vmin | vmax => apply Encoding.vmax | vabs => apply Encoding.vabs | vneg => apply Encoding.vneg
  | veq => apply Encoding.veq | vne => apply Encoding.vne | vlt => apply Encoding.vlt | vle => apply Encoding.vle
  | vsel => apply Encoding.vsel | vand => apply Encoding.vand | vor => apply Encoding.vor | vxor => apply Encoding.vxor
  | viadd => apply Encoding.viadd | visub => apply Encoding.visub | vimul => apply Encoding.vimul | vimin => apply Encoding.vimin
  | vimax => apply Encoding.vimax | vshl => apply Encoding.vshl | vshr => apply Encoding.vshr | vsar => apply Encoding.vsar
  | vrcp => apply Encoding.vrcp | vrsq => apply Encoding.vrsq | vsqrt => apply Encoding.vsqrt | vexp2 => apply Encoding.vexp2
  | vlog2 => apply Encoding.vlog2 | vtanh => apply Encoding.vtanh | vsigm => apply Encoding.vsigm | vrsum => apply Encoding.vrsum
  | vrmax => apply Encoding.vrmax | vramax => apply Encoding.vramax | vbcast => apply Encoding.vbcast
  | vextr => apply Encoding.vextr | vins => apply Encoding.vins | vperm => apply Encoding.vperm | vslide => apply Encoding.vslide
  | vmov => apply Encoding.vmov | viota => apply Encoding.viota | vrand => apply Encoding.vrand | kand => apply Encoding.kand
  | kor => apply Encoding.kor | kxor => apply Encoding.kxor | knot => apply Encoding.knot | kpop => apply Encoding.kpop
  | vcvtn => apply Encoding.vcvtn | vcvtns => apply Encoding.vcvtns | vcvtw => apply Encoding.vcvtw
  | vcvti => apply Encoding.vcvti | vcvtf => apply Encoding.vcvtf | vqscaleE4m3 => apply Encoding.vqscaleE4m3
  | vqscaleE5m2 => apply Encoding.vqscaleE5m2 | vqscaleBf16 => apply Encoding.vqscaleBf16
  | vqscaleInt8 => apply Encoding.vqscaleInt8 | vside => apply Encoding.vside | vsidew => apply Encoding.vsidew
  | ttwr => apply Encoding.ttwr | ttrdc => apply Encoding.ttrdc | ttrdcE4m3 => apply Encoding.ttrdcE4m3
  | ttrdcE5m2 => apply Encoding.ttrdcE5m2 | ttrdcBf16 => apply Encoding.ttrdcBf16 | ttrdcInt8 => apply Encoding.ttrdcInt8
  | ttclr => apply Encoding.ttclr | fpusha => apply Encoding.fpusha | fpushb => apply Encoding.fpushb
  | mcfg0 => apply Encoding.mcfg0 | mcfg1 => apply Encoding.mcfg1 | mdrain0 => apply Encoding.mdrain0
  | mdrain1 => apply Encoding.mdrain1 | mldb0 => apply Encoding.mldb0 | mldb1 => apply Encoding.mldb1
  | mma0 => apply Encoding.mma0 | mma1 => apply Encoding.mma1 | mzero0 => apply Encoding.mzero0 | mzero1 => apply Encoding.mzero1
  | mskipa0 => apply Encoding.mskipa0 | mskipa1 => apply Encoding.mskipa1 | mstat0 => apply Encoding.mstat0
  | mstat1 => apply Encoding.mstat1 | lds => apply Encoding.lds | ldsv => apply Encoding.ldsv | ldsk => apply Encoding.ldsk
  | ldsx => apply Encoding.ldsx | ldc => apply Encoding.ldc | ldcv => apply Encoding.ldcv | ldg => apply Encoding.ldg
  | ldgv => apply Encoding.ldgv | ldgx => apply Encoding.ldgx | pref => apply Encoding.pref | sts => apply Encoding.sts
  | stsv => apply Encoding.stsv | stsk => apply Encoding.stsk | stsx => apply Encoding.stsx | stc => apply Encoding.stc
  | stcv => apply Encoding.stcv | stg => apply Encoding.stg | stgv => apply Encoding.stgv | stgn => apply Encoding.stgn
  | stgx => apply Encoding.stgx | cpy => apply Encoding.cpy | gath => apply Encoding.gath | stash => apply Encoding.stash
  | sfetch => apply Encoding.sfetch | sprobe => apply Encoding.sprobe | sfree => apply Encoding.sfree
  | chsend => apply Encoding.chsend | chpost => apply Encoding.chpost | chack => apply Encoding.chack
  | coll => apply Encoding.coll | shopen => apply Encoding.shopen | publish => apply Encoding.publish
  | ckpt => apply Encoding.ckpt | replay => apply Encoding.replay | split => apply Encoding.split
  | wpwait => apply Encoding.wpwait | nrmrd => apply Encoding.nrmrd | nrmclr => apply Encoding.nrmclr
  | nrmset => apply Encoding.nrmset | deq => apply Encoding.deq | deqt => apply Encoding.deqt | enq => apply Encoding.enq
  | qclose => apply Encoding.qclose | binit => apply Encoding.binit | barr => apply Encoding.barr | bexp => apply Encoding.bexp
  | bwait => apply Encoding.bwait | bpoll => apply Encoding.bpoll | fence => apply Encoding.fence
  | qalign => apply Encoding.qalign | amo => apply Encoding.amo | phadv => apply Encoding.phadv | csrr => apply Encoding.csrr
  | csrw => apply Encoding.csrw | csrs => apply Encoding.csrs | csrc => apply Encoding.csrc | tret => apply Encoding.tret
  | ctxsw => apply Encoding.ctxsw | swpout => apply Encoding.swpout | swpin => apply Encoding.swpin
  | seedld => apply Encoding.seedld | genld => apply Encoding.genld | svc => apply Encoding.svc | extinv => apply Encoding.extinv
  | migr => apply Encoding.migr | balloonAddb => apply Encoding.balloonAddb | balloonAddt => apply Encoding.balloonAddt
  | balloonDeflate => apply Encoding.balloonDeflate | balloonClrb => apply Encoding.balloonClrb
  | balloonClrt => apply Encoding.balloonClrt | idle => apply Encoding.idle
  | _ => exact fun _ _ h => nomatch h

/-! ## The STOP bit -/

theorem decodeSlot_or_stop (w : Slot) : decodeSlot (w ||| 0x80000000) = decodeSlot w :=
  decodeSlot_congr <| by
    rw [bits, BitVec.extractLsb'_or]
    exact BitVec.or_zero

theorem decodeSlot_and_stop (w : Slot) : decodeSlot (w &&& 0x7FFFFFFF) = decodeSlot w :=
  decodeSlot_congr <| by
    rw [bits, BitVec.extractLsb'_and]
    exact BitVec.and_allOnes

theorem stop_clear (w : Slot) : bits 31 1 (w &&& 0x7FFFFFFF) = 0 := by
  rw [bits, BitVec.extractLsb'_and]
  exact BitVec.and_zero

/-- Settles O2: every word is the fields that the decoder reads from it, put side by side. -/
theorem encodingsAgree : Obligations.EncodingsAgree := by
  unfold Obligations.EncodingsAgree
  refine ⟨fun i _ => ?_, fun i w hwf hw => ?_, fun w i h => ?_⟩
  · rw [encode_isSome, Bool.not_eq_true']
  · have hd : decodeSlot w = .ok i := decodeSlot_of_encode i hwf w hw
    exact ⟨hd, (decodeSlot_or_stop w).trans hd⟩
  · exact encode_of_decodeSlot (stop_clear w) ((decodeSlot_and_stop w).trans h)

/-- Settles O1: the decoder evaluates each word written out to what it stands for. -/
theorem decodedWords : Obligations.DecodedWords := by
  unfold Obligations.DecodedWords
  exact ⟨rfl, rfl, rfl, rfl, rfl, rfl, rfl, rfl, rfl, rfl, rfl, rfl, rfl, rfl, rfl, rfl, rfl, rfl, rfl, rfl, rfl, rfl,
    rfl, rfl, rfl, rfl, rfl, rfl, rfl, rfl, rfl, rfl, rfl, rfl, rfl, rfl, rfl, rfl, rfl, rfl, rfl, rfl, rfl⟩

end Sys2Proof.Laws

/-! # Scratchpad loads (R127 to R130, R291) -/

namespace Sys2Proof.Machine

/-- A slot that may issue, whose registers are full and which is quiet, has its effect. -/
theorem issueSlot_of_quiet {i : Instr} {s : State} {f : State → State} (hs : s.mayIssue) (q : Quiet i s) (hfull : s.full (regsOf i)) :
    issueSlot i s f = .next (f s) := by
  obtain ⟨⟨hf, hc⟩, hp⟩ := hs
  exact issueSlot_completes hf hc rfl hfull (decide_eq_false (Nat.not_lt.mpr hp)) q

/-- An access that lies in the scratchpad, aligned, raises neither `SP_BOUNDS` nor `MISALIGNED` (R127). -/
theorem padCauses_eq_nil {a n align : Nat} (hn : a + n ≤ 2 ^ 23) (ha : a % align = 0) : padCauses a n align = [] := by
  have hb : ¬ Config.scratchpadBytes < a + n := by
    rw [Config.scratchpadBytes]
    omega
  unfold padCauses
  rw [if_neg hb, if_neg (fun h => h ha), List.append_nil]

/-- The address causes of `LDSX` once its first 32 bytes can be read: those of the header they hold (R291). -/
theorem addressCauses_ldsx {s : State} {vd : BitVec 7} {base : BitVec 6} {off : BitVec 8}
    (ha : padAccess (slotAddr (.ldsx vd base off) s) 32) :
    addressCauses (.ldsx vd base off) s = (sparseBlock (mread s.pad (slotAddr (.ldsx vd base off) s) 32)).elim [0x18]
      fun b => padCauses (slotAddr (.ldsx vd base off) s) b.bytes 32 := by
  simp only [addressCauses, padCauses_eq_nil ha.1 ha.2, List.isEmpty_nil, if_true]
  unfold State.pad
  cases sparseBlock (mread s.curCore.pad (slotAddr (.ldsx vd base off) s) 32) <;> rfl

section
variable {s : State} {size : BitVec 3} {rd base : BitVec 6} {vd : BitVec 7} {hi : BitVec 1} {kd : BitVec 4} {off : BitVec 8}
  (hs : s.mayIssue) (himm : immFits (.ldsv vd base off) s.ctx.ext = true)
include hs himm

theorem exec_lds_eq (hfull : s.full (regsOf (.lds size rd base off))) (hwf : loadPairOk size rd = true)
    (ha : padAccess (slotAddr (.lds size rd base off) s) (loadBytes size)) :
    exec (.lds size rd base off) s = .next (
      let x := mread s.pad (slotAddr (.lds size rd base off) s) (loadBytes size)
      if size = 7 then
        (s.land 6 (.sreg rd.toNat (BitVec.ofNat 64 x))).land 6 (.sreg (rd.toNat + 1) (BitVec.ofNat 64 (x / 2 ^ 64)))
      else s.landS 6 rd (extendLoad size x)) := by
  rw [exec_lds, execLds, issueSlot_of_quiet hs (quiet_lds size rd base off s hwf himm (padCauses_eq_nil ha.1 ha.2)) hfull]

theorem exec_ldsv_eq (hfull : s.full [.s base.toNat, .v vd.toNat]) (ha : padAccess (slotAddr (.ldsv vd base off) s) 512) :
    exec (.ldsv vd base off) s = .next
      (s.land 6 (.vrow vd.toNat rowAll (BitVec.ofNat 4096 (mread s.pad (slotAddr (.ldsv vd base off) s) 512)) 0)) := by
  rw [exec_ldsv, execLdsv, issueSlot_of_quiet hs (quiet_ldsv vd base off s himm (padCauses_eq_nil ha.1 ha.2)) hfull]

theorem exec_ldsk_eq (hfull : s.full [.s base.toNat, .k kd.toNat]) (ha : padAccess (slotAddr (.ldsk hi kd base off) s) 16) :
    exec (.ldsk hi kd base off) s = .next (s.land 6 (.kmask kd.toNat (maskHalf hi)
      (BitVec.ofNat 256 (mread s.pad (slotAddr (.ldsk hi kd base off) s) 16 * 2 ^ (128 * hi.toNat))))) := by
  rw [exec_ldsk, execLdsk, issueSlot_of_quiet hs (quiet_ldsk hi kd base off s himm (padCauses_eq_nil ha.1 ha.2)) hfull]

/-- `LDSX` of a block that an expander takes and that lies in the scratchpad. -/
theorem exec_ldsx_eq (hfull : s.full [.s base.toNat, .v vd.toNat]) (ha : padAccess (slotAddr (.ldsx vd base off) s) 32)
    {b : SparseBlock} (hb : sparseBlock (mread s.pad (slotAddr (.ldsx vd base off) s) 32) = some b)
    (hend : slotAddr (.ldsx vd base off) s + b.bytes ≤ 2 ^ 23) :
    exec (.ldsx vd base off) s = .next ((s.usePorts b.bytes).land 8
      (.vrow vd.toNat rowAll (b.row (mread s.pad (slotAddr (.ldsx vd base off) s) b.bytes)) 0)) := by
  have hc : addressCauses (.ldsx vd base off) s = [] := by
    rw [addressCauses_ldsx ha, hb]
    exact padCauses_eq_nil hend ha.2
  rw [exec_ldsx, execLdsx, issueSlot_of_quiet hs (quiet_ldsx vd base off s himm hc) hfull]
  simp only [hb]

/-- `LDSX` of a block that no expander takes (R291). -/
theorem exec_ldsx_trap (hfull : s.full [.s base.toNat, .v vd.toNat]) (ha : padAccess (slotAddr (.ldsx vd base off) s) 32)
    (hb : sparseBlock (mread s.pad (slotAddr (.ldsx vd base off) s) 32) = none) :
    exec (.ldsx vd base off) s = .next (s.takeIssueTrap 0x18 s.ctx.pos 0) := by
  have hc : addressCauses (.ldsx vd base off) s = [0x18] := by rw [addressCauses_ldsx ha, hb, Option.elim_none]
  have ht : slotTrap (.ldsx vd base off) s = some 0x18 :=
    slotTrap_of_causes (causes := [0x18]) (regs_ldsx vd base off) hfull rfl himm nofun rfl rfl (by rw [hc]; rfl) rfl
  obtain ⟨⟨hf, hunchecked⟩, -⟩ := hs
  rw [exec_ldsx, execLdsx, issueSlot_trap hf hunchecked ht]
  rfl

end

/-- Settles O28: each load is quiet, so it has its effect; what it loads is what the size code makes of the bytes read. -/
theorem scratchpadLoads : Obligations.ScratchpadLoads := by
  unfold Obligations.ScratchpadLoads
  intro s size rd base vd hi kd off hs hfull himm
  obtain ⟨hrd, hpair, hbase, hvd, hkd⟩ : s.cur.isEmpty (.s rd.toNat) = false ∧ s.cur.isEmpty (.s (rd.toNat + 1)) = false
      ∧ s.cur.isEmpty (.s base.toNat) = false ∧ s.cur.isEmpty (.v vd.toNat) = false ∧ s.cur.isEmpty (.k kd.toNat) = false := by
    simpa [State.full] using hfull
  have hscalar : s.full (regsOf (.lds size rd base off)) := by
    rw [regs_lds]
    split <;> simp [State.full, pairOf, hbase, hrd, hpair]
  have hvector : s.full [.s base.toNat, .v vd.toNat] := by simp [State.full, hbase, hvd]
  have hmask : s.full [.s base.toNat, .k kd.toNat] := by simp [State.full, hbase, hkd]
  refine ⟨?_, ?_, ?_, ?_, ?_, ?_, ?_, ?_, ?_, ?_, ?_, ?_⟩
  case refine_8 =>
    rintro rfl heven ha
    exact exec_lds_eq hs himm hscalar (by rw [loadPairOk, heven]; rfl) ha
  case refine_9 => exact exec_ldsv_eq hs himm hvector
  case refine_10 => exact exec_ldsk_eq hs himm hmask
  case refine_11 => exact fun b ha hb hend => exec_ldsx_eq hs himm hvector ha hb hend
  case refine_12 => exact exec_ldsx_trap hs himm hvector
  all_goals
    rintro rfl ha
    exact exec_lds_eq hs himm hscalar rfl ha

end Sys2Proof.Machine

/-! # The vector class (R132 to R145)

A lane-wise slot whose registers are full and lie in one view lands its lanes; what is left of each statement is how the model's lane
functions read when the lanes are taken as values or words first. -/

namespace Sys2Proof.Machine

/-! ## Conditions on operands -/

theorem full_of_subset {s : State} {l m : List Reg} (h : s.full l) (hm : m ⊆ l) : s.full m := fun r hr => h r (hm hr)

theorem oneView_of_subset {s : State} {l m : List Nat} (h : s.oneView l) (hm : m ⊆ l) : s.oneView m :=
  fun q hq r hr => h q (hm hq) r (hm hr)

/-- Vector operands in one view raise no `LANE_VIEW` (R13). -/
theorem viewCauses_eq_nil {i : Instr} {s : State} (h : s.oneView (vregsOf i)) : viewCauses i s = [] := by
  unfold viewCauses
  split
  · rfl
  · next r rs hr =>
    rw [hr] at h
    have hsame : rs.any (fun q => s.cur.viewOf q ≠ s.cur.viewOf r) = false := by
      rw [List.any_eq_false]
      intro q hq
      simp [h q (by simp [hq]) r (by simp)]
    rw [hsame, if_neg Bool.false_ne_true]

/-! ## Lanes read as values or words before the operation -/

theorem zipWith_float2 (g : FVal → FVal → FVal) (n : Nat) (a b : List Nat) :
    List.zipWith (float2 g n) a b
      = (List.zipWith g (a.map (laneFmt n).decode) (b.map (laneFmt n).decode)).map (laneFmt n).rne := by
  rw [List.zipWith_map, List.map_zipWith]
  rfl

theorem map_float1 (g : FVal → FVal) (n : Nat) (a : List Nat) :
    a.map (float1 g n) = ((a.map (laneFmt n).decode).map g).map (laneFmt n).rne := by
  rw [List.map_map, List.map_map]
  rfl

/-- The two multiply-adds: a product of lanes combined with the old destination, rounded once (R137). -/
theorem zipWith_mulAdd (g : FVal → FVal → FVal) (f : Fmt) (a b d : List Nat) :
    List.zipWith (fun p d => f.rne (g ((f.decode p.1).mul (f.decode p.2)) (f.decode d))) (a.zip b) d
      = (List.zipWith g (List.zipWith FVal.mul (a.map f.decode) (b.map f.decode)) (d.map f.decode)).map f.rne := by
  have hmul : List.zipWith FVal.mul (a.map f.decode) (b.map f.decode)
      = (a.zip b).map fun p => (f.decode p.1).mul (f.decode p.2) := by
    rw [List.zipWith_map, List.zip, List.map_zipWith]
  rw [hmul, List.zipWith_map, List.map_zipWith]

theorem map_special (g : Fmt → FVal → Nat) (n : Nat) (a : List Nat) :
    a.map (special g n) = (a.map (laneFmt n).decode).map (g (laneFmt n)) := by
  rw [List.map_map]
  rfl

theorem zipWith_word2 (g : {w : Nat} → BitVec w → BitVec w → BitVec w) (n : Nat) (a b : List Nat) :
    List.zipWith (word2 g n) a b
      = (List.zipWith g (a.map (BitVec.ofNat (4096 / n))) (b.map (BitVec.ofNat (4096 / n)))).map BitVec.toNat := by
  rw [List.zipWith_map, List.map_zipWith]
  rfl

/-- The smaller of two words by the other compare: words of which neither is smaller are the same word (R140). -/
theorem sminWord_eq {w : Nat} (a b : BitVec w) : sminWord a b = if a.slt b then a else b := by
  unfold sminWord
  simp only [BitVec.slt_iff_toInt_lt]
  rcases Int.lt_trichotomy a.toInt b.toInt with h | h | h
  · rw [if_neg (Int.lt_asymm h), if_pos h]
  · rw [BitVec.eq_of_toInt_eq h, ite_self]
  · rw [if_pos h, if_neg (Int.lt_asymm h)]

@[simp] theorem length_lanes (k : Bank) (n r : Nat) : (k.lanes n r).length = n := by
  rw [Bank.lanes, unpack, List.length_map, List.length_range]

/-- Of two equally long lists the entries that a mask selects from the first and the others from the second (R141). -/
theorem getElem?_select (m : Mask) {a b : List Nat} (h : a.length = b.length) (j : Nat) :
    ((List.zipWith (fun a b => (a, b)) a b).mapIdx fun i p => if m.getLsbD i then p.1 else p.2)[j]?
      = if m.getLsbD j then a[j]? else b[j]? := by
  rw [List.getElem?_mapIdx, List.getElem?_zipWith]
  by_cases hj : j < a.length
  · rw [List.getElem?_eq_getElem hj, List.getElem?_eq_getElem (h ▸ hj)]
    cases m.getLsbD j <;> rfl
  · rw [List.getElem?_eq_none (Nat.le_of_not_lt hj), List.getElem?_eq_none (h ▸ Nat.le_of_not_lt hj), ite_self]
    rfl

/-! ## Lane-wise slots that complete -/

section
variable {s : State} {i : Instr} {lat : Nat} {rd ra rb : BitVec 7} (hs : s.mayIssue) (q : Quiet i s) (hfull : s.full (regsOf i))
include hs q hfull

theorem lanes2_completes (f : Nat → Nat → Nat → Nat) : lanes2 i lat rd ra rb f s =
    .next (s.landV lat (s.cur.viewOf rd.toNat) rd (List.zipWith (f (s.cur.viewOf rd.toNat))
      (s.cur.lanes (s.cur.viewOf rd.toNat) ra.toNat) (s.cur.lanes (s.cur.viewOf rd.toNat) rb.toNat))) :=
  issueSlot_of_quiet hs q hfull

theorem lanes1_completes (f : Nat → Nat → Nat) : lanes1 i lat rd ra f s =
    .next (s.landV lat (s.cur.viewOf rd.toNat) rd
      ((s.cur.lanes (s.cur.viewOf rd.toNat) ra.toNat).map (f (s.cur.viewOf rd.toNat)))) :=
  issueSlot_of_quiet hs q hfull

theorem lanes3_completes (f : Nat → Nat → Nat → Nat → Nat) : lanes3 i lat rd ra rb f s =
    .next (s.landV lat (s.cur.viewOf rd.toNat) rd (List.zipWith (fun p d => f (s.cur.viewOf rd.toNat) p.1 p.2 d)
      ((s.cur.lanes (s.cur.viewOf rd.toNat) ra.toNat).zip (s.cur.lanes (s.cur.viewOf rd.toNat) rb.toNat))
      (s.cur.lanes (s.cur.viewOf rd.toNat) rd.toNat))) :=
  issueSlot_of_quiet hs q hfull

/-- A floating operation of two lanes (R137). -/
theorem lanes2_float2 (g : FVal → FVal → FVal) : lanes2 i lat rd ra rb (float2 g) s =
    let n := s.cur.viewOf rd.toNat
    let x (r : BitVec 7) := (s.cur.lanes n r.toNat).map (laneFmt n).decode
    .next (s.landV lat n rd ((List.zipWith g (x ra) (x rb)).map (laneFmt n).rne)) := by
  rw [lanes2_completes hs q hfull, zipWith_float2]

/-- A floating operation of one lane (R137). -/
theorem lanes1_float1 (g : FVal → FVal) : lanes1 i lat rd ra (float1 g) s =
    let n := s.cur.viewOf rd.toNat
    .next (s.landV lat n rd ((((s.cur.lanes n ra.toNat).map (laneFmt n).decode).map g).map (laneFmt n).rne)) := by
  rw [lanes1_completes hs q hfull, map_float1]

/-- A multiply-add of lanes (R137). -/
theorem lanes3_mulAdd (g : FVal → FVal → FVal) :
    lanes3 i lat rd ra rb (fun n a b d =>
      let f := laneFmt n
      f.rne (g ((f.decode a).mul (f.decode b)) (f.decode d))) s =
    let n := s.cur.viewOf rd.toNat
    let x (r : BitVec 7) := (s.cur.lanes n r.toNat).map (laneFmt n).decode
    .next (s.landV lat n rd ((List.zipWith g (List.zipWith FVal.mul (x ra) (x rb)) (x rd)).map (laneFmt n).rne)) := by
  rw [lanes3_completes hs q hfull, zipWith_mulAdd]

/-- A special function of a lane (R139). -/
theorem lanes1_special (g : Fmt → FVal → Nat) : lanes1 i lat rd ra (special g) s =
    let n := s.cur.viewOf rd.toNat
    .next (s.landV lat n rd (((s.cur.lanes n ra.toNat).map (laneFmt n).decode).map (g (laneFmt n)))) := by
  rw [lanes1_completes hs q hfull, map_special]

/-- An operation on lanes as words (R140, R141). -/
theorem lanes2_word2 (g : {w : Nat} → BitVec w → BitVec w → BitVec w) : lanes2 i lat rd ra rb (word2 g) s =
    let n := s.cur.viewOf rd.toNat
    let x (r : BitVec 7) := (s.cur.lanes n r.toNat).map (BitVec.ofNat (4096 / n))
    .next (s.landV lat n rd ((List.zipWith g (x ra) (x rb)).map BitVec.toNat)) := by
  rw [lanes2_completes hs q hfull, zipWith_word2]

end

/-- Settles O18: each slot completes; its lanes are decoded, combined and rounded once. -/
theorem floatingLanes : Obligations.FloatingLanes := by
  unfold Obligations.FloatingLanes
  refine ⟨fun s rd ra rb hs hfull hview => ?_, fun s rd ra hs hfull hview => ?_⟩
  · have twoSources : s.full [.v ra.toNat, .v rb.toNat, .v rd.toNat] := full_of_subset hfull (by simp)
    have oneSource : s.full [.v ra.toNat, .v rd.toNat] := full_of_subset hfull (by simp)
    have view : s.oneView [rd.toNat, ra.toNat] := oneView_of_subset hview (by simp)
    exact ⟨(exec_vadd ..).trans (lanes2_float2 hs (quiet_vadd _ _ _ s (viewCauses_eq_nil hview)) twoSources FVal.add),
      (exec_vsub ..).trans (lanes2_float2 hs (quiet_vsub _ _ _ s (viewCauses_eq_nil hview)) twoSources fun a b => a.add b.negate),
      (exec_vmul ..).trans (lanes2_float2 hs (quiet_vmul _ _ _ s (viewCauses_eq_nil hview)) twoSources FVal.mul),
      (exec_vfma ..).trans (lanes3_mulAdd hs (quiet_vfma _ _ _ s (viewCauses_eq_nil hview)) twoSources FVal.add),
      (exec_vfms ..).trans (lanes3_mulAdd hs (quiet_vfms _ _ _ s (viewCauses_eq_nil hview)) twoSources fun p d => d.add p.negate),
      (exec_vmin ..).trans (lanes2_float2 hs (quiet_vmin _ _ _ s (viewCauses_eq_nil hview)) twoSources FVal.min),
      (exec_vmax ..).trans (lanes2_float2 hs (quiet_vmax _ _ _ s (viewCauses_eq_nil hview)) twoSources FVal.max),
      (exec_vabs ..).trans (lanes1_float1 hs (quiet_vabs _ _ s (viewCauses_eq_nil view)) oneSource FVal.abs),
      (exec_vneg ..).trans (lanes1_float1 hs (quiet_vneg _ _ s (viewCauses_eq_nil view)) oneSource FVal.negate)⟩
  · have oneSource : s.full [.v ra.toNat, .v rd.toNat] := full_of_subset hfull (by simp)
    exact ⟨(exec_vrcp ..).trans (lanes1_special hs (quiet_vrcp _ _ s (viewCauses_eq_nil hview)) oneSource
        fun f a => f.div (.fin false 1 0) a),
      (exec_vrsq ..).trans (lanes1_special hs (quiet_vrsq _ _ s (viewCauses_eq_nil hview)) oneSource Fmt.rsqrt),
      (exec_vsqrt ..).trans (lanes1_special hs (quiet_vsqrt _ _ s (viewCauses_eq_nil hview)) oneSource Fmt.sqrt),
      (exec_vexp2 ..).trans (lanes1_special hs (quiet_vexp2 _ _ s (viewCauses_eq_nil hview)) oneSource Fmt.exp2),
      (exec_vlog2 ..).trans (lanes1_special hs (quiet_vlog2 _ _ s (viewCauses_eq_nil hview)) oneSource Fmt.log2),
      (exec_vtanh ..).trans (lanes1_special hs (quiet_vtanh _ _ s (viewCauses_eq_nil hview)) oneSource Fmt.tanh),
      (exec_vsigm ..).trans (lanes1_special hs (quiet_vsigm _ _ s (viewCauses_eq_nil hview)) oneSource Fmt.sigmoid)⟩

/-- Settles O19: each slot completes; its lanes are read as words of the lane width, which wrap. `VSEL` alone writes every lane. -/
theorem integerLanes : Obligations.IntegerLanes := by
  unfold Obligations.IntegerLanes
  intro s rd ra rb hs hfull hview
  have twoSources : s.full [.v ra.toNat, .v rb.toNat, .v rd.toNat] := full_of_subset hfull (by simp)
  have oneSource : s.full [.v ra.toNat, .v rd.toNat] := full_of_subset hfull (by simp)
  have view : s.oneView [rd.toNat, ra.toNat] := oneView_of_subset hview (by simp)
  refine ⟨(exec_vand ..).trans (lanes2_word2 hs (quiet_vand _ _ _ s (viewCauses_eq_nil hview)) twoSources (· &&& ·)),
    (exec_vor ..).trans (lanes2_word2 hs (quiet_vor _ _ _ s (viewCauses_eq_nil hview)) twoSources (· ||| ·)),
    (exec_vxor ..).trans (lanes2_word2 hs (quiet_vxor _ _ _ s (viewCauses_eq_nil hview)) twoSources (· ^^^ ·)),
    (exec_viadd ..).trans (lanes2_word2 hs (quiet_viadd _ _ _ s (viewCauses_eq_nil hview)) twoSources (· + ·)),
    (exec_visub ..).trans (lanes2_word2 hs (quiet_visub _ _ _ s (viewCauses_eq_nil hview)) twoSources (· - ·)),
    (exec_vimul ..).trans (lanes2_word2 hs (quiet_vimul _ _ _ s (viewCauses_eq_nil hview)) twoSources (· * ·)),
    ?_,
    (exec_vimax ..).trans (lanes2_word2 hs (quiet_vimax _ _ _ s (viewCauses_eq_nil hview)) twoSources smaxWord),
    (exec_vshl ..).trans (lanes2_word2 hs (quiet_vshl _ _ _ s (viewCauses_eq_nil hview)) twoSources fun a b => a <<< laneAmount b),
    (exec_vshr ..).trans (lanes2_word2 hs (quiet_vshr _ _ _ s (viewCauses_eq_nil hview)) twoSources fun a b => a >>> laneAmount b),
    (exec_vsar ..).trans (lanes2_word2 hs (quiet_vsar _ _ _ s (viewCauses_eq_nil hview)) twoSources
      fun a b => a.sshiftRight (laneAmount b)), ?_, ?_⟩
  · simp only [← sminWord_eq]
    exact (exec_vimin rd ra rb s).trans (lanes2_word2 hs (quiet_vimin rd ra rb s (viewCauses_eq_nil hview)) twoSources sminWord)
  · rw [exec_vmov, execVmov, lanes1_completes hs (quiet_vmov rd ra s (viewCauses_eq_nil view)) oneSource, List.map_id']
  · rw [exec_vsel, execVsel, issueSlot_of_quiet hs (quiet_vsel rd ra rb s (viewCauses_eq_nil hview)) twoSources]
    refine ⟨_, rfl, ?_, fun j _ => ?_⟩
    · rw [List.length_mapIdx, List.length_zipWith, length_lanes, length_lanes, Nat.min_self]
    · exact getElem?_select _ (by rw [length_lanes, length_lanes]) j

/-! ## Compares, mask operations and reductions that complete -/

section
variable {s : State} {i : Instr} (hs : s.mayIssue) (q : Quiet i s) (hfull : s.full (regsOf i))
include hs q hfull

/-- A compare of lanes (R138). -/
theorem compareLanes_completes (rd : BitVec 4) (ra rb : BitVec 7) (g : FVal → FVal → Bool) : compareLanes i rd ra rb g s =
    let n := s.cur.viewOf ra.toNat
    .next (s.landK 4 n rd (maskOf (List.zipWith (fun a b => g ((laneFmt n).decode a) ((laneFmt n).decode b))
      (s.cur.lanes n ra.toNat) (s.cur.lanes n rb.toNat)))) :=
  issueSlot_of_quiet hs q hfull

/-- A mask operation, in the view of MCFG0 (R145). -/
theorem maskOp_completes (rd ra rb : BitVec 4) (g : Mask → Mask → Mask) : maskOp i rd ra rb g s =
    .next (s.landK 1 (viewLanes s.cur.eng0.mcfg) rd (g (s.cur.k ra.toNat) (s.cur.k rb.toNat))) :=
  issueSlot_of_quiet hs q hfull

/-- A reduction over the fixed tree (R100, R143). -/
theorem reduce_completes (rd : BitVec 6) (ra : BitVec 7) (idle : FVal) (pre : FVal → FVal) (g : FVal → FVal → FVal) :
    reduce i rd ra idle pre g s =
    let n := s.cur.viewOf ra.toNat
    let x := (s.cur.lanes n ra.toNat).mapIdx fun j a => if s.bundleMask.getLsbD j then pre ((laneFmt n).decode a) else idle
    .next (s.landS (if n = 256 then 9 else 8) rd
      (BitVec.ofNat 64 (Fmt.fp32.rne ((reduceTree g (if n = 256 then 8 else 7) x).headD .nan)))) :=
  issueSlot_of_quiet hs q hfull

end

/-- Settles O20: each slot completes; `KPOP` counts the lanes that the register and the bundle's mask both select. -/
theorem masksAndReductions : Obligations.MasksAndReductions := by
  unfold Obligations.MasksAndReductions
  refine ⟨fun s rd ka kb ra rb sd hs hfull => ⟨fun hview => ?_, ?_, ?_, ?_, ?_, ?_⟩, fun s rd ra hs hfull => ?_⟩
  · have hfull : s.full [.v ra.toNat, .v rb.toNat, .k rd.toNat] := full_of_subset hfull (by simp)
    exact ⟨(exec_veq rd ra rb s).trans
        (compareLanes_completes hs (quiet_veq rd ra rb s (viewCauses_eq_nil hview)) hfull rd ra rb FVal.eq),
      (exec_vne rd ra rb s).trans
        (compareLanes_completes hs (quiet_vne rd ra rb s (viewCauses_eq_nil hview)) hfull rd ra rb fun a b => !a.eq b),
      (exec_vlt rd ra rb s).trans
        (compareLanes_completes hs (quiet_vlt rd ra rb s (viewCauses_eq_nil hview)) hfull rd ra rb FVal.lt),
      (exec_vle rd ra rb s).trans
        (compareLanes_completes hs (quiet_vle rd ra rb s (viewCauses_eq_nil hview)) hfull rd ra rb FVal.le)⟩
  · exact (exec_kand rd ka kb s).trans
      (maskOp_completes hs (quiet_kand rd ka kb s) (full_of_subset hfull (by simp [regs_kand])) rd ka kb (· &&& ·))
  · exact (exec_kor rd ka kb s).trans
      (maskOp_completes hs (quiet_kor rd ka kb s) (full_of_subset hfull (by simp [regs_kor])) rd ka kb (· ||| ·))
  · exact (exec_kxor rd ka kb s).trans
      (maskOp_completes hs (quiet_kxor rd ka kb s) (full_of_subset hfull (by simp [regs_kxor])) rd ka kb (· ^^^ ·))
  · exact (exec_knot rd ka s).trans
      (maskOp_completes hs (quiet_knot rd ka s) (full_of_subset hfull (by simp [regs_knot])) rd ka ka fun a _ => ~~~a)
  · rw [exec_kpop, execKpop, issueSlot_of_quiet hs (quiet_kpop sd ka s) (full_of_subset hfull (by simp [regs_kpop]))]
    simp only [List.countP_eq_length_filter, BitVec.getLsbD_and]
    rfl
  · have hfull : s.full [.v ra.toNat, .s rd.toNat] := full_of_subset hfull (by simp)
    exact ⟨(exec_vrsum rd ra s).trans (reduce_completes hs (quiet_vrsum rd ra s) hfull rd ra (.fin false 0 0) id addRounded),
      (exec_vrmax rd ra s).trans (reduce_completes hs (quiet_vrmax rd ra s) hfull rd ra (.inf true) id FVal.max),
      (exec_vramax rd ra s).trans (reduce_completes hs (quiet_vramax rd ra s) hfull rd ra (.fin false 0 0) FVal.abs FVal.max)⟩

/-! ## Lane moves -/

/-- `VRAND` draws from the generator as it stands and then advances it, and no other generator, in the issue clk (R102, R144). -/
theorem exec_vrand_eq {s : State} (hs : s.mayIssue) {rd : BitVec 7} (hfull : s.full [.v rd.toNat]) (g : BitVec 2) :
    exec (.vrand rd g) s =
    let n := s.cur.viewOf rd.toNat
    let gen := s.cur.gen g.toNat
    let t := s.landV 6 n rd ((List.range n).map fun i => (mix gen.key (gen.ctr + BitVec.ofNat 64 i)).toNat)
    .next (t.setCur { t.cur with gens := tset g.toNat ⟨gen.key, gen.ctr + BitVec.ofNat 64 n⟩ s.cur.gens }) := by
  rw [exec_vrand, execVrand, issueSlot_of_quiet hs (quiet_vrand rd g s) hfull]
  simp only [State.landV, State.land, State.cur_setCur]

/-- Settles O21: each slot completes; the operands lie in one view, so the source's lanes are counted as the destination's. -/
theorem laneMoves : Obligations.LaneMoves := by
  unfold Obligations.LaneMoves
  intro s rd ra rb sd sa sb g hs hfull hview
  have hva : s.cur.viewOf ra.toNat = s.cur.viewOf rd.toNat := hview _ (by simp) _ (by simp)
  have view : s.oneView [rd.toNat, ra.toNat] := oneView_of_subset hview (by simp)
  refine ⟨?_, ?_, ?_, ?_, ?_, ?_, ?_⟩
  · rw [exec_vbcast, execVbcast, issueSlot_of_quiet hs (quiet_vbcast rd sa s) (full_of_subset hfull (by simp [regs_vbcast]))]
    rfl
  · rw [exec_vextr, execVextr, issueSlot_of_quiet hs (quiet_vextr sd ra sb s) (full_of_subset hfull (by simp [regs_vextr])), hva]
    rfl
  · rw [exec_vins, execVins, issueSlot_of_quiet hs (quiet_vins rd sa sb s) (full_of_subset hfull (by simp [regs_vins]))]
    rfl
  · rw [exec_vperm, execVperm, issueSlot_of_quiet hs (quiet_vperm rd ra rb s (viewCauses_eq_nil hview))
      (full_of_subset hfull (by simp [regs_vperm]))]
    rfl
  · rw [exec_vslide, execVslide, issueSlot_of_quiet hs (quiet_vslide rd ra sb s (viewCauses_eq_nil view))
      (full_of_subset hfull (by simp [regs_vslide]))]
    rfl
  · rw [exec_viota, execViota, issueSlot_of_quiet hs (quiet_viota rd s) (full_of_subset hfull (by simp [regs_viota]))]
  · refine ⟨_, exec_vrand_eq hs (full_of_subset hfull (by simp)) g, ?_, fun h _ hne => ?_, ?_⟩
    · rw [State.cur_setCur]
      exact tget_tset_self _ _ _ _
    · rw [State.cur_setCur]
      exact tget_tset_ne _ hne _ _
    · rw [State.cur_setCur]

end Sys2Proof.Machine

/-! # Conversion, transposer tiles and pushes (R146 to R159)

The causes of a converting slot come down to the side word of its source and to MCFG; then the slot completes. -/

namespace Sys2Proof.Machine

/-! ## The elements of a source block -/

/-- The elements of a block under the mask, read one by one (R135). -/
theorem maskElems_map (m : Mask) (f : Fmt) (l : List Nat) :
    maskElems m (l.map f.decode) = l.mapIdx fun i e => if m.getLsbD i then f.decode e else .fin false 0 0 := by
  apply List.ext_getElem?
  intro i
  rw [maskElems, List.getElem?_mapIdx, List.getElem?_mapIdx, List.getElem?_map, Option.map_map]
  rfl

/-- The elements of a column under the mask (R135, R157). -/
theorem maskElems_map_range (m : Mask) (g : Nat → FVal) (n : Nat) :
    maskElems m ((List.range n).map g) = (List.range n).map fun i => if m.getLsbD i then g i else .fin false 0 0 := by
  apply List.ext_getElem?
  intro i
  rw [maskElems, List.getElem?_mapIdx, List.getElem?_map, List.getElem?_map]
  by_cases hi : i < n
  · rw [List.getElem?_range hi]
    rfl
  · rw [List.getElem?_eq_none (by rw [List.length_range]; omega)]
    rfl

/-- The source block of a narrowing, as its elements stand in the register (R146). -/
theorem sourceBlock_eq (s : State) (r : Nat) : sourceBlock s r =
    (unpack (sourceType (s.cur.mcfgOf r)).width 128 (s.cur.v r).toNat).mapIdx fun i e =>
      if s.bundleMask.getLsbD i then (sourceType (s.cur.mcfgOf r)).decode e else .fin false 0 0 :=
  maskElems_map _ _ _

theorem cardingOk_iff {noRot : BitVec 1} {seed : BitVec 4} : cardingOk noRot seed = true ↔ noRot = 0 ∨ seed = 0 := by
  simp [cardingOk]

/-- BF16 is the third target format (R51). -/
theorem ofTarget_eq_bf16 (fmt : BitVec 2) : Fmt.ofTarget fmt.toNat = .bf16 ↔ fmt = 2 := by
  revert fmt
  decide

/-! ## Narrowing (R146 to R149) -/

/-- What `FMT_PAIR` of a narrowing depends on (R146). -/
theorem narrowCauses_eq_nil {k : Bank} {r : Nat} {f : Fmt} (hside : (k.side r).getLsbD 63 = false)
    (hf : ¬ (f = .bf16 ∧ sourceType (k.mcfgOf r) = .bf16)) :
    (if sideValid (k.side r) ∨ (f = .bf16 ∧ sourceType (k.mcfgOf r) = .bf16) then [0x0E] else ([] : List Nat)) = [] := by
  rw [if_neg]
  rintro (h | h)
  · exact Bool.false_ne_true (hside.symm.trans h)
  · exact hf h

/-- `VQSCALE`: the control word of the carding (R149). -/
theorem quantScale_completes {s : State} {i : Instr} (hs : s.mayIssue) (q : Quiet i s) (hfull : s.full (regsOf i)) (f : Fmt)
    (sd : BitVec 6) (ra : BitVec 7) (noRot : BitVec 1) (seed : BitVec 4) : quantScale i f sd ra noRot seed s =
    let t := sourceType (s.cur.mcfgOf ra.toNat)
    let x : List FVal := (unpack t.width 128 (s.cur.v ra.toNat).toNat).mapIdx fun i e =>
      if s.bundleMask.getLsbD i then t.decode e else .fin false 0 0
    .next (s.landS 4 sd ((0 : BitVec 27) ++ noRot ++ seed ++ cardScale x f (s.cur.seed seed.toNat) (noRot = 1))) := by
  rw [quantScale, issueSlot_of_quiet hs q hfull, sourceBlock_eq]

/-- Settles O22: a block that is no narrow block, narrowed to another type than BF16 from BF16, raises nothing; the slots complete. -/
theorem narrowing : Obligations.Narrowing := by
  unfold Obligations.Narrowing
  intro s fmt rd ra sd sb noRot seed hs hfull hview hrot hside
  have hwf := cardingOk_iff.mpr hrot
  have toScalar : s.full [.v ra.toNat, .s sd.toNat] := full_of_subset hfull (by simp)
  have hconv {f : Fmt} := narrowCauses_eq_nil (k := s.cur) (r := ra.toNat) (f := f) hside
  intro acc t x mode block w scaled landed
  refine ⟨fun hf => ?_, ?_, ?_, fun ht => ?_, ?_⟩
  · rw [← ofTarget_eq_bf16] at hf
    constructor
    · rw [exec_vcvtn, execVcvtn,
        issueSlot_of_quiet hs (quiet_vcvtn fmt rd ra noRot seed s hwf (viewCauses_eq_nil hview) (hconv hf))
          (full_of_subset hfull (by simp [regs_vcvtn])), sourceBlock_eq]
      rfl
    · rw [exec_vcvtns, execVcvtns, issueSlot_of_quiet hs (quiet_vcvtns fmt rd ra sb s (viewCauses_eq_nil hview) (hconv hf))
        (full_of_subset hfull (by simp [regs_vcvtns])), sourceBlock_eq]
      rfl
  · exact (exec_vqscaleE4m3 sd ra noRot seed s).trans
      (quantScale_completes hs (quiet_vqscaleE4m3 sd ra noRot seed s hwf (hconv (by simp))) toScalar .e4m3 sd ra noRot seed)
  · exact (exec_vqscaleE5m2 sd ra noRot seed s).trans
      (quantScale_completes hs (quiet_vqscaleE5m2 sd ra noRot seed s hwf (hconv (by simp))) toScalar .e5m2 sd ra noRot seed)
  · exact (exec_vqscaleBf16 sd ra noRot seed s).trans
      (quantScale_completes hs (quiet_vqscaleBf16 sd ra noRot seed s hwf (hconv fun h => ht h.2)) toScalar .bf16 sd ra noRot seed)
  · exact (exec_vqscaleInt8 sd ra noRot seed s).trans
      (quantScale_completes hs (quiet_vqscaleInt8 sd ra noRot seed s hwf (hconv (by simp))) toScalar .int8 sd ra noRot seed)

/-! ## Widening and side words (R150, R152, R153) -/

/-- A tag of AXIS 0 with ROTATED set is well formed and can be widened (R92, R94). -/
theorem tag_of_rotated {t : BitVec 16} (h : t.extractLsb' 12 4 = 8) : t.getLsbD 15 = true ∧ tagUnwidenable t = false := by
  have hbit (i : Nat) (hi : i < 4) : t.getLsbD (12 + i) = (8#4).getLsbD i := by
    have hb := congrArg (·.getLsbD i) h
    simpa [hi] using hb
  have h15 : t.getLsbD 15 = true := hbit 3 (by decide)
  have h14 : t.getLsbD 14 = false := hbit 2 (by decide)
  have hlow : t.extractLsb' 12 2 = 0 := by
    apply BitVec.eq_of_getLsbD_eq
    intro i hi
    rw [BitVec.getLsbD_extractLsb', hbit i (by omega)]
    obtain rfl | rfl : i = 0 ∨ i = 1 := by omega
    · rfl
    · rfl
  refine ⟨h15, ?_⟩
  rw [tagUnwidenable, tagMalformed, h15, h14, hlow]
  rfl

/-- A side word put together from the fields of a word (R15, R153). -/
theorem sideWord_fields (b : SReg) : sideWord (b.extractLsb' 48 4).toNat (b.extractLsb' 32 16) (b.extractLsb' 0 32)
    = (1 : BitVec 1) ++ (0 : BitVec 11) ++ b.extractLsb' 48 4 ++ b.extractLsb' 0 48 := by
  have hlow : b.extractLsb' 32 16 ++ b.extractLsb' 0 32 = b.extractLsb' 0 48 :=
    BitVec.extractLsb'_append_extractLsb'_eq_extractLsb' rfl
  have hhigh : (1 : BitVec 1) ++ (0 : BitVec 7) ++ (0 : BitVec 4) = (1 : BitVec 1) ++ (0 : BitVec 11) := rfl
  rw [sideWord, BitVec.ofNat_toNat, BitVec.setWidth_eq, hhigh, BitVec.append_assoc, hlow]
  rfl

section
variable {s : State} {rd ra : BitVec 7} (hs : s.mayIssue) (hfull : s.full [.v ra.toNat, .v rd.toNat])
  (hview : s.oneView [rd.toNat, ra.toNat])
include hs hfull hview

/-- `VCVTW` of a narrow block whose tag can be widened and whose seed, if it needs one, is loaded (R94, R150). -/
theorem exec_vcvtw_eq {f : Fmt} (hvalid : sideValid (s.cur.side ra.toNat) = true)
    (hf : narrowFormat (sideFmt (s.cur.side ra.toNat)) = some f) {tag : BitVec 16} (htag : sideTag (s.cur.side ra.toNat) = tag)
    (hwiden : tagUnwidenable tag = false) {rotated : Bool} (hrot : tag.getLsbD 15 = rotated)
    (hseed : rotated = true → (s.cur.seedFor (tag.extractLsb' 0 12)).isSome = true) :
    exec (.vcvtw rd ra) s = .next (s.land 12 (.vrow rd.toNat (rowSelect 32 128 s.bundleMask)
      (rowOf 32 (widenBlock f (unpack f.width 128 (s.cur.v ra.toNat).toNat) (sideScale (s.cur.side ra.toNat)) rotated
        ((s.cur.seedFor (tag.extractLsb' 0 12)).getD ⟨0, 0⟩).value 0)) 0)) := by
  subst htag hrot
  have hconv : convertCauses (.vcvtw rd ra) s = [] := by
    simp only [convertCauses, hvalid, hf, hwiden]
    simpa [Option.isSome_iff_ne_none] using hseed
  rw [exec_vcvtw, execVcvtw, issueSlot_of_quiet hs (quiet_vcvtw rd ra s (viewCauses_eq_nil hview) hconv) hfull]
  simp only [hf, Option.getD_some]

/-- `VCVTW` of a register that is no narrow block (R150). -/
theorem exec_vcvtw_trap (hvalid : sideValid (s.cur.side ra.toNat) = false) :
    exec (.vcvtw rd ra) s = .next (s.takeIssueTrap 0x0E s.ctx.pos 0) := by
  have hconv : convertCauses (.vcvtw rd ra) s = [0x0E] := by
    simp only [convertCauses, hvalid]
    rfl
  have ht : slotTrap (.vcvtw rd ra) s = some 0x0E :=
    slotTrap_of_causes (causes := [0x0E]) (regs_vcvtw rd ra) hfull rfl rfl nofun rfl rfl
      (by rw [viewCauses_eq_nil hview, hconv]; rfl) rfl
  obtain ⟨⟨hf, hunchecked⟩, -⟩ := hs
  rw [exec_vcvtw, execVcvtw, issueSlot_trap hf hunchecked ht]
  rfl

end

/-- `VSIDEW`: the fields of the scalar where its VALID is set, and otherwise zero (R153). -/
theorem exec_vsidew_eq {s : State} (hs : s.mayIssue) {rd : BitVec 7} {sb : BitVec 6} (hfull : s.full [.s sb.toNat, .v rd.toNat])
    {b : SReg} (hb : s.cur.s sb.toNat = b) :
    exec (.vsidew rd sb) s = .next (s.land 4 (.side rd.toNat
      (if b.getLsbD 63 then (1 : BitVec 1) ++ (0 : BitVec 11) ++ b.extractLsb' 48 4 ++ b.extractLsb' 0 48 else 0))) := by
  subst hb
  rw [exec_vsidew, execVsidew, issueSlot_of_quiet hs (quiet_vsidew rd sb s) hfull, ← sideWord_fields]
  rfl

/-- Settles O23: widening by the three kinds of side word, and slots that raise nothing. -/
theorem wideningAndSides : Obligations.WideningAndSides := by
  unfold Obligations.WideningAndSides
  intro s rd ra sd sb uns f hs hfull hview side tag n t w mode b
  have oneSource : s.full [.v ra.toNat, .v rd.toNat] := full_of_subset hfull (by simp)
  refine ⟨fun hvalid hf htag => ?_, fun seed hvalid hf htag hseed => ?_, fun hvalid => ?_, ?_, ?_, ?_, fun hb => ?_, fun hb => ?_⟩
  · exact exec_vcvtw_eq hs oneSource hview hvalid hf htag rfl rfl nofun
  · obtain ⟨hrot, hwiden⟩ := tag_of_rotated htag
    rw [exec_vcvtw_eq hs oneSource hview hvalid hf (tag := tag) rfl hwiden hrot (fun _ => by rw [hseed]; rfl), hseed]
    rfl
  · exact exec_vcvtw_trap hs oneSource hview hvalid
  · rw [exec_vcvti, execVcvti, issueSlot_of_quiet hs (quiet_vcvti rd ra uns s (viewCauses_eq_nil hview)) oneSource]
    rfl
  · rw [exec_vcvtf, execVcvtf, issueSlot_of_quiet hs (quiet_vcvtf rd ra uns s (viewCauses_eq_nil hview)) oneSource]
    rfl
  · rw [exec_vside, execVside, issueSlot_of_quiet hs (quiet_vside sd ra s) (full_of_subset hfull (by simp [regs_vside]))]
  · rw [exec_vsidew_eq hs (full_of_subset hfull (by simp)) (b := b) rfl, if_pos hb]
  · rw [exec_vsidew_eq hs (full_of_subset hfull (by simp)) (b := b) rfl, if_neg (fun h => Bool.false_ne_true (hb.symm.trans h))]

/-! ## Transposer tiles (R154 to R157) -/

/-- A column carded under the mask (R157). -/
theorem columnNarrow_completes {s : State} {i : Instr} (hs : s.mayIssue) (q : Quiet i s) (hfull : s.full (regsOf i)) (f : Fmt)
    (rd : BitVec 7) (tile : BitVec 1) (sa : BitVec 6) (noRot : BitVec 1) (seed : BitVec 4) :
    columnNarrow i f rd tile sa noRot seed s =
    let t : Fmt := if mcfgAcc (s.cur.mcfgOf rd.toNat) = 7 then .int32 else .fp32
    let cell (i : Nat) : Nat := lane 32 ((s.sa sa).toNat % 128) (tget 0 (128 * tile.toNat + i) s.cur.tiles).toNat
    let x : List FVal := (List.range 128).map fun i => if s.bundleMask.getLsbD i then t.decode (cell i) else .fin false 0 0
    .next (s.landBlock 6 rd.toNat (cardBlock x f s.mode s.ctx.sat (s.cur.seed seed.toNat) 0 (noRot = 1) none)) := by
  rw [columnNarrow, issueSlot_of_quiet hs q hfull]
  simp only [tileColumn, List.map_map, maskElems_map_range, Function.comp_apply]

/-- Settles O24: each slot completes; a cell is a lane of its row. -/
theorem transposerResults : Obligations.TransposerResults := by
  unfold Obligations.TransposerResults
  intro s tile noRot rd ra sa sb seed hs hfull hrot
  have hwf := cardingOk_iff.mpr hrot
  have column : s.full [.s sa.toNat, .v rd.toNat] := full_of_subset hfull (by simp)
  refine ⟨?_, ?_, ?_, ?_, ?_, ?_, ?_⟩
  · rw [exec_ttwr, execTtwr, issueSlot_of_quiet hs (quiet_ttwr tile ra sb s) (full_of_subset hfull (by simp [regs_ttwr]))]
    rfl
  · rw [exec_ttclr, execTtclr, issueSlot_of_quiet hs (quiet_ttclr tile s) nofun]
  · rw [exec_ttrdc, execTtrdc, issueSlot_of_quiet hs (quiet_ttrdc rd tile sa s) column]
    rfl
  · exact (exec_ttrdcE4m3 rd tile sa noRot seed s).trans
      (columnNarrow_completes hs (quiet_ttrdcE4m3 rd tile sa noRot seed s hwf) column .e4m3 rd tile sa noRot seed)
  · exact (exec_ttrdcE5m2 rd tile sa noRot seed s).trans
      (columnNarrow_completes hs (quiet_ttrdcE5m2 rd tile sa noRot seed s hwf) column .e5m2 rd tile sa noRot seed)
  · exact (exec_ttrdcBf16 rd tile sa noRot seed s).trans
      (columnNarrow_completes hs (quiet_ttrdcBf16 rd tile sa noRot seed s hwf) column .bf16 rd tile sa noRot seed)
  · exact (exec_ttrdcInt8 rd tile sa noRot seed s).trans
      (columnNarrow_completes hs (quiet_ttrdcInt8 rd tile sa noRot seed s hwf) column .int8 rd tile sa noRot seed)

/-! ## Pushes (R158) -/

/-- The push into the A or the B FIFO of an engine. -/
def pushSlot (isB : Bool) (fifo : BitVec 1) (ra : BitVec 7) : Instr := if isB then .fpushb fifo ra else .fpusha fifo ra

theorem regs_pushSlot (isB : Bool) (fifo : BitVec 1) (ra : BitVec 7) : regsOf (pushSlot isB fifo ra) = [.v ra.toNat] := by
  cases isB <;> rfl

theorem exec_pushSlot (isB : Bool) (fifo : BitVec 1) (ra : BitVec 7) (s : State) : exec (pushSlot isB fifo ra) s =
    issueSlot (pushSlot isB fifo ra) s fun s =>
      s.land (pushEntry s fifo.toNat isB ra.toNat).1 (pushEntry s fifo.toNat isB ra.toNat).2 := by
  cases isB <;> rfl

theorem convertCauses_pushSlot (isB : Bool) (fifo : BitVec 1) (ra : BitVec 7) (s : State) :
    convertCauses (pushSlot isB fifo ra) s = if sideValid (s.cur.side ra.toNat) then []
      else if (pushFormat (s.cur.eng fifo.toNat).mcfg isB).isNone then [0x0E] else [] := by
  cases isB <;> rfl

section
variable {s : State} {isB : Bool} {fifo : BitVec 1} {ra : BitVec 7} (hs : s.mayIssue) (hfull : s.full [.v ra.toNat])
include hs hfull

/-- A push of a valid block, or under a configured format. -/
theorem exec_pushSlot_eq
    (hconv : sideValid (s.cur.side ra.toNat) = true ∨ (pushFormat (s.cur.eng fifo.toNat).mcfg isB).isNone = false) :
    exec (pushSlot isB fifo ra) s
      = .next (s.land (pushEntry s fifo.toNat isB ra.toNat).1 (pushEntry s fifo.toNat isB ra.toNat).2) := by
  have hnil : convertCauses (pushSlot isB fifo ra) s = [] := by
    rw [convertCauses_pushSlot]
    rcases hconv with h | h <;> simp [h]
  have hquiet : Quiet (pushSlot isB fifo ra) s := by
    cases isB
    case false => exact quiet_fpusha fifo ra s hnil
    case true => exact quiet_fpushb fifo ra s hnil
  rw [exec_pushSlot, issueSlot_of_quiet hs hquiet (by rwa [regs_pushSlot])]

/-- A push of wide lanes into a FIFO without a configured format (R158). -/
theorem exec_pushSlot_trap (hside : sideValid (s.cur.side ra.toNat) = false)
    (hnone : pushFormat (s.cur.eng fifo.toNat).mcfg isB = none) :
    exec (pushSlot isB fifo ra) s = .next (s.takeIssueTrap 0x0E s.ctx.pos 0) := by
  have hconv : convertCauses (pushSlot isB fifo ra) s = [0x0E] := by
    rw [convertCauses_pushSlot, hside, hnone]
    rfl
  have ht : slotTrap (pushSlot isB fifo ra) s = some 0x0E := by
    cases isB <;> exact slotTrap_of_causes (causes := [0x0E]) rfl hfull rfl rfl nofun rfl rfl (by rw [hconv]; rfl) rfl
  obtain ⟨⟨hf, hunchecked⟩, -⟩ := hs
  rw [exec_pushSlot, issueSlot_trap hf hunchecked ht]
  cases isB <;> rfl

end

section
variable {s : State} {isB : Bool} {e r : Nat}

/-- The entry of a valid block: its elements where the mask is 1, ready after 2 clk. -/
theorem pushEntry_of_valid (hside : sideValid (s.cur.side r) = true) : pushEntry s e isB r =
    (2, .push e isB (sideFmt (s.cur.side r))
      ((s.cur.v r).setWidth 2048 &&& elemSelect (8 * codeBytes (sideFmt (s.cur.side r))) s.bundleMask)
      (sideScale (s.cur.side r)) (sideTag (s.cur.side r)) (s.bundleMask.setWidth 128)) := by
  rw [pushEntry, if_pos hside]

variable (hside : sideValid (s.cur.side r) = false)
include hside

/-- The entry of BF16 lanes for a BF16 operand: the lanes as they are, ready after 2 clk. -/
theorem pushEntry_of_bf16 (hf : pushFormat (s.cur.eng e).mcfg isB = some .bf16) (ht : sourceType (s.cur.mcfgOf r) = .bf16) :
    pushEntry s e isB r = (2, .push e isB 4 ((s.cur.v r).setWidth 2048 &&& elemSelect 16 s.bundleMask) 0x3F800000 0
      (s.bundleMask.setWidth 128)) := by
  rw [pushEntry, if_neg (by rw [hside]; exact Bool.false_ne_true), if_pos (by rw [hf]; exact ⟨rfl, ht⟩)]

/-- The entry of any other wide lanes: carded under the operand fields of MCFG, ready after 14 clk. -/
theorem pushEntry_of_wide {f : Fmt} (hf : pushFormat (s.cur.eng e).mcfg isB = some f)
    (hwide : ¬ (f = .bf16 ∧ sourceType (s.cur.mcfgOf r) = .bf16)) : pushEntry s e isB r =
    let mcfg := (s.cur.eng e).mcfg
    let b := cardBlock (sourceBlock s r) f s.mode s.ctx.sat (s.cur.seed (mcfg.extractLsb' (if isB then 24 else 20) 4).toNat) 0
      (mcfg.getLsbD (if isB then 19 else 18)) none
    (14, .push e isB f.code (b.row.setWidth 2048) b.scale b.tag (s.bundleMask.setWidth 128)) := by
  rw [pushEntry, if_neg (by rw [hside]; exact Bool.false_ne_true), if_neg (by rw [hf]; exact hwide), hf]
  rfl

end

/-- Settles O25: the side word and the configured format choose one of three entries, or the trap. -/
theorem fifoPushes : Obligations.FifoPushes := by
  unfold Obligations.FifoPushes
  intro s fifo ra hs hfull side row mask mcfg seed acc t x pushed isB
  refine ⟨fun hside => ?_, fun f hside hf hwide => ?_, fun hside hf ht => ?_, fun hside hnone => ?_⟩
  · refine (exec_pushSlot_eq hs hfull (.inl hside)).trans ?_
    rw [pushEntry_of_valid hside]
    rfl
  · refine (exec_pushSlot_eq hs hfull (.inr (by rw [hf]; rfl))).trans ?_
    rw [pushEntry_of_wide hside hf hwide, sourceBlock_eq]
    rfl
  · refine (exec_pushSlot_eq hs hfull (.inr (by rw [hf]; rfl))).trans ?_
    rw [pushEntry_of_bf16 hside hf ht]
  · exact exec_pushSlot_trap hs hfull hside hnone

end Sys2Proof.Machine
